-- ==== Sys2Proof/Word.lean ====
section
/-! DEFINITION. The word types of the block: control-space words, counters, bytes and instruction images (R5, R6). -/

namespace Sys2Proof

/-- One byte of any memory (R5). -/
abbrev Byte := BitVec 8

/-- A 32-bit control-space word, and a 32-bit element or accumulator value (R6). -/
abbrev Word := BitVec 32

/-- A 64-bit counter, address or register value (R8). -/
abbrev DWord := BitVec 64

/-- A 16-bit reason code (R9). -/
abbrev Code := BitVec 16

/-- A 32-byte sequencer instruction, bit 0 the least significant bit of byte 0 (R141). -/
abbrev InstrWord := BitVec 256

end Sys2Proof
end

