-- ==== Sys2Proof/Types.lean ====
section
/-! DEFINITION. The names that commands and state share. -/

namespace Sys2Proof

/-- The agents that read and write control space (R8): the two control processors, the debug port and the attach port. -/
inductive Agent where
  | dispatcher | keeper | debug | host
  deriving DecidableEq, Repr

/-- The number of an agent's holding register. -/
def Agent.index : Agent → Nat
  | .dispatcher => 0
  | .keeper => 1
  | .debug => 2
  | .host => 3

end Sys2Proof
end

