-- ==== Sys2Proof/Syntax.lean ====
section
/-! DEFINITION. The commands of the block: one constructor for each row of spec/opcode_table.json, in the table's order but for its last row. A row that is a
control-space access carries the agent that makes it and the value; a row of a core's sequencer carries the core and the 32-byte
instruction; a row that is an event of a pin, a port or the clock carries what comes with the event. -/

namespace Sys2Proof

/-- A command of the block. -/
inductive Instr where
  /-- A control-space write to a register that has no row of its own sets RW fields, clears W1C bits and sets W1S bits, subject to
  refusal codes. (R6) -/
  | registerWrite (agent : Agent) (offset : Nat) (value : Word) (hwSet : Word)
  /-- A read of a 64-bit counter's low word captures the high word into the reading agent's holding register. (R8) -/
  | counterLowWordRead (agent : Agent) (offset : Nat)
  /-- A read of TM_NOW low word captures the high word and the phase into TM_NOW_PHASE in the same cycle. (R25) -/
  | tmNowRead (agent : Agent)
  /-- The time unit's cycle count ends a beat and begins phase 0 of the next, with phase 255 lasting 1 + S + t cycles. (R24) -/
  | beatBoundary
  /-- While ACLK is stopped the plinth advances fabric time by 44 root ticks per REFCLK cycle and one beat per 1,024 ticks. (R24) -/
  | plinthBeatCount (cycles : Nat)
  /-- A start of frame on the source port or a TREF edge is timestamped at quarter-cycle resolution and its error averaged. (R29) -/
  | beatMark (port : Nat) (tick : Nat) (frameBeat : Nat)
  /-- A rising TREF edge marks the boundary of every beat that is a multiple of 2^TREF_LOG2. (R28) -/
  | trefEdge (tick : Nat)
  /-- Four beats without a primary mark switch to the backup source, or to HOLDOVER when none is usable, or the deputy to MASTER. (R31) -/
  | sourceMarkTimeout
  /-- After 1,024 beats in HOLDOVER the time unit raises TIM_SOURCE_LOST. (R33) -/
  | holdoverExpiry
  /-- Setting TM_CTRL.ENABLE runs the ENABLE checks and moves the time unit from FREE to MASTER or ACQUIRE. (R36) -/
  | tmEnable (agent : Agent) (value : Word)
  /-- A write that only clears TM_CTRL.ENABLE returns the time unit to FREE. (R36) -/
  | tmDisable (agent : Agent)
  /-- In manual mode a STEP_LONG write makes the next beat that MINGAP permits 257 cycles long. (R37) -/
  | trimStepLong (agent : Agent) (value : Word)
  /-- In manual mode a STEP_SHORT write makes the next beat that MINGAP permits 255 cycles long. (R37) -/
  | trimStepShort (agent : Agent) (value : Word)
  /-- A write of TM_PRK_SHADOW sets the image base, or is refused with CFG_CONFLICT while ARM reads 1. (R55) -/
  | prkShadowWrite (agent : Agent) (value : Word)
  /-- Setting TM_EPOCH_CTRL.ARM runs the ARM checks on the shadow image and arms it for its START_BEAT. (R55) -/
  | epochArm (agent : Agent) (unreadable : Bool)
  /-- Setting TM_EPOCH_CTRL.DISARM clears ARM, or is refused once beat E′ − 1,025 has passed. (R55) -/
  | epochDisarm (agent : Agent)
  /-- At the first cycle of E′ the armed image becomes active, the epoch advances, time-unit roles and tables change and the first step
  starts. (R56) -/
  | epochSwitchover
  /-- An instruction not issued within its slack raises TIM_LATE_ISSUE and aborts the step. (R53) -/
  | slackExpiry (core : Nat)
  /-- At the end of a fault-free run the block flips regions, marks contexts DONE, re-bases sync objects and records checkpoints in one
  cycle. (R343) -/
  | stepCommit
  /-- When the aborted run's passes have ended, each drain unit reads and discards every SEALED line. (R345) -/
  | abortFlush (core : Nat)
  /-- The block becomes ready for replay within T_ready cycles of the abort and sets FT_STATUS.READY. (R348) -/
  | replayReady
  /-- The replay run starts at the agreed beat f′ with the attempt number raised by one. (R350) -/
  | replayRunStart
  /-- At the end of an abandoned step a commit without swaps gives its contexts the failure code and skips to the next NEWSTEP SEG.
  (R356) -/
  | nullCommit
  /-- When the faulty core's passes have ended, the fault unit copies its matrix memory and settings to the spare core and holds it in
  reset. (R359) -/
  | spareSubstitution
  /-- Setting FT_SPARE.REQUEST asks for substitution of a logical core at the next abort. (R358) -/
  | spareRequest (agent : Agent) (value : Word)
  /-- Setting FT_CTRL.ENABLE runs the fault unit's dependency check. (R364) -/
  | faultUnitEnable (agent : Agent) (value : Word)
  /-- A write of FT_LOG_POP removes the oldest fault-log entry. (R363) -/
  | faultLogPop (agent : Agent)
  /-- A write of FT_LOSTn marks streams whose receive and FORWARD entries are treated as EMPTY from the next run start. (R360) -/
  | lostStreamsWrite (agent : Agent) (n : Nat) (value : Word)
  /-- A direct PASS instruction is checked and queued to the array with its mode, formats, tile and masks. (R63) -/
  | pass (core : Nat) (word : InstrWord)
  /-- A LOAD instruction fills the standby stationary bank one PE row per cycle. (R65) -/
  | load (core : Nat) (word : InstrWord)
  /-- A held stationary load starts once the previous load has ended and F′ + 2 is reached. (R66) -/
  | loadStart (core : Nat)
  /-- A held pass begins feeding once its load has started, its lines are free of SEALED state and the stream permits. (R73) -/
  | passFeedStart (core : Nat)
  /-- In cycle 582 + L a pass's shadow lines replace the tile's lines and line states change. (R74) -/
  | passCommit (core : Nat)
  /-- A residue or parity failure or uncorrectable feeder or load read raises DIN_PE_CHECK or DIN_UNCORRECTABLE and aborts the step.
  (R82) -/
  | arrayCheckFault (core : Nat) (kind : Nat) (row : Nat) (col : Nat)
  /-- Setting CR_ARR_CTRL.ENABLE runs the checks of Table 3-9 and starts the scrub of banks, shadow pool and lines. (R84) -/
  | arrayEnable (agent : Agent) (core : Nat) (value : Word)
  /-- The array scrub ends after ACC_TILES × ARRAY_ROWS cycles and passes may start. (R84) -/
  | arrayScrubDone (core : Nat)
  /-- Clearing CR_ARR_CTRL.ENABLE stops the array under R81 with shadow lines committed. (R84) -/
  | arrayDisable (agent : Agent) (core : Nat) (value : Word)
  /-- A write of CR_ARR_SPARE sets bypass entries and clears both VERIFIED bits, or is refused while ENABLE is 1. (R78) -/
  | arrSpareWrite (agent : Agent) (core : Nat) (value : Word)
  /-- START with OP 00b runs the integer patterns through one physical row against the checker. (R80) -/
  | treeRowTest (agent : Agent) (core : Nat) (value : Word)
  /-- START with OP 01b runs the patterns through all physical rows against the reference. (R80) -/
  | treeAllRowsTest (agent : Agent) (core : Nat) (value : Word)
  /-- START with OP 10b compares chain and tree outputs under the spare mapping and sets VERIFIED on agreement. (R80) -/
  | treeMappingVerify (agent : Agent) (core : Nat) (value : Word)
  /-- A tree-mode operation ends after 16,398 cycles, setting DONE and PASS. (R79) -/
  | treeOperationDone (core : Nat) (ok : Bool)
  /-- A DRAIN instruction reads SEALED lines, applies scales and the row function, and pushes or gathers the results. (R165) -/
  | drain (core : Nat) (word : InstrWord)
  /-- The drain unit resumes reading SEALED lines when the DR queue gains room. (R72) -/
  | drainResume (core : Nat)
  /-- A CVT instruction converts row-buffer rows to a narrow format with fresh row scales and records. (R166) -/
  | cvt (core : Nat) (word : InstrWord)
  /-- Setting CR_DRN_CTRL.ENABLE runs the row-buffer check. (R107) -/
  | drainUnitEnable (agent : Agent) (core : Nat) (value : Word)
  /-- VOPT reads an optimiser row block and writes updated weights and moments as F32 rows. (R169) -/
  | vopt (core : Nat) (word : InstrWord)
  /-- BIND copies a tensor descriptor and pushes it onto a queue end's descriptor queue. (R109) -/
  | bind (core : Nat) (word : InstrWord)
  /-- MMUL pops its descriptors, reads the MPB and run-time shapes, and starts the tile walker for C = A × B. (R113) -/
  | mmul (core : Nat) (word : InstrWord)
  /-- MMUL2 runs two chained products in row chunks with the row function and intermediate conversion between them. (R133) -/
  | mmul2 (core : Nat) (word : InstrWord)
  /-- The walker issues the next generated pass once its operands are staged and its holds release. (R118) -/
  | walkerPassIssue (core : Nat)
  /-- The walker arms a staging or output descriptor on its reserved bobbin when the next slot is free. (R190) -/
  | walkerArm (core : Nat) (which : Nat)
  /-- At the planned completion cycle the macro's SIGNAL increment is applied to its sync object. (R126) -/
  | macroSignal (core : Nat)
  /-- In each SPLIT K round a member drains raw partials to the COMBINE area and its partner adds them. (R129) -/
  | combineRound (core : Nat)
  /-- A band's rows are converted once all their elements have been gathered into the row buffer. (R130) -/
  | bandConvert (core : Nat)
  /-- Setting CR_MAC_CTRL.ENABLE runs the dependency check on array and drain unit. (R136) -/
  | macroUnitEnable (agent : Agent) (core : Nat) (value : Word)
  /-- A write of CR_SEQ_RING_TAIL publishes instructions, or is refused with CFG_SEQ_RING_FULL. (R137) -/
  | ringTailWrite (agent : Agent) (core : Nat) (value : Word)
  /-- A newly published position is copied into its bank within 32 cycles and its hold releases. (R139) -/
  | publishedCopyDone (core : Nat)
  /-- Setting CR_SEQ_BANK.REQk grants a reload of bank k if it is out of the fetch window, or refuses with CFG_SEQ_BANK_BUSY. (R140) -/
  | bankReloadRequest (agent : Agent) (core : Nat) (value : Word)
  /-- A bank load ends 154 cycles after the request and the bank becomes valid. (R140) -/
  | bankLoadDone (core : Nat) (bank : Nat)
  /-- The next instruction issues at or after eligibility once none of its holds applies. (R143) -/
  | instructionIssue (core : Nat)
  /-- NOP issues and does nothing. (R163) -/
  | nop (core : Nat) (word : InstrWord)
  /-- SEG opens a segment for a context, binds a new step with NEWSTEP, marks the context RUNNING or skips cancelled work. (R158) -/
  | seg (core : Nat) (word : InstrWord)
  /-- LOOP latches count and strides and runs its body COUNT times at one hardware loop level. (R155) -/
  | loop (core : Nat) (word : InstrWord)
  /-- SKIPC skips the next N instructions according to a comparator and SENSE. (R152) -/
  | skipc (core : Nat) (word : InstrWord)
  /-- SLI loads a 64-bit immediate into a scalar register. (R163) -/
  | sli (core : Nat) (word : InstrWord)
  /-- SALU performs a scalar arithmetic or logic operation into a scalar register. (R149) -/
  | salu (core : Nat) (word : InstrWord)
  /-- SLD loads 8 bytes of matrix memory into a scalar register three cycles after issue. (R163) -/
  | sld (core : Nat) (word : InstrWord)
  /-- SST stores a scalar register to 8 bytes of matrix memory. (R163) -/
  | sst (core : Nat) (word : InstrWord)
  /-- SQD reads a queue end's data or descriptor depth into a scalar register. (R163) -/
  | sqd (core : Nat) (word : InstrWord)
  /-- CTR SET writes a counter's value. (R150) -/
  | ctrSet (core : Nat) (word : InstrWord)
  /-- CTR ADD adds VALUE to a counter. (R150) -/
  | ctrAdd (core : Nat) (word : InstrWord)
  /-- CTR SELECT chooses the event that a counter counts. (R150) -/
  | ctrSelect (core : Nat) (word : InstrWord)
  /-- CMP configures a comparator's operand, condition, threshold and enable. (R151) -/
  | cmp (core : Nat) (word : InstrWord)
  /-- SYNC WAIT issues when the object's VALUE reaches its threshold and records the threshold in W. (R261) -/
  | syncWait (core : Nat) (word : InstrWord)
  /-- SYNC TAKE issues when VALUE covers the amount and subtracts it atomically. (R263) -/
  | syncTake (core : Nat) (word : InstrWord)
  /-- SYNC SIGNAL adds 1 to a sync object. (R261) -/
  | syncSignal (core : Nat) (word : InstrWord)
  /-- SYNC ADD adds an amount to a sync object. (R261) -/
  | syncAdd (core : Nat) (word : InstrWord)
  /-- SYNC COUCH sends a remote increment bound to a stream's received-byte mark. (R265) -/
  | syncCouch (core : Nat) (word : InstrWord)
  /-- BBARM copies and checks a bobbin descriptor and arms it in the bobbin's NEXT slot. (R177) -/
  | bbarm (core : Nat) (word : InstrWord)
  /-- BBCAN cancels the selected busy slots of a bobbin. (R181) -/
  | bbcan (core : Nat) (word : InstrWord)
  /-- VOP pops chunks from its sources, applies a vector function lane by lane and pushes the results. (R167) -/
  | vop (core : Nat) (word : InstrWord)
  /-- VLD pushes chunks read from matrix memory to a queue end. (R168) -/
  | vld (core : Nat) (word : InstrWord)
  /-- VST pops chunks and writes them to matrix memory. (R168) -/
  | vst (core : Nat) (word : InstrWord)
  /-- Setting CR_SEQ_CTRL.ENABLE runs the ring checks and sets HEAD and CHEAD to TAIL. (R170) -/
  | sequencerEnable (agent : Agent) (core : Nat) (value : Word)
  /-- Clearing CR_SEQ_CTRL.ENABLE stops issue and lets issued operations end. (R170) -/
  | sequencerDisable (agent : Agent) (core : Nat) (value : Word)
  /-- The next ARMED bobbin slot becomes ACTIVE when no slot is ACTIVE. (R178) -/
  | descriptorActivate (core : Nat) (bobbin : Nat)
  /-- The regulator gives a path place to a ready bobbin transfer within its class budget and MAXU. (R184) -/
  | bobbinTransferStart (core : Nat) (symbols : Nat)
  /-- A CLOSING descriptor ends when its reads have delivered and its writes are visible, applying its signal and event. (R178) -/
  | descriptorEnd (core : Nat) (bobbin : Nat)
  /-- A bobbin hands a prepared payload to the link port for a transmit slot, or raises RES_BOBBIN_SEND_LATE. (R186) -/
  | slotTransmitMove (core : Nat)
  /-- A received slot is delivered to the first able descriptor of its stream, or raises RES_BOBBIN_NO_SINK. (R187) -/
  | slotReceiveMove (core : Nat)
  /-- Setting BB_CTRL.ENABLE runs the walker-bobbin and pricking checks. (R200) -/
  | bobbinEnable (agent : Agent) (core : Nat) (value : Word)
  /-- Clearing BB_CTRL.ENABLE cancels every bobbin slot. (R181) -/
  | bobbinDisable (agent : Agent) (core : Nat) (value : Word)
  /-- Setting CR_MM_CTRL.ENABLE starts zeroing every line of matrix memory. (R206) -/
  | matrixMemoryEnable (agent : Agent) (core : Nat) (value : Word)
  /-- Matrix-memory zeroing ends after 4,096 cycles and accesses resume. (R206) -/
  | matrixMemoryInitDone (core : Nat)
  /-- Setting MP_BM_CTRL.ENABLE runs the split checks and starts zeroing block memory. (R209) -/
  | blockMemoryEnable (agent : Agent) (value : Word)
  /-- Block-memory zeroing ends and all cache lines are invalid. (R209) -/
  | blockMemoryInitDone
  /-- Setting MP_BM_CTRL.INVAL invalidates every cache line at one set per cycle. (R212) -/
  | cacheInvalidate (agent : Agent) (value : Word)
  /-- The cache invalidation ends and INVAL reads 0. (R212) -/
  | cacheInvalidateDone
  /-- A miss's unit arrives from its port, is delivered and is allocated unless NOALLOC is set. (R210) -/
  | cacheFill
  /-- A word corrected on read is written back in the bank's next free cycle. (R214) -/
  | correctedWriteBack
  /-- The background scrubber reads the next word in a free bank cycle and repairs or logs it. (R216) -/
  | scrubVisit (memory : Nat) (symbols : Nat)
  /-- A write of MP_ERR_POP removes the oldest error-log entry. (R217) -/
  | errorLogPop (agent : Agent)
  /-- The controller returns a read unit in a data cycle, which is SC2-checked and decrypted, or an error response. (R441) -/
  | portReadResponse (port : Nat) (tag : Nat) (err : Bool) (symbols : Nat)
  /-- A write response makes the write visible to every reader and frees its tag. (R221) -/
  | portWriteResponse (port : Nat) (tag : Nat) (err : Bool)
  /-- A commit-table word write is checked and held for the next commit, or refused with CFG_CT_ENTRY. (R226) -/
  | commitTableEntryWrite (agent : Agent) (entry : Nat) (word : Nat) (value : Word)
  /-- Setting TB_CTRL.ENABLE runs the image checks and starts loading the image. (R257) -/
  | tambourEnable (agent : Agent) (tambour : Nat) (value : Word)
  /-- At the end of loading the signature is verified and the tambour enters LOADED, or clears with CFG_TB_SIGNATURE. (R246) -/
  | tambourLoadDone (tambour : Nat)
  /-- Clearing TB_CTRL.ENABLE clears a loaded tambour, or stops a running one at the next run start. (R247) -/
  | tambourDisable (agent : Agent) (tambour : Nat) (value : Word)
  /-- Setting TB_CTRL.RELEASE requests release at the next run start. (R247) -/
  | tambourRelease (agent : Agent) (tambour : Nat)
  /-- Setting TB_CTRL.STOP requests a stop at the next run start. (R247) -/
  | tambourStop (agent : Agent) (tambour : Nat)
  /-- At FCLK cycle 48 the sequence ends: T0 popping begins, or the tambour enters LOADED or CLEARING. (R248) -/
  | tambourSequenceEnd (tambour : Nat)
  /-- Clearing of configuration and block RAM completes and the tambour enters EMPTY. (R250) -/
  | tambourClearDone (tambour : Nat)
  /-- The boundary pops a chunk from T0 and sets its output due cycle. (R238) -/
  | tambourInputPop (core : Nat)
  /-- The logic delivers an output chunk, which is held until due or raises TBR_PROTOCOL when none is owed. (R238) -/
  | tambourOutputDeliver (tambour : Nat) (lout : Bool) (tag : Nat) (kind : Nat) (data : List Byte)
  /-- At a FIXED output's due cycle the chunk is pushed to T1, or TBR_LATE is raised. (R238) -/
  | tambourOutputDue (core : Nat)
  /-- At the end of each 64-FCLK window an activity count above budget raises TBR_ACTIVITY_BUDGET and holds the tambour. (R252) -/
  | activityWindowEnd (tambour : Nat) (count : Nat)
  /-- The configuration scrubber reads the next frame and writes back a corrected one. (R253) -/
  | configScrubFrame (tambour : Nat) (outcome : Nat)
  /-- Served rows of a POOL 4 gather enter G_IN and the pooled output becomes due Λ after the bag's last row. (R242) -/
  | gatherPoolInput
  /-- A GATHER transmit payload not in the L_OUT buffer by cycle 0 of beat t − 1 raises TBR_SLOT_LATE. (R244) -/
  | gatherSlotDeadline (port : Nat) (lane : Nat) (slot : Nat)
  /-- An arriving couch request is applied if its mark is reached, else held pending, or raises SYN_COUCH_FULL. (R266) -/
  | couchArrival (obj : Nat) (amount : Nat) (mark : Nat) (stream : Nat) (hoop : Nat) (fbeat : Nat)
  /-- A debug-port write of SY_VALUE sets VALUE and SY_COMMITTED and marks the hoop's contexts DEBUGGED. (R270) -/
  | syncHandSet (agent : Agent) (obj : Nat) (value : Word)
  /-- Setting SY_CTRL.ENABLE runs the dependency check and zeroes every object, count and couch entry. (R452) -/
  | syncUnitEnable (agent : Agent) (value : Word)
  /-- Sync zeroing ends after 16,384 cycles and waiting operations proceed. (R452) -/
  | syncInitDone
  /-- The scanner visits the next enabled queue and issues a read of its tail word. (R272) -/
  | queueScanVisit
  /-- A returned tail value that changed is stored and the queue appended to the ready list. (R272) -/
  | tailReadDone (queue : Nat)
  /-- A write of SQ_READY_POP removes the oldest queue from the ready list. (R272) -/
  | readyListPop (agent : Agent)
  /-- Setting SQ_CTRL.ENABLE runs the queue checks and zeroes SQ_HEAD, SQ_DONE and SQ_TAILSEEN. (R286) -/
  | queueEnable (agent : Agent) (queue : Nat) (value : Word)
  /-- Clearing SQ_CTRL.ENABLE stops taking entries and reclaims the queue. (R283) -/
  | queueDisable (agent : Agent) (queue : Nat) (value : Word)
  /-- Setting SQ_CTRL.RESTART returns a STOPPED queue to RUN. (R274) -/
  | queueRestart (agent : Agent) (queue : Nat)
  /-- A DP_TAKE write takes a queue entry, admitting a staged context or recording a failure status, in one cycle. (R323) -/
  | dispatchTake (agent : Agent) (value : Word)
  /-- A LAUNCH entry applies its patches, activates a pending shadow buffer and admits a context for its graph. (R275) -/
  | launch (queue : Nat) (context : Nat)
  /-- A PATCH entry applies a patch list to a graph in place, into the shadow buffer, or is refused with SYN_GRAPH_BUSY. (R275) -/
  | patch (queue : Nat)
  /-- A FENCE_WAIT entry holds its queue in WAIT until the named queue's SQ_DONE reaches the value. (R277) -/
  | fenceWait (queue : Nat)
  /-- A CANCEL entry frees an ADMITTED context of its queue or reports SYN_CANCEL_LATE. (R279) -/
  | cancel (queue : Nat)
  /-- A NOP entry is taken and produces a completion record. (R273) -/
  | queueNop (queue : Nat)
  /-- For each run of a step with an armature entry's STEP_ID, the Dispatcher launches its graph or counts a skip. (R280) -/
  | armatureLaunch (entry : Nat) (context : Nat)
  /-- A write of a context's CMD requests a state transition, refused with SYN_CTX_TRANSITION when not permitted. (R284) -/
  | contextCmdWrite (agent : Agent) (context : Nat) (value : Word)
  /-- A graph-entry write is accepted, or refused with CFG_GRAPH_ENTRY while its buffers are in use. (R275) -/
  | graphEntryWrite (agent : Agent) (graph : Nat) (word : Nat) (value : Word)
  /-- An armature-entry write is accepted, or refused with CFG_ARM_ENTRY. (R280) -/
  | armatureEntryWrite (agent : Agent) (entry : Nat) (word : Nat) (value : Word)
  /-- A frame whose start falls in the receive window is realigned and its slots checked and presented in the next beat. (R294) -/
  | frameReceive (port : Nat) (lane : Nat) (tick : Nat) (header : List Byte) (slots : List (List Byte)) (faults : List Nat)
  /-- A frame outside the receive window is not received and its scheduled slots raise FAB_SLOT_MISS. (R38) -/
  | frameMiss (port : Nat) (lane : Nat)
  /-- A received couch entry is delivered to the couch unit or forwarded on its route with TTL decremented. (R297) -/
  | couchEntryReceive (port : Nat) (entry : List Byte)
  /-- A slot-19 fragment is routed, flooded or reassembled by SRC and MSGID at its destination. (R300) -/
  | fragmentReceive (port : Nat) (fragment : List Byte)
  /-- A message still incomplete 4,096 beats after it was first held is dropped. (R300) -/
  | reassemblyTimeout
  /-- An EPOCH message is delivered to the Keeper to confirm the next epoch's image. (R299) -/
  | epochNotice
  /-- Every 16 beats with DISCOVER set the block sends HELLO on every STANDBY or SCHEDULED port. (R308) -/
  | helloSend
  /-- A neighbour record is cleared after 64 beats without a HELLO. (R308) -/
  | neighbourExpiry (port : Nat)
  /-- The election result becomes STABLE after 1,024 unchanged beats. (R309) -/
  | electionStable
  /-- Setting LK_Pp_CTRL.ENABLE runs the dependency check and starts training. (R316) -/
  | linkPortEnable (agent : Agent) (port : Nat) (value : Word)
  /-- Clearing LK_Pp_CTRL.ENABLE moves the port to OFF. (R303) -/
  | linkPortDisable (agent : Agent) (port : Nat) (value : Word)
  /-- After 256 beats of measurement the port writes its delay and enters STANDBY, or returns to TRAIN. (R304) -/
  | measureEnd (port : Nat)
  /-- Four beats without a valid header on any lane return the port to TRAIN and raise FAB_LINK_DOWN. (R303) -/
  | linkDownTimeout (port : Nat)
  /-- A lane missing headers for two windows or failing four slots raises FAB_LANE_FAILED and starts a switch-over. (R305) -/
  | laneFailure (port : Nat) (lane : Nat)
  /-- From beat E_s the logical lanes move off the failed physical lane. (R306) -/
  | laneSwitchEffective (port : Nat)
  /-- A write of LK_GRT or LK_MRT sets a route from the next run start, or is refused with CFG_LK_ROUTE. (R302) -/
  | routeTableWrite (agent : Agent) (index : Nat) (value : Word)
  /-- A write of LK_ADDR is accepted only while no pricking is active, else refused with CFG_LK_ADDR. (R310) -/
  | fabricAddressWrite (agent : Agent) (value : Word)
  /-- A write that sets LK_CLIENTc.ENABLE binds a stream and port to a queue, or is refused with CFG_LK_CLIENT. (R313) -/
  | clientBindingWrite (agent : Agent) (client : Nat) (value : Word)
  /-- Setting LK_Pp_CTRL.UCIE binds a capable port to a UCIe adapter, or is refused with CFG_LK_UCIE. (R312) -/
  | ucieBind (agent : Agent) (port : Nat) (value : Word)
  /-- A client completion poll is answered with SQ_DONE and completion records, or dropped. (R314) -/
  | cpoll (port : Nat) (source : Nat) (queue : Nat) (count : Nat) (index : Nat)
  /-- After PORZ rises and the fuses are sensed, the boot ROM starts on REFCLK. (R392) -/
  | bootStart (sfdp : Bool) (directory : List Byte)
  /-- The boot ROM or Keeper reads, verifies and locks a firmware image, trying copy B or ending in FAILED. (R320) -/
  | bootImageLoad (role : Nat) (copyA : List Byte) (copyB : List Byte)
  /-- Setting DP_CTRL.D_ENABLE checks for a verified locked image and starts the Dispatcher. (R338) -/
  | dispatcherEnable (agent : Agent) (value : Word)
  /-- Setting DP_CTRL.D_RESTART restarts the Dispatcher. (R325) -/
  | dispatcherRestart (agent : Agent)
  /-- Setting DP_CTRL.K_RESTART restarts the Keeper. (R325) -/
  | keeperRestart (agent : Agent)
  /-- An uncorrectable word in a processor's own memories restarts it. (R325) -/
  | processorMemoryUncorrectable (keeper : Bool)
  /-- A write of DP_KICK restarts the writing processor's watchdog period. (R328) -/
  | kick (agent : Agent) (value : Word)
  /-- A watchdog period without a kick, or a take stall, raises FWR_PROGRESS_STALL and restarts the processor. (R328) -/
  | watchdogExpiry (keeper : Bool)
  /-- A write of DP_COVERn records the core's cover and re-admits a CLEAN core, or records CFG_FT_UNCLEAN. (R362) -/
  | coverWrite (agent : Agent) (core : Nat) (value : DWord)
  /-- Setting MB_n_CTRL.ENABLE runs the mailbox check. (R338) -/
  | mailboxEnable (agent : Agent) (mailbox : Nat) (value : Word)
  /-- A mailbox request of TYPE 0001h is served by the Keeper as a dictionary read. (R330) -/
  | mailboxDictRead (mailbox : Nat)
  /-- A mailbox request of TYPE 0002h is served by the Keeper as a dictionary write. (R330) -/
  | mailboxDictWrite (mailbox : Nat)
  /-- A mailbox request of TYPE 0003h reclaims the hoop's completion area. (R283) -/
  | completionAreaReclaim (mailbox : Nat)
  /-- A mailbox request of TYPE 0101h asks the Dispatcher to restart a STOPPED queue. (R274) -/
  | mailboxQueueRestart (mailbox : Nat)
  /-- A mailbox request of TYPE 0102h returns a queue's SQ_HEAD, SQ_DONE and state. (R330) -/
  | mailboxQueueStatus (mailbox : Nat)
  /-- A CP WANT message reports a block's wanted stretch to the time master's Keeper. (R399) -/
  | want (source : Nat) (amount : Nat)
  /-- A CP LOST_SUSPECT message reports a neighbour suspected lost to the time master's Keeper. (R335) -/
  | lostSuspect (source : Nat) (addr : Nat)
  /-- A flooded CP LOST message makes each Keeper mark the lost block's streams in FT_LOSTn. (R335) -/
  | lost (addr : Nat)
  /-- After a continued launch's commit the Dispatcher copies the overflow list and admits a continuation context. (R334) -/
  | continuationAdmit (context : Nat)
  /-- Setting HP_CTRL.VALID runs the range checks and opens the hoop, held under R366. (R387) -/
  | hoopOpen (agent : Agent) (hoop : Nat) (value : Word)
  /-- Clearing HP_CTRL.VALID closes the hoop and clears its windows, key and ranges, or is refused with CFG_HP_BUSY. (R373) -/
  | hoopClose (agent : Agent) (hoop : Nat) (value : Word)
  /-- A write of HP_CORES, HP_SYNC or HP_QUEUE of a valid hoop is checked and held, or refused with CFG_HP_RANGE. (R369) -/
  | hoopRangeWrite (agent : Agent) (hoop : Nat) (which : Nat) (value : Word)
  /-- A write of HP_WIN_APPLY checks the staged window and applies or invalidates it under R366. (R368) -/
  | windowApply (agent : Agent)
  /-- HP_KEYCMD INSTALL unwraps a key blob and holds the new key and TPUB, or raises SEC_KEY_INVALID. (R371) -/
  | keyInstall (agent : Agent) (hoop : Nat)
  /-- HP_KEYCMD ERASE clears a hoop's key and TPUB under R366. (R372) -/
  | keyErase (agent : Agent) (hoop : Nat)
  /-- The background invalidation of stale key-generation cache lines ends. (R372) -/
  | keySweepDone (hoop : Nat)
  /-- A write of SC_CMDGO verifies a lifecycle command, performs its erasures and burns the next state. (R376) -/
  | lifecycleCommand (agent : Agent)
  /-- A permit shifted through DBG_PERMIT starts verification at Update-DR. (R379) -/
  | dbgPermit (permit : List Byte)
  /-- At the end of verification the permit replaces the debug level or is refused with SEC_PERMIT_INVALID. (R379) -/
  | permitVerified
  /-- At the first beat above NOT_AFTER the debug level returns to D0 and any debug halt is released. (R381) -/
  | debugLevelExpiry
  /-- Setting DG_HALT.HALT stops issue on the permitted hoop's cores as a debug halt. (R382) -/
  | debugHalt (agent : Agent)
  /-- Setting DG_HALT.RESUME releases a debug halt. (R382) -/
  | debugResume (agent : Agent)
  /-- A DBG_ACCESS shift performs a control-space read or write under the debug level's rules. (R385) -/
  | dbgAccess (write : Bool) (offset : Nat) (value : Word)
  /-- An access of DG_APER_DATA reads or writes memory through the selected hoop's windows. (R367) -/
  | debugApertureAccess (write : Bool) (value : Word)
  /-- The TAP DBG_NONCE instruction returns SC_NONCE. (R379) -/
  | dbgNonce
  /-- The TAP IDCODE instruction returns the device identification code. (R384) -/
  | idcode
  /-- The TAP BYPASS instruction selects the one-bit bypass register. (R384) -/
  | bypass
  /-- The TAP SAMPLE/PRELOAD instruction samples or preloads the boundary-scan register. (R384) -/
  | samplePreload (pins : Nat) (preload : Nat)
  /-- The TAP EXTEST instruction drives the boundary-scan outputs. (R384) -/
  | extest (pins : Nat)
  /-- The TAP BOOT_STATUS instruction returns PL_BOOT. (R384) -/
  | bootStatus
  /-- The TAP DBG_LEVEL instruction returns SC_DEBUG. (R384) -/
  | dbgLevel
  /-- A host request at the attach target reaches far memory through HP_ATTACH's hoop or permitted control space, or gets ERR. (R449) -/
  | attachTargetRequest (write : Bool) (addr : Nat) (data : List Byte)
  /-- A host bridge response completes a processor access, an ERR giving an access fault. (R450) -/
  | attachInitiatorResponse (keeper : Bool) (err : Bool) (data : List Byte)
  /-- Setting CK_PLL.START starts the root PLL, or is refused with CFG_CK_SWITCH. (R388) -/
  | pllStart (agent : Agent)
  /-- Clearing CK_PLL.START stops the PLL and clears LOCKED, or is refused with CFG_CK_SWITCH. (R388) -/
  | pllStop (agent : Agent)
  /-- LOCKED reads 1 from the 16,384th REFCLK cycle after START. (R388) -/
  | pllLocked
  /-- A write of CK_DOM.ACLK_RUN starts or stops ACLK at alignment marks. (R390) -/
  | aclkSwitch (agent : Agent) (run : Bool)
  /-- A write of CK_DOM.PCLK_ROOT moves PCLK between REFCLK and root/4. (R390) -/
  | pclkSwitch (agent : Agent) (root : Bool)
  /-- A write of CK_DOM.MCLK_ROOT moves MCLK between REFCLK/4 and root/176. (R390) -/
  | mclkSwitch (agent : Agent) (root : Bool)
  /-- A switching domain begins its first cycle on the new source at the alignment mark after its stop period. (R390) -/
  | domainSwitchDone (domain : Nat)
  /-- A write of CK_MON drives CLKMON low and starts the new source and divisor at the following mark. (R391) -/
  | clockMonitorWrite (agent : Agent) (value : Word)
  /-- PORZ low resets the whole block, and its rise starts fuse sensing and boot. (R392) -/
  | porz (level : Bool)
  /-- WARMZ low performs the ramp-down and a warm reset of every domain except the plinth. (R393) -/
  | warmz (level : Bool)
  /-- Setting CK_RST.WARM performs the ramp-down and then a warm reset. (R393) -/
  | warmResetRequest (agent : Agent)
  /-- Setting CK_RST.CORE bit n resets physical core n as a stop with shadow lines discarded. (R394) -/
  | coreReset (agent : Agent) (value : Word)
  /-- Setting a CK_RSTTB bit moves the tambour to CLEARING at once. (R394) -/
  | tambourReset (agent : Agent) (value : Word)
  /-- A power-good input falling outside SLEEP raises PWR_RAIL_FAULT and performs a warm reset without a ramp. (R393) -/
  | railFault (rail : Nat)
  /-- PW_REQ RUN from PARK opens the core gates and ramps current up. (R395) -/
  | powerRequestRun (agent : Agent)
  /-- PW_REQ PARK ramps current down and closes the core gates, or is refused with CFG_PW_STATE. (R395) -/
  | powerRequestPark (agent : Agent)
  /-- PW_REQ SLEEP ramps down, stops clocks and drops the core rail, or is refused with CFG_PW_STATE. (R395) -/
  | powerRequestSleep (agent : Agent)
  /-- When the ramp's last step is made the power state changes. (R395) -/
  | rampEnd
  /-- A PL_WAKEn comparator fires in SLEEP when the plinth's beat count reaches BEAT. (R397) -/
  | wakeBeat (index : Nat)
  /-- A PL_FRAMEm comparator fires in SLEEP on a matching management frame. (R397) -/
  | wakeFrameMatch (index : Nat) (frame : List Byte)
  /-- The thermal comparator fires in SLEEP when a sensor reads at or above PL_THERM.WAKE. (R397) -/
  | wakeThermal
  /-- In each plinth cycle that begins a beat the plinth samples all thermal inputs. (R447) -/
  | thermalSample (sensors : List Nat)
  /-- Setting PW_CTRL.ENABLE runs the ramp and clock checks. (R406) -/
  | governorEnable (agent : Agent) (value : Word)
  /-- A limit write within its ceiling takes effect at the next beat boundary, else is refused with CFG_RANGE. (R19) -/
  | limitWrite (agent : Agent) (limit : Nat) (value : Word)
  /-- A complete rail sample arrives and the governor checks the limits and the energy unit computes rail energy. (R445) -/
  | telemetrySample (volts : List Nat) (amps : List Nat)
  /-- A sample missing by beat 16 of the next period is estimated, and two in a row raise PWR_TELEMETRY_LOST. (R409) -/
  | telemetryDeadline
  /-- In the first beat after a period's sample arrives or goes missing, its energy is split among contexts and accounts. (R414) -/
  | apportionment
  /-- Setting EN_CTRL.ENABLE runs the rail checks and zeroes accumulators, accounts and remainders. (R424) -/
  | energyUnitEnable (agent : Agent) (value : Word)
  /-- A write of EN_CALe or EN_CAL_ID is held until the next switch-over and ignored in SEALED. (R415) -/
  | calibrationWrite (agent : Agent) (index : Nat) (value : Word)
  /-- Setting EN_SIGN.GO starts building and signing a context or BLOCK record, or is refused with CFG_EN_SIGN. (R418) -/
  | samplerSign (agent : Agent) (value : Word)
  /-- The signed record is written to EN_SIGNBUF, chained, added to the hoop's account and DONE set. (R418) -/
  | samplerSignDone
  /-- Setting MG_SNAPCTRL.GO arms a capture of the listed control-space words at the next beat. (R429) -/
  | snapshotGo (agent : Agent) (value : Word)
  /-- In the first cycle of the next beat the unit samples the listed words and writes them to MG_SNAPBUF. (R429) -/
  | snapshotCapture
  /-- A management frame of the right EtherType and address is accepted, others discarded and counted. (R431) -/
  | mgmtFrameReceive (frame : List Byte)
  /-- An OPEN message starts a session and is answered with a signed ACCEPT or a REJECT. (R432) -/
  | mgmtOpen (msg : List Byte)
  /-- A CONFIRM message proves the principal and both ends derive the session keys. (R432) -/
  | mgmtConfirm (msg : List Byte)
  /-- A READ request is served from one snapshot capture and answered with a RESPONSE. (R430) -/
  | requestRead (msg : List Byte)
  /-- A WRITE request checks every item and then writes them in order until the first refusal. (R434) -/
  | requestWrite (msg : List Byte)
  /-- A REQUEST repeating the last SEQ is answered with the stored RESPONSE without re-execution. (R433) -/
  | requestRepeat (msg : List Byte)
  /-- A CLOSE message ends the session and discards its keys. (R433) -/
  | mgmtClose (msg : List Byte)
  /-- A Dispatcher or Keeper load or store through a far aperture is checked against the aperture hoop's windows and reaches scratch,
  port memory or a region alias. (R317) -/
  | apertureAccess (dispatcher : Bool) (write : Bool) (hoop : Nat) (addr : Nat) (data : List Byte)
  /-- A session ends after 2^27 beats without an accepted REQUEST. (R433) -/
  | sessionTimeout
  /-- After a warm reset the boot ROM starts 1,024 REFCLK cycles after the later of the ramp's end and the rise of WARMZ. (R393) -/
  | warmResetBootStart
  /-- On wake from SLEEP, the core rail's power-good input rises, and 1,000 REFCLK cycles later the boot ROM runs from phase ROM with
  CAUSE WAKE. (R446) -/
  | coreRailPowerGood
  deriving DecidableEq, Repr

end Sys2Proof
end

