-- ==== Sys2Proof/Machine/Codes.lean ====
section
/-! DEFINITION. The reason codes (R9 to R12 and the code tables of the chapters). -/

namespace Sys2Proof

def Rc.CFG_RANGE : Nat := 0x1001
def Rc.CFG_CONFLICT : Nat := 0x1002
def Rc.CFG_PRK_FORMAT : Nat := 0x1101
def Rc.CFG_PRK_PARAMS : Nat := 0x1102
def Rc.CFG_PRK_SLOT_PAIRING : Nat := 0x1103
def Rc.CFG_PRK_GRANT_OVER : Nat := 0x1104
def Rc.CFG_PRK_SWITCH_LATE : Nat := 0x1105
def Rc.CFG_PRK_PERIOD : Nat := 0x1106
def Rc.CFG_TM_DEPTH : Nat := 0x1107
def Rc.CFG_PRK_DELAY : Nat := 0x1108
def Rc.CFG_PRK_SIGNATURE : Nat := 0x1109
def Rc.CFG_ARR_SPARE_MAP : Nat := 0x1201
def Rc.CFG_ARR_SPARE_UNVERIFIED : Nat := 0x1202
def Rc.CFG_ARR_TREE_SET : Nat := 0x1203
def Rc.CFG_DRN_ROWBUF : Nat := 0x1301
def Rc.CFG_MAC_DEPENDS : Nat := 0x1401
def Rc.CFG_SEQ_RING : Nat := 0x1501
def Rc.CFG_SEQ_DEPENDS : Nat := 0x1502
def Rc.CFG_SEQ_BANK_BUSY : Nat := 0x1503
def Rc.CFG_SEQ_RING_FULL : Nat := 0x1504
def Rc.CFG_BB_WALK : Nat := 0x1601
def Rc.CFG_BB_DEPENDS : Nat := 0x1602
def Rc.CFG_BM_SPLIT : Nat := 0x1701
def Rc.CFG_MP_SIZE : Nat := 0x1702
def Rc.CFG_CT_ENTRY : Nat := 0x1703
def Rc.CFG_TB_STATE : Nat := 0x1801
def Rc.CFG_TB_FORMAT : Nat := 0x1802
def Rc.CFG_TB_PARAMS : Nat := 0x1803
def Rc.CFG_TB_HOOP : Nat := 0x1804
def Rc.CFG_TB_BUDGET : Nat := 0x1805
def Rc.CFG_TB_SIGNATURE : Nat := 0x1806
def Rc.CFG_SY_DEPENDS : Nat := 0x1901
def Rc.CFG_SQ_RING : Nat := 0x1902
def Rc.CFG_SQ_HOOP : Nat := 0x1903
def Rc.CFG_GRAPH_ENTRY : Nat := 0x1904
def Rc.CFG_ARM_ENTRY : Nat := 0x1905
def Rc.CFG_LK_DEPENDS : Nat := 0x1A01
def Rc.CFG_LK_UCIE : Nat := 0x1A02
def Rc.CFG_LK_ROUTE : Nat := 0x1A03
def Rc.CFG_LK_CLIENT : Nat := 0x1A04
def Rc.CFG_LK_ADDR : Nat := 0x1A05
def Rc.CFG_DP_IMAGE : Nat := 0x1B01
def Rc.CFG_MB_ENTRY : Nat := 0x1B02
def Rc.CFG_DP_JOURNAL : Nat := 0x1B03
def Rc.CFG_FT_DEPENDS : Nat := 0x1C01
def Rc.CFG_FT_UNCLEAN : Nat := 0x1C02
def Rc.CFG_FT_SPARE : Nat := 0x1C03
def Rc.CFG_HP_WINDOW : Nat := 0x1D01
def Rc.CFG_HP_RANGE : Nat := 0x1D02
def Rc.CFG_HP_BUSY : Nat := 0x1D03
def Rc.CFG_CK_UNLOCKED : Nat := 0x1E01
def Rc.CFG_CK_SWITCH : Nat := 0x1E02
def Rc.CFG_PW_STATE : Nat := 0x1E03
def Rc.CFG_PW_RAMP : Nat := 0x1E04
def Rc.CFG_PW_DEPENDS : Nat := 0x1E05
def Rc.CFG_EN_RAIL : Nat := 0x1F01
def Rc.CFG_EN_DEPENDS : Nat := 0x1F02
def Rc.CFG_EN_SIGN : Nat := 0x1F03
def Rc.PRG_ILLEGAL_OPCODE : Nat := 0x2001
def Rc.PRG_BAD_OPERAND : Nat := 0x2002
def Rc.PRG_QUEUE_MISMATCH : Nat := 0x2003
def Rc.PRG_PHASE_CONFLICT : Nat := 0x2004
def Rc.PRG_STAMP_ORDER : Nat := 0x2005
def Rc.PRG_LOOP_NEST : Nat := 0x2006
def Rc.PRG_NO_CONTEXT : Nat := 0x2007
def Rc.PRG_CONTEXT_STATE : Nat := 0x2008
def Rc.PRG_STEP_MISMATCH : Nat := 0x2009
def Rc.PRG_TD_FORMAT : Nat := 0x2101
def Rc.PRG_MPB_FORMAT : Nat := 0x2102
def Rc.PRG_SHAPE_CONFLICT : Nat := 0x2103
def Rc.PRG_RFN_ILLEGAL : Nat := 0x2104
def Rc.PRG_CORE_SET : Nat := 0x2105
def Rc.RES_ACC_OVERFLOW : Nat := 0x3001
def Rc.RES_SHAPE_EXCEEDS_PLAN : Nat := 0x3002
def Rc.RES_STAGE_OVERFLOW : Nat := 0x3003
def Rc.RES_BOBBIN_SLOT_BUSY : Nat := 0x3101
def Rc.RES_BOBBIN_SLOT_ORDER : Nat := 0x3102
def Rc.RES_BOBBIN_DESC : Nat := 0x3103
def Rc.RES_BOBBIN_RANGE : Nat := 0x3104
def Rc.RES_BOBBIN_RESERVED : Nat := 0x3105
def Rc.RES_BOBBIN_QUEUE_SHARED : Nat := 0x3106
def Rc.RES_BOBBIN_NO_SINK : Nat := 0x3107
def Rc.RES_BOBBIN_SEND_LATE : Nat := 0x3108
def Rc.RES_BOBBIN_REMOTE_OVER : Nat := 0x3109
def Rc.RES_BOBBIN_STEP_END : Nat := 0x310A
def Rc.RES_MP_UNMAPPED : Nat := 0x3201
def Rc.RES_MP_PARTIAL : Nat := 0x3202
def Rc.RES_REGION : Nat := 0x3203
def Rc.SYN_FENCE_CYCLE : Nat := 0x4001
def Rc.SYN_GRAPH_BUSY : Nat := 0x4002
def Rc.SYN_COUCH_ORPHAN : Nat := 0x4003
def Rc.SYN_COUNTER_OVERFLOW : Nat := 0x4004
def Rc.SYN_COUCH_FULL : Nat := 0x4005
def Rc.SYN_QUEUE_OVERRUN : Nat := 0x4006
def Rc.SYN_ENTRY_FORMAT : Nat := 0x4007
def Rc.SYN_PATCH_RANGE : Nat := 0x4008
def Rc.SYN_CANCELLED : Nat := 0x4009
def Rc.SYN_CANCEL_LATE : Nat := 0x400A
def Rc.SYN_CTX_TRANSITION : Nat := 0x400B
def Rc.SYN_REBASE_UNDER : Nat := 0x400C
def Rc.DIN_SCALE_SKEW : Nat := 0x5001
def Rc.DIN_PE_CHECK : Nat := 0x5002
def Rc.DIN_SCALE_INVALID : Nat := 0x5003
def Rc.DIN_DRAIN_CHECK : Nat := 0x5004
def Rc.DIN_UNCORRECTABLE : Nat := 0x5101
def Rc.DIN_MP_RESPONSE : Nat := 0x5102
def Rc.DIN_LINK_UNCORRECTABLE : Nat := 0x5201
def Rc.SEC_HOOP_VIOLATION : Nat := 0x6001
def Rc.SEC_PERMIT_INVALID : Nat := 0x6002
def Rc.SEC_KEY_INVALID : Nat := 0x6003
def Rc.SEC_LIFECYCLE : Nat := 0x6004
def Rc.SEC_DEBUG_STATE : Nat := 0x6005
def Rc.SEC_DEBUG_ACCESS : Nat := 0x6006
def Rc.PWR_LIMIT : Nat := 0x7001
def Rc.PWR_THERMAL_EMERGENCY : Nat := 0x7002
def Rc.PWR_THERMAL_TRIP : Nat := 0x7003
def Rc.PWR_RAIL_FAULT : Nat := 0x7004
def Rc.PWR_TELEMETRY_LOST : Nat := 0x7005
def Rc.PWR_UNIT_RESET : Nat := 0x7006
def Rc.FAB_SLOT_MISS : Nat := 0x8001
def Rc.FAB_LANE_FAILED : Nat := 0x8002
def Rc.FAB_PORT_DEGRADED : Nat := 0x8003
def Rc.FAB_LINK_DOWN : Nat := 0x8004
def Rc.FAB_NO_ROUTE : Nat := 0x8005
def Rc.FAB_COUCH_QUEUE : Nat := 0x8006
def Rc.FWR_PROGRESS_STALL : Nat := 0x9001
def Rc.FWR_LEAD_LOW : Nat := 0x9002
def Rc.FWR_LEAD_EXHAUSTED : Nat := 0x9003
def Rc.FWR_IMAGE_INVALID : Nat := 0x9004
def Rc.FWR_RESTART_STORM : Nat := 0x9005
def Rc.FWR_MB_VERSION : Nat := 0x9006
def Rc.FWR_MB_TYPE : Nat := 0x9007
def Rc.TIM_LATE_ISSUE : Nat := 0xA001
def Rc.TIM_SOURCE_LOST : Nat := 0xA002
def Rc.TIM_BOUND_EXCEEDED : Nat := 0xA003
def Rc.TIM_EPOCH_MISMATCH : Nat := 0xA004
def Rc.TIM_STRETCH_LATE : Nat := 0xA005
def Rc.TIM_RESERVE_EXHAUSTED : Nat := 0xA006
def Rc.TBR_ACTIVITY_BUDGET : Nat := 0xB001
def Rc.TBR_NOT_READY : Nat := 0xB002
def Rc.TBR_LATE : Nat := 0xB003
def Rc.TBR_PROTOCOL : Nat := 0xB004
def Rc.TBR_SLOT_LATE : Nat := 0xB005
def Rc.TBR_INGRESS_FULL : Nat := 0xB006
def Rc.TBR_CONFIG_UPSET : Nat := 0xB007
def Rc.TBR_NO_FUNCTION : Nat := 0xB008

end Sys2Proof
end

