-- ==== Sys2Proof/Config.lean ====
section
/-! DEFINITION. What an implementation fixes (Table 0-2, Table 18-3), the cryptographic functions the spec names by
reference to their own standards, and the free values. -/

namespace Sys2Proof

/-- The generator parameters of Table 0-2 and the integration values of Table 18-3. They are fixed for one block. No
command changes them. -/
structure Build where
  cores : Nat
  spareCore : Nat
  arrayRows : Nat
  arrayCols : Nat
  matmemMib : Nat
  accTiles : Nat
  blockmemMib : Nat
  memports : Nat
  linkports : Nat
  tambourCells : Nat
  gatherCells : Nat
  hoops : Nat
  /-- W_R, W_W in cycles (MP_WC). -/
  wR : Nat
  wW : Nat
  /-- MPn_CFG.SIZE_GIB and CHK_MODE, equal for every port. -/
  sizeGib : Nat
  chkMode : Nat
  dummyCeiling : Nat
  tbCeiling : Nat
  gtCeiling : Nat
  /-- Bit p: link port p is UCIe capable. -/
  ucieCap : Nat
  /-- Fused security state, serial number and silicon revision. -/
  fuseState : Nat
  serial : Nat
  revision : Nat
  /-- Fused rollback counters of the Keeper's and the Dispatcher's images (Table 12-4). -/
  rollbackKeeper : Nat := 0
  rollbackDispatcher : Nat := 0
  deriving DecidableEq, Repr

/-- The limits, rails and coefficients of Table 18-3 that are reset values of registers. -/
structure Integration where
  slew : Nat
  swing : Nat
  down : Nat
  imax : Nat
  vmin : Nat
  vmax : Nat
  temerg : Nat
  ttrip : Nat
  twarn : Nat
  dummy : Nat
  stepMa : Nat
  unitMa : Nat
  vreq : Nat
  /-- CLASS and EN of EN_RAILr, then FALLBACK_MW, for r = 0 to 7. -/
  rails : List (Nat × Nat)
  /-- EN_CALe for e = 0 to 15. -/
  cal : List Nat
  calId : Nat
  deriving DecidableEq, Repr

namespace Config

/-- The full build of Table 0-2. The integration values that the spec leaves to the integrator are the log's (entry 2). -/
def fullBuild : Build :=
  { cores := 16, spareCore := 1, arrayRows := 512, arrayCols := 64, matmemMib := 24, accTiles := 16,
    blockmemMib := 128, memports := 16, linkports := 18, tambourCells := 65536, gatherCells := 262144,
    hoops := 4096, wR := 1100, wW := 1100, sizeGib := 18, chkMode := 0, dummyCeiling := 64, tbCeiling := 8192,
    gtCeiling := 32768, ucieCap := 0x3C000, fuseState := 0, serial := 1, revision := 0 }

/-- The minimum configuration (R2). -/
def minimumBuild : Build :=
  { fullBuild with
    cores := 2, spareCore := 0, arrayRows := 256, arrayCols := 32, matmemMib := 4, accTiles := 4,
    blockmemMib := 16, memports := 4, linkports := 4, tambourCells := 16384, gatherCells := 0, hoops := 256,
    tbCeiling := 2048, gtCeiling := 0, ucieCap := 0 }

/-- The legal builds: Table 0-2 (R3) and the constraints of Table 18-3 that fall on a build value (R439). -/
def Build.legal (b : Build) : Bool :=
  (2 ≤ b.cores && b.cores ≤ 16) && b.spareCore ≤ 1 && (b.arrayRows == 256 || b.arrayRows == 512) &&
  (b.arrayCols == 32 || b.arrayCols == 64) && (4 ≤ b.matmemMib && b.matmemMib ≤ 32 && b.matmemMib % 4 == 0) &&
  (4 ≤ b.accTiles && b.accTiles ≤ 16) && (16 ≤ b.blockmemMib && b.blockmemMib ≤ 256 && b.blockmemMib % 8 == 0) &&
  (4 ≤ b.memports && b.memports ≤ 16) && (4 ≤ b.linkports && b.linkports ≤ 18) &&
  (16384 ≤ b.tambourCells && b.tambourCells ≤ 65536 && b.tambourCells % 4096 == 0) &&
  (b.gatherCells ≤ 262144 && b.gatherCells % 16384 == 0) &&
  (b.hoops == 256 || b.hoops == 512 || b.hoops == 1024 || b.hoops == 2048 || b.hoops == 4096) &&
  (1 ≤ b.wR && b.wR ≤ 65535) && (1 ≤ b.wW && b.wW ≤ 65535) && b.sizeGib != 0 && b.dummyCeiling ≤ 64 &&
  b.tbCeiling ≤ b.tambourCells / 8 && b.gtCeiling ≤ b.gatherCells / 8

/-- The integration values: Table 15-7's reference values where it gives them, and the log's choice (entry 2) elsewhere. -/
def integration : Integration :=
  { slew := 40, swing := 240, down := 20, imax := 1000, vmin := 720, vmax := 780, temerg := 105, ttrip := 115,
    twarn := 95, dummy := 0, stepMa := 652, unitMa := 8000, vreq := 750,
    rails := [(4, 0), (0, 0), (0, 0), (0, 0), (0, 0), (0, 0), (0, 0), (0, 0)],
    cal := [0, 0, 0, 0, 0, 0, 0, 0, 0, 0, 0, 0, 0, 0, 0, 0], calId := 0 }

/-! Cryptographic functions. The spec names them by their standards (FIPS, RFC, IEEE) and gives no arithmetic of its own,
so the model leaves them uninterpreted (log entry 3). -/

/-- SHA-384 of a byte string. -/
opaque sha384 : List Byte → BitVec 384

/-- ECDSA P-384: public key, hash, signature. -/
opaque ecdsaOk : List Byte → BitVec 384 → List Byte → Bool

/-- A public key whose SHA-384 hash is the first argument accompanies the object, and its signature over the body verifies
(R59, R376): key hash, body, signature. -/
opaque signedUnder : Nat → List Byte → List Byte → Bool

/-- The device's ECDSA signature over a hash under the device signing key. -/
opaque deviceSign : BitVec 384 → List Byte

/-- ECDH P-384 of the device key-agreement key (or an ephemeral key made from the seed) and a public key. -/
opaque ecdh : Nat → List Byte → BitVec 384

/-- HKDF-SHA-384 (RFC 5869): key material, salt, info, bytes out. -/
opaque hkdf : BitVec 384 → List Byte → List Byte → Nat → List Byte

/-- AES-256 key unwrap (NIST SP 800-38F KW): KEK and wrapped bytes; none when the integrity check fails. -/
opaque kwUnwrap : List Byte → List Byte → Option (List Byte)

/-- HMAC-SHA-384 (FIPS 198-1): key and message. -/
opaque hmac384 : List Byte → List Byte → BitVec 384

/-- AES-256-XTS decryption (IEEE 1619) of what was encrypted under one key, read under another: keys, unit, byte index. -/
opaque xtsMixed : Nat → Nat → Nat → Byte → Byte

/-- The public key made from an ephemeral seed. -/
opaque ephemeralPub : Nat → List Byte

/-- Knaulo's public keys, held as hashes in the boot ROM (R376): 0 manufacturing, 1 production. -/
opaque knauloKey : Nat → List Byte

/-! Free values: what the spec leaves open. Nothing can evaluate them. -/

/-- A byte of a port-memory unit that no transaction has written (R222): unit, byte index. -/
opaque freePortByte : Nat → Nat → Byte

/-- A fresh true-random value (R376, R419, R432), applied to the state's draw counter. -/
opaque trng : Nat → DWord

/-- A free truth value, applied to the state's draw counter: which way a quotient that the spec does not say how to round is
rounded, and the like. -/
opaque freeBit : Nat → Bool

/-- A free number, applied to the state's draw counter. -/
opaque freeNat : Nat → Nat

/-- Whether the decoder of R213 reports a word with five or more symbol errors uncorrectable, corrected or clean
(0, 1, 2), applied to the state's draw counter. -/
opaque sc2Beyond : Nat → Nat

/-- A byte that the decoder of R213 delivers for a word with five or more symbol errors. -/
opaque sc2Byte : Nat → Nat → Byte

/-- Cycles from a macro's issue to its planned completion (R126). The spec places the signal under the planned schedule and does not
give the number of cycles of the last output rows: parameter block and descriptors. -/
opaque plannedCycles : List Byte → List (List Byte) → Nat

/-- The table base of a SERVE descriptor, which Table 7-2 gives no field: its gather parameter block's address and NEAR. -/
opaque serveBase : Nat → Nat → Nat

/-- The byte of a header field that no rule of the spec names, in a message the block sends (draw counter, index). -/
opaque freeByte : Nat → Nat → Byte

end Config

end Sys2Proof
end

