-- ==== Sys2Proof/Machine/Bits.lean ====
section
/-! DEFINITION. Bit fields, sign, and little-endian byte strings (R5). A register value is read and changed through these. -/

namespace Sys2Proof

/-- Bits [lo + w - 1 : lo] of a number. -/
def bits (lo w x : Nat) : Nat := x / 2 ^ lo % 2 ^ w

/-- Bit b of a number. -/
def bit (b x : Nat) : Bool := x / 2 ^ b % 2 == 1

/-- The number with its field [lo + w - 1 : lo] replaced. -/
def putBits (lo w v x : Nat) : Nat := x / 2 ^ (lo + w) * 2 ^ (lo + w) + v % 2 ^ w * 2 ^ lo + x % 2 ^ lo

/-- The two's-complement value of a w-bit field. -/
def signed (w x : Nat) : Int := if x % 2 ^ w < 2 ^ (w - 1) then Int.ofNat (x % 2 ^ w) else Int.ofNat (x % 2 ^ w) - Int.ofNat (2 ^ w)

/-- The w-bit two's-complement encoding of an integer. -/
def encSigned (w : Nat) (x : Int) : Nat := (x % Int.ofNat (2 ^ w)).toNat

/-- An integer limited to a closed range. -/
def clampInt (lo hi x : Int) : Int := max lo (min hi x)

/-- 1 for true. -/
def flag (b : Bool) : Nat := if b then 1 else 0

/-- Quotient rounded up. -/
def ceilDiv (a b : Nat) : Nat := (a + b - 1) / b

/-- A little-endian byte string as a number (R5). -/
def leNat : List Byte → Nat
  | [] => 0
  | b :: bs => b.toNat + 256 * leNat bs

/-- The low n bytes of a number, little-endian (R5). -/
def leBytes : Nat → Nat → List Byte
  | 0, _ => []
  | n + 1, x => BitVec.ofNat 8 x :: leBytes n (x / 256)

/-- n bytes of a byte string from an offset, absent bytes read as 0. -/
def sliceBytes (off n : Nat) (bs : List Byte) : List Byte :=
  let t := (bs.drop off).take n
  t ++ List.replicate (n - t.length) 0#8

/-- The little-endian field of n bytes at an offset of a byte string. -/
def leAt (off n : Nat) (bs : List Byte) : Nat := leNat (sliceBytes off n bs)

/-- A byte string with the bytes at an offset replaced, its length kept. -/
def patchBytes (off : Nat) (new bs : List Byte) : List Byte :=
  (bs.take off ++ new ++ bs.drop (off + new.length)).take bs.length

/-- The number of trailing zero bits, at most `fuel`. -/
def trailingZeros : Nat → Nat → Nat
  | 0, _ => 0
  | n + 1, x => if x % 2 == 1 then 0 else 1 + trailingZeros n (x / 2)

/-- The number of bits a number needs. -/
def bitLen (x : Nat) : Nat := if x == 0 then 0 else Nat.log2 x + 1

/-- XOR of a list of numbers. -/
def xorAll : List Nat → Nat
  | [] => 0
  | x :: xs => Nat.xor x (xorAll xs)

/-- Apply a function where a condition holds. -/
def applyIf {α : Type} (c : Bool) (f : α → α) (x : α) : α := if c then f x else x

end Sys2Proof
end

