-- ==== Sys2Proof/Machine/Regs.lean ====
section
/-! DEFINITION. The control-space registers: names, fields, offsets, access codes and owning units, as the register tables of
the chapters give them (Table 0-4, R6, R318). -/

namespace Sys2Proof

/-- One constructor for each register or register array of control space, named as the spec names it. -/
inductive Reg where
  | TM_CTRL
  | TM_STATUS
  | TM_NOW
  | TM_NOW_PHASE
  | TM_TRIM
  | TM_ERR
  | TM_TRIMCNT
  | TM_STRETCH
  | TM_EPOCH
  | TM_PRK_ACTIVE
  | TM_PRK_SHADOW
  | TM_EPOCH_CTRL
  | TM_LAG
  | CR_ARR_CTRL
  | CR_ARR_STATUS
  | CR_ARR_SPARE
  | CR_ARR_DUMMY
  | CR_ARR_FAULT
  | CR_ARR_TREE
  | CR_ARR_STOPMAX
  | CR_ARR_PASSES
  | CR_DRN_CTRL
  | CR_DRN_STATUS
  | CR_DRN_CLIPS
  | CR_DRN_NONFIN
  | CR_DRN_SAT
  | CR_MAC_CTRL
  | CR_MAC_STATUS
  | CR_MAC_FAULT
  | CR_MAC_RTM
  | CR_MAC_RTN
  | CR_MAC_RTK
  | CR_MAC_RTB
  | CR_MAC_DQ
  | CR_SEQ_CTRL
  | CR_SEQ_STATUS
  | CR_SEQ_RING_BASE
  | CR_SEQ_RING_SIZE
  | CR_SEQ_RING_TAIL
  | CR_SEQ_RING_HEAD
  | CR_SEQ_RING_CHEAD
  | CR_SEQ_BANK
  | CR_SEQ_BANK0_POS
  | CR_SEQ_BANK1_POS
  | CR_SEQ_HALT
  | CR_SEQ_ISSUED
  | CR_SEQ_SLACKMIN
  | CR_SEQ_QD0
  | CR_SEQ_QD1
  | CR_SEQ_QD2
  | CR_SEQ_QD3
  | CR_SEQ_LOOP
  | CR_SEQ_CT
  | CR_SEQ_CM
  | CR_SEQ_S
  | BB_CTRL
  | BB_STATUS
  | BB_FAULT
  | BB_GRANT
  | BB_LAPSED
  | BB_GSKIP
  | BB_GOVF
  | BB_SLOTS
  | BB_DESC
  | BB_ATOMS
  | BB_UNITS
  | BB_DISCARD
  | CR_MM_CTRL
  | CR_MM_STATUS
  | CR_MM_CORR
  | MP_BM_CTRL
  | MP_BM_STATUS
  | MP_BM_HITS
  | MP_BM_MISSES
  | MP_BM_REFETCH
  | MP_WC
  | MP_ERR_ENTRY
  | MP_ERR_POP
  | MP_ERR_STATUS
  | MP_CFG
  | MP_STATUS
  | MP_CT_BUF0
  | MP_CT_BUF1
  | MP_CT_SIZE
  | MP_CT_FLAGS
  | MP_CT_GEN
  | MP_CT_RSVD
  | TB_CTRL
  | GT_CTRL
  | TB_STATUS
  | GT_STATUS
  | TB_IMAGE
  | GT_IMAGE
  | TB_ID
  | GT_ID
  | TB_ACT
  | GT_ACT
  | TB_ACTMAX
  | GT_ACTMAX
  | TB_TOGGLES
  | GT_TOGGLES
  | TB_CORR
  | GT_CORR
  | TB_FN
  | GT_FN
  | SY_VALUE
  | SY_COMMITTED
  | SY_WMARK
  | SY_STATUS
  | SY_CTRL
  | SY_COUCH
  | SY_USTATUS
  | SY_RX
  | SQ_CTRL
  | SQ_STATUS
  | SQ_BASE
  | SQ_TAILADDR
  | SQ_COMPBASE
  | SQ_HEAD
  | SQ_DONE
  | SQ_TAILSEEN
  | SQ_HOOP
  | GRAPH_BUF0
  | GRAPH_BUF1
  | GRAPH_LENGTH
  | GRAPH_FLAGS
  | GRAPH_GEN
  | GRAPH_USE
  | ARM_CFG
  | ARM_STEP
  | ARM_TAGBASE
  | ARM_COMPBASE
  | ARM_LAUNCHES
  | ARM_SKIPS
  | SQ_SCAN_CTRL
  | SQ_READY
  | SQ_READY_POP
  | SQ_SWEEP
  | SQ_CTX_STATUS
  | CTX_STATE
  | CTX_QUEUE
  | CTX_TAG
  | CTX_SEQ
  | CTX_ENERGY
  | CTX_GEN
  | CTX_CMD
  | LK_CTRL
  | LK_STATUS
  | LK_ADDR
  | LK_ELECT
  | LK_ELECT_SERIAL
  | LK_MGMT_DROP
  | LK_CLIENT_DROP
  | LK_GRT
  | LK_MRT
  | LK_CLIENT
  | LK_CLIENT_QUEUE
  | LK_CLIENT_TAIL
  | LK_P_CTRL
  | LK_P_STATUS
  | LK_P_LANEMAP
  | LK_P_DELAY
  | LK_P_NEIGH
  | LK_P_NADDR
  | LK_P_CORR
  | LK_P_UNCORR
  | LK_P_MISS
  | DP_CTRL
  | DP_STATUS
  | DP_WDOG
  | DP_WDOG2
  | DP_KICK
  | DP_LEAD
  | DP_TAKES
  | DP_COVER
  | DP_STAGE
  | DP_TAKE_CTX
  | DP_TAKE
  | DP_CTXPROG
  | MB_CTRL
  | FT_CTRL
  | FT_STATUS
  | FT_WAVE
  | FT_SPARE
  | FT_REPLAY
  | FT_ATTEMPT
  | FT_SVC
  | FT_STAMP
  | FT_LOST
  | FT_LOG_ENTRY
  | FT_LOG_POP
  | FT_LOG_STATUS
  | HP_CTRL
  | HP_CORES
  | HP_SYNC
  | HP_QUEUE
  | HP_STATUS
  | HP_VIOLADDR
  | HP_KEYCNT
  | HP_WSEL
  | HP_WIN_VBASE
  | HP_WIN_PBASE
  | HP_WIN_SIZE
  | HP_WIN_ATTR
  | HP_WIN_APPLY
  | HP_KEYCMD
  | HP_KEYBLOB
  | HP_KEYSTAT
  | HP_ATTACH
  | SC_STATE
  | SC_CMD
  | SC_CMDGO
  | SC_DEBUG
  | SC_DEBUG_END
  | SC_NONCE
  | SC_OPKEY
  | SC_DEVPUB
  | DG_HALT
  | DG_APER_HOOP
  | DG_APER_ADDR
  | DG_APER_DATA
  | DG_MM
  | CK_PLL
  | CK_DOM
  | CK_MON
  | CK_RST
  | CK_RSTTB
  | PL_BOOT
  | PL_WAKE_BEAT
  | PL_WAKE
  | PL_FRAME
  | PL_FRAME_PATTERN
  | PL_FRAME_MASK
  | PL_THERM
  | PL_TSEN
  | PW_CTRL
  | PW_STATE
  | PW_REQ
  | PW_STATUS
  | PW_SLEW
  | PW_SWING
  | PW_DOWN
  | PW_IMAX
  | PW_VMIN
  | PW_VMAX
  | PW_TEMERG
  | PW_TTRIP
  | PW_TWARN
  | PW_SMIN
  | PW_DUMMY
  | PW_CAL
  | PW_STRETCH
  | PW_VREQ
  | PW_TMAX
  | EN_CTRL
  | EN_STATUS
  | EN_MEASURED
  | EN_OVERHEAD
  | EN_REPLAY
  | EN_RAIL
  | EN_RAIL_FALLBACK
  | EN_RAIL_V
  | EN_RAIL_I
  | EN_CAL
  | EN_CAL_ID
  | EN_CSEL
  | EN_CTX_COMM
  | EN_CTX_OPEN
  | EN_SIGN
  | EN_SIGNBUF
  | EN_CHAIN
  | EN_COUNTER
  | EN_LASTHASH
  | EN_ACCT
  | MG_SNAPCTRL
  | MG_SNAPLIST
  | MG_SNAPBUF
  | MG_SNAPBEAT
  | MG_MFP_CTRL
  | MG_MFP_ETYPE
  | MG_MFP_DROP
  | GL_ID
  | GL_SERIAL
  | GL_PARAMS
  deriving DecidableEq, Repr

/-- A field of a register: lowest bit and width. -/
structure Fld where
  reg : Reg
  lo : Nat
  w : Nat
  deriving DecidableEq, Repr

/-- What the control space needs to know of a register. -/
structure RegDesc where
  /-- Offset from the global base. -/
  base : Nat
  /-- Strides and counts, outermost first. -/
  dims : List (Nat × Nat)
  /-- Bytes: 4 or 8. -/
  size : Nat
  /-- Reset value where it does not depend on the build. -/
  resetv : Nat
  rw : Nat
  w1c : Nat
  w1s : Nat
  rwl : Nat
  /-- Fault-log UNIT of Table 13-9; the index of the register's core or port is added. -/
  unit : Nat
  /-- 0 Keeper, 1 Dispatcher, 2 either (R318). -/
  writer : Nat
  /-- What the outermost index names: 0 nothing, 1 core, 2 memory port, 3 link port, 4 hoop. -/
  scope : Nat
  deriving DecidableEq, Repr

/-- The register table. -/
def Reg.desc : Reg → RegDesc
  | .TM_CTRL => ⟨0x300000, [], 4, 0x3E00, 0xFFFFF, 0, 0, 0, 0x90, 0, 0⟩
  | .TM_STATUS => ⟨0x300004, [], 4, 0, 0, 0x38, 0, 0, 0x90, 0, 0⟩
  | .TM_NOW => ⟨0x300008, [], 8, 0, 0, 0, 0, 0, 0x90, 0, 0⟩
  | .TM_NOW_PHASE => ⟨0x300010, [], 4, 0, 0, 0, 0, 0, 0x90, 0, 0⟩
  | .TM_TRIM => ⟨0x300020, [], 4, 0x8221, 0xFFF3, 0, 0, 0, 0x90, 0, 0⟩
  | .TM_ERR => ⟨0x300024, [], 4, 0, 0, 0, 0, 0, 0x90, 0, 0⟩
  | .TM_TRIMCNT => ⟨0x300028, [], 4, 0, 0, 0, 0, 0, 0x90, 0, 0⟩
  | .TM_STRETCH => ⟨0x300030, [], 4, 0, 0, 0, 0, 0, 0x90, 0, 0⟩
  | .TM_EPOCH => ⟨0x300040, [], 8, 0, 0, 0, 0, 0, 0x90, 0, 0⟩
  | .TM_PRK_ACTIVE => ⟨0x300048, [], 4, 0, 0, 0, 0, 0, 0x90, 0, 0⟩
  | .TM_PRK_SHADOW => ⟨0x30004C, [], 4, 0, 0xFFFF000, 0, 0, 0, 0x90, 0, 0⟩
  | .TM_EPOCH_CTRL => ⟨0x300050, [], 4, 0, 0, 0xC, 3, 0, 0x90, 0, 0⟩
  | .TM_LAG => ⟨0x300054, [], 4, 0, 0, 0, 0, 0, 0x90, 0, 0⟩
  | .CR_ARR_CTRL => ⟨0x1002000, [(0x100000, 17)], 4, 0, 3, 0, 0, 0, 0xB1, 0, 1⟩
  | .CR_ARR_STATUS => ⟨0x1002004, [(0x100000, 17)], 4, 0, 0, 0x18, 0, 0, 0xB1, 0, 1⟩
  | .CR_ARR_SPARE => ⟨0x1002008, [(0x100000, 17)], 4, 0, 0x7FF07FF, 0, 0, 0, 0xB1, 0, 1⟩
  | .CR_ARR_DUMMY => ⟨0x100200C, [(0x100000, 17)], 4, 0, 0, 0, 0, 0, 0xB1, 0, 1⟩
  | .CR_ARR_FAULT => ⟨0x1002010, [(0x100000, 17)], 4, 0, 0, 0, 0, 0, 0xB1, 0, 1⟩
  | .CR_ARR_TREE => ⟨0x1002014, [(0x100000, 17)], 4, 0, 0xFFF, 0xA000, 0x1000, 0, 0xB1, 0, 1⟩
  | .CR_ARR_STOPMAX => ⟨0x1002020, [(0x100000, 17)], 4, 0, 0, 0, 0, 0, 0xB1, 0, 1⟩
  | .CR_ARR_PASSES => ⟨0x1002018, [(0x100000, 17)], 8, 0, 0, 0, 0, 0, 0xB1, 0, 1⟩
  | .CR_DRN_CTRL => ⟨0x1002100, [(0x100000, 17)], 4, 0, 0xFFFF01, 0, 0, 0, 0xB1, 0, 1⟩
  | .CR_DRN_STATUS => ⟨0x1002104, [(0x100000, 17)], 4, 0, 0, 0x1E, 0, 0, 0xB1, 0, 1⟩
  | .CR_DRN_CLIPS => ⟨0x1002108, [(0x100000, 17)], 8, 0, 0, 0, 0, 0, 0xB1, 0, 1⟩
  | .CR_DRN_NONFIN => ⟨0x1002110, [(0x100000, 17)], 8, 0, 0, 0, 0, 0, 0xB1, 0, 1⟩
  | .CR_DRN_SAT => ⟨0x1002118, [(0x100000, 17)], 8, 0, 0, 0, 0, 0, 0xB1, 0, 1⟩
  | .CR_MAC_CTRL => ⟨0x1002200, [(0x100000, 17)], 4, 0, 1, 0, 0, 0, 0xA0, 0, 1⟩
  | .CR_MAC_STATUS => ⟨0x1002204, [(0x100000, 17)], 4, 0, 0, 0xE, 0, 0, 0xA0, 0, 1⟩
  | .CR_MAC_FAULT => ⟨0x1002208, [(0x100000, 17)], 8, 0, 0, 0, 0, 0, 0xA0, 0, 1⟩
  | .CR_MAC_RTM => ⟨0x1002210, [(0x100000, 17)], 4, 0, 0, 0, 0, 0, 0xA0, 0, 1⟩
  | .CR_MAC_RTN => ⟨0x1002214, [(0x100000, 17)], 4, 0, 0, 0, 0, 0, 0xA0, 0, 1⟩
  | .CR_MAC_RTK => ⟨0x1002218, [(0x100000, 17)], 4, 0, 0, 0, 0, 0, 0xA0, 0, 1⟩
  | .CR_MAC_RTB => ⟨0x100221C, [(0x100000, 17)], 4, 0, 0, 0, 0, 0, 0xA0, 0, 1⟩
  | .CR_MAC_DQ => ⟨0x1002220, [(0x100000, 17)], 4, 0, 0, 0, 0, 0, 0xA0, 0, 1⟩
  | .CR_SEQ_CTRL => ⟨0x1001000, [(0x100000, 17)], 4, 0, 1, 0, 0, 0, 0xA0, 0, 1⟩
  | .CR_SEQ_STATUS => ⟨0x1001004, [(0x100000, 17)], 4, 0, 0, 0x1C, 0, 0, 0xA0, 0, 1⟩
  | .CR_SEQ_RING_BASE => ⟨0x1001008, [(0x100000, 17)], 4, 0, 0xFFFF000, 0, 0, 0, 0xA0, 0, 1⟩
  | .CR_SEQ_RING_SIZE => ⟨0x100100C, [(0x100000, 17)], 4, 0x10, 0x1F, 0, 0, 0, 0xA0, 0, 1⟩
  | .CR_SEQ_RING_TAIL => ⟨0x1001010, [(0x100000, 17)], 4, 0, 0xFFFFFFFF, 0, 0, 0, 0xA0, 1, 1⟩
  | .CR_SEQ_RING_HEAD => ⟨0x1001014, [(0x100000, 17)], 4, 0, 0, 0, 0, 0, 0xA0, 0, 1⟩
  | .CR_SEQ_RING_CHEAD => ⟨0x1001018, [(0x100000, 17)], 4, 0, 0, 0, 0, 0, 0xA0, 0, 1⟩
  | .CR_SEQ_BANK => ⟨0x100101C, [(0x100000, 17)], 4, 0, 0, 0, 3, 0, 0xA0, 1, 1⟩
  | .CR_SEQ_BANK0_POS => ⟨0x1001020, [(0x100000, 17)], 4, 0, 0, 0, 0, 0, 0xA0, 0, 1⟩
  | .CR_SEQ_BANK1_POS => ⟨0x1001024, [(0x100000, 17)], 4, 0, 0, 0, 0, 0, 0xA0, 0, 1⟩
  | .CR_SEQ_HALT => ⟨0x1001028, [(0x100000, 17)], 8, 0, 0, 0, 0, 0, 0xA0, 0, 1⟩
  | .CR_SEQ_ISSUED => ⟨0x1001030, [(0x100000, 17)], 8, 0, 0, 0, 0, 0, 0xA0, 0, 1⟩
  | .CR_SEQ_SLACKMIN => ⟨0x1001038, [(0x100000, 17)], 4, 0xFFFF, 0, 0, 0, 0, 0xA0, 0, 1⟩
  | .CR_SEQ_QD0 => ⟨0x1001040, [(0x100000, 17)], 4, 0, 0, 0, 0, 0, 0xA0, 0, 1⟩
  | .CR_SEQ_QD1 => ⟨0x1001044, [(0x100000, 17)], 4, 0, 0, 0, 0, 0, 0xA0, 0, 1⟩
  | .CR_SEQ_QD2 => ⟨0x1001048, [(0x100000, 17)], 4, 0, 0, 0, 0, 0, 0xA0, 0, 1⟩
  | .CR_SEQ_QD3 => ⟨0x100104C, [(0x100000, 17)], 4, 0, 0, 0, 0, 0, 0xA0, 0, 1⟩
  | .CR_SEQ_LOOP => ⟨0x1001080, [(0x100000, 17), (8, 6)], 8, 0, 0, 0, 0, 0, 0xA0, 0, 1⟩
  | .CR_SEQ_CT => ⟨0x1001100, [(0x100000, 17), (4, 8)], 4, 0, 0, 0, 0, 0, 0xA0, 0, 1⟩
  | .CR_SEQ_CM => ⟨0x1001120, [(0x100000, 17), (4, 4)], 4, 0, 0, 0, 0, 0, 0xA0, 0, 1⟩
  | .CR_SEQ_S => ⟨0x1001140, [(0x100000, 17), (8, 16)], 8, 0, 0, 0, 0, 0, 0xA0, 0, 1⟩
  | .BB_CTRL => ⟨0x1003000, [(0x100000, 17)], 4, 0x7650, 0x7771, 0, 0, 0, 0xC2, 0, 1⟩
  | .BB_STATUS => ⟨0x1003004, [(0x100000, 17)], 4, 0, 0, 3, 0, 0, 0xC2, 0, 1⟩
  | .BB_FAULT => ⟨0x1003008, [(0x100000, 17)], 8, 0, 0, 0, 0, 0, 0xC2, 0, 1⟩
  | .BB_GRANT => ⟨0x1003010, [(0x100000, 17)], 4, 0, 0, 0, 0, 0, 0xC2, 0, 1⟩
  | .BB_LAPSED => ⟨0x1003018, [(0x100000, 17)], 8, 0, 0, 0, 0, 0, 0xC2, 0, 1⟩
  | .BB_GSKIP => ⟨0x1003020, [(0x100000, 17)], 8, 0, 0, 0, 0, 0, 0xC2, 0, 1⟩
  | .BB_GOVF => ⟨0x1003028, [(0x100000, 17)], 8, 0, 0, 0, 0, 0, 0xC2, 0, 1⟩
  | .BB_SLOTS => ⟨0x1003100, [(0x100000, 17), (0x40, 8)], 4, 0, 0, 0, 0, 0, 0xC2, 0, 1⟩
  | .BB_DESC => ⟨0x1003104, [(0x100000, 17), (0x40, 8)], 4, 0, 0, 0, 0, 0, 0xC2, 0, 1⟩
  | .BB_ATOMS => ⟨0x1003108, [(0x100000, 17), (0x40, 8)], 8, 0, 0, 0, 0, 0, 0xC2, 0, 1⟩
  | .BB_UNITS => ⟨0x1003110, [(0x100000, 17), (0x40, 8)], 8, 0, 0, 0, 0, 0, 0xC2, 0, 1⟩
  | .BB_DISCARD => ⟨0x1003118, [(0x100000, 17), (0x40, 8)], 8, 0, 0, 0, 0, 0, 0xC2, 0, 1⟩
  | .CR_MM_CTRL => ⟨0x1004000, [(0x100000, 17)], 4, 0, 1, 0, 0, 0, 0, 0, 1⟩
  | .CR_MM_STATUS => ⟨0x1004004, [(0x100000, 17)], 4, 0, 0, 6, 0, 0, 0, 0, 1⟩
  | .CR_MM_CORR => ⟨0x1004008, [(0x100000, 17)], 8, 0, 0, 0, 0, 0, 0, 0, 1⟩
  | .MP_BM_CTRL => ⟨0x2200000, [], 4, 0xC0000, 0xF3F01, 0, 2, 0, 0x40, 0, 0⟩
  | .MP_BM_STATUS => ⟨0x2200004, [], 4, 0, 0, 6, 0, 0, 0x40, 0, 0⟩
  | .MP_BM_HITS => ⟨0x2200010, [], 8, 0, 0, 0, 0, 0, 0x40, 0, 0⟩
  | .MP_BM_MISSES => ⟨0x2200018, [], 8, 0, 0, 0, 0, 0, 0x40, 0, 0⟩
  | .MP_BM_REFETCH => ⟨0x2200020, [], 8, 0, 0, 0, 0, 0, 0x40, 0, 0⟩
  | .MP_WC => ⟨0x2200030, [], 4, 0, 0, 0, 0, 0, 0x40, 0, 0⟩
  | .MP_ERR_ENTRY => ⟨0x2200800, [(4, 4)], 4, 0, 0, 0, 0, 0, 0x40, 0, 0⟩
  | .MP_ERR_POP => ⟨0x2200810, [], 4, 0, 0, 0, 0, 0, 0x40, 0, 0⟩
  | .MP_ERR_STATUS => ⟨0x2200814, [], 4, 0, 0, 0x180, 0, 0, 0x40, 0, 0⟩
  | .MP_CFG => ⟨0x2201000, [(0x100, 16)], 4, 0, 0, 0, 0, 0, 0x50, 0, 2⟩
  | .MP_STATUS => ⟨0x2201004, [(0x100, 16)], 4, 0, 0, 0xE00, 0, 0, 0x50, 0, 2⟩
  | .MP_CT_BUF0 => ⟨0x2210000, [(0x20, 4096)], 8, 0, 0xFFFFFFFFFFFFFFFF, 0, 0, 0, 0x60, 0, 0⟩
  | .MP_CT_BUF1 => ⟨0x2210008, [(0x20, 4096)], 8, 0, 0xFFFFFFFFFFFFFFFF, 0, 0, 0, 0x60, 0, 0⟩
  | .MP_CT_SIZE => ⟨0x2210010, [(0x20, 4096)], 4, 0, 0xFFFFFFFF, 0, 0, 0, 0x60, 0, 0⟩
  | .MP_CT_FLAGS => ⟨0x2210014, [(0x20, 4096)], 4, 0, 0xFFF9FFFF, 0, 0, 0, 0x60, 0, 0⟩
  | .MP_CT_GEN => ⟨0x2210018, [(0x20, 4096)], 4, 0, 0, 0, 0, 0, 0x60, 0, 0⟩
  | .MP_CT_RSVD => ⟨0x221001C, [(0x20, 4096)], 4, 0, 0xFFFFFFFF, 0, 0, 0, 0x60, 0, 0⟩
  | .TB_CTRL => ⟨0x1005000, [(0x100000, 17)], 4, 0, 1, 0, 6, 0, 0xD3, 0, 1⟩
  | .GT_CTRL => ⟨0x2240000, [], 4, 0, 1, 0, 6, 0, 0x95, 0, 0⟩
  | .TB_STATUS => ⟨0x1005004, [(0x100000, 17)], 4, 0, 0, 0x58, 0, 0, 0xD3, 0, 1⟩
  | .GT_STATUS => ⟨0x2240004, [], 4, 0, 0, 0x58, 0, 0, 0x95, 0, 0⟩
  | .TB_IMAGE => ⟨0x1005008, [(0x100000, 17)], 8, 0, 0xFFFFFFFFFFFFFFC0, 0, 0, 0, 0xD3, 0, 1⟩
  | .GT_IMAGE => ⟨0x2240008, [], 8, 0, 0xFFFFFFFFFFFFFFC0, 0, 0, 0, 0x95, 0, 0⟩
  | .TB_ID => ⟨0x1005010, [(0x100000, 17)], 4, 0, 0, 0, 0, 0, 0xD3, 0, 1⟩
  | .GT_ID => ⟨0x2240010, [], 4, 0, 0, 0, 0, 0, 0x95, 0, 0⟩
  | .TB_ACT => ⟨0x1005014, [(0x100000, 17)], 4, 0, 0xFFFF, 0, 0, 0, 0xD3, 0, 1⟩
  | .GT_ACT => ⟨0x2240014, [], 4, 0, 0xFFFF, 0, 0, 0, 0x95, 0, 0⟩
  | .TB_ACTMAX => ⟨0x1005018, [(0x100000, 17)], 4, 0, 0, 0, 0, 0, 0xD3, 0, 1⟩
  | .GT_ACTMAX => ⟨0x2240018, [], 4, 0, 0, 0, 0, 0, 0x95, 0, 0⟩
  | .TB_TOGGLES => ⟨0x1005020, [(0x100000, 17)], 8, 0, 0, 0, 0, 0, 0xD3, 0, 1⟩
  | .GT_TOGGLES => ⟨0x2240020, [], 8, 0, 0, 0, 0, 0, 0x95, 0, 0⟩
  | .TB_CORR => ⟨0x1005028, [(0x100000, 17)], 8, 0, 0, 0, 0, 0, 0xD3, 0, 1⟩
  | .GT_CORR => ⟨0x2240028, [], 8, 0, 0, 0, 0, 0, 0x95, 0, 0⟩
  | .TB_FN => ⟨0x1005040, [(0x100000, 17), (4, 16)], 4, 0, 0, 0, 0, 0, 0xD3, 0, 1⟩
  | .GT_FN => ⟨0x2240040, [(4, 16)], 4, 0, 0, 0, 0, 0, 0x95, 0, 0⟩
  | .SY_VALUE => ⟨0x800000, [(0x10, 16384)], 4, 0, 0xFFFFFFFF, 0, 0, 0, 0x91, 0, 0⟩
  | .SY_COMMITTED => ⟨0x800004, [(0x10, 16384)], 4, 0, 0, 0, 0, 0, 0x91, 0, 0⟩
  | .SY_WMARK => ⟨0x800008, [(0x10, 16384)], 4, 0, 0, 0, 0, 0, 0x91, 0, 0⟩
  | .SY_STATUS => ⟨0x80000C, [(0x10, 16384)], 4, 0, 0, 0xF, 0, 0, 0x91, 0, 0⟩
  | .SY_CTRL => ⟨0x840000, [], 4, 0, 1, 0, 0, 0, 0x91, 0, 0⟩
  | .SY_COUCH => ⟨0x840004, [], 4, 0, 0, 0, 0, 0, 0x91, 0, 0⟩
  | .SY_USTATUS => ⟨0x840008, [], 4, 0, 0, 3, 0, 0, 0x91, 0, 0⟩
  | .SY_RX => ⟨0x844000, [(4, 4096)], 4, 0, 0, 0, 0, 0, 0x91, 0, 0⟩
  | .SQ_CTRL => ⟨0xC00000, [(0x40, 4096)], 4, 0x400, 0x1F01, 0, 2, 0, 0x97, 0, 0⟩
  | .SQ_STATUS => ⟨0xC00004, [(0x40, 4096)], 4, 0, 0, 0xC, 0, 0, 0x97, 0, 0⟩
  | .SQ_BASE => ⟨0xC00008, [(0x40, 4096)], 8, 0, 0xFFFFFFFFFFFFFFFF, 0, 0, 0, 0x97, 1, 0⟩
  | .SQ_TAILADDR => ⟨0xC00010, [(0x40, 4096)], 8, 0, 0xFFFFFFFFFFFFFFFF, 0, 0, 0, 0x97, 1, 0⟩
  | .SQ_COMPBASE => ⟨0xC00018, [(0x40, 4096)], 8, 0, 0xFFFFFFFFFFFFFFFF, 0, 0, 0, 0x97, 1, 0⟩
  | .SQ_HEAD => ⟨0xC00020, [(0x40, 4096)], 4, 0, 0, 0, 0, 0, 0x97, 0, 0⟩
  | .SQ_DONE => ⟨0xC00024, [(0x40, 4096)], 4, 0, 0, 0, 0, 0, 0x97, 0, 0⟩
  | .SQ_TAILSEEN => ⟨0xC00028, [(0x40, 4096)], 4, 0, 0, 0, 0, 0, 0x97, 0, 0⟩
  | .SQ_HOOP => ⟨0xC0002C, [(0x40, 4096)], 4, 0, 0, 0, 0, 0, 0x97, 0, 0⟩
  | .GRAPH_BUF0 => ⟨0xC40000, [(0x20, 4096)], 8, 0, 0xFFFFFFFFFFFFFFFF, 0, 0, 0, 0x97, 1, 0⟩
  | .GRAPH_BUF1 => ⟨0xC40008, [(0x20, 4096)], 8, 0, 0xFFFFFFFFFFFFFFFF, 0, 0, 0, 0x97, 1, 0⟩
  | .GRAPH_LENGTH => ⟨0xC40010, [(0x20, 4096)], 4, 0, 0xFFFFFFFF, 0, 0, 0, 0x97, 1, 0⟩
  | .GRAPH_FLAGS => ⟨0xC40014, [(0x20, 4096)], 4, 0, 0x90FFF, 0, 0, 0, 0x97, 1, 0⟩
  | .GRAPH_GEN => ⟨0xC40018, [(0x20, 4096)], 4, 0, 0, 0, 0, 0, 0x97, 1, 0⟩
  | .GRAPH_USE => ⟨0xC4001C, [(0x20, 4096)], 4, 0, 0, 0, 0, 0, 0x97, 1, 0⟩
  | .ARM_CFG => ⟨0xC60000, [(0x20, 256)], 4, 0, 0xFF01FFFF, 0, 0, 0, 0x97, 1, 0⟩
  | .ARM_STEP => ⟨0xC60004, [(0x20, 256)], 4, 0, 0xFFFFFFFF, 0, 0, 0, 0x97, 1, 0⟩
  | .ARM_TAGBASE => ⟨0xC60008, [(0x20, 256)], 8, 0, 0xFFFFFFFFFFFFFFFF, 0, 0, 0, 0x97, 1, 0⟩
  | .ARM_COMPBASE => ⟨0xC60010, [(0x20, 256)], 8, 0, 0xFFFFFFFFFFFFFFFF, 0, 0, 0, 0x97, 1, 0⟩
  | .ARM_LAUNCHES => ⟨0xC60018, [(0x20, 256)], 4, 0, 0, 0, 0, 0, 0x97, 0, 0⟩
  | .ARM_SKIPS => ⟨0xC6001C, [(0x20, 256)], 4, 0, 0, 0, 0, 0, 0x97, 0, 0⟩
  | .SQ_SCAN_CTRL => ⟨0xC70000, [], 4, 0, 1, 0, 0, 0, 0x97, 1, 0⟩
  | .SQ_READY => ⟨0xC70004, [], 4, 0x8000, 0, 0, 0, 0, 0x97, 0, 0⟩
  | .SQ_READY_POP => ⟨0xC70008, [], 4, 0, 0, 0, 0, 0, 0x97, 1, 0⟩
  | .SQ_SWEEP => ⟨0xC7000C, [], 4, 0, 0, 0, 0, 0, 0x97, 0, 0⟩
  | .SQ_CTX_STATUS => ⟨0xC70010, [], 4, 0, 0, 0, 0, 0, 0x97, 0, 0⟩
  | .CTX_STATE => ⟨0xC80000, [(0x20, 16384)], 4, 0, 0xFFF0000, 0, 0, 0, 0x97, 1, 0⟩
  | .CTX_QUEUE => ⟨0xC80004, [(0x20, 16384)], 4, 0, 0xFFF0FFF, 0, 0, 0, 0x97, 1, 0⟩
  | .CTX_TAG => ⟨0xC80008, [(0x20, 16384)], 8, 0, 0xFFFFFFFFFFFFFFFF, 0, 0, 0, 0x97, 1, 0⟩
  | .CTX_SEQ => ⟨0xC80010, [(0x20, 16384)], 4, 0, 0xFFFFFFFF, 0, 0, 0, 0x97, 1, 0⟩
  | .CTX_ENERGY => ⟨0xC80014, [(0x20, 16384)], 4, 0, 0xFFFFFFFF, 0, 0, 0, 0x97, 1, 0⟩
  | .CTX_GEN => ⟨0xC80018, [(0x20, 16384)], 4, 0, 0xFFFFFFFF, 0, 0, 0, 0x97, 1, 0⟩
  | .CTX_CMD => ⟨0xC8001C, [(0x20, 16384)], 4, 0, 0, 0, 0, 0, 0x97, 2, 0⟩
  | .LK_CTRL => ⟨0x2400000, [], 4, 2, 3, 0, 0, 0, 0x82, 0, 0⟩
  | .LK_STATUS => ⟨0x2400004, [], 4, 0, 0, 3, 0, 0, 0x82, 0, 0⟩
  | .LK_ADDR => ⟨0x2400008, [], 4, 0, 0x1FFFF, 0, 0, 0, 0x82, 0, 0⟩
  | .LK_ELECT => ⟨0x240000C, [], 4, 0, 0, 0, 0, 0, 0x82, 0, 0⟩
  | .LK_ELECT_SERIAL => ⟨0x2400010, [], 8, 0, 0, 0, 0, 0, 0x82, 0, 0⟩
  | .LK_MGMT_DROP => ⟨0x2400018, [], 8, 0, 0, 0, 0, 0, 0x82, 0, 0⟩
  | .LK_CLIENT_DROP => ⟨0x2400020, [], 8, 0, 0, 0, 0, 0, 0x82, 0, 0⟩
  | .LK_GRT => ⟨0x2401000, [(4, 256)], 4, 0, 0x9F, 0, 0, 0, 0x82, 0, 0⟩
  | .LK_MRT => ⟨0x2401400, [(4, 256)], 4, 0, 0x9F, 0, 0, 0, 0x82, 0, 0⟩
  | .LK_CLIENT => ⟨0x2401800, [(0x10, 64)], 4, 0, 0x8001FFFF, 0, 0, 0, 0x82, 0, 0⟩
  | .LK_CLIENT_QUEUE => ⟨0x2401804, [(0x10, 64)], 4, 0, 0xFFF, 0, 0, 0, 0x82, 0, 0⟩
  | .LK_CLIENT_TAIL => ⟨0x2401808, [(0x10, 64)], 4, 0, 0, 0, 0, 0, 0x82, 0, 0⟩
  | .LK_P_CTRL => ⟨0x2402000, [(0x100, 18)], 4, 0, 3, 0, 0, 0, 0x70, 0, 3⟩
  | .LK_P_STATUS => ⟨0x2402004, [(0x100, 18)], 4, 0, 0, 0xD00, 0, 0, 0x70, 0, 3⟩
  | .LK_P_LANEMAP => ⟨0x2402008, [(0x100, 18)], 4, 0xC, 7, 0, 0, 0, 0x70, 0, 3⟩
  | .LK_P_DELAY => ⟨0x240200C, [(0x100, 18)], 4, 0, 0, 0, 0, 0, 0x70, 0, 3⟩
  | .LK_P_NEIGH => ⟨0x2402010, [(0x100, 18)], 8, 0, 0, 0, 0, 0, 0x70, 0, 3⟩
  | .LK_P_NADDR => ⟨0x2402018, [(0x100, 18)], 4, 0, 0, 0, 0, 0, 0x70, 0, 3⟩
  | .LK_P_CORR => ⟨0x2402020, [(0x100, 18)], 8, 0, 0, 0, 0, 0, 0x70, 0, 3⟩
  | .LK_P_UNCORR => ⟨0x2402028, [(0x100, 18)], 8, 0, 0, 0, 0, 0, 0x70, 0, 3⟩
  | .LK_P_MISS => ⟨0x2402030, [(0x100, 18)], 8, 0, 0, 0, 0, 0, 0x70, 0, 3⟩
  | .DP_CTRL => ⟨0x600000, [], 4, 0, 1, 0, 6, 0, 0x93, 0, 0⟩
  | .DP_STATUS => ⟨0x600004, [], 4, 0, 0, 0x13, 0, 0, 0x93, 0, 0⟩
  | .DP_WDOG => ⟨0x600008, [], 4, 0x4001000, 0xFFFFFFFF, 0, 0, 0, 0x93, 0, 0⟩
  | .DP_WDOG2 => ⟨0x60000C, [], 4, 0x1000, 0xFFFF, 0, 0, 0, 0x93, 0, 0⟩
  | .DP_KICK => ⟨0x600010, [], 4, 0, 0, 0, 0, 0, 0x93, 2, 0⟩
  | .DP_LEAD => ⟨0x600014, [], 4, 0x192E, 0xFFFF, 0, 0, 0, 0x93, 0, 0⟩
  | .DP_TAKES => ⟨0x600018, [], 8, 0, 0, 0, 0, 0, 0x93, 0, 0⟩
  | .DP_COVER => ⟨0x600100, [(8, 17)], 8, 0, 0xFFFFFFFFFFFFFFFF, 0, 0, 0, 0x93, 1, 1⟩
  | .DP_STAGE => ⟨0x600200, [(4, 17)], 4, 0, 0xFFFF7FFF, 0, 0, 0, 0x93, 1, 1⟩
  | .DP_TAKE_CTX => ⟨0x600300, [], 4, 0, 0xFFFF7FFF, 0, 0, 0, 0x93, 1, 0⟩
  | .DP_TAKE => ⟨0x600304, [], 4, 0, 0, 0, 0, 0, 0x93, 1, 0⟩
  | .DP_CTXPROG => ⟨0x610000, [(4, 16384)], 4, 0, 0, 0, 0, 0, 0x93, 0, 0⟩
  | .MB_CTRL => ⟨0x708000, [(0x10, 8)], 4, 0, 0xFFF0003, 0, 0, 0, 0x93, 0, 0⟩
  | .FT_CTRL => ⟨0x4000, [], 4, 4, 0x1F, 0, 0, 0, 0x98, 0, 0⟩
  | .FT_STATUS => ⟨0x4004, [], 4, 0, 0, 0x38, 0, 0, 0x98, 0, 0⟩
  | .FT_WAVE => ⟨0x4008, [], 4, 0, 0xFF00, 0, 0, 0, 0x98, 0, 0⟩
  | .FT_SPARE => ⟨0x4020, [], 4, 0, 0xF, 0, 0x10, 0, 0x98, 0, 0⟩
  | .FT_REPLAY => ⟨0x4010, [], 8, 0, 0, 0, 0, 0, 0x98, 0, 0⟩
  | .FT_ATTEMPT => ⟨0x4018, [], 4, 0, 0, 0, 0, 0, 0x98, 0, 0⟩
  | .FT_SVC => ⟨0x4024, [], 8, 0, 0, 0, 0, 0, 0x98, 0, 0⟩
  | .FT_STAMP => ⟨0x4100, [(8, 17)], 8, 0, 0, 0, 0, 0, 0x98, 0, 1⟩
  | .FT_LOST => ⟨0x4400, [(4, 128)], 4, 0, 0xFFFFFFFF, 0, 0, 0, 0x98, 0, 0⟩
  | .FT_LOG_ENTRY => ⟨0x4800, [(4, 8)], 4, 0, 0, 0, 0, 0, 0x98, 0, 0⟩
  | .FT_LOG_POP => ⟨0x4820, [], 4, 0, 0, 0, 0, 0, 0x98, 0, 0⟩
  | .FT_LOG_STATUS => ⟨0x4824, [], 4, 0, 0, 0, 0, 0, 0x98, 0, 0⟩
  | .HP_CTRL => ⟨0x500000, [(0x40, 4096)], 4, 0, 3, 0, 0, 0, 0xE4, 0, 4⟩
  | .HP_CORES => ⟨0x500004, [(0x40, 4096)], 4, 0, 0xFFFF, 0, 0, 0, 0xE4, 0, 4⟩
  | .HP_SYNC => ⟨0x500008, [(0x40, 4096)], 4, 0, 0x7FFF3FFF, 0, 0, 0, 0xE4, 0, 4⟩
  | .HP_QUEUE => ⟨0x50000C, [(0x40, 4096)], 4, 0, 0x1FFF0FFF, 0, 0, 0, 0xE4, 0, 4⟩
  | .HP_STATUS => ⟨0x500010, [(0x40, 4096)], 4, 0, 0, 3, 0, 0, 0xE4, 0, 4⟩
  | .HP_VIOLADDR => ⟨0x500018, [(0x40, 4096)], 8, 0, 0, 0, 0, 0, 0xE4, 0, 4⟩
  | .HP_KEYCNT => ⟨0x500020, [(0x40, 4096)], 4, 0, 0, 0, 0, 0, 0xE4, 0, 4⟩
  | .HP_WSEL => ⟨0x540000, [], 4, 0, 0xF0FFF, 0, 0, 0, 0xE4, 0, 0⟩
  | .HP_WIN_VBASE => ⟨0x540008, [], 8, 0, 0xFFFFFFFFFFFFFFFF, 0, 0, 0, 0xE4, 0, 0⟩
  | .HP_WIN_PBASE => ⟨0x540010, [], 8, 0, 0xFFFFFFFFFFFFFFFF, 0, 0, 0, 0xE4, 0, 0⟩
  | .HP_WIN_SIZE => ⟨0x540018, [], 4, 0, 0xFFFFFFFF, 0, 0, 0, 0xE4, 0, 0⟩
  | .HP_WIN_ATTR => ⟨0x54001C, [], 4, 0, 7, 0, 0, 0, 0xE4, 0, 0⟩
  | .HP_WIN_APPLY => ⟨0x540020, [], 4, 0, 0, 0, 0, 0, 0xE4, 0, 0⟩
  | .HP_KEYCMD => ⟨0x540100, [], 4, 0, 0, 0, 0, 0, 0xE4, 0, 0⟩
  | .HP_KEYBLOB => ⟨0x540108, [], 8, 0, 0xFFFFFFFFFFFFFFFF, 0, 0, 0, 0xE4, 0, 0⟩
  | .HP_KEYSTAT => ⟨0x540110, [], 4, 0, 0, 0, 0, 0, 0xE4, 0, 0⟩
  | .HP_ATTACH => ⟨0x540200, [], 4, 0, 0x1FFF, 0, 0, 0, 0xE4, 0, 0⟩
  | .SC_STATE => ⟨0x580000, [], 4, 0, 0, 0, 0, 0, 0xE4, 0, 0⟩
  | .SC_CMD => ⟨0x580008, [], 8, 0, 0xFFFFFFFFFFFFFFFF, 0, 0, 0, 0xE4, 0, 0⟩
  | .SC_CMDGO => ⟨0x580010, [], 4, 0, 0, 0, 0, 0, 0xE4, 0, 0⟩
  | .SC_DEBUG => ⟨0x580020, [], 4, 0, 0, 0, 0, 0, 0xE4, 0, 0⟩
  | .SC_DEBUG_END => ⟨0x580028, [], 8, 0, 0, 0, 0, 0, 0xE4, 0, 0⟩
  | .SC_NONCE => ⟨0x580030, [], 8, 0, 0, 0, 0, 0, 0xE4, 0, 0⟩
  | .SC_OPKEY => ⟨0x580100, [(0x40, 3), (4, 12)], 4, 0, 0, 0, 0, 0xFFFFFFFF, 0xE4, 0, 0⟩
  | .SC_DEVPUB => ⟨0x580200, [(0x80, 2), (4, 25)], 4, 0, 0, 0, 0, 0, 0xE4, 0, 0⟩
  | .DG_HALT => ⟨0x2600000, [], 4, 0, 0, 0, 3, 0, 0xE9, 0, 0⟩
  | .DG_APER_HOOP => ⟨0x2600008, [], 4, 0, 0xFFF, 0, 0, 0, 0xE9, 0, 0⟩
  | .DG_APER_ADDR => ⟨0x2600010, [], 8, 0, 0xFFFFFFFFFFFFFFFF, 0, 0, 0, 0xE9, 0, 0⟩
  | .DG_APER_DATA => ⟨0x2600018, [], 4, 0, 0xFFFFFFFF, 0, 0, 0, 0xE9, 0, 0⟩
  | .DG_MM => ⟨0x2610000, [(0x10000, 17), (4, 16384)], 4, 0, 0, 0, 0, 0, 0xE9, 0, 0⟩
  | .CK_PLL => ⟨0x100000, [], 4, 0, 1, 0, 0, 0, 0xE7, 0, 0⟩
  | .CK_DOM => ⟨0x100004, [], 4, 0, 7, 0, 0, 0, 0xE7, 0, 0⟩
  | .CK_MON => ⟨0x100008, [], 4, 0x10000, 0xFFFF01FF, 0, 0, 0, 0xE7, 0, 0⟩
  | .CK_RST => ⟨0x10000C, [], 4, 0, 0, 0, 0x3FFFF, 0, 0xE7, 0, 0⟩
  | .CK_RSTTB => ⟨0x100010, [], 4, 0, 0, 0, 0x3FFFF, 0, 0xE7, 0, 0⟩
  | .PL_BOOT => ⟨0x108000, [], 4, 0, 0, 0, 0, 0, 0xE7, 0, 0⟩
  | .PL_WAKE_BEAT => ⟨0x108100, [(0x10, 8)], 8, 0, 0xFFFFFFFFFFFFFFFF, 0, 0, 0, 0xE7, 0, 0⟩
  | .PL_WAKE => ⟨0x108108, [(0x10, 8)], 4, 0, 1, 6, 0, 0, 0xE7, 0, 0⟩
  | .PL_FRAME => ⟨0x108200, [(0x40, 4)], 4, 0, 0x3F1, 6, 0, 0, 0xE7, 0, 0⟩
  | .PL_FRAME_PATTERN => ⟨0x108210, [(0x40, 4), (4, 4)], 4, 0, 0xFFFFFFFF, 0, 0, 0, 0xE7, 0, 0⟩
  | .PL_FRAME_MASK => ⟨0x108220, [(0x40, 4), (4, 4)], 4, 0, 0xFFFFFFFF, 0, 0, 0, 0xE7, 0, 0⟩
  | .PL_THERM => ⟨0x108300, [], 4, 0, 0xFF, 0, 0, 0, 0xE7, 0, 0⟩
  | .PL_TSEN => ⟨0x108308, [], 8, 0, 0xFFFFFFFFFFFFFFFF, 0, 0, 0, 0xE7, 0, 0⟩
  | .PW_CTRL => ⟨0x200000, [], 4, 0, 1, 0, 0, 0, 0x96, 0, 0⟩
  | .PW_STATE => ⟨0x200004, [], 4, 0, 0, 0, 0, 0, 0x96, 0, 0⟩
  | .PW_REQ => ⟨0x200008, [], 4, 0, 0, 0, 0, 0, 0x96, 0, 0⟩
  | .PW_STATUS => ⟨0x20000C, [], 4, 0, 0, 0x17, 0, 0, 0x96, 0, 0⟩
  | .PW_SLEW => ⟨0x200010, [], 4, 0, 0xFFFF, 0, 0, 0, 0x96, 0, 0⟩
  | .PW_SWING => ⟨0x200014, [], 4, 0, 0xFFFF, 0, 0, 0, 0x96, 0, 0⟩
  | .PW_DOWN => ⟨0x200018, [], 4, 0, 0xFFFF, 0, 0, 0, 0x96, 0, 0⟩
  | .PW_IMAX => ⟨0x20001C, [], 4, 0, 0xFFFF, 0, 0, 0, 0x96, 0, 0⟩
  | .PW_VMIN => ⟨0x200020, [], 4, 0, 0xFFFF, 0, 0, 0, 0x96, 0, 0⟩
  | .PW_VMAX => ⟨0x200024, [], 4, 0, 0xFFFF, 0, 0, 0, 0x96, 0, 0⟩
  | .PW_TEMERG => ⟨0x200028, [], 4, 0, 0xFFFF, 0, 0, 0, 0x96, 0, 0⟩
  | .PW_TTRIP => ⟨0x20002C, [], 4, 0, 0xFFFF, 0, 0, 0, 0x96, 0, 0⟩
  | .PW_TWARN => ⟨0x200030, [], 4, 0, 0xFFFF, 0, 0, 0, 0x96, 0, 0⟩
  | .PW_SMIN => ⟨0x200034, [], 4, 0, 0xFFFF, 0, 0, 0, 0x96, 0, 0⟩
  | .PW_DUMMY => ⟨0x200038, [], 4, 0, 0xFFFF, 0, 0, 0, 0x96, 0, 0⟩
  | .PW_CAL => ⟨0x20003C, [], 4, 0, 0xFFFFFFFF, 0, 0, 0, 0x96, 0, 0⟩
  | .PW_STRETCH => ⟨0x200040, [], 4, 0, 0x1FF0000, 0, 0, 0, 0x96, 0, 0⟩
  | .PW_VREQ => ⟨0x200044, [], 4, 0, 0xFFF, 0, 0, 0, 0x96, 0, 0⟩
  | .PW_TMAX => ⟨0x200048, [], 4, 0, 0, 0, 0, 0, 0x96, 0, 0⟩
  | .EN_CTRL => ⟨0x400000, [], 4, 0, 1, 0, 0, 0, 0xE6, 0, 0⟩
  | .EN_STATUS => ⟨0x400004, [], 4, 0, 0, 3, 0, 0, 0xE6, 0, 0⟩
  | .EN_MEASURED => ⟨0x400008, [], 8, 0, 0, 0, 0, 0, 0xE6, 0, 0⟩
  | .EN_OVERHEAD => ⟨0x400010, [], 8, 0, 0, 0, 0, 0, 0xE6, 0, 0⟩
  | .EN_REPLAY => ⟨0x400018, [], 8, 0, 0, 0, 0, 0, 0xE6, 0, 0⟩
  | .EN_RAIL => ⟨0x400100, [(0x10, 8)], 4, 0, 7, 0, 0, 0, 0xE6, 0, 0⟩
  | .EN_RAIL_FALLBACK => ⟨0x400104, [(0x10, 8)], 4, 0, 0xFFFFFFFF, 0, 0, 0, 0xE6, 0, 0⟩
  | .EN_RAIL_V => ⟨0x400108, [(0x10, 8)], 4, 0, 0, 0, 0, 0, 0xE6, 0, 0⟩
  | .EN_RAIL_I => ⟨0x40010C, [(0x10, 8)], 4, 0, 0, 0, 0, 0, 0xE6, 0, 0⟩
  | .EN_CAL => ⟨0x400200, [(4, 16)], 4, 0, 0, 0, 0, 0xFFFFFFFF, 0xE6, 0, 0⟩
  | .EN_CAL_ID => ⟨0x400240, [], 4, 0, 0, 0, 0, 0xFFFFFFFF, 0xE6, 0, 0⟩
  | .EN_CSEL => ⟨0x400300, [], 4, 0, 0x3FFF, 0, 0, 0, 0xE6, 0, 0⟩
  | .EN_CTX_COMM => ⟨0x400308, [], 8, 0, 0, 0, 0, 0, 0xE6, 0, 0⟩
  | .EN_CTX_OPEN => ⟨0x400310, [], 8, 0, 0, 0, 0, 0, 0xE6, 0, 0⟩
  | .EN_SIGN => ⟨0x400400, [], 4, 0, 0x7FFF, 0x30000, 0x8000, 0, 0xE6, 0, 0⟩
  | .EN_SIGNBUF => ⟨0x400408, [], 8, 0, 0xFFFFFFFFFFFFFFFF, 0, 0, 0, 0xE6, 0, 0⟩
  | .EN_CHAIN => ⟨0x400410, [], 8, 0, 0, 0, 0, 0, 0xE6, 0, 0⟩
  | .EN_COUNTER => ⟨0x400418, [], 8, 0, 0, 0, 0, 0, 0xE6, 0, 0⟩
  | .EN_LASTHASH => ⟨0x400420, [(4, 12)], 4, 0, 0, 0, 0, 0, 0xE6, 0, 0⟩
  | .EN_ACCT => ⟨0x410000, [(8, 4096)], 8, 0, 0, 0, 0, 0, 0xE6, 0, 4⟩
  | .MG_SNAPCTRL => ⟨0x6000, [], 4, 0, 0xFF00, 6, 1, 0, 0xE8, 0, 0⟩
  | .MG_SNAPLIST => ⟨0x6008, [], 8, 0, 0xFFFFFFFFFFFFFFFF, 0, 0, 0, 0xE8, 0, 0⟩
  | .MG_SNAPBUF => ⟨0x6010, [], 8, 0, 0xFFFFFFFFFFFFFFFF, 0, 0, 0, 0xE8, 0, 0⟩
  | .MG_SNAPBEAT => ⟨0x6018, [], 8, 0, 0, 0, 0, 0, 0xE8, 0, 0⟩
  | .MG_MFP_CTRL => ⟨0x6100, [], 4, 0x8FF00, 0xFFFF01, 0, 0, 0, 0xE8, 0, 0⟩
  | .MG_MFP_ETYPE => ⟨0x6104, [], 4, 0x88B5, 0xFFFF, 0, 0, 0, 0xE8, 0, 0⟩
  | .MG_MFP_DROP => ⟨0x6108, [], 8, 0, 0, 0, 0, 0, 0xE8, 0, 0⟩
  | .GL_ID => ⟨0, [], 4, 0x46520002, 0, 0, 0, 0, 0x98, 0, 0⟩
  | .GL_SERIAL => ⟨8, [], 8, 0, 0, 0, 0, 0, 0x98, 0, 0⟩
  | .GL_PARAMS => ⟨0x10, [], 8, 0, 0, 0, 0, 0, 0x98, 0, 0⟩

/-- Part 0 of the list of all registers. -/
def Reg.list0 : List Reg :=
  [.TM_CTRL, .TM_STATUS, .TM_NOW, .TM_NOW_PHASE, .TM_TRIM, .TM_ERR,
   .TM_TRIMCNT, .TM_STRETCH, .TM_EPOCH, .TM_PRK_ACTIVE, .TM_PRK_SHADOW, .TM_EPOCH_CTRL,
   .TM_LAG, .CR_ARR_CTRL, .CR_ARR_STATUS, .CR_ARR_SPARE, .CR_ARR_DUMMY, .CR_ARR_FAULT,
   .CR_ARR_TREE, .CR_ARR_STOPMAX, .CR_ARR_PASSES, .CR_DRN_CTRL, .CR_DRN_STATUS, .CR_DRN_CLIPS,
   .CR_DRN_NONFIN, .CR_DRN_SAT, .CR_MAC_CTRL, .CR_MAC_STATUS, .CR_MAC_FAULT, .CR_MAC_RTM,
   .CR_MAC_RTN, .CR_MAC_RTK, .CR_MAC_RTB, .CR_MAC_DQ, .CR_SEQ_CTRL, .CR_SEQ_STATUS,
   .CR_SEQ_RING_BASE, .CR_SEQ_RING_SIZE, .CR_SEQ_RING_TAIL, .CR_SEQ_RING_HEAD]

/-- Part 1 of the list of all registers. -/
def Reg.list1 : List Reg :=
  [.CR_SEQ_RING_CHEAD, .CR_SEQ_BANK, .CR_SEQ_BANK0_POS, .CR_SEQ_BANK1_POS, .CR_SEQ_HALT, .CR_SEQ_ISSUED,
   .CR_SEQ_SLACKMIN, .CR_SEQ_QD0, .CR_SEQ_QD1, .CR_SEQ_QD2, .CR_SEQ_QD3, .CR_SEQ_LOOP,
   .CR_SEQ_CT, .CR_SEQ_CM, .CR_SEQ_S, .BB_CTRL, .BB_STATUS, .BB_FAULT,
   .BB_GRANT, .BB_LAPSED, .BB_GSKIP, .BB_GOVF, .BB_SLOTS, .BB_DESC,
   .BB_ATOMS, .BB_UNITS, .BB_DISCARD, .CR_MM_CTRL, .CR_MM_STATUS, .CR_MM_CORR,
   .MP_BM_CTRL, .MP_BM_STATUS, .MP_BM_HITS, .MP_BM_MISSES, .MP_BM_REFETCH, .MP_WC,
   .MP_ERR_ENTRY, .MP_ERR_POP, .MP_ERR_STATUS, .MP_CFG]

/-- Part 2 of the list of all registers. -/
def Reg.list2 : List Reg :=
  [.MP_STATUS, .MP_CT_BUF0, .MP_CT_BUF1, .MP_CT_SIZE, .MP_CT_FLAGS, .MP_CT_GEN,
   .MP_CT_RSVD, .TB_CTRL, .GT_CTRL, .TB_STATUS, .GT_STATUS, .TB_IMAGE,
   .GT_IMAGE, .TB_ID, .GT_ID, .TB_ACT, .GT_ACT, .TB_ACTMAX,
   .GT_ACTMAX, .TB_TOGGLES, .GT_TOGGLES, .TB_CORR, .GT_CORR, .TB_FN,
   .GT_FN, .SY_VALUE, .SY_COMMITTED, .SY_WMARK, .SY_STATUS, .SY_CTRL,
   .SY_COUCH, .SY_USTATUS, .SY_RX, .SQ_CTRL, .SQ_STATUS, .SQ_BASE,
   .SQ_TAILADDR, .SQ_COMPBASE, .SQ_HEAD, .SQ_DONE]

/-- Part 3 of the list of all registers. -/
def Reg.list3 : List Reg :=
  [.SQ_TAILSEEN, .SQ_HOOP, .GRAPH_BUF0, .GRAPH_BUF1, .GRAPH_LENGTH, .GRAPH_FLAGS,
   .GRAPH_GEN, .GRAPH_USE, .ARM_CFG, .ARM_STEP, .ARM_TAGBASE, .ARM_COMPBASE,
   .ARM_LAUNCHES, .ARM_SKIPS, .SQ_SCAN_CTRL, .SQ_READY, .SQ_READY_POP, .SQ_SWEEP,
   .SQ_CTX_STATUS, .CTX_STATE, .CTX_QUEUE, .CTX_TAG, .CTX_SEQ, .CTX_ENERGY,
   .CTX_GEN, .CTX_CMD, .LK_CTRL, .LK_STATUS, .LK_ADDR, .LK_ELECT,
   .LK_ELECT_SERIAL, .LK_MGMT_DROP, .LK_CLIENT_DROP, .LK_GRT, .LK_MRT, .LK_CLIENT,
   .LK_CLIENT_QUEUE, .LK_CLIENT_TAIL, .LK_P_CTRL, .LK_P_STATUS]

/-- Part 4 of the list of all registers. -/
def Reg.list4 : List Reg :=
  [.LK_P_LANEMAP, .LK_P_DELAY, .LK_P_NEIGH, .LK_P_NADDR, .LK_P_CORR, .LK_P_UNCORR,
   .LK_P_MISS, .DP_CTRL, .DP_STATUS, .DP_WDOG, .DP_WDOG2, .DP_KICK,
   .DP_LEAD, .DP_TAKES, .DP_COVER, .DP_STAGE, .DP_TAKE_CTX, .DP_TAKE,
   .DP_CTXPROG, .MB_CTRL, .FT_CTRL, .FT_STATUS, .FT_WAVE, .FT_SPARE,
   .FT_REPLAY, .FT_ATTEMPT, .FT_SVC, .FT_STAMP, .FT_LOST, .FT_LOG_ENTRY,
   .FT_LOG_POP, .FT_LOG_STATUS, .HP_CTRL, .HP_CORES, .HP_SYNC, .HP_QUEUE,
   .HP_STATUS, .HP_VIOLADDR, .HP_KEYCNT, .HP_WSEL]

/-- Part 5 of the list of all registers. -/
def Reg.list5 : List Reg :=
  [.HP_WIN_VBASE, .HP_WIN_PBASE, .HP_WIN_SIZE, .HP_WIN_ATTR, .HP_WIN_APPLY, .HP_KEYCMD,
   .HP_KEYBLOB, .HP_KEYSTAT, .HP_ATTACH, .SC_STATE, .SC_CMD, .SC_CMDGO,
   .SC_DEBUG, .SC_DEBUG_END, .SC_NONCE, .SC_OPKEY, .SC_DEVPUB, .DG_HALT,
   .DG_APER_HOOP, .DG_APER_ADDR, .DG_APER_DATA, .DG_MM, .CK_PLL, .CK_DOM,
   .CK_MON, .CK_RST, .CK_RSTTB, .PL_BOOT, .PL_WAKE_BEAT, .PL_WAKE,
   .PL_FRAME, .PL_FRAME_PATTERN, .PL_FRAME_MASK, .PL_THERM, .PL_TSEN, .PW_CTRL,
   .PW_STATE, .PW_REQ, .PW_STATUS, .PW_SLEW]

/-- Part 6 of the list of all registers. -/
def Reg.list6 : List Reg :=
  [.PW_SWING, .PW_DOWN, .PW_IMAX, .PW_VMIN, .PW_VMAX, .PW_TEMERG,
   .PW_TTRIP, .PW_TWARN, .PW_SMIN, .PW_DUMMY, .PW_CAL, .PW_STRETCH,
   .PW_VREQ, .PW_TMAX, .EN_CTRL, .EN_STATUS, .EN_MEASURED, .EN_OVERHEAD,
   .EN_REPLAY, .EN_RAIL, .EN_RAIL_FALLBACK, .EN_RAIL_V, .EN_RAIL_I, .EN_CAL,
   .EN_CAL_ID, .EN_CSEL, .EN_CTX_COMM, .EN_CTX_OPEN, .EN_SIGN, .EN_SIGNBUF,
   .EN_CHAIN, .EN_COUNTER, .EN_LASTHASH, .EN_ACCT, .MG_SNAPCTRL, .MG_SNAPLIST,
   .MG_SNAPBUF, .MG_SNAPBEAT, .MG_MFP_CTRL, .MG_MFP_ETYPE]

/-- Part 7 of the list of all registers. -/
def Reg.list7 : List Reg :=
  [.MG_MFP_DROP, .GL_ID, .GL_SERIAL, .GL_PARAMS]

/-- Every register. -/
def Reg.all : List Reg := Reg.list0 ++ Reg.list1 ++ Reg.list2 ++ Reg.list3 ++ Reg.list4 ++ Reg.list5 ++ Reg.list6 ++ Reg.list7

/-! Fields. -/

def F.TM_CTRL_ENABLE : Fld := ⟨.TM_CTRL, 0, 1⟩
def F.TM_CTRL_SOURCE : Fld := ⟨.TM_CTRL, 1, 3⟩
def F.TM_CTRL_PORT : Fld := ⟨.TM_CTRL, 4, 5⟩
def F.TM_CTRL_BACKUP_PORT : Fld := ⟨.TM_CTRL, 9, 5⟩
def F.TM_CTRL_DEPTH : Fld := ⟨.TM_CTRL, 14, 3⟩
def F.TM_CTRL_TREF_LOG2 : Fld := ⟨.TM_CTRL, 17, 3⟩
def F.TM_STATUS_STATE : Fld := ⟨.TM_STATUS, 0, 3⟩
def F.TM_STATUS_BOUND : Fld := ⟨.TM_STATUS, 3, 1⟩
def F.TM_STATUS_LOST : Fld := ⟨.TM_STATUS, 4, 1⟩
def F.TM_STATUS_SET_DURING_CLEAR : Fld := ⟨.TM_STATUS, 5, 1⟩
def F.TM_STATUS_REASON : Fld := ⟨.TM_STATUS, 16, 16⟩
def F.TM_NOW_BEAT : Fld := ⟨.TM_NOW, 0, 64⟩
def F.TM_NOW_PHASE_PHASE : Fld := ⟨.TM_NOW_PHASE, 0, 8⟩
def F.TM_NOW_PHASE_HOLD : Fld := ⟨.TM_NOW_PHASE, 8, 1⟩
def F.TM_TRIM_MODE : Fld := ⟨.TM_TRIM, 0, 2⟩
def F.TM_TRIM_STEP_LONG : Fld := ⟨.TM_TRIM, 2, 1⟩
def F.TM_TRIM_STEP_SHORT : Fld := ⟨.TM_TRIM, 3, 1⟩
def F.TM_TRIM_THRESH : Fld := ⟨.TM_TRIM, 4, 4⟩
def F.TM_TRIM_AVG_LOG2 : Fld := ⟨.TM_TRIM, 8, 4⟩
def F.TM_TRIM_MINGAP : Fld := ⟨.TM_TRIM, 12, 4⟩
def F.TM_ERR_AVG : Fld := ⟨.TM_ERR, 0, 16⟩
def F.TM_ERR_LAST : Fld := ⟨.TM_ERR, 16, 16⟩
def F.TM_TRIMCNT_LONG : Fld := ⟨.TM_TRIMCNT, 0, 16⟩
def F.TM_TRIMCNT_SHORT : Fld := ⟨.TM_TRIMCNT, 16, 16⟩
def F.TM_STRETCH_CURRENT : Fld := ⟨.TM_STRETCH, 0, 9⟩
def F.TM_STRETCH_TARGET : Fld := ⟨.TM_STRETCH, 16, 9⟩
def F.TM_STRETCH_PENDING : Fld := ⟨.TM_STRETCH, 31, 1⟩
def F.TM_EPOCH_EPOCH : Fld := ⟨.TM_EPOCH, 0, 64⟩
def F.TM_PRK_ACTIVE_BASE : Fld := ⟨.TM_PRK_ACTIVE, 12, 16⟩
def F.TM_PRK_SHADOW_BASE : Fld := ⟨.TM_PRK_SHADOW, 12, 16⟩
def F.TM_EPOCH_CTRL_ARM : Fld := ⟨.TM_EPOCH_CTRL, 0, 1⟩
def F.TM_EPOCH_CTRL_DISARM : Fld := ⟨.TM_EPOCH_CTRL, 1, 1⟩
def F.TM_EPOCH_CTRL_SWITCHED : Fld := ⟨.TM_EPOCH_CTRL, 2, 1⟩
def F.TM_EPOCH_CTRL_SET_DURING_CLEAR : Fld := ⟨.TM_EPOCH_CTRL, 3, 1⟩
def F.TM_EPOCH_CTRL_REASON : Fld := ⟨.TM_EPOCH_CTRL, 16, 16⟩
def F.TM_LAG_LAG : Fld := ⟨.TM_LAG, 0, 21⟩
def F.CR_ARR_CTRL_ENABLE : Fld := ⟨.CR_ARR_CTRL, 0, 1⟩
def F.CR_ARR_CTRL_TREE : Fld := ⟨.CR_ARR_CTRL, 1, 1⟩
def F.CR_ARR_STATUS_BUSY : Fld := ⟨.CR_ARR_STATUS, 0, 1⟩
def F.CR_ARR_STATUS_HELD : Fld := ⟨.CR_ARR_STATUS, 1, 1⟩
def F.CR_ARR_STATUS_SCRUB : Fld := ⟨.CR_ARR_STATUS, 2, 1⟩
def F.CR_ARR_STATUS_FAULT : Fld := ⟨.CR_ARR_STATUS, 3, 1⟩
def F.CR_ARR_STATUS_SET_DURING_CLEAR : Fld := ⟨.CR_ARR_STATUS, 4, 1⟩
def F.CR_ARR_STATUS_BYPASSED : Fld := ⟨.CR_ARR_STATUS, 5, 2⟩
def F.CR_ARR_STATUS_REASON : Fld := ⟨.CR_ARR_STATUS, 16, 16⟩
def F.CR_ARR_SPARE_ROW0 : Fld := ⟨.CR_ARR_SPARE, 0, 10⟩
def F.CR_ARR_SPARE_VALID0 : Fld := ⟨.CR_ARR_SPARE, 10, 1⟩
def F.CR_ARR_SPARE_VERIFIED0 : Fld := ⟨.CR_ARR_SPARE, 11, 1⟩
def F.CR_ARR_SPARE_ROW1 : Fld := ⟨.CR_ARR_SPARE, 16, 10⟩
def F.CR_ARR_SPARE_VALID1 : Fld := ⟨.CR_ARR_SPARE, 26, 1⟩
def F.CR_ARR_SPARE_VERIFIED1 : Fld := ⟨.CR_ARR_SPARE, 27, 1⟩
def F.CR_ARR_DUMMY_LEVEL : Fld := ⟨.CR_ARR_DUMMY, 0, 7⟩
def F.CR_ARR_DUMMY_CEILING : Fld := ⟨.CR_ARR_DUMMY, 16, 7⟩
def F.CR_ARR_FAULT_ROW : Fld := ⟨.CR_ARR_FAULT, 0, 10⟩
def F.CR_ARR_FAULT_COL : Fld := ⟨.CR_ARR_FAULT, 10, 6⟩
def F.CR_ARR_FAULT_KIND : Fld := ⟨.CR_ARR_FAULT, 16, 3⟩
def F.CR_ARR_TREE_ROW : Fld := ⟨.CR_ARR_TREE, 0, 10⟩
def F.CR_ARR_TREE_OP : Fld := ⟨.CR_ARR_TREE, 10, 2⟩
def F.CR_ARR_TREE_START : Fld := ⟨.CR_ARR_TREE, 12, 1⟩
def F.CR_ARR_TREE_DONE : Fld := ⟨.CR_ARR_TREE, 13, 1⟩
def F.CR_ARR_TREE_PASS : Fld := ⟨.CR_ARR_TREE, 14, 1⟩
def F.CR_ARR_TREE_SET_DURING_CLEAR : Fld := ⟨.CR_ARR_TREE, 15, 1⟩
def F.CR_ARR_STOPMAX_MAX : Fld := ⟨.CR_ARR_STOPMAX, 0, 16⟩
def F.CR_ARR_PASSES_COUNT : Fld := ⟨.CR_ARR_PASSES, 0, 64⟩
def F.CR_DRN_CTRL_ENABLE : Fld := ⟨.CR_DRN_CTRL, 0, 1⟩
def F.CR_DRN_CTRL_RB_BANK0 : Fld := ⟨.CR_DRN_CTRL, 8, 8⟩
def F.CR_DRN_CTRL_RB_BANKS : Fld := ⟨.CR_DRN_CTRL, 16, 8⟩
def F.CR_DRN_STATUS_BUSY : Fld := ⟨.CR_DRN_STATUS, 0, 1⟩
def F.CR_DRN_STATUS_CLIPPED : Fld := ⟨.CR_DRN_STATUS, 1, 1⟩
def F.CR_DRN_STATUS_NONFINITE : Fld := ⟨.CR_DRN_STATUS, 2, 1⟩
def F.CR_DRN_STATUS_SATURATED : Fld := ⟨.CR_DRN_STATUS, 3, 1⟩
def F.CR_DRN_STATUS_SET_DURING_CLEAR : Fld := ⟨.CR_DRN_STATUS, 4, 1⟩
def F.CR_DRN_STATUS_REASON : Fld := ⟨.CR_DRN_STATUS, 16, 16⟩
def F.CR_DRN_CLIPS_COUNT : Fld := ⟨.CR_DRN_CLIPS, 0, 64⟩
def F.CR_DRN_NONFIN_COUNT : Fld := ⟨.CR_DRN_NONFIN, 0, 64⟩
def F.CR_DRN_SAT_COUNT : Fld := ⟨.CR_DRN_SAT, 0, 64⟩
def F.CR_MAC_CTRL_ENABLE : Fld := ⟨.CR_MAC_CTRL, 0, 1⟩
def F.CR_MAC_STATUS_BUSY : Fld := ⟨.CR_MAC_STATUS, 0, 1⟩
def F.CR_MAC_STATUS_ZERO : Fld := ⟨.CR_MAC_STATUS, 1, 1⟩
def F.CR_MAC_STATUS_FAULT : Fld := ⟨.CR_MAC_STATUS, 2, 1⟩
def F.CR_MAC_STATUS_SET_DURING_CLEAR : Fld := ⟨.CR_MAC_STATUS, 3, 1⟩
def F.CR_MAC_STATUS_REASON : Fld := ⟨.CR_MAC_STATUS, 16, 16⟩
def F.CR_MAC_FAULT_STILE : Fld := ⟨.CR_MAC_FAULT, 0, 16⟩
def F.CR_MAC_FAULT_OTILE : Fld := ⟨.CR_MAC_FAULT, 16, 16⟩
def F.CR_MAC_FAULT_KC : Fld := ⟨.CR_MAC_FAULT, 32, 16⟩
def F.CR_MAC_FAULT_BATCH : Fld := ⟨.CR_MAC_FAULT, 48, 16⟩
def F.CR_MAC_RTM_VALUE : Fld := ⟨.CR_MAC_RTM, 0, 32⟩
def F.CR_MAC_RTN_VALUE : Fld := ⟨.CR_MAC_RTN, 0, 32⟩
def F.CR_MAC_RTK_VALUE : Fld := ⟨.CR_MAC_RTK, 0, 32⟩
def F.CR_MAC_RTB_VALUE : Fld := ⟨.CR_MAC_RTB, 0, 32⟩
def F.CR_MAC_DQ_FA : Fld := ⟨.CR_MAC_DQ, 0, 3⟩
def F.CR_MAC_DQ_FB : Fld := ⟨.CR_MAC_DQ, 4, 3⟩
def F.CR_MAC_DQ_DR : Fld := ⟨.CR_MAC_DQ, 8, 3⟩
def F.CR_MAC_DQ_V0 : Fld := ⟨.CR_MAC_DQ, 12, 3⟩
def F.CR_SEQ_CTRL_ENABLE : Fld := ⟨.CR_SEQ_CTRL, 0, 1⟩
def F.CR_SEQ_STATUS_STATE : Fld := ⟨.CR_SEQ_STATUS, 0, 2⟩
def F.CR_SEQ_STATUS_HALT : Fld := ⟨.CR_SEQ_STATUS, 2, 1⟩
def F.CR_SEQ_STATUS_LATE : Fld := ⟨.CR_SEQ_STATUS, 3, 1⟩
def F.CR_SEQ_STATUS_SET_DURING_CLEAR : Fld := ⟨.CR_SEQ_STATUS, 4, 1⟩
def F.CR_SEQ_STATUS_REASON : Fld := ⟨.CR_SEQ_STATUS, 16, 16⟩
def F.CR_SEQ_RING_BASE_BASE : Fld := ⟨.CR_SEQ_RING_BASE, 12, 16⟩
def F.CR_SEQ_RING_SIZE_LOG2 : Fld := ⟨.CR_SEQ_RING_SIZE, 0, 5⟩
def F.CR_SEQ_RING_TAIL_POS : Fld := ⟨.CR_SEQ_RING_TAIL, 0, 32⟩
def F.CR_SEQ_RING_HEAD_POS : Fld := ⟨.CR_SEQ_RING_HEAD, 0, 32⟩
def F.CR_SEQ_RING_CHEAD_POS : Fld := ⟨.CR_SEQ_RING_CHEAD, 0, 32⟩
def F.CR_SEQ_BANK_REQ0 : Fld := ⟨.CR_SEQ_BANK, 0, 1⟩
def F.CR_SEQ_BANK_REQ1 : Fld := ⟨.CR_SEQ_BANK, 1, 1⟩
def F.CR_SEQ_BANK_GRANT0 : Fld := ⟨.CR_SEQ_BANK, 2, 1⟩
def F.CR_SEQ_BANK_GRANT1 : Fld := ⟨.CR_SEQ_BANK, 3, 1⟩
def F.CR_SEQ_BANK_VALID0 : Fld := ⟨.CR_SEQ_BANK, 4, 1⟩
def F.CR_SEQ_BANK_VALID1 : Fld := ⟨.CR_SEQ_BANK, 5, 1⟩
def F.CR_SEQ_BANK_WIN0 : Fld := ⟨.CR_SEQ_BANK, 6, 1⟩
def F.CR_SEQ_BANK_WIN1 : Fld := ⟨.CR_SEQ_BANK, 7, 1⟩
def F.CR_SEQ_BANK0_POS_POS : Fld := ⟨.CR_SEQ_BANK0_POS, 0, 32⟩
def F.CR_SEQ_BANK1_POS_POS : Fld := ⟨.CR_SEQ_BANK1_POS, 0, 32⟩
def F.CR_SEQ_HALT_POS : Fld := ⟨.CR_SEQ_HALT, 0, 32⟩
def F.CR_SEQ_HALT_REASON : Fld := ⟨.CR_SEQ_HALT, 32, 16⟩
def F.CR_SEQ_HALT_OPCODE : Fld := ⟨.CR_SEQ_HALT, 48, 8⟩
def F.CR_SEQ_HALT_DEPTH : Fld := ⟨.CR_SEQ_HALT, 56, 3⟩
def F.CR_SEQ_ISSUED_COUNT : Fld := ⟨.CR_SEQ_ISSUED, 0, 64⟩
def F.CR_SEQ_SLACKMIN_MIN : Fld := ⟨.CR_SEQ_SLACKMIN, 0, 16⟩
def F.CR_SEQ_QD0_AC : Fld := ⟨.CR_SEQ_QD0, 0, 6⟩
def F.CR_SEQ_QD0_DR : Fld := ⟨.CR_SEQ_QD0, 8, 6⟩
def F.CR_SEQ_QD0_V0 : Fld := ⟨.CR_SEQ_QD0, 16, 6⟩
def F.CR_SEQ_QD0_V1 : Fld := ⟨.CR_SEQ_QD0, 24, 6⟩
def F.CR_SEQ_QD1_V2 : Fld := ⟨.CR_SEQ_QD1, 0, 6⟩
def F.CR_SEQ_QD1_V3 : Fld := ⟨.CR_SEQ_QD1, 8, 6⟩
def F.CR_SEQ_QD1_T0 : Fld := ⟨.CR_SEQ_QD1, 16, 6⟩
def F.CR_SEQ_QD1_T1 : Fld := ⟨.CR_SEQ_QD1, 24, 6⟩
def F.CR_SEQ_QD2_B0 : Fld := ⟨.CR_SEQ_QD2, 0, 6⟩
def F.CR_SEQ_QD2_B1 : Fld := ⟨.CR_SEQ_QD2, 8, 6⟩
def F.CR_SEQ_QD2_B2 : Fld := ⟨.CR_SEQ_QD2, 16, 6⟩
def F.CR_SEQ_QD2_B3 : Fld := ⟨.CR_SEQ_QD2, 24, 6⟩
def F.CR_SEQ_QD3_B4 : Fld := ⟨.CR_SEQ_QD3, 0, 6⟩
def F.CR_SEQ_QD3_B5 : Fld := ⟨.CR_SEQ_QD3, 8, 6⟩
def F.CR_SEQ_QD3_B6 : Fld := ⟨.CR_SEQ_QD3, 16, 6⟩
def F.CR_SEQ_QD3_B7 : Fld := ⟨.CR_SEQ_QD3, 24, 6⟩
def F.CR_SEQ_LOOP_COUNT : Fld := ⟨.CR_SEQ_LOOP, 0, 24⟩
def F.CR_SEQ_LOOP_OPEN : Fld := ⟨.CR_SEQ_LOOP, 31, 1⟩
def F.CR_SEQ_LOOP_INDEX : Fld := ⟨.CR_SEQ_LOOP, 32, 24⟩
def F.CR_SEQ_CT_VALUE : Fld := ⟨.CR_SEQ_CT, 0, 32⟩
def F.CR_SEQ_CM_RESULT : Fld := ⟨.CR_SEQ_CM, 0, 1⟩
def F.CR_SEQ_CM_EN : Fld := ⟨.CR_SEQ_CM, 1, 1⟩
def F.CR_SEQ_CM_COND : Fld := ⟨.CR_SEQ_CM, 2, 3⟩
def F.CR_SEQ_S_VALUE : Fld := ⟨.CR_SEQ_S, 0, 64⟩
def F.BB_CTRL_ENABLE : Fld := ⟨.BB_CTRL, 0, 1⟩
def F.BB_CTRL_WALK_A : Fld := ⟨.BB_CTRL, 4, 3⟩
def F.BB_CTRL_WALK_B : Fld := ⟨.BB_CTRL, 8, 3⟩
def F.BB_CTRL_WALK_OUT : Fld := ⟨.BB_CTRL, 12, 3⟩
def F.BB_STATUS_FAULT : Fld := ⟨.BB_STATUS, 0, 1⟩
def F.BB_STATUS_SET_DURING_CLEAR : Fld := ⟨.BB_STATUS, 1, 1⟩
def F.BB_STATUS_REASON : Fld := ⟨.BB_STATUS, 16, 16⟩
def F.BB_FAULT_BOBBIN : Fld := ⟨.BB_FAULT, 0, 3⟩
def F.BB_FAULT_SLOT : Fld := ⟨.BB_FAULT, 3, 2⟩
def F.BB_FAULT_OP : Fld := ⟨.BB_FAULT, 8, 4⟩
def F.BB_FAULT_ATOM : Fld := ⟨.BB_FAULT, 16, 48⟩
def F.BB_GRANT_READ : Fld := ⟨.BB_GRANT, 0, 10⟩
def F.BB_GRANT_WRITE : Fld := ⟨.BB_GRANT, 10, 10⟩
def F.BB_GRANT_REMOTE : Fld := ⟨.BB_GRANT, 20, 10⟩
def F.BB_LAPSED_COUNT : Fld := ⟨.BB_LAPSED, 0, 64⟩
def F.BB_GSKIP_COUNT : Fld := ⟨.BB_GSKIP, 0, 64⟩
def F.BB_GOVF_COUNT : Fld := ⟨.BB_GOVF, 0, 64⟩
def F.BB_SLOTS_ST : Fld := ⟨.BB_SLOTS, 0, 8⟩
def F.BB_SLOTS_ACTIVE : Fld := ⟨.BB_SLOTS, 8, 2⟩
def F.BB_SLOTS_NEXT : Fld := ⟨.BB_SLOTS, 10, 2⟩
def F.BB_SLOTS_OUT : Fld := ⟨.BB_SLOTS, 16, 5⟩
def F.BB_DESC_ADDR : Fld := ⟨.BB_DESC, 0, 32⟩
def F.BB_ATOMS_COUNT : Fld := ⟨.BB_ATOMS, 0, 64⟩
def F.BB_UNITS_COUNT : Fld := ⟨.BB_UNITS, 0, 64⟩
def F.BB_DISCARD_COUNT : Fld := ⟨.BB_DISCARD, 0, 64⟩
def F.CR_MM_CTRL_ENABLE : Fld := ⟨.CR_MM_CTRL, 0, 1⟩
def F.CR_MM_STATUS_INIT : Fld := ⟨.CR_MM_STATUS, 0, 1⟩
def F.CR_MM_STATUS_UNCORR : Fld := ⟨.CR_MM_STATUS, 1, 1⟩
def F.CR_MM_STATUS_SET_DURING_CLEAR : Fld := ⟨.CR_MM_STATUS, 2, 1⟩
def F.CR_MM_STATUS_REASON : Fld := ⟨.CR_MM_STATUS, 16, 16⟩
def F.CR_MM_CORR_COUNT : Fld := ⟨.CR_MM_CORR, 0, 64⟩
def F.MP_BM_CTRL_ENABLE : Fld := ⟨.MP_BM_CTRL, 0, 1⟩
def F.MP_BM_CTRL_INVAL : Fld := ⟨.MP_BM_CTRL, 1, 1⟩
def F.MP_BM_CTRL_SCRATCH_UNITS : Fld := ⟨.MP_BM_CTRL, 8, 6⟩
def F.MP_BM_CTRL_SCRUB_LOG2 : Fld := ⟨.MP_BM_CTRL, 16, 4⟩
def F.MP_BM_STATUS_INIT : Fld := ⟨.MP_BM_STATUS, 0, 1⟩
def F.MP_BM_STATUS_UNCORR : Fld := ⟨.MP_BM_STATUS, 1, 1⟩
def F.MP_BM_STATUS_SET_DURING_CLEAR : Fld := ⟨.MP_BM_STATUS, 2, 1⟩
def F.MP_BM_STATUS_REASON : Fld := ⟨.MP_BM_STATUS, 16, 16⟩
def F.MP_BM_HITS_COUNT : Fld := ⟨.MP_BM_HITS, 0, 64⟩
def F.MP_BM_MISSES_COUNT : Fld := ⟨.MP_BM_MISSES, 0, 64⟩
def F.MP_BM_REFETCH_COUNT : Fld := ⟨.MP_BM_REFETCH, 0, 64⟩
def F.MP_WC_READ : Fld := ⟨.MP_WC, 0, 16⟩
def F.MP_WC_WRITE : Fld := ⟨.MP_WC, 16, 16⟩
def F.MP_ERR_ENTRY_WORD : Fld := ⟨.MP_ERR_ENTRY, 0, 32⟩
def F.MP_ERR_POP_POP : Fld := ⟨.MP_ERR_POP, 0, 32⟩
def F.MP_ERR_STATUS_COUNT : Fld := ⟨.MP_ERR_STATUS, 0, 7⟩
def F.MP_ERR_STATUS_OVERFLOW : Fld := ⟨.MP_ERR_STATUS, 7, 1⟩
def F.MP_ERR_STATUS_SET_DURING_CLEAR : Fld := ⟨.MP_ERR_STATUS, 8, 1⟩
def F.MP_ERR_STATUS_LOST : Fld := ⟨.MP_ERR_STATUS, 16, 16⟩
def F.MP_CFG_SIZE_GIB : Fld := ⟨.MP_CFG, 0, 16⟩
def F.MP_CFG_CHK_MODE : Fld := ⟨.MP_CFG, 16, 1⟩
def F.MP_STATUS_OUTSTANDING : Fld := ⟨.MP_STATUS, 0, 9⟩
def F.MP_STATUS_ERRRESP : Fld := ⟨.MP_STATUS, 9, 1⟩
def F.MP_STATUS_UNCORR : Fld := ⟨.MP_STATUS, 10, 1⟩
def F.MP_STATUS_SET_DURING_CLEAR : Fld := ⟨.MP_STATUS, 11, 1⟩
def F.MP_STATUS_REASON : Fld := ⟨.MP_STATUS, 16, 16⟩
def F.MP_CT_BUF0_ADDR : Fld := ⟨.MP_CT_BUF0, 0, 64⟩
def F.MP_CT_BUF1_ADDR : Fld := ⟨.MP_CT_BUF1, 0, 64⟩
def F.MP_CT_SIZE_UNITS : Fld := ⟨.MP_CT_SIZE, 0, 32⟩
def F.MP_CT_FLAGS_HOOP : Fld := ⟨.MP_CT_FLAGS, 0, 12⟩
def F.MP_CT_FLAGS_HOOPZ : Fld := ⟨.MP_CT_FLAGS, 12, 4⟩
def F.MP_CT_FLAGS_VALID : Fld := ⟨.MP_CT_FLAGS, 16, 1⟩
def F.MP_CT_FLAGS_CUR : Fld := ⟨.MP_CT_FLAGS, 17, 1⟩
def F.MP_CT_FLAGS_PENDING : Fld := ⟨.MP_CT_FLAGS, 18, 1⟩
def F.MP_CT_FLAGS_ZERO : Fld := ⟨.MP_CT_FLAGS, 19, 13⟩
def F.MP_CT_GEN_COUNT : Fld := ⟨.MP_CT_GEN, 0, 32⟩
def F.MP_CT_RSVD_ZERO : Fld := ⟨.MP_CT_RSVD, 0, 32⟩
def F.TB_CTRL_ENABLE : Fld := ⟨.TB_CTRL, 0, 1⟩
def F.TB_CTRL_RELEASE : Fld := ⟨.TB_CTRL, 1, 1⟩
def F.TB_CTRL_STOP : Fld := ⟨.TB_CTRL, 2, 1⟩
def F.GT_CTRL_ENABLE : Fld := ⟨.GT_CTRL, 0, 1⟩
def F.GT_CTRL_RELEASE : Fld := ⟨.GT_CTRL, 1, 1⟩
def F.GT_CTRL_STOP : Fld := ⟨.GT_CTRL, 2, 1⟩
def F.TB_STATUS_STATE : Fld := ⟨.TB_STATUS, 0, 3⟩
def F.TB_STATUS_ACTIVITY : Fld := ⟨.TB_STATUS, 3, 1⟩
def F.TB_STATUS_UPSET : Fld := ⟨.TB_STATUS, 4, 1⟩
def F.TB_STATUS_UNCORR : Fld := ⟨.TB_STATUS, 5, 1⟩
def F.TB_STATUS_SET_DURING_CLEAR : Fld := ⟨.TB_STATUS, 6, 1⟩
def F.TB_STATUS_REASON : Fld := ⟨.TB_STATUS, 16, 16⟩
def F.GT_STATUS_STATE : Fld := ⟨.GT_STATUS, 0, 3⟩
def F.GT_STATUS_ACTIVITY : Fld := ⟨.GT_STATUS, 3, 1⟩
def F.GT_STATUS_UPSET : Fld := ⟨.GT_STATUS, 4, 1⟩
def F.GT_STATUS_UNCORR : Fld := ⟨.GT_STATUS, 5, 1⟩
def F.GT_STATUS_SET_DURING_CLEAR : Fld := ⟨.GT_STATUS, 6, 1⟩
def F.GT_STATUS_REASON : Fld := ⟨.GT_STATUS, 16, 16⟩
def F.TB_IMAGE_ADDR : Fld := ⟨.TB_IMAGE, 6, 58⟩
def F.GT_IMAGE_ADDR : Fld := ⟨.GT_IMAGE, 6, 58⟩
def F.TB_ID_HOOP : Fld := ⟨.TB_ID, 0, 12⟩
def F.TB_ID_OPERATOR : Fld := ⟨.TB_ID, 12, 1⟩
def F.TB_ID_FDIV : Fld := ⟨.TB_ID, 13, 2⟩
def F.GT_ID_HOOP : Fld := ⟨.GT_ID, 0, 12⟩
def F.GT_ID_OPERATOR : Fld := ⟨.GT_ID, 12, 1⟩
def F.GT_ID_FDIV : Fld := ⟨.GT_ID, 13, 2⟩
def F.TB_ACT_BUDGET : Fld := ⟨.TB_ACT, 0, 16⟩
def F.TB_ACT_CEILING : Fld := ⟨.TB_ACT, 16, 16⟩
def F.GT_ACT_BUDGET : Fld := ⟨.GT_ACT, 0, 16⟩
def F.GT_ACT_CEILING : Fld := ⟨.GT_ACT, 16, 16⟩
def F.TB_ACTMAX_MAX : Fld := ⟨.TB_ACTMAX, 0, 16⟩
def F.GT_ACTMAX_MAX : Fld := ⟨.GT_ACTMAX, 0, 16⟩
def F.TB_TOGGLES_COUNT : Fld := ⟨.TB_TOGGLES, 0, 64⟩
def F.GT_TOGGLES_COUNT : Fld := ⟨.GT_TOGGLES, 0, 64⟩
def F.TB_CORR_COUNT : Fld := ⟨.TB_CORR, 0, 64⟩
def F.GT_CORR_COUNT : Fld := ⟨.GT_CORR, 0, 64⟩
def F.TB_FN_LATENCY : Fld := ⟨.TB_FN, 0, 10⟩
def F.TB_FN_DEFINED : Fld := ⟨.TB_FN, 10, 1⟩
def F.TB_FN_FIXED : Fld := ⟨.TB_FN, 11, 1⟩
def F.TB_FN_USES_V0 : Fld := ⟨.TB_FN, 12, 1⟩
def F.GT_FN_LATENCY : Fld := ⟨.GT_FN, 0, 10⟩
def F.GT_FN_DEFINED : Fld := ⟨.GT_FN, 10, 1⟩
def F.GT_FN_FIXED : Fld := ⟨.GT_FN, 11, 1⟩
def F.GT_FN_USES_V0 : Fld := ⟨.GT_FN, 12, 1⟩
def F.SY_VALUE_VALUE : Fld := ⟨.SY_VALUE, 0, 32⟩
def F.SY_COMMITTED_VALUE : Fld := ⟨.SY_COMMITTED, 0, 32⟩
def F.SY_WMARK_W : Fld := ⟨.SY_WMARK, 0, 32⟩
def F.SY_STATUS_OVERFLOW : Fld := ⟨.SY_STATUS, 0, 1⟩
def F.SY_STATUS_UNDER : Fld := ⟨.SY_STATUS, 1, 1⟩
def F.SY_STATUS_HAND_SET : Fld := ⟨.SY_STATUS, 2, 1⟩
def F.SY_STATUS_SET_DURING_CLEAR : Fld := ⟨.SY_STATUS, 3, 1⟩
def F.SY_CTRL_ENABLE : Fld := ⟨.SY_CTRL, 0, 1⟩
def F.SY_CTRL_INIT : Fld := ⟨.SY_CTRL, 1, 1⟩
def F.SY_COUCH_PENDING : Fld := ⟨.SY_COUCH, 0, 9⟩
def F.SY_COUCH_PEAK : Fld := ⟨.SY_COUCH, 16, 9⟩
def F.SY_USTATUS_ORPHAN : Fld := ⟨.SY_USTATUS, 0, 1⟩
def F.SY_USTATUS_SET_DURING_CLEAR : Fld := ⟨.SY_USTATUS, 1, 1⟩
def F.SY_USTATUS_REASON : Fld := ⟨.SY_USTATUS, 16, 16⟩
def F.SY_RX_COUNT : Fld := ⟨.SY_RX, 0, 32⟩
def F.SQ_CTRL_ENABLE : Fld := ⟨.SQ_CTRL, 0, 1⟩
def F.SQ_CTRL_RESTART : Fld := ⟨.SQ_CTRL, 1, 1⟩
def F.SQ_CTRL_LOG2 : Fld := ⟨.SQ_CTRL, 8, 5⟩
def F.SQ_STATUS_STATE : Fld := ⟨.SQ_STATUS, 0, 2⟩
def F.SQ_STATUS_FAIL : Fld := ⟨.SQ_STATUS, 2, 1⟩
def F.SQ_STATUS_SET_DURING_CLEAR : Fld := ⟨.SQ_STATUS, 3, 1⟩
def F.SQ_STATUS_REASON : Fld := ⟨.SQ_STATUS, 16, 16⟩
def F.SQ_BASE_ADDR : Fld := ⟨.SQ_BASE, 0, 64⟩
def F.SQ_TAILADDR_ADDR : Fld := ⟨.SQ_TAILADDR, 0, 64⟩
def F.SQ_COMPBASE_ADDR : Fld := ⟨.SQ_COMPBASE, 0, 64⟩
def F.SQ_HEAD_COUNT : Fld := ⟨.SQ_HEAD, 0, 32⟩
def F.SQ_DONE_COUNT : Fld := ⟨.SQ_DONE, 0, 32⟩
def F.SQ_TAILSEEN_COUNT : Fld := ⟨.SQ_TAILSEEN, 0, 32⟩
def F.SQ_HOOP_HOOP : Fld := ⟨.SQ_HOOP, 0, 12⟩
def F.SQ_HOOP_VALID : Fld := ⟨.SQ_HOOP, 12, 1⟩
def F.GRAPH_BUF0_ADDR : Fld := ⟨.GRAPH_BUF0, 0, 64⟩
def F.GRAPH_BUF1_ADDR : Fld := ⟨.GRAPH_BUF1, 0, 64⟩
def F.GRAPH_LENGTH_BYTES : Fld := ⟨.GRAPH_LENGTH, 0, 32⟩
def F.GRAPH_FLAGS_HOOP : Fld := ⟨.GRAPH_FLAGS, 0, 12⟩
def F.GRAPH_FLAGS_VALID : Fld := ⟨.GRAPH_FLAGS, 16, 1⟩
def F.GRAPH_FLAGS_ACTIVE : Fld := ⟨.GRAPH_FLAGS, 17, 1⟩
def F.GRAPH_FLAGS_SHADOW : Fld := ⟨.GRAPH_FLAGS, 18, 1⟩
def F.GRAPH_FLAGS_CONT : Fld := ⟨.GRAPH_FLAGS, 19, 1⟩
def F.GRAPH_GEN_GEN : Fld := ⟨.GRAPH_GEN, 0, 32⟩
def F.GRAPH_USE_USE0 : Fld := ⟨.GRAPH_USE, 0, 16⟩
def F.GRAPH_USE_USE1 : Fld := ⟨.GRAPH_USE, 16, 16⟩
def F.ARM_CFG_GRAPH : Fld := ⟨.ARM_CFG, 0, 16⟩
def F.ARM_CFG_VALID : Fld := ⟨.ARM_CFG, 16, 1⟩
def F.ARM_CFG_MAXOUT : Fld := ⟨.ARM_CFG, 24, 8⟩
def F.ARM_STEP_STEP_ID : Fld := ⟨.ARM_STEP, 0, 32⟩
def F.ARM_TAGBASE_TAG : Fld := ⟨.ARM_TAGBASE, 0, 64⟩
def F.ARM_COMPBASE_ADDR : Fld := ⟨.ARM_COMPBASE, 0, 64⟩
def F.ARM_LAUNCHES_COUNT : Fld := ⟨.ARM_LAUNCHES, 0, 32⟩
def F.ARM_SKIPS_COUNT : Fld := ⟨.ARM_SKIPS, 0, 32⟩
def F.SQ_SCAN_CTRL_ENABLE : Fld := ⟨.SQ_SCAN_CTRL, 0, 1⟩
def F.SQ_READY_QUEUE : Fld := ⟨.SQ_READY, 0, 12⟩
def F.SQ_READY_EMPTY : Fld := ⟨.SQ_READY, 15, 1⟩
def F.SQ_READY_POP_POP : Fld := ⟨.SQ_READY_POP, 0, 32⟩
def F.SQ_SWEEP_CYCLES : Fld := ⟨.SQ_SWEEP, 0, 32⟩
def F.SQ_CTX_STATUS_REASON : Fld := ⟨.SQ_CTX_STATUS, 16, 16⟩
def F.CTX_STATE_STATE : Fld := ⟨.CTX_STATE, 0, 8⟩
def F.CTX_STATE_DEBUGGED : Fld := ⟨.CTX_STATE, 8, 1⟩
def F.CTX_STATE_ARMATURE : Fld := ⟨.CTX_STATE, 9, 1⟩
def F.CTX_STATE_CONTINUATION : Fld := ⟨.CTX_STATE, 10, 1⟩
def F.CTX_STATE_HOOP : Fld := ⟨.CTX_STATE, 16, 12⟩
def F.CTX_QUEUE_QUEUE : Fld := ⟨.CTX_QUEUE, 0, 12⟩
def F.CTX_QUEUE_GRAPH : Fld := ⟨.CTX_QUEUE, 16, 12⟩
def F.CTX_TAG_TAG : Fld := ⟨.CTX_TAG, 0, 64⟩
def F.CTX_SEQ_SEQ : Fld := ⟨.CTX_SEQ, 0, 32⟩
def F.CTX_ENERGY_ENERGY : Fld := ⟨.CTX_ENERGY, 0, 16⟩
def F.CTX_ENERGY_STATUS : Fld := ⟨.CTX_ENERGY, 16, 16⟩
def F.CTX_GEN_GEN : Fld := ⟨.CTX_GEN, 0, 32⟩
def F.CTX_CMD_TARGET : Fld := ⟨.CTX_CMD, 0, 2⟩
def F.LK_CTRL_ENABLE : Fld := ⟨.LK_CTRL, 0, 1⟩
def F.LK_CTRL_DISCOVER : Fld := ⟨.LK_CTRL, 1, 1⟩
def F.LK_STATUS_NOROUTE : Fld := ⟨.LK_STATUS, 0, 1⟩
def F.LK_STATUS_SET_DURING_CLEAR : Fld := ⟨.LK_STATUS, 1, 1⟩
def F.LK_STATUS_REASON : Fld := ⟨.LK_STATUS, 16, 16⟩
def F.LK_ADDR_ADDR : Fld := ⟨.LK_ADDR, 0, 16⟩
def F.LK_ADDR_ASSIGNED : Fld := ⟨.LK_ADDR, 16, 1⟩
def F.LK_ELECT_BEST_PRIO : Fld := ⟨.LK_ELECT, 0, 8⟩
def F.LK_ELECT_BEST_DIST : Fld := ⟨.LK_ELECT, 8, 8⟩
def F.LK_ELECT_BEST_PORT : Fld := ⟨.LK_ELECT, 16, 5⟩
def F.LK_ELECT_STABLE : Fld := ⟨.LK_ELECT, 21, 1⟩
def F.LK_ELECT_SERIAL_VALUE : Fld := ⟨.LK_ELECT_SERIAL, 0, 64⟩
def F.LK_MGMT_DROP_VALUE : Fld := ⟨.LK_MGMT_DROP, 0, 64⟩
def F.LK_CLIENT_DROP_VALUE : Fld := ⟨.LK_CLIENT_DROP, 0, 64⟩
def F.LK_GRT_PORT : Fld := ⟨.LK_GRT, 0, 5⟩
def F.LK_GRT_VALID : Fld := ⟨.LK_GRT, 7, 1⟩
def F.LK_MRT_PORT : Fld := ⟨.LK_MRT, 0, 5⟩
def F.LK_MRT_VALID : Fld := ⟨.LK_MRT, 7, 1⟩
def F.LK_CLIENT_STREAM : Fld := ⟨.LK_CLIENT, 0, 12⟩
def F.LK_CLIENT_PORT : Fld := ⟨.LK_CLIENT, 12, 5⟩
def F.LK_CLIENT_ENABLE : Fld := ⟨.LK_CLIENT, 31, 1⟩
def F.LK_CLIENT_QUEUE_QUEUE : Fld := ⟨.LK_CLIENT_QUEUE, 0, 12⟩
def F.LK_CLIENT_TAIL_TAIL : Fld := ⟨.LK_CLIENT_TAIL, 0, 32⟩
def F.LK_P_CTRL_ENABLE : Fld := ⟨.LK_P_CTRL, 0, 1⟩
def F.LK_P_CTRL_UCIE : Fld := ⟨.LK_P_CTRL, 1, 1⟩
def F.LK_P_CTRL_UCIE_CAP : Fld := ⟨.LK_P_CTRL, 2, 1⟩
def F.LK_P_STATUS_STATE : Fld := ⟨.LK_P_STATUS, 0, 3⟩
def F.LK_P_STATUS_LOCK : Fld := ⟨.LK_P_STATUS, 3, 5⟩
def F.LK_P_STATUS_LANE_FAIL : Fld := ⟨.LK_P_STATUS, 8, 1⟩
def F.LK_P_STATUS_DEGRADED : Fld := ⟨.LK_P_STATUS, 9, 1⟩
def F.LK_P_STATUS_DOWN : Fld := ⟨.LK_P_STATUS, 10, 1⟩
def F.LK_P_STATUS_SET_DURING_CLEAR : Fld := ⟨.LK_P_STATUS, 11, 1⟩
def F.LK_P_STATUS_REASON : Fld := ⟨.LK_P_STATUS, 16, 16⟩
def F.LK_P_LANEMAP_SPARE : Fld := ⟨.LK_P_LANEMAP, 0, 3⟩
def F.LK_P_LANEMAP_SPARE_OK : Fld := ⟨.LK_P_LANEMAP, 3, 1⟩
def F.LK_P_LANEMAP_PENDING : Fld := ⟨.LK_P_LANEMAP, 4, 1⟩
def F.LK_P_LANEMAP_WHOLE : Fld := ⟨.LK_P_LANEMAP, 16, 16⟩
def F.LK_P_DELAY_DELAY : Fld := ⟨.LK_P_DELAY, 0, 24⟩
def F.LK_P_NEIGH_SERIAL : Fld := ⟨.LK_P_NEIGH, 0, 64⟩
def F.LK_P_NADDR_ADDR : Fld := ⟨.LK_P_NADDR, 0, 16⟩
def F.LK_P_NADDR_PORT : Fld := ⟨.LK_P_NADDR, 16, 5⟩
def F.LK_P_NADDR_ASSIGNED : Fld := ⟨.LK_P_NADDR, 21, 1⟩
def F.LK_P_NADDR_VALID : Fld := ⟨.LK_P_NADDR, 22, 1⟩
def F.LK_P_CORR_COUNT : Fld := ⟨.LK_P_CORR, 0, 64⟩
def F.LK_P_UNCORR_COUNT : Fld := ⟨.LK_P_UNCORR, 0, 64⟩
def F.LK_P_MISS_COUNT : Fld := ⟨.LK_P_MISS, 0, 64⟩
def F.DP_CTRL_D_ENABLE : Fld := ⟨.DP_CTRL, 0, 1⟩
def F.DP_CTRL_D_RESTART : Fld := ⟨.DP_CTRL, 1, 1⟩
def F.DP_CTRL_K_RESTART : Fld := ⟨.DP_CTRL, 2, 1⟩
def F.DP_STATUS_LEADLOW : Fld := ⟨.DP_STATUS, 0, 1⟩
def F.DP_STATUS_STALL : Fld := ⟨.DP_STATUS, 1, 1⟩
def F.DP_STATUS_HELD_D : Fld := ⟨.DP_STATUS, 2, 1⟩
def F.DP_STATUS_HELD_K : Fld := ⟨.DP_STATUS, 3, 1⟩
def F.DP_STATUS_SET_DURING_CLEAR : Fld := ⟨.DP_STATUS, 4, 1⟩
def F.DP_STATUS_REASON : Fld := ⟨.DP_STATUS, 16, 16⟩
def F.DP_WDOG_K_BEATS : Fld := ⟨.DP_WDOG, 0, 16⟩
def F.DP_WDOG_D_BEATS : Fld := ⟨.DP_WDOG, 16, 16⟩
def F.DP_WDOG2_TAKE_BEATS : Fld := ⟨.DP_WDOG2, 0, 16⟩
def F.DP_KICK_D : Fld := ⟨.DP_KICK, 0, 1⟩
def F.DP_KICK_K : Fld := ⟨.DP_KICK, 1, 1⟩
def F.DP_LEAD_MIN : Fld := ⟨.DP_LEAD, 0, 16⟩
def F.DP_TAKES_COUNT : Fld := ⟨.DP_TAKES, 0, 64⟩
def F.DP_COVER_BEAT : Fld := ⟨.DP_COVER, 0, 64⟩
def F.DP_STAGE_CONTEXT : Fld := ⟨.DP_STAGE, 0, 14⟩
def F.DP_STAGE_VALID : Fld := ⟨.DP_STAGE, 14, 1⟩
def F.DP_STAGE_SEG : Fld := ⟨.DP_STAGE, 16, 16⟩
def F.DP_TAKE_CTX_CONTEXT : Fld := ⟨.DP_TAKE_CTX, 0, 14⟩
def F.DP_TAKE_CTX_VALID : Fld := ⟨.DP_TAKE_CTX, 14, 1⟩
def F.DP_TAKE_CTX_STATUS : Fld := ⟨.DP_TAKE_CTX, 16, 16⟩
def F.DP_TAKE_QUEUE : Fld := ⟨.DP_TAKE, 0, 12⟩
def F.DP_CTXPROG_SEGS_DONE : Fld := ⟨.DP_CTXPROG, 0, 16⟩
def F.DP_CTXPROG_SEGS_TOTAL : Fld := ⟨.DP_CTXPROG, 16, 16⟩
def F.MB_CTRL_ENABLE : Fld := ⟨.MB_CTRL, 0, 1⟩
def F.MB_CTRL_TARGET : Fld := ⟨.MB_CTRL, 1, 1⟩
def F.MB_CTRL_HOOP : Fld := ⟨.MB_CTRL, 16, 12⟩
def F.FT_CTRL_ENABLE : Fld := ⟨.FT_CTRL, 0, 1⟩
def F.FT_CTRL_REPLAY_MAX : Fld := ⟨.FT_CTRL, 1, 3⟩
def F.FT_CTRL_AUTO_SPARE : Fld := ⟨.FT_CTRL, 4, 1⟩
def F.FT_STATUS_STATE : Fld := ⟨.FT_STATUS, 0, 2⟩
def F.FT_STATUS_READY : Fld := ⟨.FT_STATUS, 2, 1⟩
def F.FT_STATUS_LATE : Fld := ⟨.FT_STATUS, 3, 1⟩
def F.FT_STATUS_SPARED : Fld := ⟨.FT_STATUS, 4, 1⟩
def F.FT_STATUS_SET_DURING_CLEAR : Fld := ⟨.FT_STATUS, 5, 1⟩
def F.FT_STATUS_REASON : Fld := ⟨.FT_STATUS, 16, 16⟩
def F.FT_WAVE_W : Fld := ⟨.FT_WAVE, 0, 8⟩
def F.FT_WAVE_SHADOW : Fld := ⟨.FT_WAVE, 8, 8⟩
def F.FT_SPARE_LOGICAL : Fld := ⟨.FT_SPARE, 0, 4⟩
def F.FT_SPARE_REQUEST : Fld := ⟨.FT_SPARE, 4, 1⟩
def F.FT_SPARE_STANDBY : Fld := ⟨.FT_SPARE, 5, 1⟩
def F.FT_SPARE_ACTIVE : Fld := ⟨.FT_SPARE, 6, 1⟩
def F.FT_SPARE_REPLACES : Fld := ⟨.FT_SPARE, 7, 4⟩
def F.FT_REPLAY_BEAT : Fld := ⟨.FT_REPLAY, 0, 64⟩
def F.FT_ATTEMPT_ATTEMPT : Fld := ⟨.FT_ATTEMPT, 0, 3⟩
def F.FT_ATTEMPT_CODE : Fld := ⟨.FT_ATTEMPT, 16, 16⟩
def F.FT_SVC_ADMITTED : Fld := ⟨.FT_SVC, 0, 17⟩
def F.FT_SVC_CLEAN : Fld := ⟨.FT_SVC, 32, 17⟩
def F.FT_STAMP_EPOCH : Fld := ⟨.FT_STAMP, 0, 64⟩
def F.FT_LOST_STREAMS : Fld := ⟨.FT_LOST, 0, 32⟩
def F.FT_LOG_ENTRY_WORD : Fld := ⟨.FT_LOG_ENTRY, 0, 32⟩
def F.FT_LOG_POP_POP : Fld := ⟨.FT_LOG_POP, 0, 32⟩
def F.FT_LOG_STATUS_COUNT : Fld := ⟨.FT_LOG_STATUS, 0, 11⟩
def F.FT_LOG_STATUS_WRAPS : Fld := ⟨.FT_LOG_STATUS, 16, 16⟩
def F.HP_CTRL_VALID : Fld := ⟨.HP_CTRL, 0, 1⟩
def F.HP_CTRL_CONST_TIME : Fld := ⟨.HP_CTRL, 1, 1⟩
def F.HP_CTRL_KEYED : Fld := ⟨.HP_CTRL, 2, 1⟩
def F.HP_CTRL_TPUB : Fld := ⟨.HP_CTRL, 3, 1⟩
def F.HP_CTRL_PENDING : Fld := ⟨.HP_CTRL, 4, 1⟩
def F.HP_CORES_CORES : Fld := ⟨.HP_CORES, 0, 16⟩
def F.HP_SYNC_BASE : Fld := ⟨.HP_SYNC, 0, 14⟩
def F.HP_SYNC_COUNT : Fld := ⟨.HP_SYNC, 16, 15⟩
def F.HP_QUEUE_BASE : Fld := ⟨.HP_QUEUE, 0, 12⟩
def F.HP_QUEUE_COUNT : Fld := ⟨.HP_QUEUE, 16, 13⟩
def F.HP_STATUS_VIOL : Fld := ⟨.HP_STATUS, 0, 1⟩
def F.HP_STATUS_SET_DURING_CLEAR : Fld := ⟨.HP_STATUS, 1, 1⟩
def F.HP_STATUS_REASON : Fld := ⟨.HP_STATUS, 16, 16⟩
def F.HP_VIOLADDR_ADDR : Fld := ⟨.HP_VIOLADDR, 0, 64⟩
def F.HP_KEYCNT_COUNT : Fld := ⟨.HP_KEYCNT, 0, 32⟩
def F.HP_WSEL_HOOP : Fld := ⟨.HP_WSEL, 0, 12⟩
def F.HP_WSEL_WINDOW : Fld := ⟨.HP_WSEL, 16, 4⟩
def F.HP_WIN_VBASE_ADDR : Fld := ⟨.HP_WIN_VBASE, 0, 64⟩
def F.HP_WIN_PBASE_ADDR : Fld := ⟨.HP_WIN_PBASE, 0, 64⟩
def F.HP_WIN_SIZE_UNITS : Fld := ⟨.HP_WIN_SIZE, 0, 32⟩
def F.HP_WIN_ATTR_VALID : Fld := ⟨.HP_WIN_ATTR, 0, 1⟩
def F.HP_WIN_ATTR_READ : Fld := ⟨.HP_WIN_ATTR, 1, 1⟩
def F.HP_WIN_ATTR_WRITE : Fld := ⟨.HP_WIN_ATTR, 2, 1⟩
def F.HP_WIN_APPLY_GO : Fld := ⟨.HP_WIN_APPLY, 0, 32⟩
def F.HP_KEYCMD_OP : Fld := ⟨.HP_KEYCMD, 0, 2⟩
def F.HP_KEYCMD_HOOP : Fld := ⟨.HP_KEYCMD, 16, 12⟩
def F.HP_KEYBLOB_ADDR : Fld := ⟨.HP_KEYBLOB, 0, 64⟩
def F.HP_KEYSTAT_BUSY : Fld := ⟨.HP_KEYSTAT, 0, 1⟩
def F.HP_KEYSTAT_REASON : Fld := ⟨.HP_KEYSTAT, 16, 16⟩
def F.HP_ATTACH_HOOP : Fld := ⟨.HP_ATTACH, 0, 12⟩
def F.HP_ATTACH_VALID : Fld := ⟨.HP_ATTACH, 12, 1⟩
def F.SC_STATE_STATE : Fld := ⟨.SC_STATE, 0, 2⟩
def F.SC_STATE_NEXT : Fld := ⟨.SC_STATE, 2, 2⟩
def F.SC_STATE_PENDING : Fld := ⟨.SC_STATE, 4, 1⟩
def F.SC_STATE_REASON : Fld := ⟨.SC_STATE, 16, 16⟩
def F.SC_CMD_ADDR : Fld := ⟨.SC_CMD, 0, 64⟩
def F.SC_CMDGO_GO : Fld := ⟨.SC_CMDGO, 0, 32⟩
def F.SC_DEBUG_LEVEL : Fld := ⟨.SC_DEBUG, 0, 2⟩
def F.SC_DEBUG_BUSY : Fld := ⟨.SC_DEBUG, 2, 1⟩
def F.SC_DEBUG_HOOP : Fld := ⟨.SC_DEBUG, 16, 12⟩
def F.SC_DEBUG_END_BEAT : Fld := ⟨.SC_DEBUG_END, 0, 64⟩
def F.SC_NONCE_NONCE : Fld := ⟨.SC_NONCE, 0, 64⟩
def F.SC_OPKEY_WORD : Fld := ⟨.SC_OPKEY, 0, 32⟩
def F.SC_DEVPUB_WORD : Fld := ⟨.SC_DEVPUB, 0, 32⟩
def F.DG_HALT_HALT : Fld := ⟨.DG_HALT, 0, 1⟩
def F.DG_HALT_RESUME : Fld := ⟨.DG_HALT, 1, 1⟩
def F.DG_HALT_HALTED : Fld := ⟨.DG_HALT, 2, 1⟩
def F.DG_APER_HOOP_HOOP : Fld := ⟨.DG_APER_HOOP, 0, 12⟩
def F.DG_APER_ADDR_ADDR : Fld := ⟨.DG_APER_ADDR, 0, 64⟩
def F.DG_APER_DATA_DATA : Fld := ⟨.DG_APER_DATA, 0, 32⟩
def F.DG_MM_WORD : Fld := ⟨.DG_MM, 0, 32⟩
def F.CK_PLL_START : Fld := ⟨.CK_PLL, 0, 1⟩
def F.CK_PLL_LOCKED : Fld := ⟨.CK_PLL, 1, 1⟩
def F.CK_PLL_REASON : Fld := ⟨.CK_PLL, 16, 16⟩
def F.CK_DOM_ACLK_RUN : Fld := ⟨.CK_DOM, 0, 1⟩
def F.CK_DOM_PCLK_ROOT : Fld := ⟨.CK_DOM, 1, 1⟩
def F.CK_DOM_MCLK_ROOT : Fld := ⟨.CK_DOM, 2, 1⟩
def F.CK_DOM_BUSY : Fld := ⟨.CK_DOM, 4, 3⟩
def F.CK_MON_SRC : Fld := ⟨.CK_MON, 0, 4⟩
def F.CK_MON_TB : Fld := ⟨.CK_MON, 4, 5⟩
def F.CK_MON_DIV : Fld := ⟨.CK_MON, 16, 16⟩
def F.CK_RST_CORE : Fld := ⟨.CK_RST, 0, 17⟩
def F.CK_RST_WARM : Fld := ⟨.CK_RST, 17, 1⟩
def F.CK_RSTTB_TAMBOURS : Fld := ⟨.CK_RSTTB, 0, 18⟩
def F.PL_BOOT_PHASE : Fld := ⟨.PL_BOOT, 0, 3⟩
def F.PL_BOOT_CAUSE : Fld := ⟨.PL_BOOT, 4, 4⟩
def F.PL_BOOT_WAKER : Fld := ⟨.PL_BOOT, 8, 8⟩
def F.PL_WAKE_BEAT_BEAT : Fld := ⟨.PL_WAKE_BEAT, 0, 64⟩
def F.PL_WAKE_EN : Fld := ⟨.PL_WAKE, 0, 1⟩
def F.PL_WAKE_FIRED : Fld := ⟨.PL_WAKE, 1, 1⟩
def F.PL_WAKE_SET_DURING_CLEAR : Fld := ⟨.PL_WAKE, 2, 1⟩
def F.PL_FRAME_EN : Fld := ⟨.PL_FRAME, 0, 1⟩
def F.PL_FRAME_FIRED : Fld := ⟨.PL_FRAME, 1, 1⟩
def F.PL_FRAME_SET_DURING_CLEAR : Fld := ⟨.PL_FRAME, 2, 1⟩
def F.PL_FRAME_OFFSET : Fld := ⟨.PL_FRAME, 4, 6⟩
def F.PL_FRAME_PATTERN_WORD : Fld := ⟨.PL_FRAME_PATTERN, 0, 32⟩
def F.PL_FRAME_MASK_WORD : Fld := ⟨.PL_FRAME_MASK, 0, 32⟩
def F.PL_THERM_WAKE : Fld := ⟨.PL_THERM, 0, 8⟩
def F.PL_TSEN_SENSORS : Fld := ⟨.PL_TSEN, 0, 64⟩
def F.PW_CTRL_ENABLE : Fld := ⟨.PW_CTRL, 0, 1⟩
def F.PW_STATE_STATE : Fld := ⟨.PW_STATE, 0, 2⟩
def F.PW_STATE_BUSY : Fld := ⟨.PW_STATE, 2, 1⟩
def F.PW_REQ_REQ : Fld := ⟨.PW_REQ, 0, 2⟩
def F.PW_STATUS_LIMIT : Fld := ⟨.PW_STATUS, 0, 1⟩
def F.PW_STATUS_EMERG : Fld := ⟨.PW_STATUS, 1, 1⟩
def F.PW_STATUS_TELE : Fld := ⟨.PW_STATUS, 2, 1⟩
def F.PW_STATUS_THROTTLE : Fld := ⟨.PW_STATUS, 3, 1⟩
def F.PW_STATUS_SET_DURING_CLEAR : Fld := ⟨.PW_STATUS, 4, 1⟩
def F.PW_STATUS_REASON : Fld := ⟨.PW_STATUS, 16, 16⟩
def F.PW_SLEW_VALUE : Fld := ⟨.PW_SLEW, 0, 16⟩
def F.PW_SLEW_BOUND : Fld := ⟨.PW_SLEW, 16, 16⟩
def F.PW_SWING_VALUE : Fld := ⟨.PW_SWING, 0, 16⟩
def F.PW_SWING_BOUND : Fld := ⟨.PW_SWING, 16, 16⟩
def F.PW_DOWN_VALUE : Fld := ⟨.PW_DOWN, 0, 16⟩
def F.PW_DOWN_BOUND : Fld := ⟨.PW_DOWN, 16, 16⟩
def F.PW_IMAX_VALUE : Fld := ⟨.PW_IMAX, 0, 16⟩
def F.PW_IMAX_BOUND : Fld := ⟨.PW_IMAX, 16, 16⟩
def F.PW_VMIN_VALUE : Fld := ⟨.PW_VMIN, 0, 16⟩
def F.PW_VMIN_BOUND : Fld := ⟨.PW_VMIN, 16, 16⟩
def F.PW_VMAX_VALUE : Fld := ⟨.PW_VMAX, 0, 16⟩
def F.PW_VMAX_BOUND : Fld := ⟨.PW_VMAX, 16, 16⟩
def F.PW_TEMERG_VALUE : Fld := ⟨.PW_TEMERG, 0, 16⟩
def F.PW_TEMERG_BOUND : Fld := ⟨.PW_TEMERG, 16, 16⟩
def F.PW_TTRIP_VALUE : Fld := ⟨.PW_TTRIP, 0, 16⟩
def F.PW_TTRIP_BOUND : Fld := ⟨.PW_TTRIP, 16, 16⟩
def F.PW_TWARN_VALUE : Fld := ⟨.PW_TWARN, 0, 16⟩
def F.PW_TWARN_BOUND : Fld := ⟨.PW_TWARN, 16, 16⟩
def F.PW_SMIN_VALUE : Fld := ⟨.PW_SMIN, 0, 16⟩
def F.PW_SMIN_BOUND : Fld := ⟨.PW_SMIN, 16, 16⟩
def F.PW_DUMMY_VALUE : Fld := ⟨.PW_DUMMY, 0, 16⟩
def F.PW_DUMMY_BOUND : Fld := ⟨.PW_DUMMY, 16, 16⟩
def F.PW_CAL_STEP_MA : Fld := ⟨.PW_CAL, 0, 16⟩
def F.PW_CAL_UNIT_MA : Fld := ⟨.PW_CAL, 16, 16⟩
def F.PW_STRETCH_WANT : Fld := ⟨.PW_STRETCH, 0, 9⟩
def F.PW_STRETCH_FABRIC : Fld := ⟨.PW_STRETCH, 16, 9⟩
def F.PW_VREQ_MV : Fld := ⟨.PW_VREQ, 0, 12⟩
def F.PW_VREQ_MOVING : Fld := ⟨.PW_VREQ, 12, 1⟩
def F.PW_TMAX_HOTTEST : Fld := ⟨.PW_TMAX, 0, 8⟩
def F.PW_TMAX_SENSOR : Fld := ⟨.PW_TMAX, 16, 6⟩
def F.EN_CTRL_ENABLE : Fld := ⟨.EN_CTRL, 0, 1⟩
def F.EN_STATUS_ESTIMATED : Fld := ⟨.EN_STATUS, 0, 1⟩
def F.EN_STATUS_SET_DURING_CLEAR : Fld := ⟨.EN_STATUS, 1, 1⟩
def F.EN_STATUS_REASON : Fld := ⟨.EN_STATUS, 16, 16⟩
def F.EN_MEASURED_UJ : Fld := ⟨.EN_MEASURED, 0, 64⟩
def F.EN_OVERHEAD_UJ : Fld := ⟨.EN_OVERHEAD, 0, 64⟩
def F.EN_REPLAY_UJ : Fld := ⟨.EN_REPLAY, 0, 64⟩
def F.EN_RAIL_CLASS : Fld := ⟨.EN_RAIL, 0, 2⟩
def F.EN_RAIL_EN : Fld := ⟨.EN_RAIL, 2, 1⟩
def F.EN_RAIL_FALLBACK_MW : Fld := ⟨.EN_RAIL_FALLBACK, 0, 32⟩
def F.EN_RAIL_V_MV : Fld := ⟨.EN_RAIL_V, 0, 16⟩
def F.EN_RAIL_I_MA : Fld := ⟨.EN_RAIL_I, 0, 32⟩
def F.EN_CAL_FJ : Fld := ⟨.EN_CAL, 0, 32⟩
def F.EN_CAL_ID_ID : Fld := ⟨.EN_CAL_ID, 0, 32⟩
def F.EN_CSEL_CONTEXT : Fld := ⟨.EN_CSEL, 0, 14⟩
def F.EN_CTX_COMM_UJ : Fld := ⟨.EN_CTX_COMM, 0, 64⟩
def F.EN_CTX_OPEN_UJ : Fld := ⟨.EN_CTX_OPEN, 0, 64⟩
def F.EN_SIGN_CONTEXT : Fld := ⟨.EN_SIGN, 0, 14⟩
def F.EN_SIGN_BLOCK : Fld := ⟨.EN_SIGN, 14, 1⟩
def F.EN_SIGN_GO : Fld := ⟨.EN_SIGN, 15, 1⟩
def F.EN_SIGN_DONE : Fld := ⟨.EN_SIGN, 16, 1⟩
def F.EN_SIGN_SET_DURING_CLEAR : Fld := ⟨.EN_SIGN, 17, 1⟩
def F.EN_SIGNBUF_ADDR : Fld := ⟨.EN_SIGNBUF, 0, 64⟩
def F.EN_CHAIN_ID : Fld := ⟨.EN_CHAIN, 0, 64⟩
def F.EN_COUNTER_COUNT : Fld := ⟨.EN_COUNTER, 0, 64⟩
def F.EN_LASTHASH_WORD : Fld := ⟨.EN_LASTHASH, 0, 32⟩
def F.EN_ACCT_UJ : Fld := ⟨.EN_ACCT, 0, 64⟩
def F.MG_SNAPCTRL_GO : Fld := ⟨.MG_SNAPCTRL, 0, 1⟩
def F.MG_SNAPCTRL_DONE : Fld := ⟨.MG_SNAPCTRL, 1, 1⟩
def F.MG_SNAPCTRL_SET_DURING_CLEAR : Fld := ⟨.MG_SNAPCTRL, 2, 1⟩
def F.MG_SNAPCTRL_COUNT : Fld := ⟨.MG_SNAPCTRL, 8, 8⟩
def F.MG_SNAPCTRL_REASON : Fld := ⟨.MG_SNAPCTRL, 16, 16⟩
def F.MG_SNAPLIST_ADDR : Fld := ⟨.MG_SNAPLIST, 0, 64⟩
def F.MG_SNAPBUF_ADDR : Fld := ⟨.MG_SNAPBUF, 0, 64⟩
def F.MG_SNAPBEAT_BEAT : Fld := ⟨.MG_SNAPBEAT, 0, 64⟩
def F.MG_MFP_CTRL_ENABLE : Fld := ⟨.MG_MFP_CTRL, 0, 1⟩
def F.MG_MFP_CTRL_NODE_ID : Fld := ⟨.MG_MFP_CTRL, 8, 8⟩
def F.MG_MFP_CTRL_NODE_COUNT : Fld := ⟨.MG_MFP_CTRL, 16, 8⟩
def F.MG_MFP_ETYPE_TYPE : Fld := ⟨.MG_MFP_ETYPE, 0, 16⟩
def F.MG_MFP_DROP_COUNT : Fld := ⟨.MG_MFP_DROP, 0, 64⟩
def F.GL_ID_GENERATION : Fld := ⟨.GL_ID, 0, 16⟩
def F.GL_ID_FAMILY : Fld := ⟨.GL_ID, 16, 16⟩
def F.GL_SERIAL_SERIAL : Fld := ⟨.GL_SERIAL, 0, 64⟩
def F.GL_PARAMS_CORES : Fld := ⟨.GL_PARAMS, 0, 5⟩
def F.GL_PARAMS_SPARE_CORE : Fld := ⟨.GL_PARAMS, 5, 1⟩
def F.GL_PARAMS_ROWS512 : Fld := ⟨.GL_PARAMS, 6, 1⟩
def F.GL_PARAMS_COLS64 : Fld := ⟨.GL_PARAMS, 7, 1⟩
def F.GL_PARAMS_ACC_TILES : Fld := ⟨.GL_PARAMS, 8, 5⟩
def F.GL_PARAMS_MATMEM : Fld := ⟨.GL_PARAMS, 16, 4⟩
def F.GL_PARAMS_BLOCKMEM : Fld := ⟨.GL_PARAMS, 20, 6⟩
def F.GL_PARAMS_MEMPORTS : Fld := ⟨.GL_PARAMS, 26, 5⟩
def F.GL_PARAMS_LINKPORTS : Fld := ⟨.GL_PARAMS, 31, 5⟩
def F.GL_PARAMS_TAMBOUR : Fld := ⟨.GL_PARAMS, 36, 5⟩
def F.GL_PARAMS_GATHER : Fld := ⟨.GL_PARAMS, 41, 5⟩
def F.GL_PARAMS_HOOPS_LOG2 : Fld := ⟨.GL_PARAMS, 46, 4⟩

end Sys2Proof
end

