-- ==== Sys2Proof/Machine/Tab.lean ====
section
/-! DEFINITION. Sparse tables: a list of (key, value) pairs, keys strictly rising. A table that has a default lists no pair
that is equal to it, so that equal contents are equal data. -/

namespace Sys2Proof

/-- A sparse table keyed by number. -/
abbrev Tab (α : Type) := List (Nat × α)

/-- The value listed at a key. -/
def Tab.find? {α : Type} : Tab α → Nat → Option α
  | [], _ => none
  | (k, v) :: t, i => if i == k then some v else Tab.find? t i

/-- The value at a key, or the default. -/
def Tab.getD {α : Type} (t : Tab α) (i : Nat) (d : α) : α := (Tab.find? t i).getD d

/-- List a value at a key. -/
def Tab.insert {α : Type} : Tab α → Nat → α → Tab α
  | [], i, v => [(i, v)]
  | (k, x) :: t, i, v =>
    if i < k then (i, v) :: (k, x) :: t
    else if i == k then (i, v) :: t
    else (k, x) :: Tab.insert t i v

/-- List no value at a key. -/
def Tab.erase {α : Type} (t : Tab α) (i : Nat) : Tab α := t.filter (fun p => p.1 != i)

/-- Set the value at a key of a table whose unlisted keys hold a default. -/
def Tab.put {α : Type} [DecidableEq α] (t : Tab α) (d : α) (i : Nat) (v : α) : Tab α :=
  if v = d then Tab.erase t i else Tab.insert t i v

/-- Change the value at a key of a table whose unlisted keys hold a default. -/
def Tab.modify {α : Type} [DecidableEq α] (t : Tab α) (d : α) (i : Nat) (f : α → α) : Tab α :=
  Tab.put t d i (f (Tab.getD t i d))

/-- Change every listed value, dropping those that become the default. -/
def Tab.mapAll {α : Type} [DecidableEq α] (t : Tab α) (d : α) (f : Nat → α → α) : Tab α :=
  (t.map (fun p => (p.1, f p.1 p.2))).filter (fun p => p.2 ≠ d)

/-- Keys strictly rise from a lower bound. -/
def Tab.risesFrom {α : Type} : Nat → Tab α → Bool
  | _, [] => true
  | lo, (k, _) :: t => lo ≤ k && Tab.risesFrom (k + 1) t

/-- The canonical form: keys strictly rising, no listed value equal to the key's default. -/
def Tab.wf {α : Type} [DecidableEq α] (d : Nat → α) (t : Tab α) : Bool :=
  Tab.risesFrom 0 t && t.all (fun p => p.2 ≠ d p.1)

end Sys2Proof
end

