-- ==== Sys2Proof/Machine/Hw.lean ====
section
/-! DEFINITION. The parts of the block's state, as plain data. A control-space register lives in `Hw.ctl`; what the spec holds
outside its registers lives in the structures below. -/

namespace Sys2Proof.Machine

/-- The time unit beside its registers (R24 to R42). -/
structure TimeUnit where
  /-- Fabric beat count (TM_NOW). -/
  beat : Nat := 0
  /-- Root tick at which phase 0 of the present beat began. -/
  beatStart : Nat := 0
  /-- The trim t of the present beat (R24). -/
  trim : Int := 0
  /-- A trim that waits for MINGAP: a decision of R29 or a manual step of R37. -/
  stepDue : Int := 0
  /-- Beats since the last trim. -/
  sinceTrim : Nat := 15
  /-- ACQUIRE has loaded the count and jumped the phase (R32). -/
  acquired : Bool := false
  /-- The errors of the present averaging window, newest first (R29). -/
  errors : List Int := []
  /-- Consecutive beats with averaged error within 4 quarter cycles, in ACQUIRE (R31). -/
  lockRun : Nat := 0
  /-- Beats since the last mark of the primary and of the backup source (R31). -/
  silentPrimary : Nat := 0
  silentBackup : Nat := 4
  /-- The backup source is the one in use (R31). -/
  onBackup : Bool := false
  /-- Beats spent in HOLDOVER (R33), and the running sum that keeps the mean trim rate. -/
  holdBeats : Nat := 0
  holdSum : Int := 0
  /-- Trims of the last 4,096 beats: beat and trim (R33). -/
  trimLog : List (Nat × Int) := []
  /-- The beat tracked from frames while ACQUIRE waits for a TREF edge (R32): beat count and its boundary tick. -/
  tracked : Option (Nat × Nat) := none
  /-- Effective beat F of the stretch command in waiting, and the target that is in force (R40). -/
  stretchAt : Nat := 0
  stretchGoal : Nat := 0
  /-- Root ticks of the plinth's fabric time beyond its last whole beat (R24). -/
  plinthTicks : Nat := 0
  /-- The TM_TRIM word in force until the next beat boundary, where the present beat has seen a write of it (R37). -/
  trimHeld : Option Nat := none
  deriving DecidableEq, Repr

/-- The run in progress and the plan position (R51, R52). -/
structure Run where
  /-- A run is in progress. -/
  on : Bool := false
  /-- The block is a member of the epoch (R33). -/
  member : Bool := false
  /-- Step-table entry k. -/
  k : Nat := 0
  /-- Start beat f. -/
  f : Nat := 0
  /-- Beats the run lasts. -/
  len : Nat := 0
  /-- Plan beat of the run's first beat. -/
  plan : Nat := 0
  stepId : Nat := 0
  reserve : Bool := false
  mirrored : Bool := false
  /-- Attempt number (R350). -/
  attempt : Nat := 0
  /-- A fault has been raised in this run (R342). -/
  faulted : Bool := false
  /-- A fault of a settle that aborts the next run in its first cycle (R341): code and UNIT. -/
  settleFault : Option (Nat × Nat) := none
  /-- The epoch's start beat E (R43). -/
  epochStart : Nat := 0
  /-- Root tick at which the run began. -/
  startTick : Nat := 0
  deriving DecidableEq, Repr

/-- The abort in progress (R344 to R355). -/
structure AbortState where
  /-- The block is in abort. -/
  on : Bool := false
  /-- The abort's unit effects (Table 13-3) are still to be made in this cycle. -/
  fresh : Bool := false
  /-- Beat and root tick of the abort cycle. -/
  beat : Nat := 0
  tick : Nat := 0
  /-- Root tick by which the block is ready (R348). -/
  readyTick : Nat := 0
  /-- The block's own candidate has been formed (R350). -/
  formed : Bool := false
  /-- Fabric address whose candidate set REPLAY, the first code there, and the largest ATTEMPT known. -/
  origin : Nat := 0
  code : Nat := 0
  maxAttempt : Nat := 0
  /-- Start beat of the aborted run. -/
  f : Nat := 0
  /-- The step is abandoned (R355), and the beat of its null commit. -/
  abandoned : Bool := false
  endBeat : Nat := 0
  /-- No replay follows (PWR_THERMAL_TRIP, R339). -/
  noReplay : Bool := false
  /-- The logical core whose faults ended the last attempts of this step, and how many in a row (R358). -/
  coreFault : Option Nat := none
  coreFaults : Nat := 0
  deriving DecidableEq, Repr

/-- A fault-log entry (Table 13-7). -/
structure FaultEntry where
  beat : Nat
  code : Nat
  unit : Nat
  attempt : Nat
  stepId : Nat
  context : Nat
  hoop : Nat
  origin : Nat
  response : Nat
  detail : Nat
  deriving DecidableEq, Repr

/-- The substitution of the spare core (R358, R359). -/
structure Spare where
  /-- A substitution waits for the passes of the core to end: the logical core. -/
  pendingFor : Option Nat := none
  /-- Root tick by which the copy ends. -/
  due : Nat := 0
  deriving DecidableEq, Repr

/-- Clock sources and their switches (R388 to R391). -/
structure Clocks where
  /-- Root tick at which CK_PLL.LOCKED comes. -/
  lockDue : Option Nat := none
  /-- Domain switches in progress: 0 ACLK, 1 PCLK, 2 MCLK; the tick of the first cycle on the new source, and the source. -/
  switches : Tab (Nat × Bool) := []
  /-- The sources in force. -/
  aclk : Bool := false
  pclk : Bool := false
  mclk : Bool := false
  /-- CLKMON: the setting in force, and the mark at which the new setting starts (R391). -/
  mon : Nat := 0
  monDue : Option Nat := none
  deriving DecidableEq, Repr

/-- What a ramp leads to (R395, Table 15-5). -/
inductive RampGoal where
  | park | run | sleep | warm | trip
  deriving DecidableEq, Repr

/-- A ramp in progress (R395). -/
structure Ramp where
  goal : RampGoal
  credits : Nat
  /-- Credits added each beat. -/
  kPrime : Nat
  /-- Warm reset: the cause, and whether WARMZ still reads low. -/
  cause : Nat := 0
  deriving DecidableEq, Repr

/-- The governor, the power unit and the plinth beside their registers (R392 to R402). -/
structure Power where
  ramp : Option Ramp := none
  /-- Credits that the governor carries outside a power-state ramp, toward PW_DUMMY.LEVEL (R396). -/
  credits : Nat := 0
  /-- Closed core gates, stopped memory ports and link ports, one bit each. -/
  gatesClosed : Nat := 0
  portsStopped : Nat := 0
  linksStopped : Nat := 0
  sleeping : Bool := false
  tripped : Bool := false
  /-- The PORZ pin reads low; WARMZ reads low. -/
  porzLow : Bool := false
  warmzLow : Bool := false
  /-- Root tick at which the boot ROM starts, and the CAUSE it starts with. -/
  bootDue : Option Nat := some 45056
  /-- Power-good inputs of the rails, one bit each (bit 7 the plinth's). -/
  powerGood : Nat := 0xFF
  /-- The limit term of PW_STRETCH.WANT (R399). -/
  limitTerm : Nat := 0
  /-- Accepted limit writes, in force from the next beat boundary (R19): register code and VALUE. -/
  limitNext : Tab Nat := []
  /-- The last thermal sample, sensor 0 first (R447). -/
  thermal : List Nat := []
  /-- Wait for core-rail power-good on wake (R395). -/
  waking : Bool := false
  /-- The regulator request in mV (R402). -/
  requestMv : Nat := Config.integration.vreq
  /-- The block current of the last telemetry sample, in mA (R402). -/
  lastMa : Option Nat := none
  deriving DecidableEq, Repr

/-! A core: queues, sequencer, array, drain unit, vector unit and walker. -/

/-- A data entry of a queue end (R147): kind 0 F32, 1 I32, 2 PACKED, 3 RECORD; PACKED carries its format code. -/
structure Chunk where
  kind : Nat
  fmt : Nat := 0
  bytes : List Byte
  /-- The arming that pushed it, of those of the queue's bobbin; 0: none (R181). -/
  owner : Nat := 0
  deriving DecidableEq, Repr

/-- An open hardware loop (R153 to R155). -/
structure LoopLevel where
  /-- Ring positions of the first and the last body instruction. -/
  first : Nat
  last : Nat
  count : Nat
  index : Nat
  dstamp : Nat
  astride : Int
  deriving DecidableEq, Repr

/-- A comparator's setting (R151). -/
structure Comparator where
  operand : Nat := 0
  qdepth : Bool := false
  cond : Nat := 0
  en : Bool := false
  thresh : Nat := 0
  deriving DecidableEq, Repr

/-- The checkpoint of the scalar state (R160). -/
structure Checkpoint where
  s : List Nat := List.replicate 16 0
  ct : List Nat := List.replicate 8 0
  sel : List Nat := List.replicate 8 0
  cm : List Comparator := List.replicate 4 {}
  deriving DecidableEq, Repr

/-- What the sequencer skips: nothing, up to the next SEG (R158), or up to the next NEWSTEP SEG (R157, R356). -/
inductive SkipMode where
  | none | toSeg | toNewstep
  deriving DecidableEq, Repr

/-- The sequencer beside its registers. -/
structure Seq where
  /-- The words each bank holds as loaded, by ring position (R138). -/
  bank0 : Tab InstrWord := []
  bank1 : Tab InstrWord := []
  /-- Root tick at which a load of a bank ends (R139, R140). -/
  loadDue : Tab Nat := []
  /-- Published positions not yet copied: first, one past the last, and the tick by which the copy ends (R139). -/
  copies : List (Nat × Nat × Nat) := []
  loops : List LoopLevel := []
  /-- S registers that wait for an SLD: register, value, tick. -/
  sldPending : List (Nat × Nat × Nat) := []
  /-- Event selections and comparators (R150, R151). -/
  sel : List Nat := List.replicate 8 0
  cm : List Comparator := List.replicate 4 {}
  checkpoint : Checkpoint := {}
  skip : SkipMode := .none
  /-- The number of the run that the core is bound to (R157), and of the last run it was bound to. -/
  bound : Bool := false
  boundRun : Nat := 0
  /-- Hoop of the SEGs of the bound run (R159). -/
  runHoop : Option Nat := none
  /-- The open segment's context and hoop (R158). -/
  seg : Option (Nat × Nat) := none
  /-- Contexts of the segments that have begun in the bound run, one entry a segment. -/
  segs : List Nat := []
  /-- The run hoop's and segment's instruction stamps count from this beat: the bound run's start f. -/
  f : Nat := 0
  /-- Effective stamp of the last instruction issued in the bound run (R144). -/
  lastStamp : Nat := 0
  /-- The first tick at which another instruction may issue: one a cycle (R143). -/
  nextIssue : Nat := 0
  /-- Position of the NEWSTEP SEG that has bound the core to the run and has not issued yet (R157). -/
  bindPos : Option Nat := none
  /-- The bank of the last instruction issued since the banks were loaded: it is in the fetch window until an instruction of another bank issues
  (R139). -/
  lastBank : Option Nat := none
  /-- A reload request that waits to be judged: the tick, and the banks (R140). -/
  bankReq : Option (Nat × Nat) := none
  /-- A halt in a run has been taken back: the core leaves HALTED when both banks are valid (R161). -/
  restart : Bool := false
  /-- Positions whose ring word the prefetcher found uncorrectable (R215). -/
  badPos : List Nat := []
  deriving DecidableEq, Repr

/-- A stationary bank of the array: what loaded it and its values (R65). `vals` holds, row by row and column by column, the packed
element codes of a PE; in mode O one accumulator code. -/
structure StatBank where
  loaded : Bool := false
  mode : Nat := 0
  fmt : Nat := 0
  pfmt : Nat := 0
  accumulate : Bool := false
  vals : List (List Nat) := []
  /-- Column sums captured by the load (R67). -/
  colSum : List Int := []
  deriving DecidableEq, Repr

/-- A stationary load, direct or by the walker (R65). -/
structure ArrLoad where
  mode : Nat
  fmt : Nat
  pfmt : Nat
  kRows : Nat
  cols : Nat
  accumulate : Bool
  tile : Nat
  /-- First bank and line of its region. -/
  bank : Nat
  line : Nat
  started : Option Nat := none
  /-- Context of the segment in which it issued (R410). -/
  owner : Nat := 0xFFFF
  deriving DecidableEq, Repr

/-- A pass (Table 3-3). -/
structure ArrPass where
  mode : Nat
  fmtA : Nat
  fmtB : Nat
  kRows : Nat
  cols : Nat
  len : Nat
  tile : Nat
  line0 : Nat
  accumulate : Bool
  sealing : Bool
  swap : Bool
  csum : Bool
  /-- Masks: bit e of rowMask masks stream element e, bit j of colMask column j. -/
  rowMask : Nat
  colMask : Nat
  bankA : Nat
  lineA : Nat
  bankB : Nat
  lineB : Nat
  /-- Segment shifts of operand A, by row of the stream (W, O) or stationary row (S); none: not segmented (R102). -/
  shifts : List (List Nat) := []
  /-- K elements before the pass's first, for the segment of an element. -/
  k0 : Nat := 0
  walker : Bool := false
  started : Option Nat := none
  /-- Line and chain output of each unmasked stream element, once the pass has started. -/
  out : List (Nat × List Nat) := []
  colSum : List Int := []
  /-- Context of the segment in which it issued (R410). -/
  owner : Nat := 0xFFFF
  deriving DecidableEq, Repr

/-- A line of accumulator memory: state 0 EMPTY, 1 OPEN, 2 SEALED (R72). -/
structure AccLine where
  state : Nat := 0
  /-- The line holds I32 values. -/
  int : Bool := false
  vals : List Nat := []
  deriving DecidableEq, Repr

/-- The array (R60 to R84). -/
structure ArrayUnit where
  active : StatBank := {}
  standby : StatBank := {}
  /-- Loads and passes in flight or held, in issue order. -/
  loads : List ArrLoad := []
  passes : List ArrPass := []
  /-- Lines that are not EMPTY: key tile × ARRAY_ROWS + line. -/
  lines : Tab AccLine := []
  /-- Column-sum vectors of the tiles (R67). -/
  colSums : Tab (List Int) := []
  /-- First feed and length of the last pass started; first feed of the last swapping pass; last cycle of the last load. -/
  lastFeed : Option (Nat × Nat) := none
  lastSwap : Option Nat := none
  loadEnd : Nat := 0
  /-- A load has started into the standby bank and no pass has swapped it in. -/
  standbyReady : Bool := false
  /-- Feeder banks of passes that have committed, as (first, count), with the first tick after their commit cycle (R69). -/
  fedBanks : List (Nat × Nat × Nat) := []
  /-- Feeder and load reads of uncorrectable words to come: the tick at which the read completes, KIND, ROW and COL of CR_ARR_FAULT, and the word
  (R82). -/
  badReads : List (Nat × Nat × Nat × Nat × Nat) := []
  scrubDue : Option Nat := none
  treeDue : Option Nat := none
  /-- Stop requests of Table 3-8 in force: debug halt, throttle, disable, core reset; and the tick of the oldest. -/
  stopTick : Option Nat := none
  disabling : Bool := false
  resetting : Bool := false
  /-- Shadow lines of the passes in flight are to be discarded. -/
  discard : Bool := false
  deriving DecidableEq, Repr

/-- A drain-unit command in progress: DRAIN or CVT (R165, R166). -/
structure DrainOp where
  isCvt : Bool
  /-- Ring position of the instruction. -/
  ringPos : Nat := 0
  tile : Nat := 0
  line0 : Nat := 0
  lines : Nat := 0
  raw : Bool := false
  gather : Bool := false
  dest : Nat := 0
  rfn : Nat := 0
  outFmt : Nat := 6
  rowbuf : Nat := 0
  lscale : Option Nat := none
  cscale : Option Nat := none
  i0 : Nat := 0
  j0 : Nat := 0
  n : Nat := 0
  fmt : Nat := 0
  dataClass : Bool := false
  segmented : Bool := false
  zp : Nat := 0
  outHdr : Nat := 0
  row0 : Nat := 0
  /-- Lines or rows already done; chunks of the present row that wait for a free place. -/
  pos : Nat := 0
  wait : List Chunk := []
  /-- Lines sent to the core tambour that have not come back. -/
  inTambour : Nat := 0
  /-- A macro's drain or conversion: the row-function parameters and the operand tensor's descriptor, the hoop whose far memory holds
  scales and operands (none: matrix memory), the columns inside the run-time shape, whether lines hold columns of C (mode S), the
  first row of the band, and the K lengths of segmented records of the line's and the column's operand. -/
  walker : Bool := false
  params : List Nat := []
  opd : List Byte := []
  farHoop : Option Nat := none
  validCols : Nat := 0
  across : Bool := false
  band0 : Nat := 0
  lineSeg : Option Nat := none
  colSeg : Option Nat := none
  /-- Scales of the lines as BF16 codes, where the macro itself formed them (R133). -/
  midScales : List Nat := []
  /-- A conversion's scale records follow its rows. -/
  records : Bool := true
  /-- Lines at or above this one are discarded (R123); a macro's conversion waits for its BAND_CONVERT; it fills the staging sets of
  MMUL2's intermediate, for this chunk (R133). -/
  validLines : Nat := 1048576
  held : Bool := false
  mid : Option Nat := none
  /-- Context of the segment in which it issued (R410). -/
  owner : Nat := 0xFFFF
  deriving DecidableEq, Repr

/-- A vector-unit command in progress: VOP, VLD or VST (R167, R168). -/
structure VecOp where
  /-- 0 VOP, 1 VLD, 2 VST. -/
  op : Nat
  /-- Ring position of the instruction. -/
  ringPos : Nat := 0
  func : Nat := 0
  src1 : Nat := 0x1F
  src2 : Nat := 0x1F
  src3 : Nat := 0x1F
  dest : Nat := 0x1F
  count : Nat
  imm : Nat := 0
  addr : Nat := 0
  stride : Nat := 0
  bf16 : Bool := false
  fmt : Nat := 0
  pos : Nat := 0
  /-- Running reduction, one value a lane (R132). -/
  acc : List Nat := []
  /-- Context of the segment in which it issued (R410). -/
  owner : Nat := 0xFFFF
  deriving DecidableEq, Repr

/-- A pass that the walker has yet to issue (R117): batch, stream tile, other tile, K tile, group, visit, and its place in the
generated order. -/
structure GenPass where
  n : Nat
  b : Nat
  s : Nat
  o : Nat
  kc : Nat
  g : Nat
  v : Nat
  first : Bool
  last : Bool
  /-- A share that has run out: every column masked (R127). -/
  idle : Bool := false
  /-- Product of MMUL2: 1 or 2; chunk of rows. -/
  product : Nat := 1
  chunk : Nat := 0
  deriving DecidableEq, Repr

/-- The macro in progress (R113 to R133). -/
structure Macro where
  two : Bool
  mpb : List Byte
  /-- Descriptors popped: A, B, (B2,) output, and the operand tensor where the row function takes one. -/
  descs : List (List Byte)
  opd : List Byte := []
  /-- Latched run-time M, N, K and batch count (R122); for MMUL2, N is N2 and `rtMid` is N1. -/
  rtM : Nat
  rtN : Nat
  rtK : Nat
  rtB : Nat
  rtMid : Nat := 0
  zero : Bool := false
  /-- Rank of this core and number of members (R127). -/
  rank : Nat := 0
  members : Nat := 1
  /-- Passes in generated order, and how many have issued. -/
  passes : List GenPass := []
  issued : Nat := 0
  /-- Fetches of operand A and of operand B still to arm, by pass; fetches whose data is staged: operand, pass. -/
  fetchA : List Nat := []
  fetchB : List Nat := []
  staged : List (Nat × Nat) := []
  /-- Output descriptors still to arm: far runs in bytes, with whether they lie in matrix memory. -/
  outs : List (List (Nat × Nat)) := []
  /-- Sealing passes whose lines wait for the combine rounds of SPLIT K, and the rounds done for the first of them (R129). -/
  combine : List GenPass := []
  rounds : Nat := 0
  /-- Chunks of MMUL2 whose intermediate is staged, and the scales of the present chunk's rows. -/
  midReady : List Nat := []
  midScales : List Nat := []
  /-- Root tick of the planned completion (R126). -/
  due : Nat := 0
  hoop : Nat := 0
  f : Nat := 0
  /-- Context of the segment in which it issued (R410). -/
  owner : Nat := 0xFFFF
  deriving DecidableEq, Repr

/-! Bobbins. -/

/-- A bobbin descriptor (Table 7-2), and what a descriptor of the walker holds besides. -/
structure BobbinDesc where
  op : Nat
  flags : Nat := 0
  atom : Nat := 0
  qend : Nat := 0x1F
  obj : Nat := 0
  sigAdd : Nat := 0
  far : Nat := 0
  near : Nat := 0
  mask : Nat := 0
  stream : Nat := 0
  maxu : Nat := 0
  ckind : Nat := 0
  valid0 : Nat := 0
  counts : List Nat := []
  fstride : List Int := []
  nstride : List Int := []
  aux : Nat := 0
  /-- Matrix-memory address from which it was armed. -/
  src : Nat := 0
  /-- A walker descriptor: its far runs, (byte address, bytes), in order; whether they lie in matrix memory; the fetch it makes:
  operand and pass. -/
  runs : Option (List (Nat × Nat)) := none
  nearRuns : Bool := false
  stage : Option (Nat × Nat) := none
  deriving DecidableEq, Repr

/-- A transfer that has started (R175): its pieces as (far nibble, near nibble, nibbles), and its data once they have come. -/
structure Xfer where
  id : Nat
  write : Bool
  pieces : List (Nat × Nat × Nat)
  data : Option (List Nat)
  /-- First root tick at which it may take effect (R375). -/
  due : Nat
  /-- A write that the port has yet to answer. -/
  waiting : Bool := false
  deriving DecidableEq, Repr

/-- The progress of a GATHER or SERVE descriptor (R192 to R196). -/
structure GatherState where
  /-- The index list has been read; the next row whose transfers start; rows whose bytes have come. -/
  begun : Bool := false
  pos : Nat := 0
  done : Nat := 0
  /-- Ordinals given, by shard. -/
  ordinals : Tab Nat := []
  /-- Bytes of the present row whose transfers have started. -/
  rowOff : Nat := 0
  /-- Rows served, in order: bag, index (SERVE: local row), output row. -/
  rowQ : List (Nat × Nat × Nat) := []
  buf : List Byte := []
  served : Tab Nat := []
  skips : Tab Nat := []
  incomplete : Tab Nat := []
  nonfinite : Tab Nat := []
  acc : Tab (List Nat) := []
  overflow : List (Nat × Nat) := []
  dropped : Nat := 0
  /-- Remote gather, by shard: request payloads sent, reply payloads taken, reply bytes unread, entries accepted. -/
  sent : Tab Nat := []
  got : Tab Nat := []
  replies : Tab (List Byte) := []
  taken : Tab Nat := []
  /-- SERVE: request payloads taken, reply bytes formed, reply payloads sent. -/
  reqGot : Nat := 0
  out : List Byte := []
  outSent : Nat := 0
  /-- Bags that wait for the gather tambour (R242). -/
  pooling : List Nat := []
  deriving DecidableEq, Repr

/-- A busy descriptor slot: state 1 ARMED, 2 ACTIVE, 3 CLOSING (R177, R178). -/
structure BobSlot where
  state : Nat
  /-- Tick from which the slot is in that state (R177, R178). -/
  since : Nat := 0
  desc : BobbinDesc
  /-- Atom and nibble within it at which the next transfer starts, on the source and on the destination side. -/
  pos : Nat := 0
  off : Nat := 0
  wpos : Nat := 0
  woff : Nat := 0
  /-- Transfers started in this beat (MAXU). -/
  started : Nat := 0
  /-- Nibbles read and not yet written or pushed. -/
  buf : List Nat := []
  xfers : List Xfer := []
  /-- Number of this arming, from 1. -/
  serial : Nat := 0
  cancelled : Bool := false
  gather : GatherState := {}
  /-- Context of the segment in which it issued (R410). -/
  owner : Nat := 0xFFFF
  deriving DecidableEq, Repr

/-- A bobbin: its busy slots, NEXT, and NEXT at the last commit. -/
structure Bobbin where
  slots : Tab BobSlot := []
  next : Nat := 0
  committed : Nat := 0
  /-- Slots whose descriptor has reached END, with the tick from which they are FREE (R178). -/
  freed : Tab Nat := []
  /-- Descriptors armed, and transfers started, since reset. -/
  armed : Nat := 0
  nextId : Nat := 0
  deriving DecidableEq, Repr

/-- A slot of a frame as the core side handles it: place, tag and payload. TYPE 0 EMPTY, 1 DATA, 2 POISON. -/
structure SlotData where
  port : Nat
  lane : Nat
  slot : Nat
  typ : Nat := 0
  stream : Nat := 0
  hoop : Nat := 0
  len : Nat := 0
  data : List Byte := []
  /-- KIND, UNIT and SUB of its receive entry. -/
  kind : Nat := 0
  unit : Nat := 0
  sub : Nat := 0
  /-- The fabric beat for which it was received (R294). -/
  forBeat : Nat := 0
  deriving DecidableEq, Repr

/-- A row of a GATHER with POOL 4 on its way into the gather tambour (Table 9-3). -/
structure PoolRow where
  core : Nat
  bobbin : Nat
  bag : Nat
  last : Bool
  row : List Byte
  deriving DecidableEq, Repr

/-- A physical core. -/
structure Core where
  seq : Seq := {}
  arr : ArrayUnit := {}
  drn : List DrainOp := []
  vec : List VecOp := []
  mac : Option Macro := none
  /-- Data queues: key the queue-end code; the inbound side of Bb has key 18h + b (Table 6-4). -/
  queues : Tab (List Chunk) := []
  /-- Descriptor queues of FA, FB, DR and V0. -/
  descs : Tab (List (List Byte)) := []
  /-- Bobbins B0 to B7 that are not in their reset state. -/
  bobbins : Tab Bobbin := []
  /-- The regulator: the tick of the present cycle and the bobbins that started a transfer in it; slot moves made in this beat (R184, R188). -/
  placeTick : Nat := 0
  places : List Nat := []
  txMoves : Nat := 0
  rxMoves : Nat := 0
  /-- The core is held in core reset. -/
  inReset : Bool := false
  /-- A debug halt stops issue (R382). -/
  debugHalt : Bool := false
  deriving DecidableEq, Repr

/-! Memories and hoops. -/

/-- An address window of a hoop (R367): SIZE in bytes. -/
structure Window where
  vbase : Nat
  pbase : Nat
  size : Nat
  read : Bool
  write : Bool
  deriving DecidableEq, Repr

/-- A key slot (R371, R372): K1 and K2 as a number, the tenant public key, and the key generation. -/
structure KeySlot where
  key : Option Nat := none
  tpub : List Byte := []
  gen : Nat := 0
  deriving DecidableEq, Repr

/-- A commit-table entry (Table 8-6). -/
structure CtEntry where
  buf0 : Nat := 0
  buf1 : Nat := 0
  size : Nat := 0
  hoop : Nat := 0
  flags : Nat := 0
  gen : Nat := 0
  zero : Nat := 0
  deriving DecidableEq, Repr

/-- A line of the cache (R210): the unit it holds, and the key slot and generation of the transaction that filled it. -/
structure CacheLine where
  unit : Nat
  hoop : Nat
  gen : Nat
  deriving DecidableEq, Repr

/-- An entry of the memory error log (Table 8-4). -/
structure ErrEntry where
  unit : Nat
  symbols : Nat
  agent : Nat
  whereAt : Nat
  beat : Nat
  deriving DecidableEq, Repr

/-- A transaction of a bobbin on a memory port (R220, R221), oldest first in its list. -/
structure PortTxn where
  port : Nat
  tag : Nat
  unit : Nat
  /-- The unit's new bytes, for a write. -/
  data : Option (List Byte)
  hoop : Nat
  gen : Nat
  /-- A read of the cached area whose line may be allocated (R210). -/
  alloc : Bool
  /-- A read of the cached area that missed: its unit goes through the cache (CACHE_FILL). -/
  cached : Bool
  /-- The unit has arrived at the cache; symbol errors found in it. -/
  filled : Bool := false
  symbols : Nat := 0
  /-- Core, bobbin, and number of the transfer served. -/
  core : Nat
  bobbin : Nat
  xfer : Nat
  deriving DecidableEq, Repr

/-! Synchronisation. -/

/-- A couch request or couch entry (R265, Table 11-6). -/
structure CouchReq where
  dest : Nat
  obj : Nat
  value : Nat
  mark : Nat
  stream : Nat
  hoop : Nat
  fbeat : Nat
  ttl : Nat := 127
  /-- The first beat whose frame may carry it (R297). -/
  frame : Nat := 0
  deriving DecidableEq, Repr

/-- The energy unit beside its registers (R407 to R422). Weights and energies are kept by entry × 8 + category × 2 + (1 if committed):
entries 0 to 16,383 the contexts, 16,384 the replay account, 16,385 the overhead account; categories 0 DYN, 1 STAT, 2 LINK, 3 MEM. -/
structure EnergyUnit where
  /-- Weights of the present period, and of the one before it until it is apportioned (R410, R414). -/
  now : Tab Nat := []
  before : Tab Nat := []
  /-- Accumulators and accounts in µJ. -/
  acc : Tab Nat := []
  /-- Carried remainders ρ_r (R408). -/
  rho : Tab Nat := []
  /-- Root tick at which the present period began, and cycles of the period before. -/
  began : Nat := 0
  cycles : Nat := 0
  /-- The period before has been asked for and has neither come nor gone missing; once settled, its rail energies by CLASS, whether it was
  estimated, and that it waits for apportionment. -/
  asked : Bool := false
  settled : Bool := false
  estimated : Bool := false
  byClass : List Nat := [0, 0, 0, 0]
  /-- Missing samples in a row (R409). -/
  missing : Nat := 0
  /-- Contexts that received estimated energy, and measured periods that contributed to each entry. -/
  marked : Tab Nat := []
  samples : Tab Nat := []
  /-- Fabric time of each context's first issue, beat × 256 + phase, and the beat of its commit (R417). -/
  started : Tab Nat := []
  ended : Tab Nat := []
  /-- Contexts whose commit fell in a period not yet apportioned: the period (R418). -/
  commitPeriod : Tab Nat := []
  /-- Contexts whose record has been produced. -/
  produced : Tab Nat := []
  /-- The record that is being signed: its 192-byte body, and the entry that it closes (R418). -/
  signing : Option (List Byte × Nat) := none
  /-- The next record is the first since ENABLE, since PORZ (R419). -/
  resumed : Bool := false
  chainStart : Bool := true
  /-- END of the last BLOCK record, and the last period apportioned. -/
  blockEnd : Nat := 0
  lastPeriod : Nat := 0
  /-- Held coefficients (R415): e, or 16 for EN_CAL_ID. -/
  calHeld : Tab Nat := []
  /-- Chunks that contexts moved through the gather tambour in this window (R410). -/
  gatherChunks : Tab Nat := []
  deriving DecidableEq, Repr

/-- An entry that has been taken from a queue, and whose completion record has not been written (R281, R282). -/
structure Taken where
  queue : Nat
  seq : Nat
  tag : Nat
  /-- The context admitted for it; none: the record carries `status`. -/
  ctx : Option Nat
  status : Nat := 0
  /-- The entry failed at its take, with HALT_ON_FAIL (R274). -/
  halts : Bool := false
  /-- The record is due, with these FLAGS beside DONE (Table 10-5). -/
  due : Bool := false
  flags : Nat := 0
  /-- A CANCEL whose outcome the end of the beat decides: the context cancelled (R17, R279). -/
  cancels : Option Nat := none
  deriving DecidableEq, Repr

/-- A launch whose continuation is still to be admitted (R334): queue or armature entry, number, tag, graph and hoop. -/
structure Continuation where
  armature : Bool
  queue : Nat
  seq : Nat
  tag : Nat
  graph : Nat
  hoop : Nat
  deriving DecidableEq, Repr

/-- Submission beside its registers (R271 to R284, R334). -/
structure Submission where
  /-- Entries taken and not yet published, in the order of the takes. -/
  taken : List Taken := []
  /-- The ready list, oldest first (R272). -/
  ready : List Nat := []
  /-- Queues whose tail read is in flight. -/
  reads : List Nat := []
  /-- Queue from which the next visit looks, the tick of the next visit, and the tick at which the present sweep began. -/
  scanAt : Nat := 0
  visitDue : Nat := 0
  sweepStart : Nat := 0
  continuations : List Continuation := []
  /-- Segments of each context that committed steps completed (R16). -/
  segs : Tab Nat := []
  deriving DecidableEq, Repr

/-- An output that a FIXED function owes (R238, R242): the tick at which it is due; for the gather tambour the place it goes to, core +
32 × bobbin + 256 × bag, and whether it ends the row. -/
structure Owed where
  due : Nat
  tag : Nat := 0
  last : Bool := false
  deriving DecidableEq, Repr

/-- A tambour beside its registers (R231 to R254). The logic of its image is outside the model: its outputs come with commands. -/
structure Tambour where
  /-- The image in configuration memory and CONST pages: header, configuration, pages. -/
  image : List Byte := []
  /-- Signature check of the load in progress, and the tick at which the load ends; the end of a sequence of Table 9-7; of a clearing. -/
  signed : Bool := false
  loadDue : Option Nat := none
  seqDue : Option Nat := none
  clearDue : Option Nat := none
  /-- Root tick from which inputs are taken in this run, and of the next chunk that may move in. -/
  popFrom : Nat := 0
  nextMove : Nat := 0
  owed : List Owed := []
  /-- The release buffer: outputs delivered and not yet pushed, with their tags. -/
  early : List (Nat × Chunk) := []
  /-- The gather tambour's output row so far. -/
  row : List Byte := []
  /-- Run in which it has been used. -/
  used : Option Nat := none
  /-- Frame that the configuration scrubber reads next. -/
  frame : Nat := 0
  /-- The L_IN buffer, and the payloads in the L_OUT buffer. -/
  lin : List SlotData := []
  lout : List SlotData := []
  deriving DecidableEq, Repr

/-! Links (R287 to R314). -/

/-- A message fragment (Table 11-7). -/
structure Fragment where
  dst : Nat
  src : Nat
  cls : Nat
  flags : Nat
  ttl : Nat
  msgId : Nat
  off : Nat
  data : List Byte
  deriving DecidableEq, Repr

/-- A message in reassembly (R300): the beat in which it was first held, its size once LAST has come, and its parts by offset. -/
structure Partial where
  src : Nat
  msgId : Nat
  cls : Nat
  port : Nat
  since : Nat
  total : Option Nat := none
  parts : Tab (List Byte) := []
  deriving DecidableEq, Repr

/-- A message delivered to the control processors. -/
structure Message where
  cls : Nat
  src : Nat
  data : List Byte
  deriving DecidableEq, Repr

/-- A physical lane's receive side. -/
structure LaneRx where
  /-- Beat of the last valid header, and how many beats in a row have had one (R303). -/
  last : Nat := 0
  good : Nat := 0
  /-- Receive windows in a row that closed without one (R305). -/
  misses : Nat := 0
  /-- Beats of the slots that failed row 2 of Table 11-4 in the last 64 beats (R305). -/
  fails : List Nat := []
  /-- The lane has been declared failed. -/
  failed : Bool := false
  /-- ECHO_BEAT and ECHO_QC of the frames sent on it (Table 11-2). -/
  echoBeat : Nat := 0
  echoQc : Int := 0
  /-- Measurement: sum of the two echoes, and their number (R304). -/
  sum : Int := 0
  count : Nat := 0
  deriving DecidableEq, Repr

/-- A neighbour's HELLO (Table 11-11) and the beat in which it came. -/
structure Neighbour where
  serial : Nat
  addr : Nat
  flags : Nat
  port : Nat
  bestPrio : Nat
  bestDist : Nat
  bestSerial : Nat
  heard : Nat
  deriving DecidableEq, Repr

/-- A link port beside its registers. -/
structure LinkPort where
  lanes : List LaneRx := List.replicate 5 {}
  /-- Beat in which MEASURE began; beat of the last valid header on any lane. -/
  measureStart : Nat := 0
  lastHeard : Nat := 0
  /-- The spare lane of each direction. -/
  rxSpare : Nat := 4
  txSpare : Nat := 4
  /-- Switch-over of the receive side: failed lane, E_s, beat from which the port is whole; of the transmit side: lane and E_s (R306). -/
  rxSwitch : Option (Nat × Nat × Nat) := none
  txSwitch : Option (Nat × Nat) := none
  neighbour : Option Neighbour := none
  /-- Fragments that wait to be sent, oldest first (R300). -/
  egress : List Fragment := []
  /-- Address of the neighbour towards which FAB_LINK_DOWN was raised, and the beat of the last LOST_SUSPECT for it (R335). -/
  downAddr : Option Nat := none
  suspectAt : Option Nat := none
  deriving DecidableEq, Repr

/-- A slot as its frame brought it. -/
structure RawSlot where
  /-- A failed tag, or an uncorrectable codeword; the first codeword is uncorrectable. -/
  bad : Bool
  firstBad : Bool
  slot : SlotData
  deriving DecidableEq, Repr

/-- A frame, or its absence, for a plan beat whose run has not begun. -/
structure HeldFrame where
  port : Nat
  lane : Nat
  forBeat : Nat
  epoch : Nat
  missed : Bool
  slots : List RawSlot
  deriving DecidableEq, Repr

/-- A frame sent (R289): its header, the slots that are not EMPTY, and its slot-19 content. -/
structure TxFrame where
  port : Nat
  lane : Nat
  header : List Byte
  slots : List SlotData
  couch : List CouchReq
  fragment : Option Fragment
  deriving DecidableEq, Repr

/-- The link unit. -/
structure LinkUnit where
  ports : Tab LinkPort := []
  /-- The last 256 flooded fragments seen (R301). -/
  seen : List (Nat × Nat × Nat) := []
  reasm : List Partial := []
  inbox : List Message := []
  msgId : Nat := 0
  /-- Beat of the last HELLO sent; beat from which the election result stands (R308, R309). -/
  helloAt : Option Nat := none
  electAt : Nat := 0
  /-- Boundary ticks of the last 64 beats, newest first. -/
  boundaries : List (Nat × Nat) := []
  held : List HeldFrame := []
  /-- FT_LOST as the present run uses it (R360). -/
  lost : Tab Nat := []
  /-- Slots that the present beat sends, and the frames of the beat before. -/
  txNow : List SlotData := []
  txFrames : List TxFrame := []
  /-- The Keeper's comparison of the last EPOCH message with its own armed image (R299). -/
  epochConfirmed : Option Bool := none
  deriving DecidableEq, Repr

/-! Control processors (R317 to R335). -/

/-- A control processor. Its firmware is outside the model. -/
structure Processor where
  /-- The verified, locked image in its instruction memory: code, FW_MAJOR and FW_MINOR. -/
  code : List Byte := []
  locked : Bool := false
  fwMajor : Nat := 0
  fwMinor : Nat := 0
  entry : Nat := 0
  running : Bool := false
  /-- Root tick by which its data memory is zero again and it starts (R325). -/
  startDue : Option Nat := none
  /-- Beat of the last kick or restart; beats of the restarts (R328, R329). -/
  kicked : Nat := 0
  restarts : List Nat := []
  /-- The access fault of an attach access (R450). -/
  accessFault : Bool := false
  deriving DecidableEq, Repr

/-- What the processors' side holds beside its registers. -/
structure Processors where
  dispatcher : Processor := {}
  keeper : Processor := {}
  /-- DP_TAKES and the beat since which it has not changed (R328). -/
  takesSeen : Nat := 0
  takesBeat : Nat := 0
  /-- Time master: WANT messages (source, amount, beat), suspected blocks (source, block, beat), blocks declared lost (block, beat of the
  last flood) (R333, R335). -/
  wants : List (Nat × Nat × Nat) := []
  suspects : List (Nat × Nat × Nat) := []
  /-- Cores whose lead is exhausted (R322). -/
  leadOut : List Nat := []
  lostBlocks : List (Nat × Nat) := []
  /-- Host accesses at the attach port: the last response of each side (error, data). -/
  attachResponse : Option (Bool × List Byte) := none
  initiatorResponse : Option (Bool × List Byte) := none
  /-- The last aperture access's response: error, data. -/
  apertureResponse : Option (Bool × List Byte) := none
  deriving DecidableEq, Repr

/-! Management (R425 to R435). -/

/-- A management session. -/
structure Session where
  /-- Not yet confirmed: OPEN and ACCEPT bodies. -/
  opening : Option (List Byte × List Byte) := none
  tenant : Bool
  hoop : Nat
  stationKey : List Byte := []
  blockKey : List Byte := []
  /-- The ECDH shared secret and the salt, until the keys are derived. -/
  secret : List Byte := []
  salt : List Byte := []
  lastSeq : Nat := 0
  lastResponse : List Byte := []
  /-- Beat of the last accepted REQUEST. -/
  lastBeat : Nat
  selector : Nat := 0
  faultIndex : Nat := 0
  deriving DecidableEq, Repr

/-- The Keeper's management state and the snapshot unit. -/
structure Mgmt where
  sessions : Tab Session := []
  nextSession : Nat := 1
  /-- Entry 1011h sub 01h; entry 8010h; entry 1004h. -/
  discarded : Nat := 0
  priority : Nat := 128
  certificate : List Byte := []
  /-- The fault-log entries that the Keeper has stored. -/
  faults : List FaultEntry := []
  /-- The message that the block answered last. -/
  reply : List Byte := []
  /-- Beat in which MG_SNAPCTRL.GO was set (R429). -/
  snapBeat : Nat := 0
  deriving DecidableEq, Repr

/-- The test access port (R384, R385). -/
structure Tap where
  /-- Instruction register: the instruction selected, and the value that the data register captured. -/
  ir : Nat := 0x01
  dr : Nat := 0
  /-- The boundary-scan register, and EXTEST drives its outputs. -/
  boundary : Nat := 0
  driven : Bool := false
  /-- What the next Capture-DR of DBG_ACCESS returns: status (0 OK, 1 BUSY, 2 REFUSED) and data. -/
  status : Nat := 0
  data : Nat := 0
  /-- The permit under verification (R379). -/
  permit : Option (List Byte) := none
  deriving DecidableEq, Repr

/-- The block's state beside its command queue and its byte memories. -/
structure Hw where
  /-- Generator parameters and integration values. No command changes them. -/
  build : Build := Config.fullBuild
  integ : Integration := Config.integration
  /-- Root ticks (4,400 MHz) since reset (R389). -/
  ticks : Nat := 0
  /-- The model's own counter of free values drawn. -/
  draws : Nat := 0
  /-- Registers whose value differs from their reset value. -/
  ctl : Tab DWord := []
  /-- The high word in each agent's holding register (R8). -/
  holding : Tab Nat := []
  time : TimeUnit := {}
  run : Run := {}
  ab : AbortState := {}
  /-- The fault log, oldest entry first (R363). -/
  faultLog : List FaultEntry := []
  spare : Spare := {}
  clocks : Clocks := {}
  power : Power := {}
  /-- Link ports in switch-over: the beat from which the port is whole (R306). -/
  switchWhole : Tab Nat := []
  /-- Physical cores that are not in their reset state. -/
  cores : Tab Core := []
  /-- Number of the run in progress: rises at each run start of a step that is no RESERVE, not at a replay. -/
  runNumber : Nat := 0
  /-- Context states written in this beat, visible from the next (R17). -/
  ctxNext : Tab Nat := []
  /-- Root tick at which block memory's, and each core's matrix memory's zeroing ends (R206, R209); end of a cache invalidation. -/
  bmInitDue : Option Nat := none
  mmInitDue : Tab Nat := []
  invalDue : Option Nat := none
  /-- Cache lines by set × 16 + way, and the pseudo-LRU bits of each set (R210). -/
  cache : Tab CacheLine := []
  plru : Tab Nat := []
  /-- Key sweeps in progress: hoop, tick of the end (R372). -/
  keySweep : Tab Nat := []
  errLog : List ErrEntry := []
  /-- Words known to be uncorrectable, and corrected words that wait for their write-back (R214): unit × 2^32 + WHERE. -/
  badWords : Tab Nat := []
  writeBacks : List Nat := []
  txns : List PortTxn := []
  /-- Key under which each port-memory unit was last written; none: never written (R222). -/
  portKeys : Tab Nat := []
  /-- The scrubber's position in each memory (R216). -/
  scrubAt : Tab Nat := []
  /-- Commit-table entries with held writes applied (R226). -/
  ctHeld : Tab CtEntry := []
  /-- Windows in force by hoop × 16 + window, and held (R366). -/
  windows : Tab Window := []
  windowsHeld : Tab (Option Window) := []
  keys : Tab KeySlot := []
  keysHeld : Tab KeySlot := []
  /-- Held hoop-record words: hoop × 4 + word, 0 CTRL, 1 CORES, 2 SYNC, 3 QUEUE (R366). -/
  hoopHeld : Tab Nat := []
  /-- Increments issued and not yet applied: object, amount, and the tick from which they show (R262). -/
  syncIncs : List (Nat × Nat × Nat) := []
  /-- TAKEs granted in the cycle that begins at a tick: object, amount, tick; a WAIT of that cycle sees the value before them (R263). -/
  takesNow : List (Nat × Nat × Nat) := []
  /-- The couch unit's pending requests, in arrival order (R266). -/
  couchPending : List CouchReq := []
  syncInitDue : Option Nat := none
  /-- Couch entries that wait in each link port's couch queue (R297). -/
  couchOut : Tab (List CouchReq) := []
  /-- Route-table writes in force from the next run start: LK_GRT index, or 256 + LK_MRT index (R302). -/
  routeNext : Tab Nat := []
  /-- Contexts to be marked DEBUGGED when they become DONE at the next commit (R270). -/
  debugged : Tab Nat := []
  /-- Slots received for the present and the next plan beat; slots of the plan beat before, to be moved or forwarded now; slots handed
  over for the next beat. -/
  rxSlots : List SlotData := []
  rxMoving : List SlotData := []
  txSlots : List SlotData := []
  /-- Rows on their way into the gather tambour (R242). -/
  poolRows : List PoolRow := []
  /-- Partial tiles that a SPLIT K member has sent: COMBINE address, sender's rank, visit (R129). -/
  combineSent : List (Nat × Nat × Nat) := []
  energy : EnergyUnit := {}
  tap : Tap := {}
  /-- The value that each agent's last control-space read returned. -/
  readBack : Tab Nat := []
  submit : Submission := {}
  /-- Tambours that are not in their reset state: physical core n, and 17 the gather tambour. -/
  tams : Tab Tambour := []
  /-- Physical cores that are ADMITTED from the next run start; whose array scrub, and whose matrix-memory zeroing, has ended since CLEAN was
  cleared, one bit each (R362). -/
  admitNext : Nat := 0
  scrubbed : Nat := 0
  zeroed : Nat := 0
  link : LinkUnit := {}
  procs : Processors := {}
  mgmt : Mgmt := {}
  deriving DecidableEq, Repr

end Sys2Proof.Machine
end

