-- ==== Sys2Proof/Machine/Memory.lean ====
section
/-! DEFINITION. The byte memories (R205, R208, R219): one canonical list of cells. A cell's key is area × 2^64 + address. Area 0 is
block memory, area 1 the memory behind the ports, area 2 the mailboxes, area 16 + n the matrix memory of physical core n. An unlisted byte reads 0
(log entry 4). -/

namespace Sys2Proof

/-- The byte memories of the block. -/
abbrev Mem := List Host.Cell

/-- What an unlisted byte reads as (log entry 4). -/
def Mem.empty (_ : Nat) : Byte := 0#8

/-- The canonical form: keys strictly rising, no listed byte equal to what an unlisted one reads as. -/
def Mem.wf (m : Mem) : Bool := Tab.wf Mem.empty m

namespace Area

/-- Block memory. -/
def block : Nat := 0

/-- The memory behind the memory ports, as plaintext under the key it was last written with. -/
def port : Nat := 1

/-- The mailboxes' data, 4 KiB each from MB0 (R330). -/
def mailbox : Nat := 2

/-- Matrix memory of a physical core. -/
def matrix (core : Nat) : Nat := 16 + core

end Area

/-- The key of a byte. -/
def Mem.key (area addr : Nat) : Nat := area * 2 ^ 64 + addr

/-- One byte. -/
def Mem.byte (m : Mem) (area addr : Nat) : Byte := Tab.getD m (Mem.key area addr) (Mem.empty addr)

/-- The memory with one byte written. -/
def Mem.setByte (m : Mem) (area addr : Nat) (b : Byte) : Mem := Tab.put m (Mem.empty addr) (Mem.key area addr) b

/-- n bytes from an address. -/
def Mem.read (m : Mem) (area addr n : Nat) : List Byte := (List.range n).map (fun i => Mem.byte m area (addr + i))

/-- The memory with a byte string written from an address. -/
def Mem.write (m : Mem) (area addr : Nat) : List Byte → Mem
  | [] => m
  | b :: bs => Mem.write (Mem.setByte m area addr b) area (addr + 1) bs

/-- A little-endian value of n bytes. -/
def Mem.le (m : Mem) (area addr n : Nat) : Nat := leNat (Mem.read m area addr n)

/-- The memory with every byte of a range of one area at 0 (R206, R209). -/
def Mem.clear (m : Mem) (area addr n : Nat) : Mem :=
  m.filter (fun c => c.1 < Mem.key area addr || Mem.key area addr + n ≤ c.1)

/-- The cells of an area as cells of another. -/
def Mem.moved (m : Mem) (a b : Nat) : Mem :=
  (m.filter (fun c => Mem.key a 0 ≤ c.1 && c.1 < Mem.key (a + 1) 0)).map (fun c => (c.1 - Mem.key a 0 + Mem.key b 0, c.2))

/-- Set every listed byte of a list of cells. -/
def Mem.putAll (m : Mem) : List Host.Cell → Mem
  | [] => m
  | (k, b) :: t => Mem.putAll (Tab.put m 0#8 k b) t

end Sys2Proof
end

