-- ==== Sys2Proof/Machine/Ops.lean ====
section
/-! DEFINITION. The operations every unit shares: registers, time, and the raise of a reason code (R6, R8, R9, R339 to R344, R363). -/

namespace Sys2Proof.Machine

/-! Registers. -/

/-- The parameter word of GL_PARAMS (R437). -/
def paramsWord (b : Build) : Nat :=
  b.cores + b.spareCore * 2 ^ 5 + flag (b.arrayRows == 512) * 2 ^ 6 + flag (b.arrayCols == 64) * 2 ^ 7 +
    b.accTiles * 2 ^ 8 + b.matmemMib / 4 * 2 ^ 16 + b.blockmemMib / 8 * 2 ^ 20 + b.memports * 2 ^ 26 +
    b.linkports * 2 ^ 31 + b.tambourCells / 4096 * 2 ^ 36 + b.gatherCells / 16384 * 2 ^ 41 + Nat.log2 b.hoops * 2 ^ 46

/-- A limit register: VALUE and BOUND equal at reset (Table 15-7). -/
def limitReset (v : Nat) : Nat := v + v * 2 ^ 16

/-- Reset value of a register (the chapters' register tables; integration values where the spec says so). -/
def resetValue (b : Build) (g : Integration) (r : Reg) (i : Nat) : Nat :=
  match r with
  | .CR_ARR_DUMMY => b.dummyCeiling * 2 ^ 16
  | .MP_BM_CTRL => 12 * 2 ^ 16 + min 8 (b.blockmemMib / 16) * 2 ^ 8
  | .MP_WC => b.wR + b.wW * 2 ^ 16
  | .MP_CFG => b.sizeGib + b.chkMode * 2 ^ 16
  | .TB_ACT => b.tbCeiling * 2 ^ 16
  | .GT_ACT => b.gtCeiling * 2 ^ 16
  | .LK_P_CTRL => flag (bit i b.ucieCap) * 4
  | .SC_STATE => b.fuseState * 5
  | .SC_DEBUG => if b.fuseState == 0 then 3 else 0
  | .GL_PARAMS => paramsWord b
  | .GL_SERIAL => b.serial
  | .PW_SLEW => limitReset g.slew
  | .PW_SWING => limitReset g.swing
  | .PW_DOWN => limitReset g.down
  | .PW_IMAX => limitReset g.imax
  | .PW_VMIN => limitReset g.vmin
  | .PW_VMAX => limitReset g.vmax
  | .PW_TEMERG => limitReset g.temerg
  | .PW_TTRIP => limitReset g.ttrip
  | .PW_TWARN => g.twarn
  | .PW_DUMMY => g.dummy + b.dummyCeiling * 2 ^ 16
  | .PW_CAL => g.stepMa + g.unitMa * 2 ^ 16
  | .PW_VREQ => g.vreq
  | .EN_RAIL => (g.rails.getD i (0, 0)).1
  | .EN_RAIL_FALLBACK => (g.rails.getD i (0, 0)).2
  | .EN_CAL => g.cal.getD i 0
  | .EN_CAL_ID => g.calId
  | _ => r.desc.resetv

/-- The key of a register instance in `Hw.ctl`. -/
def ctlKey (r : Reg) (i : Nat) : Nat := i * 512 + r.ctorIdx

namespace Hw

/-- The value a register instance holds. -/
def rd (h : Hw) (r : Reg) (i : Nat) : Nat :=
  match Tab.find? h.ctl (ctlKey r i) with
  | some v => v.toNat
  | none => resetValue h.build h.integ r i % 2 ^ 64

/-- The block with a register instance holding a value. -/
def wr (h : Hw) (r : Reg) (i v : Nat) : Hw :=
  { h with ctl := Tab.put h.ctl (BitVec.ofNat 64 (resetValue h.build h.integ r i)) (ctlKey r i) (BitVec.ofNat 64 (v % 2 ^ (8 * r.desc.size))) }

/-- The instances of a register whose value differs from reset. -/
def listed (h : Hw) (r : Reg) : List Nat := (h.ctl.filter (fun p => p.1 % 512 == r.ctorIdx)).map (fun p => p.1 / 512)

/-- Every instance of a register back at its reset value. -/
def clearReg (h : Hw) (r : Reg) : Hw := { h with ctl := h.ctl.filter (fun p => p.1 % 512 != r.ctorIdx) }

/-- A field of a register. -/
def get (h : Hw) (f : Fld) (i : Nat := 0) : Nat := bits f.lo f.w (h.rd f.reg i)

/-- A one-bit field. -/
def on (h : Hw) (f : Fld) (i : Nat := 0) : Bool := h.get f i == 1

/-- The block with a field holding a value. -/
def put (h : Hw) (f : Fld) (v : Nat) (i : Nat := 0) : Hw := h.wr f.reg i (putBits f.lo f.w v (h.rd f.reg i))

/-- Add to a wrapping counter field. -/
def inc (h : Hw) (f : Fld) (n : Nat := 1) (i : Nat := 0) : Hw := h.put f (h.get f i + n) i

/-- Add to a counter field that saturates. -/
def incSat (h : Hw) (f : Fld) (n : Nat := 1) (i : Nat := 0) : Hw := h.put f (min (h.get f i + n) (2 ^ f.w - 1)) i

/-! Time (R24, R389). -/

/-- Root ticks of the present beat: 255 + h cycles with h = 1 + S + t (R24). -/
def beatTicks (h : Hw) : Nat := (4 * (256 + (h.get F.TM_STRETCH_CURRENT : Int) + h.time.trim)).toNat

/-- Time stands at or beyond the end of the present beat. -/
def beatOver (h : Hw) : Bool := h.time.beatStart + h.beatTicks ≤ h.ticks

/-- The tick at which the last cycle of the present beat begins. -/
def lastCycle (h : Hw) : Nat := h.time.beatStart + h.beatTicks - 4

/-- Cycles since the beat boundary. -/
def cycle (h : Hw) : Nat := (h.ticks - h.time.beatStart) / 4

/-- The phase: hold cycles read 255 (R24). -/
def phase (h : Hw) : Nat := min h.cycle 255

/-- Time moves on to a tick that is not in the past. -/
def elapse (h : Hw) (t : Nat) : Hw := { h with ticks := max h.ticks t }

/-- The tick at which the present ACLK cycle began, and the cycles from it. -/
def cycleTick (h : Hw) : Nat := h.time.beatStart + (h.ticks - h.time.beatStart) / 4 * 4
def afterCycle (h : Hw) (n : Nat) : Nat := h.cycleTick + 4 * n

/-- The tick a number of ACLK cycles from now. -/
def after (h : Hw) (cycles : Nat) : Nat := h.ticks + 4 * cycles

/-- A fresh free value has been drawn. -/
def draw (h : Hw) (n : Nat := 1) : Hw := { h with draws := h.draws + n }

/-! Cores: physical cores and the logical core each serves (R359, R438). -/

/-- The number of physical cores. -/
def physCores (h : Hw) : Nat := h.build.cores + h.build.spareCore

/-- The physical core that serves a logical core. -/
def physOf (h : Hw) (n : Nat) : Nat :=
  if h.on F.FT_SPARE_ACTIVE && h.get F.FT_SPARE_REPLACES == n then h.build.cores else n

/-- The logical core that a physical core serves. -/
def logicalOf (h : Hw) (p : Nat) : Option Nat :=
  if p < h.build.cores then
    if h.on F.FT_SPARE_ACTIVE && h.get F.FT_SPARE_REPLACES == p then none else some p
  else if h.on F.FT_SPARE_ACTIVE then some (h.get F.FT_SPARE_REPLACES) else none

end Hw

/-! The raise of a reason code. -/

/-- Who raises a code. -/
structure Src where
  /-- UNIT of Table 13-9. -/
  unit : Nat
  /-- The source belongs to the run in progress (R340). -/
  inRun : Bool := false
  /-- The raise is the refusal of an access (Table 13-1, row Refuse). -/
  refusal : Bool := false
  /-- The raise halts a core (R162). -/
  halting : Bool := false
  context : Nat := 0xFFFF
  hoop : Nat := 0
  detail : Nat := 0
  /-- Logical core of a core fault (R358). -/
  core : Option Nat := none
  /-- The unit's REASON field. -/
  reason : Option (Fld × Nat) := none
  deriving DecidableEq, Repr

/-- Codes whose response is Fail entry (Table 13-1). -/
def failCodes : List Nat :=
  [Rc.SYN_FENCE_CYCLE, Rc.SYN_GRAPH_BUSY, Rc.SYN_ENTRY_FORMAT, Rc.SYN_PATCH_RANGE, Rc.SYN_CANCELLED, Rc.SYN_CANCEL_LATE,
   Rc.FWR_MB_VERSION, Rc.FWR_MB_TYPE]

/-- Codes whose response is Refuse whatever raises them, beside class CFG (Table 13-1). -/
def refuseCodes : List Nat :=
  [Rc.SYN_CTX_TRANSITION, Rc.SEC_PERMIT_INVALID, Rc.SEC_KEY_INVALID, Rc.SEC_LIFECYCLE, Rc.SEC_DEBUG_STATE, Rc.SEC_DEBUG_ACCESS]

/-- Codes whose response is Log whatever raises them (Table 13-1). -/
def logCodes : List Nat :=
  [Rc.FAB_LANE_FAILED, Rc.FAB_PORT_DEGRADED, Rc.FAB_LINK_DOWN, Rc.TIM_SOURCE_LOST, Rc.TIM_RESERVE_EXHAUSTED, Rc.FWR_LEAD_LOW,
   Rc.FWR_IMAGE_INVALID, Rc.SYN_REBASE_UNDER, Rc.SYN_QUEUE_OVERRUN, Rc.PWR_LIMIT, Rc.PWR_TELEMETRY_LOST]

/-- Codes whose response is Restart (Table 13-1). -/
def restartCodes : List Nat := [Rc.FWR_PROGRESS_STALL, Rc.FWR_RESTART_STORM, Rc.PWR_RAIL_FAULT]

/-- Codes that Table 13-1 names as aborting the run whatever raises them. -/
def powerAbortCodes : List Nat := [Rc.PWR_THERMAL_EMERGENCY, Rc.PWR_THERMAL_TRIP, Rc.PWR_UNIT_RESET]

/-- The response number of a raise (Table 13-1, R339): 0 Refuse, 1 Fail entry, 2 Abort, 3 Halt, 4 Log, 5 Restart. -/
def responseOf (code : Nat) (bound refusal halting : Bool) : Nat :=
  if code / 0x1000 == 1 || refuseCodes.contains code then 0
  else if failCodes.contains code then 1
  else if logCodes.contains code then 4
  else if restartCodes.contains code then 5
  else if code == Rc.SEC_HOOP_VIOLATION && refusal then 0
  else if bound then 2
  else if halting then 3
  else 4

namespace Hw

/-! The parts of the state that a raise changes beside the registers. -/

def setAb (h : Hw) (a : AbortState) : Hw := { h with ab := a }
def setRun (h : Hw) (r : Run) : Hw := { h with run := r }
def setFaultLog (h : Hw) (l : List FaultEntry) : Hw := { h with faultLog := l }

/-- Append an entry to the fault log; when 1,024 entries are held the oldest is overwritten (R363). -/
def logFault (h : Hw) (e : FaultEntry) : Hw :=
  if h.faultLog.length < 1024 then h.setFaultLog (h.faultLog ++ [e])
  else (h.incSat F.FT_LOG_STATUS_WRAPS).setFaultLog (h.faultLog.drop 1 ++ [e])

/-- The run's last W beats are its settle (R341). -/
def inSettle (h : Hw) : Bool := h.run.on && h.run.f + h.run.len ≤ h.time.beat + h.get F.FT_WAVE_W

/-- T_ready in cycles (R348). -/
def tReady (h : Hw) : Nat := max 12880 (max (70 + h.get F.MP_WC_READ) (62 + h.get F.MP_WC_WRITE))

/-- The latest LANEMAP.WHOLE beat of the ports in switch-over (R350). -/
def wholeBeat (h : Hw) : Nat :=
  h.switchWhole.foldl (fun m p => max m p.2) 0

/-- The abort cycle (R344, R350, R355): the block enters abort, forms its candidate from readiness at T_ready, and counts repeated
faults of one core (R358). The discards of Table 13-3 follow in the same cycle (`Hw.settleAbort`). -/
def beginAbort (h : Hw) (code : Nat) (src : Src) : Hw :=
  if h.ab.on || !h.run.on then h
  else
    let att := h.run.attempt
    let abandoned := att == h.get F.FT_CTRL_REPLAY_MAX && !(h.run.mirrored && code == Rc.FAB_SLOT_MISS)
    let ready := h.ticks + 4 * h.tReady
    let cand := max (max (h.time.beat + 1 + h.get F.FT_WAVE_W) h.wholeBeat) (h.time.beat + ceilDiv (ready - h.time.beatStart) h.beatTicks)
    let repeated := src.core.isSome && h.ab.f == h.run.f && h.ab.coreFault == src.core
    let faults := if src.core.isNone then 0 else if h.ab.coreFault == src.core then h.ab.coreFaults + 1 else 1
    let ab : AbortState :=
      { on := true, fresh := true, beat := h.time.beat, tick := h.ticks, readyTick := ready, formed := true,
        origin := h.get F.LK_ADDR_ADDR, code := code, maxAttempt := att, f := h.run.f, abandoned := abandoned,
        endBeat := h.run.f + h.run.len + h.get F.FT_WAVE_W, noReplay := code == Rc.PWR_THERMAL_TRIP,
        coreFault := if repeated || src.core.isSome then src.core else none, coreFaults := faults }
    let h := (h.setAb ab).setRun { h.run with faulted := true }
    let h := h.put F.FT_STATUS_STATE (if abandoned then 2 else 1)
    let h := h.put F.FT_STATUS_READY 0
    let h := (h.put F.FT_STATUS_REASON code).put F.FT_ATTEMPT_CODE code
    let h := h.put F.FT_ATTEMPT_ATTEMPT att
    if abandoned || ab.noReplay then h.put F.FT_REPLAY_BEAT 0 else h.put F.FT_REPLAY_BEAT cand

/-- Raise a reason code (R9, R339, R340, R363): the unit's REASON, the fault-log entry with its response, and the abort of the
run where the response is Abort. A fault of the time unit or the lead monitor in a settle aborts the next run (R341). -/
def raise (h : Hw) (code : Nat) (src : Src) : Hw :=
  let h := match src.reason with
    | some (f, i) => h.put f code i
    | none => h
  let bound := h.run.on && (src.inRun || powerAbortCodes.contains code)
  let resp := responseOf code bound src.refusal src.halting
  let entry : FaultEntry :=
    { beat := h.time.beat, code := code, unit := src.unit, attempt := if bound then h.run.attempt else 0xFF,
      stepId := if bound then h.run.stepId else 0, context := src.context, hoop := src.hoop,
      origin := h.get F.LK_ADDR_ADDR, response := resp, detail := src.detail }
  let h := h.logFault entry
  if resp == 2 then
    if h.inSettle && (code == Rc.TIM_BOUND_EXCEEDED || code == Rc.TIM_STRETCH_LATE || code == Rc.FWR_LEAD_EXHAUSTED) then
      h.setRun { h.run with settleFault := some (code, src.unit) }
    else h.beginAbort code src
  else h

/-- Refuse a write or fail a check: the code goes to the unit's REASON field and to the fault log (R11, R404). -/
def refuse (h : Hw) (code : Nat) (reason : Fld) (i unit : Nat) : Hw :=
  h.raise code { unit := unit, refusal := true, reason := some (reason, i) }

/-- A hardware set of a W1C flag. -/
def setFlag (h : Hw) (f : Fld) (i : Nat := 0) : Hw := h.put f 1 i

end Hw

end Sys2Proof.Machine
end

