-- ==== Sys2Proof/Machine/Plan.lean ====
section
/-! DEFINITION. The pricking image: its tables, and the checks of ARM (R43 to R50, R59, Table 2-8). -/

namespace Sys2Proof.Machine

/-- A slot entry (Table 2-5). -/
structure SlotEntry where
  kind : Nat
  unit : Nat
  sub : Nat
  srcSlot : Nat
  stream : Nat
  deriving DecidableEq, Repr

/-- The fields of a slot entry's word. -/
def decodeSlot (w : Nat) : SlotEntry :=
  { kind := bits 0 4 w, unit := bits 4 5 w, sub := bits 9 3 w, srcSlot := bits 12 5 w, stream := bits 20 12 w }

namespace Img

/-- A little-endian field of the image at a block-memory base. -/
def le (m : Mem) (base off n : Nat) : Nat := m.le Area.block (base + off) n

def epoch (m : Mem) (base : Nat) : Nat := le m base 8 8
def startBeat (m : Mem) (base : Nat) : Nat := le m base 16 8
def params (m : Mem) (base : Nat) : Nat := le m base 24 8
def self (m : Mem) (base : Nat) : Nat := le m base 32 2
def master (m : Mem) (base : Nat) : Nat := le m base 34 2
def deputy (m : Mem) (base : Nat) : Nat := le m base 36 2
def source (m : Mem) (base : Nat) : Nat := le m base 38 1
def port (m : Mem) (base : Nat) : Nat := le m base 39 1
def backup (m : Mem) (base : Nat) : Nat := le m base 40 1
def depth (m : Mem) (base : Nat) : Nat := le m base 41 1
def trefLog2 (m : Mem) (base : Nat) : Nat := le m base 42 1
def pSlot (m : Mem) (base : Nat) : Nat := le m base 44 2
def pPhase (m : Mem) (base : Nat) : Nat := le m base 46 2
def pGrant (m : Mem) (base : Nat) : Nat := le m base 48 2
def steps (m : Mem) (base : Nat) : Nat := le m base 50 2

/-- The offsets of Table 2-4: 0 slot transmit, 1 slot receive, 2 phase map, 3 step table, 4 grant table, 5 delay table,
6 image length. -/
def offset (m : Mem) (base i : Nat) : Nat := le m base (52 + 4 * i) 4

def mirror (m : Mem) (base : Nat) : Nat := le m base 80 4

/-- Index of a slot entry within its table: beat, then port, then lane, then slot. -/
def slotIndex (b : Build) (r port lane slot : Nat) : Nat := ((r * b.linkports + port) * 4 + lane) * 19 + slot

/-- The word of a slot entry at a residue of the slot period. -/
def slotWord (m : Mem) (b : Build) (base : Nat) (rx : Bool) (r port lane slot : Nat) : Nat :=
  le m base (offset m base (if rx then 1 else 0) + 4 * slotIndex b r port lane slot) 4

/-- The phase-map word at a residue of the phase period (R46). -/
def phaseWord (m : Mem) (base r : Nat) : Nat := le m base (offset m base 2 + 8 * r) 8

/-- LENGTH, FLAGS and STEP_ID of a step entry (R47). -/
def stepLen (m : Mem) (base k : Nat) : Nat := le m base (offset m base 3 + 16 * k) 4
def stepFlags (m : Mem) (base k : Nat) : Nat := le m base (offset m base 3 + 16 * k + 4) 4
def stepId (m : Mem) (base k : Nat) : Nat := le m base (offset m base 3 + 16 * k + 8) 4

/-- The plan beat t_k at which step entry k begins. -/
def stepStart (m : Mem) (base k : Nat) : Nat := (List.range k).foldl (fun a i => a + stepLen m base i) 0

/-- The plan period T. -/
def period (m : Mem) (base : Nat) : Nat := stepStart m base (steps m base)

/-- A grant word: READ, WRITE, REMOTE for i = 0, 1, 2 (R48). -/
def grant (m : Mem) (b : Build) (base r core i : Nat) : Nat := le m base (offset m base 4 + 8 * (r * b.cores + core) + 2 * i) 2

/-- The delay entry of a port (R49). -/
def delayBeats (m : Mem) (base p : Nat) : Nat := le m base (offset m base 5 + 8 * p) 2
def rxPhase (m : Mem) (base p : Nat) : Nat := le m base (offset m base 5 + 8 * p + 2) 1
def used (m : Mem) (base p : Nat) : Bool := bit 0 (le m base (offset m base 5 + 8 * p + 3) 1)

/-- The pairs (address, stream) of the stream-owner table (R50). -/
def owners (m : Mem) (base : Nat) : List (Nat × Nat) :=
  let o := mirror m base
  if o == 0 then [] else
    (List.range (le m base o 4)).map (fun i => (le m base (o + 8 + 4 * i) 2, le m base (o + 10 + 4 * i) 2))

end Img

namespace Hw

/-- The base address of the active image; 0 when none is active. -/
def imgBase (h : Hw) : Nat := h.get F.TM_PRK_ACTIVE_BASE * 4096

/-- A pricking is active (R56). -/
def hasPlan (h : Hw) : Bool := h.get F.TM_PRK_ACTIVE_BASE != 0

/-- The plan beat of the present beat (R51). -/
def planBeat (h : Hw) : Nat := h.run.plan + (h.time.beat - h.run.f)

/-- The plan is in force in this beat: the block is a member and a run is in progress. -/
def planned (h : Hw) : Bool := h.hasPlan && h.run.member && h.run.on

/-- The phase tag of a logical core at a plan beat: 0 Idle, 1 Fill, 2 Compute, 3 Drain (R46). -/
def tagAt (h : Hw) (m : Mem) (t core : Nat) : Nat :=
  bits (2 * core) 2 (Img.phaseWord m h.imgBase (t % max 1 (Img.pPhase m h.imgBase)))

/-- The phase tag of a logical core in the present beat; Idle outside a run. -/
def tag (h : Hw) (m : Mem) (core : Nat) : Nat := if h.planned then h.tagAt m h.planBeat core else 0

/-- A slot entry at a plan beat. -/
def slotAt (h : Hw) (m : Mem) (rx : Bool) (t port lane slot : Nat) : SlotEntry :=
  decodeSlot (Img.slotWord m h.build h.imgBase rx (t % max 1 (Img.pSlot m h.imgBase)) port lane slot)

/-- A grant of the present beat: READ, WRITE, REMOTE for i = 0, 1, 2. -/
def grantNow (h : Hw) (m : Mem) (core i : Nat) : Nat :=
  if h.planned then Img.grant m h.build h.imgBase (h.planBeat % max 1 (Img.pGrant m h.imgBase)) core i else 0

end Hw

/-! The checks of ARM. -/

/-- A slot entry's fields lie in the values of Table 2-5. -/
def slotEntryOk (b : Build) (rx : Bool) (w : Nat) : Bool :=
  let e := decodeSlot w
  bits 17 3 w == 0 &&
  (if rx then
    e.kind ≤ 5 && e.srcSlot == 0 && (if e.kind == 1 || e.kind == 3 then e.unit < b.cores else e.unit < 16)
  else if e.kind == 2 then e.unit < b.linkports && e.sub ≤ 3 && e.srcSlot ≤ 18
  else e.kind ≤ 3 && (if e.kind == 1 then e.unit < b.cores else true))

/-- Every slot of every residue satisfies a test of residue, port, lane, slot. -/
def allSlots (b : Build) (period : Nat) (f : Nat → Nat → Nat → Nat → Bool) : Bool :=
  (List.range period).all (fun r => (List.range b.linkports).all (fun p => (List.range 4).all (fun l => (List.range 19).all (fun s => f r p l s))))

/-- A section of the image: 64-byte aligned, between the header and the signature. -/
def sectionOk (len off size : Nat) : Bool := off % 64 == 0 && 128 ≤ off && off + size + 96 ≤ len

/-- Pairs in rising order of address, then stream. -/
def ownersSorted : List (Nat × Nat) → Bool
  | a :: b :: t => (a.1 < b.1 || (a.1 == b.1 && a.2 < b.2)) && ownersSorted (b :: t)
  | _ => true

/-- The step entries satisfy R47, and every RESERVE beat is Idle and EMPTY. -/
def stepsOk (m : Mem) (b : Build) (base : Nat) : Bool :=
  (List.range (Img.steps m base)).all (fun k =>
    let len := Img.stepLen m base k
    let fl := Img.stepFlags m base k
    let t0 := Img.stepStart m base k
    1 ≤ len && len ≤ 1048576 && fl < 8 && Img.le m base (Img.offset m base 3 + 16 * k + 12) 4 == 0 &&
    (!bit 0 fl ||
      ((List.range (min len (Img.pPhase m base))).all (fun j => Img.phaseWord m base ((t0 + j) % Img.pPhase m base) == 0) &&
       (List.range (min len (Img.pSlot m base))).all (fun j => [false, true].all (fun rx =>
          (List.range b.linkports).all (fun p => (List.range 4).all (fun l => (List.range 19).all (fun s =>
            (decodeSlot (Img.slotWord m b base rx ((t0 + j) % Img.pSlot m base) p l s)).kind == 0))))))))

/-- CFG_PRK_FORMAT: header and tables within the range and values of the chapter (Table 2-8). -/
def prkFormatOk (m : Mem) (b : Build) (scratchSize base : Nat) : Bool :=
  let len := Img.offset m base 6
  let ps := Img.pSlot m base
  let pp := Img.pPhase m base
  let pg := Img.pGrant m base
  let n := Img.steps m base
  let o := Img.mirror m base
  base != 0 && base + 128 ≤ scratchSize && Img.le m base 0 4 == 0x4B520002 && Img.le m base 4 2 == 2 && Img.le m base 6 2 == 0 &&
  Img.le m base 43 1 == 0 && (m.read Area.block (base + 84) 44).all (· == 0#8) &&
  base + len ≤ scratchSize &&
  Img.source m base ≤ 2 && Img.port m base < b.linkports && (Img.backup m base == 31 || Img.backup m base < b.linkports) &&
  Img.trefLog2 m base ≤ 4 &&
  (1 ≤ ps && ps ≤ 4096) && (1 ≤ pp && pp ≤ 4096) && (1 ≤ pg && pg ≤ 4096) && 1 ≤ n &&
  sectionOk len (Img.offset m base 0) (4 * ps * b.linkports * 76) && sectionOk len (Img.offset m base 1) (4 * ps * b.linkports * 76) &&
  sectionOk len (Img.offset m base 2) (8 * pp) && sectionOk len (Img.offset m base 3) (16 * n) &&
  sectionOk len (Img.offset m base 4) (8 * pg * b.cores) && sectionOk len (Img.offset m base 5) (8 * b.linkports) &&
  allSlots b ps (fun r p l s => slotEntryOk b false (Img.slotWord m b base false r p l s) && slotEntryOk b true (Img.slotWord m b base true r p l s)) &&
  (List.range pp).all (fun r => Img.phaseWord m base r < 2 ^ (2 * b.cores)) && stepsOk m b base &&
  (List.range (pg * b.cores)).all (fun i => Img.le m base (Img.offset m base 4 + 8 * i + 6) 2 == 0) &&
  (List.range b.linkports).all (fun p => Img.le m base (Img.offset m base 5 + 8 * p + 3) 1 < 2 && Img.le m base (Img.offset m base 5 + 8 * p + 4) 4 == 0) &&
  (o == 0 || (sectionOk len o (8 + 4 * Img.le m base o 4) && Img.le m base (o + 4) 4 == 0 &&
    (Img.owners m base).all (fun e => e.2 < 4096) && ownersSorted (Img.owners m base)))

/-- CFG_PRK_SLOT_PAIRING: every FORWARD transmit entry names a received FORWARD or SINK_FORWARD entry of the beat before (R45). -/
def prkPairingOk (m : Mem) (b : Build) (base : Nat) : Bool :=
  let ps := Img.pSlot m base
  allSlots b ps (fun r p l s =>
    let e := decodeSlot (Img.slotWord m b base false r p l s)
    e.kind != 2 ||
      (let x := decodeSlot (Img.slotWord m b base true ((r + ps - 1) % ps) e.unit e.sub e.srcSlot)
       x.kind == 2 || x.kind == 3))

/-- CFG_PRK_GRANT_OVER: READ plus WRITE over all cores within 348 × MEMPORTS in every beat (R48). -/
def prkGrantOk (m : Mem) (b : Build) (base : Nat) : Bool :=
  (List.range (Img.pGrant m base)).all (fun r =>
    (List.range b.cores).foldl (fun a c => a + Img.grant m b base r c 0 + Img.grant m b base r c 1) 0 ≤ 348 * b.memports)

/-- CFG_TM_DEPTH: depth 0 for MASTER and TREF, 1 to 4 for LINK (R27). -/
def depthOk (source depth : Nat) : Bool := if source == 1 then 1 ≤ depth && depth ≤ 4 else depth == 0

/-- CFG_PRK_DELAY: a USED port's delay lies within 2 cycles of its measurement, in quarter cycles (R49, R304). -/
def delayOk (h : Hw) (m : Mem) (base p : Nat) : Bool :=
  !Img.used m base p ||
    (let planned := 4 * (Img.delayBeats m base p * 256 + Img.rxPhase m base p)
     let measured := h.get F.LK_P_DELAY_DELAY p
     planned ≤ measured + 8 && measured ≤ planned + 8)

/-- CFG_PRK_SIGNATURE: the verification under the schedule key is recorded as passed; before an operator key is provisioned
none is checked (R59, Table 14-6). -/
def prkSignatureOk (h : Hw) (m : Mem) (base : Nat) : Bool :=
  h.get F.SC_STATE_STATE == 0 ||
    (let len := Img.offset m base 6
     let key := (List.range 12).foldl (fun a i => a + h.rd .SC_OPKEY i * 2 ^ (32 * i)) 0
     Config.signedUnder key (m.read Area.block base (len - 96)) (m.read Area.block (base + len - 96) 96))

namespace Hw

/-- Bytes of block-memory scratch (R208). -/
def scratchSize (h : Hw) : Nat := h.get F.MP_BM_CTRL_SCRATCH_UNITS * 8388608

/-- The first failing check of ARM on the image at a base, in the order of Table 2-8; 0 when all pass. A word of the image that is
uncorrectable fails CFG_PRK_FORMAT (R59). -/
def armCheck (h : Hw) (m : Mem) (base : Nat) (uncorrectable : Bool) : Nat :=
  let b := h.build
  if uncorrectable || !prkFormatOk m b h.scratchSize base then Rc.CFG_PRK_FORMAT
  else if Img.params m base != h.rd .GL_PARAMS 0 then Rc.CFG_PRK_PARAMS
  else if !prkPairingOk m b base then Rc.CFG_PRK_SLOT_PAIRING
  else if !prkGrantOk m b base then Rc.CFG_PRK_GRANT_OVER
  else if Img.startBeat m base ≤ h.time.beat + 1024 then Rc.CFG_PRK_SWITCH_LATE
  else if h.hasPlan && !(h.run.epochStart ≤ Img.startBeat m base &&
      (Img.startBeat m base - h.run.epochStart) % max 1 (Img.period m h.imgBase) == 0) then Rc.CFG_PRK_PERIOD
  else if !depthOk (Img.source m base) (Img.depth m base) then Rc.CFG_TM_DEPTH
  else if !(List.range b.linkports).all (fun p => delayOk h m base p) then Rc.CFG_PRK_DELAY
  else if !prkSignatureOk h m base then Rc.CFG_PRK_SIGNATURE
  else 0

end Hw

end Sys2Proof.Machine
end

