-- ==== Sys2Proof/Machine/Work.lean ====
section
/-! DEFINITION. The working form of a meaning: the hardware state, the byte memories as the meaning sees them, and the writes it
has made to them, in order. The machine's memories change by those writes alone. -/

namespace Sys2Proof.Machine

/-- A write to the byte memories. -/
inductive MemWrite where
  /-- A byte string at an address of an area. -/
  | store (area addr : Nat) (bytes : List Byte)
  /-- A range of an area set to 0. -/
  | clear (area addr n : Nat)
  /-- An area's contents replaced by another's (R359). -/
  | copy (fromArea toArea : Nat)
  deriving DecidableEq, Repr

/-- The memories after a write. -/
def MemWrite.apply (m : Mem) : MemWrite → Mem
  | .store a addr bs => m.write a addr bs
  | .clear a addr n => m.clear a addr n
  | .copy a b => Mem.putAll (m.clear b 0 (2 ^ 64)) (m.moved a b)

/-- The working form. -/
structure Work where
  hw : Hw
  mem : Mem
  /-- Writes made, oldest first. -/
  writes : List MemWrite
  deriving DecidableEq, Repr

namespace Work

/-- Change the hardware state. -/
def onHw (w : Work) (f : Hw → Hw) : Work := { w with hw := f w.hw }

/-- Change the hardware state, reading memory. -/
def onHwMem (w : Work) (f : Mem → Hw → Hw) : Work := { w with hw := f w.mem w.hw }

/-- Make a write. -/
def write (w : Work) (x : MemWrite) : Work := { w with mem := x.apply w.mem, writes := w.writes ++ [x] }

/-- Store a byte string. -/
def store (w : Work) (area addr : Nat) (bs : List Byte) : Work := if bs.isEmpty then w else w.write (.store area addr bs)

/-- Set a range to 0. -/
def clear (w : Work) (area addr n : Nat) : Work := w.write (.clear area addr n)

/-- Raise a code. -/
def raise (w : Work) (code : Nat) (src : Src) : Work := w.onHw (fun h => h.raise code src)

/-- Repeat a step that may stop, at most a number of times. -/
def repeatStep : Nat → (Work → Option Work) → Work → Work
  | 0, _, w => w
  | n + 1, f, w => match f w with
    | some w' => repeatStep n f w'
    | none => w

/-- Apply a step for each element of a list. -/
def each {α : Type} (xs : List α) (f : α → Work → Work) (w : Work) : Work := xs.foldl (fun w x => f x w) w

end Work

namespace Hw

/-! Cores. -/

/-- A physical core's state. -/
def core (h : Hw) (c : Nat) : Core := Tab.getD h.cores c {}

/-- Change a physical core's state. -/
def onCore (h : Hw) (c : Nat) (f : Core → Core) : Hw := { h with cores := Tab.modify h.cores {} c f }

def onArr (h : Hw) (c : Nat) (f : ArrayUnit → ArrayUnit) : Hw := h.onCore c (fun k => { k with arr := f k.arr })

def onSeq (h : Hw) (c : Nat) (f : Seq → Seq) : Hw := h.onCore c (fun k => { k with seq := f k.seq })

/-- A data queue of a core. -/
def queue (h : Hw) (c q : Nat) : List Chunk := Tab.getD (h.core c).queues q []

def setQueue (h : Hw) (c q : Nat) (xs : List Chunk) : Hw := h.onCore c (fun k => { k with queues := Tab.put k.queues [] q xs })

/-- Places of a data queue: 32 at DR, 16 elsewhere (Table 6-4). -/
def queueCap (q : Nat) : Nat := if q == 3 then 32 else 16

/-- A data queue has a free place. -/
def queueRoom (h : Hw) (c q : Nat) : Bool := (h.queue c q).length < queueCap q

/-- Push a chunk. -/
def push (h : Hw) (c q : Nat) (x : Chunk) : Hw := h.setQueue c q (h.queue c q ++ [x])

/-- A descriptor queue of a core. -/
def descQueue (h : Hw) (c q : Nat) : List (List Byte) := Tab.getD (h.core c).descs q []

def setDescQueue (h : Hw) (c q : Nat) (xs : List (List Byte)) : Hw := h.onCore c (fun k => { k with descs := Tab.put k.descs [] q xs })

/-- Context and hoop of a core's open segment. -/
def segOf (h : Hw) (c : Nat) : Nat × Nat := (h.core c).seq.seg.getD (0xFFFF, 0)

/-- The index of an instance of a per-core register array. -/
def sub (c count i : Nat) : Nat := c * count + i

/-- A unit of a core as the source of a raise: base UNIT code, the operation belonging to the run the core is bound to. -/
def coreSrc (h : Hw) (c base : Nat) (reason : Option Fld) : Src :=
  { unit := base + c, inRun := (h.core c).seq.bound, context := (h.segOf c).1, hoop := (h.segOf c).2,
    reason := reason.map (fun f => (f, c)) }

/-- Count occurrences of an event on the counters of a core that have selected it (R150). -/
def event (h : Hw) (c ev n : Nat) : Hw :=
  (List.range 8).foldl (fun h i => if (h.core c).seq.sel.getD i 0 == ev && ev != 0 then h.inc F.CR_SEQ_CT_VALUE n (sub c 8 i) else h) h

/-! Energy weights (R410). -/

/-- The replay account and the overhead account as entries. -/
def replayEntry : Nat := 16384
def overheadEntry : Nat := 16385

/-- The entry that a weight of a context goes to: the context while it is RUNNING, else the overhead account. -/
def energyEntry (h : Hw) (o : Nat) : Nat := if o < 16384 && h.get F.CTX_STATE_STATE o == 2 then o else overheadEntry

/-- Add a weight: category 0 DYN, 1 STAT, 2 LINK, 3 MEM. -/
def weighIn (h : Hw) (o cat n : Nat) : Hw :=
  if !h.on F.EN_CTRL_ENABLE || n == 0 then h
  else { h with energy := { h.energy with now := Tab.modify h.energy.now 0 (h.energyEntry o * 8 + cat * 2) (· + n) } }

/-- Move a weight of LINK or MEM, counted for the beat as overhead, to the context that used the slot or the unit. -/
def weighOut (h : Hw) (o cat n : Nat) : Hw :=
  if h.energyEntry o == overheadEntry || !h.on F.EN_CTRL_ENABLE then h
  else
    let now := Tab.modify h.energy.now 0 (h.energyEntry o * 8 + cat * 2) (· + n)
    { h with energy := { h.energy with now := Tab.modify now 0 (overheadEntry * 8 + cat * 2) (· - n) } }

/-- The first issue of a context is noted (START of Table 16-4). -/
def energyStart (h : Hw) (o : Nat) : Hw :=
  { h with energy := { h.energy with started := Tab.insert h.energy.started o (h.time.beat * 256 + h.phase) } }

/-- n occurrences of a dynamic event of Table 16-2. -/
def weigh (h : Hw) (o e n : Nat) : Hw := h.weighIn o 0 (h.get F.EN_CAL_FJ e * n)

/-- Halt a core at an instruction (R162): position, opcode, reason and loop depth are recorded, issue stops, and a halt in a bound
run aborts the step. -/
def halt (h : Hw) (c pos opcode code : Nat) : Hw :=
  let depth := (h.core c).seq.loops.length
  let h := if h.on F.CR_SEQ_STATUS_HALT c then h
    else h.wr .CR_SEQ_HALT c (pos % 2 ^ 32 + code * 2 ^ 32 + opcode * 2 ^ 48 + depth * 2 ^ 56)
  let h := (h.setFlag F.CR_SEQ_STATUS_HALT c).put F.CR_SEQ_STATUS_STATE 2 c
  h.raise code { h.coreSrc c 0xA0 (some F.CR_SEQ_STATUS_REASON) with detail := h.rd .CR_SEQ_HALT c, halting := true }

/-- Halt at the instruction at HEAD. -/
def haltAt (h : Hw) (c opcode code : Nat) : Hw := h.halt c (h.get F.CR_SEQ_RING_HEAD_POS c) opcode code

end Hw

/-- Bytes of a core's matrix memory. -/
def Hw.matrixSize (h : Hw) : Nat := h.build.matmemMib * 1048576

/-- A range lies wholly in matrix memory. -/
def Hw.inMatrix (h : Hw) (addr n : Nat) : Bool := addr + n ≤ h.matrixSize

/-- Read matrix memory of a core. -/
def Work.mm (w : Work) (c addr n : Nat) : List Byte := w.mem.read (Area.matrix c) addr n

end Sys2Proof.Machine
end

