-- ==== Sys2Proof/Machine/Words.lean ====
section
/-! DEFINITION. Words of the memories and their errors (R213 to R217). -/

namespace Sys2Proof.Machine

/-! The error log (R217). -/

/-- Bank and word of an address, as WHERE (Table 8-4): memories whose bank is chosen by the address's low or high bits. -/
def blockWhere (x : Nat) : Nat := x / 64 % 256 * 2 ^ 20 + x / 16384 % 2 ^ 20
def matrixWhere (x : Nat) : Nat := x / 262144 * 2 ^ 20 + x % 262144 / 64

/-- The key of a word in the tables of words. -/
def wordKey (unit whereAt : Nat) : Nat := unit * 2 ^ 32 + whereAt

namespace Hw

/-- Append to the error log, or count the event as lost. -/
def logError (h : Hw) (unit symbols agent whereAt : Nat) : Hw :=
  if h.errLog.length < 64 then
    let e : ErrEntry := { unit := unit, symbols := symbols, agent := agent, whereAt := whereAt, beat := h.time.beat }
    let h := { h with errLog := h.errLog ++ [e] }
    h.put F.MP_ERR_STATUS_COUNT h.errLog.length
  else (h.incSat F.MP_ERR_STATUS_LOST).setFlag F.MP_ERR_STATUS_OVERFLOW

/-- Remove the oldest entry. -/
def popError (h : Hw) : Hw :=
  let h := { h with errLog := h.errLog.drop 1 }
  h.put F.MP_ERR_STATUS_COUNT h.errLog.length

/-- A word's 1 or 2 symbol errors have been corrected: the event is logged and counted, and a write-back waits (R214). -/
def corrected (h : Hw) (unit symbols agent whereAt : Nat) (writeBack : Bool) : Hw :=
  let h := h.logError unit symbols agent whereAt
  let h := if unit ≤ 0x10 then h.inc F.CR_MM_CORR_COUNT 1 unit else if 0x20 ≤ unit && unit ≤ 0x30 then h.inc F.CR_MM_CORR_COUNT 1 (unit - 0x20) else h
  if writeBack then { h with writeBacks := h.writeBacks ++ [wordKey unit whereAt] } else h

/-- A word is uncorrectable: the event is logged, its flag set and the word remembered (R215, R216). -/
def uncorrectable (h : Hw) (unit agent whereAt : Nat) : Hw :=
  let h := h.logError unit 0xFF agent whereAt
  let h := if unit ≤ 0x10 then h.setFlag F.CR_MM_STATUS_UNCORR unit
    else if unit == 0x40 then h.setFlag F.MP_BM_STATUS_UNCORR
    else if 0x50 ≤ unit && unit ≤ 0x5F then h.setFlag F.MP_STATUS_UNCORR (unit - 0x50)
    else h
  if 0x50 ≤ unit && unit ≤ 0x5F then h else { h with badWords := Tab.insert h.badWords (wordKey unit whereAt) 1 }

/-- A word holds an error that cannot be corrected. -/
def isBad (h : Hw) (unit whereAt : Nat) : Bool := (Tab.find? h.badWords (wordKey unit whereAt)).isSome

/-- The first uncorrectable word of a range of scratch, or of a core's matrix memory. -/
def badScratch (h : Hw) (addr n : Nat) : Option Nat :=
  if h.badWords.isEmpty then none
  else ((List.range (ceilDiv (addr % 64 + n) 64)).map (fun i => blockWhere (addr / 64 * 64 + 64 * i))).find? (h.isBad 0x40)

/-- The lowest uncorrectable word of a range of scratch, however long. -/
def badScratchIn (h : Hw) (addr n : Nat) : Option Nat :=
  let hits := (h.badWords.filter (fun x => x.1 / 2 ^ 32 == 0x40)).filterMap (fun x =>
    let wh := x.1 % 2 ^ 32
    let a := wh % 2 ^ 20 * 16384 + wh / 2 ^ 20 * 64
    if addr / 64 * 64 ≤ a && a < addr + n then some a else none)
  match hits with
  | [] => none
  | a :: t => some (blockWhere (t.foldl min a))

def badMatrix (h : Hw) (c addr n : Nat) : Option Nat :=
  if h.badWords.isEmpty then none
  else ((List.range (ceilDiv (addr % 64 + n) 64)).map (fun i => matrixWhere (addr / 64 * 64 + 64 * i))).find? (h.isBad c)

/-- The outcome of decoding a word with a number of symbol errors (R213): 0 clean, 1 corrected, 2 uncorrectable. Five or more
errors leave it open. -/
def decodeWord (h : Hw) (symbols : Nat) : Nat :=
  if symbols == 0 then 0 else if symbols ≤ 2 then 1 else if symbols ≤ 4 then 2 else Config.sc2Beyond h.draws % 3

/-- Whole words of a memory that a store of n bytes covers hold no error any more (R214, R216). -/
def healed (h : Hw) (unit : Nat) (whereOf : Nat → Nat) (addr n : Nat) : Hw :=
  if h.badWords.isEmpty then h
  else
    let lo := ceilDiv addr 64
    let hi := (addr + n) / 64
    let ks := (List.range (hi - lo)).map (fun i => wordKey unit (whereOf (64 * (lo + i))))
    { h with badWords := h.badWords.filter (fun x => !ks.contains x.1) }

/-- Words that a store of n bytes covers in part, as ranges: it reads and merges them (R214, R215). -/
def partWords (addr n : Nat) : List (Nat × Nat) :=
  (if addr % 64 == 0 then [] else [(addr / 64 * 64, 64)]) ++ (if (addr + n) % 64 == 0 then [] else [((addr + n) / 64 * 64, 64)])

/-- The first uncorrectable word among ranges of a core's matrix memory. -/
def badSpans (h : Hw) (c : Nat) (spans : List (Nat × Nat)) : Option Nat :=
  if h.badWords.isEmpty then none else spans.findSome? (fun s => h.badMatrix c s.1 s.2)

/-- A unit reads an uncorrectable word of a core's matrix memory: DIN_UNCORRECTABLE in that unit (R215). `agent` is that of Table 8-4. -/
def uncorrectableAt (h : Hw) (c agent whereAt : Nat) (src : Src) : Hw := (h.uncorrectable c agent whereAt).raise Rc.DIN_UNCORRECTABLE src

end Hw

/-- Store to matrix memory of a core. -/
def Work.mmStore (w : Work) (c addr : Nat) (bs : List Byte) : Work :=
  (w.store (Area.matrix c) addr bs).onHw (fun h => h.healed c matrixWhere addr bs.length)

end Sys2Proof.Machine
end

