-- ==== Sys2Proof/Machine/Far.lean ====
section
/-! DEFINITION. Far memory: the physical map, windows, regions, keys, the cache's tags (R202, R203, R210 to R212,
R222, R225 to R228, R367). -/

namespace Sys2Proof.Machine

/-! The physical map (R202, R203). -/

/-- Where an access lands. -/
inductive FarLoc where
  | scratch (off : Nat)
  | port (off : Nat) (cached : Bool)
  deriving DecidableEq, Repr

/-- The address without its cache view. -/
def FarLoc.unit : FarLoc → Nat
  | .scratch off => off / 512
  | .port off _ => off / 512

def FarLoc.isPort : FarLoc → Bool
  | .scratch _ => false
  | .port _ _ => true

namespace Hw

/-- Bytes of port memory. -/
def portBytes (h : Hw) : Nat := h.build.memports * h.build.sizeGib * 2 ^ 30

/-- The area of Table 8-1, region aliases apart, that holds a physical range. -/
def physLoc (h : Hw) (pa n : Nat) : Option FarLoc :=
  let a := pa % 2 ^ 62
  if pa < 2 ^ 62 then (if pa + n ≤ h.scratchSize then some (.scratch pa) else none)
  else if a + n ≤ h.portBytes && pa < 3 * 2 ^ 62 then some (.port a (pa < 2 ^ 63))
  else none

/-- The port of a unit, and the port-local address of a port-memory offset (R203). -/
def portOf (h : Hw) (unit : Nat) : Nat := unit % h.build.memports
def portLocal (h : Hw) (off : Nat) : Nat := off / 512 / h.build.memports * 512 + off % 512

/-! The commit table (R225 to R228). -/

/-- The entry in force. -/
def ctEntry (h : Hw) (n : Nat) : CtEntry :=
  let w := h.rd .MP_CT_FLAGS n
  { buf0 := h.rd .MP_CT_BUF0 n, buf1 := h.rd .MP_CT_BUF1 n, size := h.rd .MP_CT_SIZE n, hoop := w % 65536, flags := w / 65536,
    gen := h.rd .MP_CT_GEN n, zero := h.rd .MP_CT_RSVD n }

def setCtEntry (h : Hw) (n : Nat) (e : CtEntry) : Hw :=
  let h := (h.wr .MP_CT_BUF0 n e.buf0).wr .MP_CT_BUF1 n e.buf1
  let h := (h.wr .MP_CT_SIZE n e.size).wr .MP_CT_FLAGS n (e.hoop + e.flags * 65536)
  (h.wr .MP_CT_GEN n e.gen).wr .MP_CT_RSVD n e.zero

def ctValid (h : Hw) (n : Nat) : Bool := h.on F.MP_CT_FLAGS_VALID n

/-- The conditions of R226 on an entry as it would stand. -/
def ctEntryOk (h : Hw) (e : CtEntry) : Bool :=
  let area (b : Nat) : Option Nat := match h.physLoc b (e.size * 512) with
    | none => none
    | some (.scratch _) => some 0
    | some (.port _ c) => some (if c then 1 else 2)
  let reserved := e.hoop < 4096 && bits 3 13 e.flags == 0 && e.zero == 0
  reserved && (!bit 0 e.flags ||
    (e.buf0 % 512 == 0 && e.buf1 % 512 == 0 && (1 ≤ e.size && e.size ≤ 8388608) &&
     (area e.buf0).isSome && area e.buf0 == area e.buf1 &&
     (e.buf0 + e.size * 512 ≤ e.buf1 || e.buf1 + e.size * 512 ≤ e.buf0)))

/-- A firmware write of one word of an entry: word 0 to 7 at its offset of Table 8-6. It is checked and held (R226). -/
def writeCt (h : Hw) (n word v : Nat) : Hw :=
  let e := (Tab.find? h.ctHeld n).getD (h.ctEntry n)
  let e' := match word with
    | 0 => { e with buf0 := putBits 0 32 v e.buf0 }
    | 1 => { e with buf0 := putBits 32 32 v e.buf0 }
    | 2 => { e with buf1 := putBits 0 32 v e.buf1 }
    | 3 => { e with buf1 := putBits 32 32 v e.buf1 }
    | 4 => { e with size := v }
    | 5 => { e with hoop := v % 65536, flags := putBits 1 2 (bits 1 2 e.flags) (v / 65536) }
    | 7 => { e with zero := v }
    | _ => e
  if h.ctEntryOk e' then { h with ctHeld := Tab.insert h.ctHeld n e' }
  else h.refuse Rc.CFG_CT_ENTRY F.MP_BM_STATUS_REASON 0 0x60

/-- Held entries are applied after the commit's swaps: CUR, PENDING and GEN are cleared (R226). -/
def applyCt (h : Hw) : Hw :=
  { h.ctHeld.foldl (fun h p => h.setCtEntry p.1 { p.2 with flags := p.2.flags % 2, gen := 0 }) h with ctHeld := [] }

/-- Regions with PENDING set. -/
def pendingRegions (h : Hw) : List Nat := (h.listed .MP_CT_FLAGS).filter (fun n => h.on F.MP_CT_FLAGS_PENDING n)

/-- The swap of the commit (R228). -/
def swapRegions (h : Hw) : Hw :=
  h.pendingRegions.foldl (fun h n =>
    ((h.put F.MP_CT_FLAGS_CUR (1 - h.get F.MP_CT_FLAGS_CUR n) n).put F.MP_CT_FLAGS_PENDING 0 n).inc F.MP_CT_GEN_COUNT 1 n) h

/-- The abort's clear of PENDING (R228). -/
def dropPending (h : Hw) : Hw := h.pendingRegions.foldl (fun h n => h.put F.MP_CT_FLAGS_PENDING 0 n) h

/-! Resolution of an access. -/

/-- An access as an enforcement point sees it. -/
structure Access where
  hoop : Nat
  write : Bool
  /-- A bobbin of the bound run. -/
  bobbin : Bool

/-- A physical range, region aliases resolved (R202, R227): the location, and the region whose PENDING a write sets. -/
def resolvePhys (h : Hw) (a : Access) (pa n : Nat) : Except Nat (FarLoc × Option Nat) :=
  if pa < 3 * 2 ^ 62 then
    match h.physLoc pa n with
    | some l => .ok (l, none)
    | none => .error Rc.RES_MP_UNMAPPED
  else
    let r := pa % 2 ^ 62 / 2 ^ 32
    let o := pa % 2 ^ 32
    if r ≥ 4096 then .error Rc.RES_MP_UNMAPPED
    else if !h.ctValid r then .error Rc.RES_REGION
    else if h.get F.MP_CT_FLAGS_HOOP r != a.hoop then .error Rc.SEC_HOOP_VIOLATION
    else if o + n > h.rd .MP_CT_SIZE r * 512 then .error Rc.RES_REGION
    else if a.write && !a.bobbin then .error Rc.RES_REGION
    else
      let cur := h.on F.MP_CT_FLAGS_CUR r
      let buf := if cur != a.write then h.rd .MP_CT_BUF1 r else h.rd .MP_CT_BUF0 r
      match h.physLoc (buf + o) n with
      | some l => .ok (l, if a.write then some r else none)
      | none => .error Rc.RES_MP_UNMAPPED

/-- The window that holds the first byte of a hoop address (R367). -/
def windowOf (h : Hw) (hoop va : Nat) : Option Window :=
  ((List.range 16).filterMap (fun w => Tab.find? h.windows (hoop * 16 + w))).find? (fun w => w.vbase ≤ va && va < w.vbase + w.size)

/-- The key in force in a hoop's slot. -/
def keyOf (h : Hw) (hoop : Nat) : Option Nat := (Tab.getD h.keys hoop {}).key
def keyGen (h : Hw) (hoop : Nat) : Nat := (Tab.getD h.keys hoop {}).gen

/-- An access to hoop addresses (R172, R222, R227, R367). -/
def resolve (h : Hw) (a : Access) (va n : Nat) : Except Nat (FarLoc × Option Nat) :=
  match h.windowOf a.hoop va with
  | none => .error Rc.SEC_HOOP_VIOLATION
  | some w =>
    if va + n > w.vbase + w.size || !(if a.write then w.write else w.read) then .error Rc.SEC_HOOP_VIOLATION
    else match h.resolvePhys a (w.pbase + (va - w.vbase)) n with
      | .error e => .error e
      | .ok (l, r) => if l.isPort && (h.keyOf a.hoop).isNone then .error Rc.SEC_HOOP_VIOLATION else .ok (l, r)

/-- A violation is shown in the hoop's record. -/
def noteViolation (h : Hw) (hoop va code : Nat) : Hw :=
  if code == Rc.SEC_HOOP_VIOLATION && hoop < h.build.hoops then
    (h.setFlag F.HP_STATUS_VIOL hoop).wr .HP_VIOLADDR hoop va
  else h

/-! The cache's tags (R210 to R212). -/

/-- Sets of the cache. -/
def cacheSets (h : Hw) : Nat := (h.build.blockmemMib / 8 - h.get F.MP_BM_CTRL_SCRATCH_UNITS) * 1024

/-- The way that holds a unit under a hoop's key slot. -/
def cacheWay (h : Hw) (hoop unit : Nat) : Option Nat :=
  if h.cacheSets == 0 || h.invalDue.isSome then none
  else (List.range 16).find? (fun w =>
    Tab.find? h.cache (unit % h.cacheSets * 16 + w) == some { unit := unit, hoop := hoop, gen := h.keyGen hoop })

/-- The pseudo-LRU tree of a set after a use of a way: at each of its four nodes the bit points away from it. -/
def plruTouch (tree way : Nat) : Nat :=
  (List.range 4).foldl (fun t l =>
    let node := 2 ^ l - 1 + way / 2 ^ (4 - l)
    putBits node 1 (flag (!bit (3 - l) way)) t) tree

/-- The way the tree points to. -/
def plruVictim (tree : Nat) : Nat :=
  (List.range 4).foldl (fun w l => 2 * w + flag (bit (2 ^ l - 1 + w) tree)) 0

/-- A use of a way. -/
def cacheTouch (h : Hw) (unit way : Nat) : Hw :=
  let s := unit % h.cacheSets
  { h with plru := Tab.put h.plru 0 s (plruTouch (Tab.getD h.plru s 0) way) }

/-- A fill is allocated: over a line of the unit under another key slot, else over the way of the tree (R210). -/
def cacheFill (h : Hw) (hoop gen unit : Nat) : Hw :=
  if h.cacheSets == 0 then h
  else
    let s := unit % h.cacheSets
    let same := (List.range 16).find? (fun w => (Tab.find? h.cache (s * 16 + w)).any (fun l => l.unit == unit))
    let free := (List.range 16).find? (fun w => (Tab.find? h.cache (s * 16 + w)).isNone)
    let way := same.getD (free.getD (plruVictim (Tab.getD h.plru s 0)))
    ({ h with cache := Tab.insert h.cache (s * 16 + way) { unit := unit, hoop := hoop, gen := gen } }).cacheTouch unit way

/-- Lines that match a test are invalidated. -/
def cacheDrop (h : Hw) (p : CacheLine → Bool) : Hw := { h with cache := h.cache.filter (fun x => !p x.2) }

/-- A write to a unit under a hoop's key slot: lines of the unit under another slot are invalidated (R211). -/
def cacheWrite (h : Hw) (hoop unit : Nat) : Hw :=
  h.cacheDrop (fun l => l.unit == unit && !(l.hoop == hoop && l.gen == h.keyGen hoop))

/-- The cache invalidation starts (R212): fills in flight will not be allocated. -/
def startInval (h : Hw) : Hw :=
  { h.put F.MP_BM_CTRL_INVAL 1 with
    cache := [], invalDue := some (h.after h.cacheSets), txns := h.txns.map (fun t => { t with alloc := false }) }

end Hw

/-! Contents. -/

/-- A byte of port memory as a key sees it (R222). -/
def portByte (h : Hw) (m : Mem) (key off : Nat) : Byte :=
  let u := off / 512
  match Tab.find? h.portKeys u with
  | none => Config.freePortByte u (off % 512)
  | some k => if k == key then m.byte Area.port off else Config.xtsMixed k key off (m.byte Area.port off)

/-- n bytes at a location, as a hoop sees them. -/
def farRead (h : Hw) (m : Mem) (hoop : Nat) (l : FarLoc) (n : Nat) : List Byte :=
  match l with
  | .scratch off => m.read Area.block off n
  | .port off _ => (List.range n).map (fun i => portByte h m ((h.keyOf hoop).getD 0) (off + i))

/-- n bytes at hoop addresses as a bobbin of a run reads them, where the access is permitted. -/
def farBytes (h : Hw) (m : Mem) (hoop va n : Nat) : Option (List Byte) :=
  match h.resolve { hoop := hoop, write := false, bobbin := true } va n with
  | .ok (l, _) => some (farRead h m hoop l n)
  | .error _ => none

/-- n bytes from an address of a core's matrix memory, or of far memory where a hoop is named. -/
def spaceBytes (h : Hw) (m : Mem) (c : Nat) (far : Option Nat) (a n : Nat) : Option (List Byte) :=
  match far with
  | none => some (m.read (Area.matrix c) a n)
  | some hoop => farBytes h m hoop a n

/-- Store to a location for a hoop: a unit of port memory is written whole, its other bytes as the hoop reads them (R218). -/
def farStore (w : Work) (hoop : Nat) (l : FarLoc) (bs : List Byte) : Work :=
  match l with
  | .scratch off =>
    let w := w.store Area.block off bs
    w.onHw (fun h => h.healed 0x40 blockWhere off bs.length)
  | .port off _ =>
    let u0 := off / 512
    let n := ceilDiv (off % 512 + bs.length) 512
    let old := farRead w.hw w.mem hoop (.port (u0 * 512) false) (n * 512)
    let key := (w.hw.keyOf hoop).getD 0
    let w := w.store Area.port (u0 * 512) (patchBytes (off % 512) bs old)
    w.onHw (fun h => (List.range n).foldl (fun h i =>
      ({ h with portKeys := Tab.insert h.portKeys (u0 + i) key }).cacheWrite hoop (u0 + i)) h)

/-- A write by hoop addresses sets PENDING of the region it goes through (R227). -/
def markRegion (h : Hw) (r : Option Nat) : Hw :=
  match r with
  | some n => h.put F.MP_CT_FLAGS_PENDING 1 n
  | none => h

end Sys2Proof.Machine
end

