-- ==== Sys2Proof/Machine/Operands.lean ====
section
/-! DEFINITION. Number formats and exact arithmetic (R86 to R91, R99, R100). A value is exact: a signed dyadic number, an infinity or
NaN. Every rounding is one rounding of the exact value to nearest, ties to even. -/

namespace Sys2Proof

/-- An exact value: (−1)^neg × m × 2^e, an infinity, or NaN. -/
inductive Val where
  | nan
  | inf (neg : Bool)
  | num (neg : Bool) (m : Nat) (e : Int)
  deriving DecidableEq, Repr

/-- A binary floating-point format: exponent and mantissa bits, bias, the largest finite code, the code of infinity if it has
one, and its canonical NaN if it has one (Table 4-1). -/
structure FloatFmt where
  eBits : Nat
  mBits : Nat
  bias : Nat
  maxCode : Nat
  infCode : Option Nat
  nanCode : Option Nat
  deriving DecidableEq, Repr

namespace FloatFmt

def f4 : FloatFmt := ⟨2, 1, 1, 0x7, none, none⟩
def f6a : FloatFmt := ⟨3, 2, 3, 0x1F, none, none⟩
def f6b : FloatFmt := ⟨2, 3, 1, 0x1F, none, none⟩
def f8a : FloatFmt := ⟨4, 3, 7, 0x7E, none, some 0x7F⟩
def f8b : FloatFmt := ⟨5, 2, 15, 0x7B, some 0x7C, some 0x7F⟩
def bf16 : FloatFmt := ⟨8, 7, 127, 0x7F7F, some 0x7F80, some 0x7FC0⟩
def f32 : FloatFmt := ⟨8, 23, 127, 0x7F7FFFFF, some 0x7F800000, some 0x7FC00000⟩
def ue4m3 : FloatFmt := ⟨4, 3, 7, 0x7E, none, some 0x7F⟩

/-- The value of a code (R87). -/
def decode (f : FloatFmt) (code : Nat) : Val :=
  let w := f.eBits + f.mBits
  let neg := bit w code
  let mag := code % 2 ^ w
  if f.infCode == some mag then .inf neg
  else if f.maxCode < mag then .nan
  else
    let e := mag / 2 ^ f.mBits
    let m := mag % 2 ^ f.mBits
    if e == 0 then .num neg m (1 - (f.bias : Int) - f.mBits)
    else .num neg (m + 2 ^ f.mBits) ((e : Int) - f.bias - f.mBits)

/-- The magnitude code, before any clip, of p / q × 2^e rounded to nearest, ties to even, subnormals kept. Codes rise with value,
so a code beyond `maxCode` states an overflow. -/
def magCode (f : FloatFmt) (p q : Nat) (e : Int) : Nat :=
  if p == 0 then 0
  else
    let est : Int := (Nat.log2 p : Int) - Nat.log2 q
    -- floor of log2 (p / q)
    let lg : Int :=
      if est ≥ 0 then (if p < q * 2 ^ est.toNat then est - 1 else est)
      else (if p * 2 ^ (-est).toNat < q then est - 1 else est)
    let top := lg + e
    let emin : Int := 1 - (f.bias : Int)
    let x : Int := max top emin - f.mBits
    let sh := e - x
    let p' := if sh ≥ 0 then p * 2 ^ sh.toNat else p
    let q' := if sh ≥ 0 then q else q * 2 ^ (-sh).toNat
    let n := p' / q'
    let r := p' % q'
    let k := if 2 * r > q' || (2 * r == q' && n % 2 == 1) then n + 1 else n
    if k < 2 ^ f.mBits then k
    else ((x + f.mBits + f.bias).toNat) * 2 ^ f.mBits + (k - 2 ^ f.mBits)

/-- The sign bit of a code. -/
def sign (f : FloatFmt) (neg : Bool) : Nat := flag neg * 2 ^ (f.eBits + f.mBits)

/-- Round a value to the format: overflow gives infinity; a zero result is +0 unless `ieee` keeps its sign (R90, R91). -/
def encode (f : FloatFmt) (ieee : Bool) (v : Val) : Nat :=
  match v with
  | .nan => f.nanCode.getD 0
  | .inf neg => f.sign neg + f.infCode.getD f.maxCode
  | .num neg m e =>
    let c := f.magCode m 1 e
    if c == 0 then (if ieee then f.sign neg else 0)
    else f.sign neg + (if c ≤ f.maxCode then c else f.infCode.getD f.maxCode)

end FloatFmt

namespace Val

def zero : Val := .num false 0 0

def one : Val := .num false 1 0

def ofInt (n : Int) : Val := .num (n < 0) n.natAbs 0

/-- A finite value as a signed mantissa at its exponent. -/
def signedMant (neg : Bool) (m : Nat) : Int := if neg then -(m : Int) else m

def neg : Val → Val
  | .nan => .nan
  | .inf n => .inf (!n)
  | .num n m e => .num (!n) m e

def abs : Val → Val
  | .nan => .nan
  | .inf _ => .inf false
  | .num _ m e => .num false m e

/-- Exact product; infinity × 0 is NaN. -/
def mul : Val → Val → Val
  | .nan, _ => .nan
  | _, .nan => .nan
  | .inf a, .inf b => .inf (a != b)
  | .inf a, .num b m _ => if m == 0 then .nan else .inf (a != b)
  | .num a m _, .inf b => if m == 0 then .nan else .inf (a != b)
  | .num a m e, .num b n f => .num (a != b) (m * n) (e + f)

/-- Exact sum; infinities of opposite sign give NaN. A zero sum of two negative zeros is negative (R91). -/
def add : Val → Val → Val
  | .nan, _ => .nan
  | _, .nan => .nan
  | .inf a, .inf b => if a == b then .inf a else .nan
  | .inf a, .num _ _ _ => .inf a
  | .num _ _ _, .inf b => .inf b
  | .num a m e, .num b n f =>
    let g := min e f
    let s := signedMant a m * 2 ^ (e - g).toNat + signedMant b n * 2 ^ (f - g).toNat
    if s == 0 then .num (a && b) 0 0 else .num (s < 0) s.natAbs g

def sub (a b : Val) : Val := add a b.neg

def isNan : Val → Bool
  | .nan => true
  | _ => false

def isInf : Val → Bool
  | .inf _ => true
  | _ => false

def isNeg : Val → Bool
  | .nan => false
  | .inf n => n
  | .num n _ _ => n

def isZero : Val → Bool
  | .num _ m _ => m == 0
  | _ => false

/-- a < b; false when either is NaN. Zeros are equal. -/
def lt (a b : Val) : Bool :=
  match a, b with
  | .nan, _ => false
  | _, .nan => false
  | .inf x, .inf y => x && !y
  | .inf x, .num _ _ _ => x
  | .num _ _ _, .inf y => !y
  | .num x m e, .num y n f =>
    let g := min e f
    signedMant x m * 2 ^ (e - g).toNat < signedMant y n * 2 ^ (f - g).toNat

/-- The exact sum of a list of products with the special cases of R89. -/
def dot (ps : List (Val × Val)) : Val :=
  if ps.any (fun p => p.1.isNan || p.2.isNan) then .nan
  else ps.foldl (fun s p => add s (mul p.1 p.2)) zero

end Val

/-! F32 values as codes. -/

/-- Round an exact value to an F32 code, zero results +0 (R90). -/
def roundR90 (v : Val) : Nat := FloatFmt.f32.encode false v

/-- Round an exact value to an F32 code as IEEE 754 (R91). -/
def roundR91 (v : Val) : Nat := FloatFmt.f32.encode true v

def f32Val (code : Nat) : Val := FloatFmt.f32.decode code

namespace F32

def add (a b : Nat) : Nat := roundR91 (Val.add (f32Val a) (f32Val b))
def sub (a b : Nat) : Nat := roundR91 (Val.sub (f32Val a) (f32Val b))
def mul (a b : Nat) : Nat := roundR91 (Val.mul (f32Val a) (f32Val b))
def fma (a b c : Nat) : Nat := roundR91 (Val.add (Val.mul (f32Val a) (f32Val b)) (f32Val c))
def neg (a : Nat) : Nat := roundR91 (f32Val a).neg
def abs (a : Nat) : Nat := roundR91 (f32Val a).abs
def ofNat (n : Nat) : Nat := roundR91 (.num false n 0)
def one : Nat := 0x3F800000
def nan : Nat := 0x7FC00000
def isNan (a : Nat) : Bool := (f32Val a).isNan

/-- max and min answer NaN if either input is NaN (R167); of two zeros max is the positive one and min the negative one
(IEEE 754-2019 maximum and minimum). -/
def max (a b : Nat) : Nat :=
  if isNan a || isNan b then nan
  else if (f32Val a).lt (f32Val b) then b
  else if (f32Val b).lt (f32Val a) then a
  else if (f32Val a).isNeg then b else a

def min (a b : Nat) : Nat :=
  if isNan a || isNan b then nan
  else if (f32Val a).lt (f32Val b) then a
  else if (f32Val b).lt (f32Val a) then b
  else if (f32Val a).isNeg then a else b

/-- Correctly rounded reciprocal (R91). -/
def rcp (a : Nat) : Nat :=
  match f32Val a with
  | .nan => nan
  | .inf n => FloatFmt.f32.sign n
  | .num n 0 _ => FloatFmt.f32.sign n + 0x7F800000
  | .num n m e =>
    let c := FloatFmt.f32.magCode 1 m (-e)
    FloatFmt.f32.sign n + Nat.min c 0x7F800000

/-- Integer square root with 64 extra bits, the last bit sticky: a value of the same rounding as the exact root. -/
def sqrtMant (m : Nat) (e : Int) : Nat × Int :=
  let odd : Bool := e % 2 != 0
  let m := if odd then 2 * m else m
  let e := if odd then e - 1 else e
  let x := m * 2 ^ 128
  let r := Nat.sqrt x
  (2 * r + flag (r * r != x), e / 2 - 65)

/-- Correctly rounded square root (R91). -/
def sqrt (a : Nat) : Nat :=
  match f32Val a with
  | .nan => nan
  | .inf n => if n then nan else 0x7F800000
  | .num n 0 _ => FloatFmt.f32.sign n
  | .num n m e =>
    if n then nan else
      let r := sqrtMant m e
      FloatFmt.f32.magCode r.1 1 r.2

/-- Correctly rounded reciprocal square root (R91). -/
def rsqrt (a : Nat) : Nat :=
  match f32Val a with
  | .nan => nan
  | .inf n => if n then nan else 0
  | .num n 0 _ => FloatFmt.f32.sign n + 0x7F800000
  | .num n m e =>
    if n then nan else
      -- 1 / sqrt (m 2^e) = sqrt (2^(2 k) / m) 2^(-k - e/2)
      let odd : Bool := e % 2 != 0
      let m := if odd then 2 * m else m
      let e := if odd then e - 1 else e
      let x := 2 ^ 256 / m
      let r := Nat.sqrt x
      FloatFmt.f32.magCode (2 * r + 1) 1 (-129 - e / 2)

/-- 2^(t / 2^200) for 0 ≤ t < 2^200 as a number over 2^200: a product over the bits of t of the fixed-point square roots of 2,
`fuel` bits deep. -/
def exp2Frac : Nat → Nat → Nat → Nat → Nat
  | 0, _, _, acc => acc
  | fuel + 1, t, root, acc =>
    let acc := if t / 2 ^ fuel % 2 == 1 then acc * root / 2 ^ 200 else acc
    exp2Frac fuel (t % 2 ^ fuel) (Nat.sqrt (root * 2 ^ 200)) acc

/-- Correctly rounded 2^a (R91), through a 200-bit fixed-point power. -/
def exp2 (a : Nat) : Nat :=
  match f32Val a with
  | .nan => nan
  | .inf n => if n then 0 else 0x7F800000
  | .num n m e =>
    if m == 0 then one
    else if e > 8 || (e ≥ 0 && m * 2 ^ e.toNat ≥ 300) || (e < 0 && m / 2 ^ (-e).toNat ≥ 300) then (if n then 0 else 0x7F800000)
    else
      -- a as a fixed-point number over 2^200, floored
      let x : Int := if e + 200 ≥ 0 then Val.signedMant n m * 2 ^ (e + 200).toNat else if n then -1 else 1
      let ip := x / 2 ^ 200
      let fp := (x % 2 ^ 200).toNat
      if fp == 0 then Nat.min (FloatFmt.f32.magCode 1 1 ip) 0x7F800000
      else
        let y := exp2Frac 200 fp (Nat.sqrt (2 * 2 ^ 400)) (2 ^ 200)
        Nat.min (FloatFmt.f32.magCode (2 * y + 1) 1 (ip - 201)) 0x7F800000

/-- The bits of log2 y for 1 ≤ y < 2, y over 2^200, most significant first. -/
def log2Bits : Nat → Nat → Nat → Nat
  | 0, _, acc => acc
  | fuel + 1, y, acc =>
    let y := y * y / 2 ^ 200
    if y ≥ 2 * 2 ^ 200 then log2Bits fuel (y / 2) (2 * acc + 1) else log2Bits fuel y (2 * acc)

/-- Correctly rounded log2 a (R91), through 96 fixed-point bits of the fraction. -/
def log2 (a : Nat) : Nat :=
  match f32Val a with
  | .nan => nan
  | .inf n => if n then nan else 0x7F800000
  | .num n m e =>
    if m == 0 then FloatFmt.f32.sign true + 0x7F800000
    else if n then nan
    else
      let k := Nat.log2 m
      let ip : Int := (k : Int) + e
      let y := if k ≤ 200 then m * 2 ^ (200 - k) else m / 2 ^ (k - 200)
      let fp := log2Bits 96 y 0
      let exact : Bool := m == 2 ^ k
      let x : Int := 2 * (ip * 2 ^ 96 + fp) + flag (!exact)
      if x == 0 then 0 else roundR91 (.num (x < 0) x.natAbs (-97))

end F32

/-! Integers. -/

/-- Saturate to the I32 range (R62, R90). -/
def satI32 (x : Int) : Int := clampInt (-2147483648) 2147483647 x

def i32Val (code : Nat) : Int := signed 32 code

def i32Code (x : Int) : Nat := encSigned 32 x

/-! Element formats (Table 5-2). -/

/-- The format code names an element format of the array. -/
def isElemFmt (f : Nat) : Bool := f ≤ 5 || (8 ≤ f && f ≤ 0xB)

/-- Bits of an element. -/
def fmtBits (f : Nat) : Nat :=
  match f with
  | 0 => 4 | 1 => 6 | 2 => 6 | 3 => 8 | 4 => 8 | 5 => 16 | 6 => 32 | 8 => 4 | 9 => 8 | 10 => 4 | 11 => 8 | 12 => 32
  | _ => 0

/-- The float format of a format code. -/
def fmtFloat (f : Nat) : FloatFmt :=
  match f with
  | 0 => .f4 | 1 => .f6a | 2 => .f6b | 3 => .f8a | 4 => .f8b | 5 => .bf16
  | _ => .f32

/-- The format is an integer format. -/
def fmtIsInt (f : Nat) : Bool := 8 ≤ f

/-- The value of an element code. -/
def elemVal (f code : Nat) : Val :=
  match f with
  | 8 => Val.ofInt (signed 4 code)
  | 9 => Val.ofInt (signed 8 code)
  | 10 => .num false (code % 16) 0
  | 11 => .num false (code % 256) 0
  | 12 => Val.ofInt (signed 32 code)
  | _ => (fmtFloat f).decode code

/-- An operand class (Table 3-1): elements per PE and cycle, and whether it accumulates in I32. -/
def classOf (a b : Nat) : Option (Nat × Bool) :=
  if a == 0 && b == 0 then some (4, false)
  else if a ≤ 4 && b ≤ 4 then some (2, false)
  else if a == 5 && b == 5 then some (1, false)
  else if (a == 8 || a == 10) && b == 8 then some (4, true)
  else if (a == 9 || a == 11 || a == 10) && b == 9 then some (2, true)
  else if (a == 9 || a == 11) && b == 8 then some (2, true)
  else none

/-- Bytes that a packed row of n elements occupies (R88). -/
def packedLen (f n : Nat) : Nat :=
  let b := fmtBits f
  if b == 4 then ceilDiv n 2 else if b == 6 then 3 * ceilDiv n 4 else n * (b / 8)

/-- Element i of a packed row (R88). -/
def packedElem (f : Nat) (row : List Byte) (i : Nat) : Nat :=
  let b := fmtBits f
  if b == 4 then bits (4 * (i % 2)) 4 (leAt (i / 2) 1 row)
  else if b == 6 then bits (6 * (i % 4)) 6 (leAt (3 * (i / 4)) 3 row)
  else leAt (i * (b / 8)) (b / 8) row

/-- Pack element codes (R88). -/
def packRow (f : Nat) (codes : List Nat) : List Byte :=
  let b := fmtBits f
  let total := codes.foldr (fun c acc => acc * 2 ^ b + c % 2 ^ b) 0
  leBytes (packedLen f codes.length) total

/-! Conversion to narrow formats (R98 to R100, R102). -/

/-- Q_max of a target (Table 4-4), and its zero point. -/
def qMax (f z : Nat) : Val :=
  match f with
  | 0 => .num false 6 0
  | 1 => .num false 28 0
  | 2 => .num false 15 (-1)
  | 3 => .num false 448 0
  | 4 => .num false 57344 0
  | 8 => .num false 7 0
  | 9 => .num false 127 0
  | 10 => .num false (max z (15 - z)) 0
  | _ => .num false (max z (255 - z)) 0

/-- Magnitude and exponent of a finite value. -/
def Val.mag : Val → Nat × Int
  | .num _ m e => (m, e)
  | _ => (0, 0)

/-- A value rounded to the nearest integer, ties to even, of p / q × 2^e. -/
def roundInt (p q : Nat) (e : Int) : Nat :=
  let p' := if e ≥ 0 then p * 2 ^ e.toNat else p
  let q' := if e ≥ 0 then q else q * 2 ^ (-e).toNat
  let n := p' / q'
  let r := p' % q'
  if 2 * r > q' || (2 * r == q' && n % 2 == 1) then n + 1 else n

/-- The largest magnitude of the finite values of a row. -/
def rowMax (xs : List Nat) : Val :=
  xs.foldl (fun m x => match f32Val x with
    | .num _ k e => if m.lt (.num false k e) then .num false k e else m
    | _ => m) Val.zero

/-- The streamed-class scale code round_BF16 (m / Q_max) (R99). -/
def streamScale (m q : Val) : Nat :=
  let a := m.mag
  let b := q.mag
  if b.1 == 0 then 0 else min (FloatFmt.bf16.magCode a.1 b.1 (a.2 - b.2)) 0x7F80

/-- The data-class scale code and whether it was clipped (R99). -/
def dataScale (m q t : Val) : Nat × Bool :=
  let a := m.mag
  let b := (Val.mul q t).mag
  if b.1 == 0 then (0, false)
  else
    let limit : Val := .mul (.num false 448 0) (.num false b.1 b.2)
    let c := FloatFmt.ue4m3.magCode a.1 b.1 (a.2 - b.2)
    (min c 0x7E, limit.lt m)

/-- The segment shift: the largest k from 0 to 15 with m_g × 2^k ≤ m; 0 when m_g is 0. -/
def segShift (mg m : Val) : Nat :=
  if mg.isZero then 0
  else (List.range 16).foldl (fun (best k : Nat) => if m.lt (Val.mul mg (.num false 1 (k : Int))) then best else k) 0

/-- One converted element: its code and whether its magnitude lies beyond Q_max and was clipped (R100, Table 4-4). `s` is the effective scale. -/
def convertElem (f z : Nat) (s : Val) (x : Nat) : Nat × Bool :=
  let q := qMax f z
  let w := fmtBits f
  let v := f32Val x
  let ufmt := f == 10 || f == 11
  let top := if f == 10 then 15 else 255
  match v with
  | .nan =>
    (if ufmt then z else if f == 3 || f == 4 then 0x7F else 0, false)
  | .inf n =>
    if ufmt then (if n then 0 else top, false)
    else if fmtIsInt f then (encSigned w (if n then -((q.mag).1 : Int) else (q.mag).1), false)
    else ((fmtFloat f).sign n + (fmtFloat f).maxCode, false)
  | .num n m e =>
    let b := s.mag
    let beyond := (Val.mul q (.num false b.1 b.2)).lt (.num false m e)
    if b.1 == 0 then (if ufmt then z else 0, false)
    else if fmtIsInt f then
      let r := roundInt m b.1 (e - b.2)
      let signedR : Int := if n then -(r : Int) else r
      if ufmt then
        let y := signedR + z
        ((clampInt 0 top y).toNat, y < 0 || (top : Int) < y)
      else
        let lim : Int := (q.mag).1
        (encSigned w (clampInt (-lim) lim signedR), beyond)
    else
      let ff := fmtFloat f
      let c := ff.magCode m b.1 (e - b.2)
      if c == 0 then (0, false)
      else (ff.sign n + min c ff.maxCode, beyond)

end Sys2Proof
end

