-- ==== Sys2Proof/Machine/Array.lean ====
section
/-! DEFINITION. The matrix array (R60 to R85). -/

namespace Sys2Proof.Machine

/-- Bytes of a matrix-memory bank, and lines in it (R163). -/
def bankBytes : Nat := 262144
def bankLines : Nat := 4096

namespace Hw

def arr (h : Hw) (c : Nat) : ArrayUnit := (h.core c).arr

/-- The array of a core as the source of a raise. -/
def arrSrc (h : Hw) (c : Nat) : Src := { h.coreSrc c 0xB1 (some F.CR_ARR_STATUS_REASON) with detail := h.rd .CR_ARR_FAULT c }

def arrRefuse (h : Hw) (c code : Nat) : Hw := h.refuse code F.CR_ARR_STATUS_REASON c (0xB1 + c)

/-- Banks of a stationary region: ⌈ARRAY_COLS × w / 64⌉, with w in bits (R65). -/
def stationBanks (h : Hw) (wBits : Nat) : Nat := ceilDiv (h.build.arrayCols * wBits) 512

end Hw

/-! What a load and a pass read. -/

/-- Bits of the data of one PE and cycle: epp × element bits (R68). -/
def peBits (epp f : Nat) : Nat := epp * fmtBits f

/-- The elements of a PE's data. -/
def peElems (epp f code : Nat) : List Nat := (List.range epp).map (fun k => bits (k * fmtBits f) (fmtBits f) code)

/-- The data of stream element e for row i of a 32-row group that begins at a bank and line (R68). -/
def streamCode (m : Mem) (c bank line wBits e i : Nat) : Nat :=
  let addr := bank * bankBytes + (line + e + i) * 64
  bits (wBits * i) wBits (leNat (m.read (Area.matrix c) addr 64))

/-- The stationary data of PE row r and column j of a region (R65, R68). -/
def stationCode (m : Mem) (c bank line wBits r j : Nat) : Nat :=
  let lo := wBits * j / 8
  let byte (p : Nat) : Byte := m.byte (Area.matrix c) ((bank + p / 64) * bankBytes + (line + r) * 64 + p % 64)
  bits (wBits * j % 8) wBits (leNat ((List.range 4).map (fun k => byte (lo + k))))

/-- The formats and class of a load's operands: (A, B). -/
def loadFmts (l : ArrLoad) : Nat × Nat := if l.mode == 0 then (l.pfmt, l.fmt) else (l.fmt, l.pfmt)

/-- A pass matches the load that filled the bank it uses (R62, R65). -/
def bankMatches (k : StatBank) (p : ArrPass) : Bool :=
  k.loaded && k.mode == p.mode &&
  (if p.mode == 0 then k.fmt == p.fmtB && k.pfmt == p.fmtA
   else if p.mode == 1 then k.fmt == p.fmtA && k.pfmt == p.fmtB
   else k.fmt == (if (classOf p.fmtA p.fmtB).any (·.2) then 0xC else 6) && k.accumulate == p.accumulate)

/-! Lines. -/

/-- A line's values; an EMPTY line reads +0 (R72). -/
def lineVals (cols : Nat) (l : AccLine) : List Nat := if l.state == 0 then List.replicate cols 0 else l.vals

/-- F32 or I32 addition of two accumulator codes (R62, R90). -/
def accAdd (isInt : Bool) (a b : Nat) : Nat :=
  if isInt then i32Code (satI32 (i32Val a + i32Val b)) else roundR90 (Val.add (f32Val a) (f32Val b))

/-- A column of a pass is written: below COLS and not masked (R64). -/
def colWritten (p : ArrPass) (j : Nat) : Bool := j < p.cols && !bit j p.colMask

/-- The line that a pass leaves of a line it writes (R62, R64, R72). -/
def committedLine (cols : Nat) (isInt : Bool) (p : ArrPass) (old : AccLine) (out : List Nat) : AccLine :=
  let prev := lineVals cols old
  let vals := (List.range cols).map (fun j =>
    if !colWritten p j then prev.getD j 0
    else if p.accumulate && p.mode != 2 then accAdd isInt (prev.getD j 0) (out.getD j 0)
    else out.getD j 0)
  { state := if p.sealing then 2 else 1, int := isInt, vals := vals }

/-- Lines a pass writes: tile-relative indexes (R63, R64). -/
def passLines (rows : Nat) (p : ArrPass) : List Nat :=
  if p.mode == 2 then List.range rows
  else ((List.range p.len).filter (fun e => !bit e p.rowMask)).map (fun e => p.line0 + e)

/-- The class of a pass accumulates in I32. -/
def passInt (p : ArrPass) : Bool := (classOf p.fmtA p.fmtB).any (·.2)

namespace ArrayUnit

def line (a : ArrayUnit) (rows tile l : Nat) : AccLine := Tab.getD a.lines (tile * rows + l) {}

/-- The lines after a pass commits (R74). -/
def applyPass (b : Build) (a : ArrayUnit) (p : ArrPass) : ArrayUnit :=
  let lines := p.out.foldl (fun t o =>
    Tab.modify t {} (p.tile * b.arrayRows + o.1) (fun l => committedLine b.arrayCols (passInt p) p l o.2)) a.lines
  let sums := if !p.csum then a.colSums
    else Tab.modify a.colSums [] p.tile (fun old =>
      if p.accumulate then (List.range b.arrayCols).map (fun j => satI32 (old.getD j 0 + p.colSum.getD j 0)) else p.colSum)
  { a with lines := lines, colSums := sums }

/-- The newest version of the lines, passes in flight included (R74). -/
def newest (b : Build) (a : ArrayUnit) : ArrayUnit :=
  if a.discard then a else (a.passes.filter (·.started.isSome)).foldl (fun x p => x.applyPass b p) a

end ArrayUnit

/-- The bank that a load fills (R65, R67). -/
def loadedBank (m : Mem) (b : Build) (c : Nat) (a : ArrayUnit) (l : ArrLoad) : StatBank :=
  let fs := loadFmts l
  let cls := (classOf fs.1 fs.2).getD (1, false)
  let base : StatBank := { loaded := true, mode := l.mode, fmt := l.fmt, pfmt := l.pfmt, accumulate := l.accumulate }
  if l.mode == 2 then
    { base with vals := (List.range b.arrayRows).map (fun i =>
        if l.accumulate then lineVals b.arrayCols ((a.newest b).line b.arrayRows l.tile i) else List.replicate b.arrayCols 0) }
  else
    let w := peBits cls.1 l.fmt
    let vals := (List.range b.arrayRows).map (fun r => (List.range b.arrayCols).map (fun j =>
      if r < l.kRows && j < l.cols then stationCode m c l.bank l.line w r j else 0))
    let sums := if l.mode == 0 && cls.2 then
        (List.range b.arrayCols).map (fun j => vals.foldl (fun s row =>
          (peElems cls.1 l.fmt (row.getD j 0)).foldl (fun s x => satI32 (s + signed (fmtBits l.fmt) x)) s) 0)
      else List.replicate b.arrayCols 0
    { base with vals := vals, colSum := sums }

/-- An element value of operand A with its segment shift (R102). -/
def shiftedVal (f code : Nat) (shift : Nat) : Val := Val.mul (elemVal f code) (.num false 1 (-(shift : Int)))

/-- The shift of K element k of a row of operand A. -/
def shiftOf (p : ArrPass) (row k : Nat) : Nat :=
  if p.shifts.isEmpty then 0 else (p.shifts.getD row []).getD ((p.k0 + k) / 256) 0

/-- Pairs of values of one PE: operand A's and operand B's data, the row of A and the first K element. -/
def pePairs (p : ArrPass) (epp codeA codeB rowA k : Nat) : List (Val × Val) :=
  (List.range epp).map (fun i =>
    (shiftedVal p.fmtA ((peElems epp p.fmtA codeA).getD i 0) (shiftOf p rowA (k + i)), elemVal p.fmtB ((peElems epp p.fmtB codeB).getD i 0)))

/-- One addition of the partial-sum chain: an accumulator code and an exact dot product (R62, R89, R90). -/
def chainAdd (isInt : Bool) (s : Nat) (d : Val) : Nat :=
  if isInt then
    match d with
    | .num n m e => i32Code (satI32 (i32Val s + Val.signedMant n m * 2 ^ e.toNat))
    | _ => s
  else roundR90 (Val.add (f32Val s) d)

/-- The chain outputs of a pass that reads its stream and its stationary bank: line and values of each line it writes (R62, R63). -/
def passOut (m : Mem) (b : Build) (c : Nat) (bank : StatBank) (p : ArrPass) : List (Nat × List Nat) :=
  let cls := (classOf p.fmtA p.fmtB).getD (1, false)
  let epp := cls.1
  let row (e r : Nat) : Nat :=
    let f := if p.mode == 1 then p.fmtB else p.fmtA
    streamCode m c (p.bankA + r / 32) p.lineA (peBits epp f) e (r % 32)
  if p.mode == 2 then
    (List.range b.arrayRows).map (fun i => (i, (List.range b.arrayCols).map (fun j =>
      (List.range p.len).foldl (fun s k =>
        let cb := streamCode m c (p.bankB + j / 32) p.lineB (peBits epp p.fmtB) k (j % 32)
        chainAdd cls.2 s (Val.dot (pePairs p epp (row k i) cb i (k * epp)))) ((bank.vals.getD i []).getD j 0))))
  else
    ((List.range p.len).filter (fun e => !bit e p.rowMask)).map (fun e => (p.line0 + e, (List.range b.arrayCols).map (fun j =>
      if !colWritten p j then 0
      else (List.range p.kRows).foldl (fun s r =>
        let st := (bank.vals.getD r []).getD j 0
        let pairs := if p.mode == 0 then pePairs p epp (row e r) st e (r * epp) else pePairs p epp st (row e r) j (r * epp)
        chainAdd cls.2 s (Val.dot pairs)) 0)))

/-! Energy (Table 16-2; log entry 18). -/

/-- The event of a PE row active one cycle, by class. -/
def classEvent (cls : Nat × Bool) : Nat := if cls.1 == 4 then 0 else if cls.1 == 2 then 1 else 2

/-- What a load, a pass that feeds and a pass that commits weigh. -/
def Hw.weighLoad (h : Hw) (l : ArrLoad) : Hw :=
  let fs := loadFmts l
  let epp := ((classOf fs.1 fs.2).getD (1, false)).1
  let h := h.weigh l.owner 4 l.kRows
  if l.mode == 2 then (if l.accumulate then h.weigh l.owner 6 l.kRows else h) else h.weigh l.owner 5 (h.stationBanks (peBits epp l.fmt) * l.kRows)

def Hw.weighPass (h : Hw) (p : ArrPass) : Hw :=
  let h := h.weigh p.owner (classEvent ((classOf p.fmtA p.fmtB).getD (1, false))) (p.kRows * p.len)
  h.weigh p.owner 5 ((ceilDiv p.kRows 32 + (if p.mode == 2 then h.build.arrayCols / 32 else 0)) * (p.len + 31))

def Hw.weighCommit (h : Hw) (p : ArrPass) : Hw := h.weigh p.owner 6 (p.out.length * (if p.accumulate then 2 else 1))

/-! Checks at issue. -/

/-- Banks a pass feeds from, as (first, count) ranges. -/
def passBanks (b : Build) (p : ArrPass) : List (Nat × Nat) :=
  (p.bankA, b.arrayRows / 32) :: (if p.mode == 2 then [(p.bankB, b.arrayCols / 32)] else [])

/-- Banks a load reads; a mode-O load reads none. -/
def loadBanks (h : Hw) (l : ArrLoad) : List (Nat × Nat) :=
  if l.mode == 2 then [] else
    let fs := loadFmts l
    let epp := ((classOf fs.1 fs.2).getD (1, false)).1
    [(l.bank, h.stationBanks (peBits epp l.fmt))]

def rangesMeet (a b : Nat × Nat) : Bool := a.1 < b.1 + b.2 && b.1 < a.1 + a.2

/-- Some range of one list meets some range of another. -/
def banksMeet (xs ys : List (Nat × Nat)) : Bool := xs.any (fun x => ys.any (fun y => rangesMeet x y))

namespace Hw

/-- The banks of the passes and loads in flight: a pass's up to its commit cycle, a load's until its last row is written (R69). -/
def busyBanks (h : Hw) (c : Nat) : List (Nat × Nat) :=
  let a := h.arr c
  (a.passes.map (passBanks h.build)).flatten ++ (a.fedBanks.filter (fun x => h.ticks < x.2.2)).map (fun x => (x.1, x.2.1)) ++
    ((a.loads.filter (fun l => match l.started with
      | none => true
      | some t => h.ticks < t + 4 * (h.build.arrayRows + 2))).map (loadBanks h)).flatten

/-- Banks and lines lie in matrix memory (R69). -/
def extentOk (h : Hw) (banks : List (Nat × Nat)) (lastLine : Nat) : Bool :=
  banks.all (fun x => x.1 + x.2 ≤ 4 * h.build.matmemMib) && lastLine < bankLines

/-- A pass's parameters and extent (R60, R61, R63, R64, R69). -/
def passOk (h : Hw) (p : ArrPass) : Bool :=
  let b := h.build
  (classOf p.fmtA p.fmtB).isSome && p.mode ≤ 2 && (p.mode == 0 || (p.fmtA != 10 && p.fmtA != 11)) &&
  (1 ≤ p.kRows && p.kRows ≤ b.arrayRows) && (1 ≤ p.cols && p.cols ≤ b.arrayCols) && 1 ≤ p.len &&
  (if p.mode == 2 then p.len ≤ 4096 && p.kRows == b.arrayRows && p.cols == b.arrayCols && p.line0 == 0 && p.rowMask == 0
   else p.len ≤ b.arrayRows && p.line0 + p.len ≤ b.arrayRows) &&
  h.extentOk (passBanks b p) (p.lineA + p.len + 30) && (p.mode != 2 || p.lineB + p.len + 30 < bankLines)

/-- A load's parameters and extent (R65, R69, R164). -/
def loadOk (h : Hw) (l : ArrLoad) : Bool :=
  let b := h.build
  let fs := loadFmts l
  l.mode ≤ 2 && (1 ≤ l.kRows && l.kRows ≤ b.arrayRows) && (1 ≤ l.cols && l.cols ≤ b.arrayCols) &&
  (if l.mode == 2 then (l.fmt == 6 || l.fmt == 0xC) && l.pfmt == 0 && l.bank == 0 && l.line == 0 && l.tile < b.accTiles
   else (classOf fs.1 fs.2).isSome && !l.accumulate && l.tile == 0 && h.extentOk (loadBanks h l) (l.line + b.arrayRows - 1) &&
     (l.mode == 0 || (fs.1 != 10 && fs.1 != 11)))

/-- A pass or load is refused at issue because its banks overlap those of a pass or load in flight (R69). -/
def passMeets (h : Hw) (c : Nat) (p : ArrPass) : Bool := banksMeet (passBanks h.build p) (h.busyBanks c)
def loadMeets (h : Hw) (c : Nat) (l : ArrLoad) : Bool := banksMeet (loadBanks h l) (h.busyBanks c)

/-- A generated pass is queued to the array, or refused (R64, R69). -/
def queuePass (h : Hw) (c opcode : Nat) (p : ArrPass) : Hw :=
  if !h.passOk p || h.passMeets c p then h.haltAt c opcode Rc.PRG_BAD_OPERAND
  else h.onArr c (fun a => { a with passes := a.passes ++ [{ p with owner := (h.segOf c).1 }] })

/-- A generated load is queued to the array, or refused (R65, R69). -/
def queueLoad (h : Hw) (c opcode : Nat) (l : ArrLoad) : Hw :=
  if !h.loadOk l || h.loadMeets c l then h.haltAt c opcode Rc.PRG_BAD_OPERAND
  else h.onArr c (fun a => { a with loads := a.loads ++ [{ l with owner := (h.segOf c).1 }] })

/-! Holds. -/

/-- A stop request of Table 3-8 is in force, and holds new passes (R20). -/
def arrStop (h : Hw) (c : Nat) : Bool :=
  h.ab.on || h.on F.PW_STATUS_THROTTLE || (h.core c).debugHalt || (h.arr c).disabling || (h.arr c).resetting || (h.core c).inReset

/-- A stop request of Table 3-8 holds new passes: abort, throttle, debug halt, disable, core reset, or the scrub. -/
def arrHeld (h : Hw) (c : Nat) : Bool :=
  h.arrStop c || h.on F.CR_ARR_STATUS_SCRUB c || h.on F.CR_MM_STATUS_INIT c || !h.on F.CR_ARR_CTRL_ENABLE c

/-- A pass's lines are neither SEALED nor about to be sealed by a pass in flight (R73). -/
def linesFree (h : Hw) (c : Nat) (p : ArrPass) : Bool :=
  let a := h.arr c
  let rows := h.build.arrayRows
  (passLines rows p).all (fun l => (a.line rows p.tile l).state != 2 &&
    !(a.passes.any (fun q => q.started.isSome && q.sealing && q.tile == p.tile && (passLines rows q).contains l)))

/-- The array's stop has ended when no pass is in flight: the wait is recorded (R81), and a disable, a core reset or an abort
leaves the array at rest. -/
def arrStopped (h : Hw) (c : Nat) : Hw :=
  let a := h.arr c
  if a.passes.any (·.started.isSome) then h
  else match a.stopTick with
    | none => h
    | some t =>
      let h := h.put F.CR_ARR_STOPMAX_MAX (max (h.get F.CR_ARR_STOPMAX_MAX c) (min 65535 ((h.ticks - t) / 4))) c
      h.onArr c (fun a => { a with stopTick := none, disabling := false, discard := false, resetting := false })

/-- A stop request arrives (Table 3-8): passes not started are dropped when the stop ends the work; those in flight run to
their end, their shadow lines committed or discarded. -/
def stopArray (h : Hw) (c : Nat) (drop discard : Bool) : Hw :=
  let h := h.onArr c (fun a => { a with
    stopTick := some (a.stopTick.getD h.ticks), discard := a.discard || discard,
    passes := if drop then a.passes.filter (·.started.isSome) else a.passes,
    loads := if drop then a.loads.filter (·.started.isSome) else a.loads })
  h.arrStopped c

/-- A check of the array fails (R82): KIND 1 to 3 raise DIN_PE_CHECK, 4 and 5 DIN_UNCORRECTABLE; the first position is kept. -/
def arrayFault (h : Hw) (c kind row col : Nat) : Hw :=
  let h := if h.on F.CR_ARR_STATUS_FAULT c then h
    else h.wr .CR_ARR_FAULT c (row % 1024 + col % 64 * 2 ^ 10 + kind % 8 * 2 ^ 16)
  let h := h.setFlag F.CR_ARR_STATUS_FAULT c
  let code := if kind ≤ 3 then Rc.DIN_PE_CHECK else Rc.DIN_UNCORRECTABLE
  let owner := match (h.arr c).passes.find? (·.started.isSome) with
    | some p => p.owner
    | none => (h.segOf c).1
  h.raise code { h.arrSrc c with core := h.logicalOf c, context := owner }

/-- The uncorrectable words of a core's matrix memory in lines [line, line + n) of banks [bank, bank + k), as (bank − first, line − first, word). -/
def badLines (h : Hw) (c bank k line n : Nat) : List (Nat × Nat × Nat) :=
  (h.badWords.filter (fun x => x.1 / 2 ^ 32 == c)).filterMap (fun x =>
    let wh := x.1 % 2 ^ 32
    let b := wh / 2 ^ 20
    let l := wh % 2 ^ 20
    if bank ≤ b && b < bank + k && line ≤ l && l < line + n then some (b - bank, l - line, wh) else none)

/-- The reads of uncorrectable words of a pass that begins to feed: group g reads line t of its bank in pass cycle 32g + t, and a read takes two
cycles (R68, R82). -/
def passBadReads (h : Hw) (c : Nat) (p : ArrPass) : List (Nat × Nat × Nat × Nat × Nat) :=
  let n := p.len + 31
  (h.badLines c p.bankA (h.build.arrayRows / 32) p.lineA n).map (fun x => (h.after (32 * x.1 + x.2.1 + 1), 4, 32 * x.1, 0, x.2.2)) ++
    (if p.mode == 2 then (h.badLines c p.bankB (h.build.arrayCols / 32) p.lineB n).map (fun x => (h.after (32 * x.1 + x.2.1 + 1), 4, 0, 32 * x.1, x.2.2))
     else [])

/-- Those of a load that starts: row r is read in load cycle r (R65, R82). -/
def loadBadReads (h : Hw) (c : Nat) (l : ArrLoad) : List (Nat × Nat × Nat × Nat × Nat) :=
  let fs := loadFmts l
  let w := peBits ((classOf fs.1 fs.2).getD (1, false)).1 l.fmt
  if l.mode == 2 then []
  else (h.badLines c l.bank (h.stationBanks w) l.line l.kRows).map (fun x => (h.after (x.2.1 + 1), 5, x.2.1, 512 * x.1 / w, x.2.2))

/-- Reads of uncorrectable words that have completed raise DIN_UNCORRECTABLE, each as of its cycle (R82). -/
def settleReads (h : Hw) (c : Nat) : Hw :=
  let a := h.arr c
  if a.badReads.isEmpty then h
  else
    let due := (a.badReads.filter (fun x => x.1 ≤ h.ticks)).mergeSort (fun x y => x.1 ≤ y.1)
    let h := h.onArr c (fun a => { a with badReads := a.badReads.filter (fun x => h.ticks < x.1) })
    due.foldl (fun h x =>
      { ({ h with ticks := x.1 }.uncorrectable c 0 x.2.2.2.2).arrayFault c x.2.1 x.2.2.1 x.2.2.2.1 with ticks := h.ticks }) h

/-- Those of every array. -/
def settleAllReads (h : Hw) : Hw := (h.cores.map (·.1)).foldl settleReads h

/-! Events. -/

/-- Loads that have left flight are forgotten. -/
def pruneLoads (h : Hw) (c : Nat) : Hw :=
  h.onArr c (fun a => { a with loads := a.loads.filter (fun l => match l.started with
    | none => true
    | some t => h.ticks < t + 4 * (h.build.arrayRows + 2)) })

/-- The first tick at which the array can start another load: the end of the load before it, and F′ + 2 (R65, R66). -/
def loadFree (h : Hw) (c : Nat) : Nat :=
  let a := h.arr c
  max a.loadEnd (match a.lastSwap with | some f => f + 8 | none => 0)

/-- A load starts: its bank is filled (R65). -/
def beginLoad (h : Hw) (m : Mem) (c : Nat) (l : ArrLoad) (later : List ArrLoad) : Hw :=
  let bank := loadedBank m h.build c (h.arr c) l
  let bad := h.loadBadReads c l
  (h.weighLoad l).onArr c (fun a => { a with
    badReads := a.badReads ++ bad, loads := a.loads.filter (·.started.isSome) ++ { l with started := some h.ticks } :: later,
    standby := bank, standbyReady := true, loadEnd := h.ticks + 4 * h.build.arrayRows })

/-- The queued load in front begins (R65, R66), once the standby bank's load has been swapped in. A chained mode-O load waits for row 0 of
the pass before it (R118). -/
def loadStart (h : Hw) (m : Mem) (c : Nat) : Hw :=
  let a := h.arr c
  match a.loads.filter (·.started.isNone) with
  | [] => h
  | l :: rest =>
    if h.arrHeld c || a.standbyReady then h
    else
      let chained := match a.lastFeed with
        | some (f, n) => if l.mode == 2 && l.accumulate then f + 4 * (n + 70) else 0
        | none => 0
      let h' := h.elapse (max chained (h.loadFree c))
      if h'.beatOver then h else h'.beginLoad m c l rest

/-- The phase tag of the logical core that a physical core serves. -/
def coreTag (h : Hw) (m : Mem) (c : Nat) : Nat := match h.logicalOf c with
  | some n => h.tag m n
  | none => 0

/-- The first tick at which the array can take another stream (R71). -/
def feedFree (h : Hw) (c : Nat) : Nat := match (h.arr c).lastFeed with | some (f, n) => f + 4 * n | none => 0

/-- A pass begins to feed. A swapping pass makes the standby bank active (R66). -/
def beginPass (h : Hw) (m : Mem) (c : Nat) (p : ArrPass) (later : List ArrPass) : Hw :=
  let a := h.arr c
  let bank := if p.swap then a.standby else a.active
  let p' := { p with started := some h.ticks, out := passOut m h.build c bank p, colSum := bank.colSum }
  let bad := h.passBadReads c p
  ((h.weighPass p).onArr c (fun a => { a with
    badReads := a.badReads ++ bad, active := bank, standby := if p.swap then a.active else a.standby, standbyReady := !p.swap && a.standbyReady,
    lastSwap := if p.swap then some h.ticks else a.lastSwap, lastFeed := some (h.ticks, p.len),
    passes := a.passes.filter (·.started.isSome) ++ p' :: later })).pruneLoads c

/-- The array does not hold a pass: no stop request, a Compute beat, its lines free (R20, R73, Table 3-8). -/
def passFree (h : Hw) (m : Mem) (c : Nat) (p : ArrPass) : Bool := !h.arrHeld c && h.coreTag m c == 2 && h.linesFree c p

/-- The first queued pass begins to feed (R20, R66, R71, R73): its load has started, the preceding pass has fed its elements, its lines are
free and the beat is tagged Compute. -/
def feedStart (h : Hw) (m : Mem) (c : Nat) : Hw :=
  let a := h.arr c
  match a.passes.filter (·.started.isNone) with
  | [] => h
  | p :: rest =>
    let h' := h.elapse (h.feedFree c)
    if h'.beatOver || !h.passFree m c p || (p.swap && !a.standbyReady) then h else h'.beginPass m c p rest

/-- The oldest pass in flight commits at the end of cycle ARRAY_ROWS + 70 + L after its first feed (R70, R74): its shadow lines replace the
tile's lines, or are discarded after an abort, which takes precedence in that cycle. -/
def passCommit (h : Hw) (c : Nat) : Hw :=
  match (h.arr c).passes with
  | [] => h
  | p :: rest =>
    match p.started with
    | none => h
    | some t =>
      let stop := t + 4 * (h.build.arrayRows + 71 + p.len)
      let h := (h.elapse (stop - 1)).settleReads c
      let a := h.arr c
      let h := h.onArr c (fun a => { a with fedBanks := a.fedBanks.filter (fun x => h.ticks < x.2.2) ++ (passBanks h.build p).map (fun x => (x.1, x.2, stop)) })
      let h :=
        if a.discard || h.ab.on then h.onArr c (fun a => { a with passes := rest })
        else
          let h := h.onArr c (fun a => { a.applyPass h.build p with passes := rest })
          ((h.weighCommit p).inc F.CR_ARR_PASSES_COUNT 1 c).event c 0x02 1
      h.arrStopped c

/-- Every SEALED line is read and discarded (R345). -/
def flushSealed (h : Hw) (c : Nat) : Hw :=
  h.onArr c (fun a => { a with lines := Tab.mapAll a.lines {} (fun _ l => if l.state == 2 then {} else l) })

/-! Registers. -/

/-- The bypass entries are consistent (CFG_ARR_SPARE_MAP). -/
def spareMapOk (h : Hw) (c : Nat) : Bool :=
  let v0 := h.on F.CR_ARR_SPARE_VALID0 c
  let v1 := h.on F.CR_ARR_SPARE_VALID1 c
  let r0 := h.get F.CR_ARR_SPARE_ROW0 c
  let r1 := h.get F.CR_ARR_SPARE_ROW1 c
  let n := h.build.arrayRows
  (!v0 || r0 ≤ n) && (!v1 || r1 ≤ n) && (!(v0 && v1) || r0 != r1) &&
  (!(v0 && r0 == n) || (v1 && r1 < n)) && (!(v1 && r1 == n) || (v0 && r0 < n))

/-- Every valid bypass entry reads VERIFIED (CFG_ARR_SPARE_UNVERIFIED). -/
def spareVerified (h : Hw) (c : Nat) : Bool :=
  (!h.on F.CR_ARR_SPARE_VALID0 c || h.on F.CR_ARR_SPARE_VERIFIED0 c) && (!h.on F.CR_ARR_SPARE_VALID1 c || h.on F.CR_ARR_SPARE_VERIFIED1 c)

/-- A write of CR_ARR_CTRL (R84, R85, R404): TREE only while ENABLE is 0; setting ENABLE runs Table 3-9 and starts the scrub;
clearing it stops the array with the shadow lines committed. -/
def writeArrCtrl (h : Hw) (c v : Nat) : Hw :=
  let en := h.on F.CR_ARR_CTRL_ENABLE c
  if en && bit 1 v != h.on F.CR_ARR_CTRL_TREE c then h.arrRefuse c Rc.CFG_CONFLICT
  else
    let h := h.put F.CR_ARR_CTRL_TREE (flag (bit 1 v)) c
    if !en && bit 0 v then
      if !h.spareMapOk c then h.arrRefuse c Rc.CFG_ARR_SPARE_MAP
      else if !h.spareVerified c then h.arrRefuse c Rc.CFG_ARR_SPARE_UNVERIFIED
      else if h.on F.CR_ARR_CTRL_TREE c then h.arrRefuse c Rc.CFG_ARR_TREE_SET
      else
        let h := (h.put F.CR_ARR_CTRL_ENABLE 1 c).put F.CR_ARR_STATUS_SCRUB 1 c
        let h := h.put F.CR_ARR_STATUS_BYPASSED (h.get F.CR_ARR_SPARE_VALID0 c + h.get F.CR_ARR_SPARE_VALID1 c) c
        let h := h.put F.CR_ARR_STOPMAX_MAX 0 c
        h.onArr c (fun _ => { scrubDue := some (h.after (h.build.accTiles * h.build.arrayRows)) })
    else if en && !bit 0 v then
      let h := h.put F.CR_ARR_CTRL_ENABLE 0 c
      (h.onArr c (fun a => { a with disabling := true })).stopArray c true false
    else h

/-- The scrub ends (R84). -/
def scrubDone (h : Hw) (c : Nat) : Hw :=
  match (h.arr c).scrubDue with
  | none => h
  | some t => ((h.elapse t).onArr c (fun a => { a with scrubDue := none })).put F.CR_ARR_STATUS_SCRUB 0 c

/-- A write of CR_ARR_SPARE (R78): any accepted write clears both VERIFIED bits. -/
def writeArrSpare (h : Hw) (c v : Nat) : Hw :=
  if h.on F.CR_ARR_CTRL_ENABLE c then h.arrRefuse c Rc.CFG_CONFLICT
  else h.wr .CR_ARR_SPARE c (bits 0 11 v + bits 16 11 v * 2 ^ 16)

/-- A write of CR_ARR_TREE (R80): ROW and OP, the clear of DONE, and START, which begins a tree-mode operation. -/
def writeArrTree (h : Hw) (c v : Nat) : Hw :=
  let op := bits 10 2 v
  let row := bits 0 10 v
  if bit 12 v && (h.on F.CR_ARR_CTRL_ENABLE c || !h.on F.CR_ARR_CTRL_TREE c) then h.arrRefuse c Rc.CFG_CONFLICT
  else if op == 3 || (op == 0 && row > h.build.arrayRows + 1) then h.arrRefuse c Rc.CFG_RANGE
  else
    let h := (h.put F.CR_ARR_TREE_ROW row c).put F.CR_ARR_TREE_OP op c
    let h := applyIf (bit 13 v) (fun h => h.put F.CR_ARR_TREE_DONE 0 c) h
    let h := applyIf (bit 15 v) (fun h => h.put F.CR_ARR_TREE_SET_DURING_CLEAR 0 c) h
    if bit 12 v && !h.on F.CR_ARR_TREE_START c then
      (h.put F.CR_ARR_TREE_START 1 c).onArr c (fun a => { a with treeDue := some (h.after 16398) })
    else h

/-- A tree-mode operation ends (R79, R80): DONE and PASS are set; OP 10b that agrees verifies the mapping. -/
def treeDone (h : Hw) (c : Nat) (ok : Bool) : Hw :=
  match (h.arr c).treeDue with
  | none => h
  | some t =>
    let h := (h.elapse t).onArr c (fun a => { a with treeDue := none })
    let h := ((h.put F.CR_ARR_TREE_START 0 c).setFlag F.CR_ARR_TREE_DONE c).put F.CR_ARR_TREE_PASS (flag ok) c
    if ok && h.get F.CR_ARR_TREE_OP c == 2 then (h.put F.CR_ARR_SPARE_VERIFIED0 1 c).put F.CR_ARR_SPARE_VERIFIED1 1 c else h

end Hw

end Sys2Proof.Machine
end

