-- ==== Sys2Proof/Machine/Drain.lean ====
section
/-! DEFINITION. The drain unit and the vector unit: scales, row functions, conversion, vector operations (R91 to R107, R131, R132,
R165 to R169). -/

namespace Sys2Proof.Machine

/-- Words of a byte string, 4 bytes each. -/
def words (bs : List Byte) : List Nat := (List.range (bs.length / 4)).map (fun i => leAt (4 * i) 4 bs)

/-- Bytes of 32-bit words. -/
def wordBytes (ws : List Nat) : List Byte := (ws.map (leBytes 4)).flatten

def f32Chunk (ws : List Nat) : Chunk := { kind := 0, bytes := wordBytes ws }

/-- An F32 code rounded to BF16 (R95 step 4). -/
def toBf16 (x : Nat) : Nat := FloatFmt.bf16.encode false (f32Val x)

/-- A BF16 code widened exactly to F32 (R168). -/
def ofBf16 (x : Nat) : Nat := FloatFmt.f32.encode true (FloatFmt.bf16.decode x)

/-- A chunk of BF16 lanes. -/
def bf16Chunk (ws : List Nat) : Chunk := { kind := 2, fmt := 5, bytes := (ws.map (fun x => leBytes 2 (toBf16 x))).flatten }

/-! Scale records (R92 to R94). -/

/-- A scale record as read: the scale as an exact value, and the zero point of KIND 3. -/
structure Scale where
  val : Val
  zp : Option Nat := none
  deriving DecidableEq, Repr

/-- Size of the record of a KIND, with the record size of KIND 4 where the reader can use one (Table 4-3). -/
def recordSize (kind : Nat) (seg : Option Nat) : Nat := if kind == 3 then 8 else if kind == 4 then 4 + 4 * ceilDiv (seg.getD 0) 8 else 4

/-- The scale of row r of the tensor whose header is at an address, or the code that its record raises (R93, R94). `seg` is the number
of segments of a KIND 4 record where the reader can use one; `rd` reads bytes of the tensor's space, where that is permitted. -/
def readScale (rd : Nat → Nat → Option (List Byte)) (hdr r : Nat) (seg : Option Nat) : Except Nat Scale :=
  match rd hdr 16 with
  | none => .error Rc.SEC_HOOP_VIOLATION
  | some hd =>
    let kind := leAt 0 1 hd
    let flags := leAt 1 1 hd
    let tsCode := leAt 4 4 hd
    let ts := FloatFmt.f32.decode tsCode
    let bad := kind == 0 || kind > 4 || (flags != 0 && !(flags == 1 && kind == 4)) || (kind == 4 && seg.isNone)
    let tsBad := kind == 1 && (ts.isNan || ts.isInf || ts.isNeg || tsCode < 0x00800000)
    if bad || tsBad then .error Rc.DIN_SCALE_INVALID
    else match rd (hdr + 16 + r * recordSize kind seg) (recordSize kind seg) with
      | none => .error Rc.SEC_HOOP_VIOLATION
      | some rec0 =>
        if leAt 0 2 rec0 != (leAt 2 2 hd + r) % 65536 then .error Rc.DIN_SCALE_SKEW
        else if kind == 1 then
          let u := leAt 2 1 rec0
          if u ≥ 0x7F then .error Rc.DIN_SCALE_INVALID else .ok { val := Val.mul (FloatFmt.ue4m3.decode u) ts }
        else
          let s := leAt 2 2 rec0
          let v := FloatFmt.bf16.decode s
          if v.isNan || v.isInf || bit 15 s then .error Rc.DIN_SCALE_INVALID
          else .ok { val := v, zp := if kind == 3 then some (leAt 4 1 rec0) else none }

/-- Shift of each segment of the KIND 4 record of row r (Table 4-3). -/
def readShifts (rd : Nat → Nat → Option (List Byte)) (hdr r nseg : Nat) : List Nat :=
  let f := leNat ((rd (hdr + 16 + r * recordSize 4 (some nseg) + 4) (4 * ceilDiv nseg 8)).getD [])
  (List.range nseg).map (fun g => bits (4 * g) 4 f)

/-! Row functions (Table 5-8). -/

/-- λ = log2 e rounded to F32, and the constants of GELU (R131). -/
def lambdaF32 : Nat := 0x3FB8AA3B
def geluA : Nat := 0x3D372713
def geluB : Nat := 0x3FCC4229

def sigmoid (x : Nat) : Nat := F32.rcp (F32.add F32.one (F32.exp2 (F32.neg (F32.mul x lambdaF32))))

def silu (x : Nat) : Nat := F32.mul x (sigmoid x)

/-- An element-wise row function; p0 and p1 are its parameters and t its operand element. -/
def rowFn (rfn x p0 p1 t : Nat) : Nat :=
  match rfn with
  | 0x01 => if F32.isNan x then F32.nan else if Val.lt Val.zero (f32Val x) then x else 0
  | 0x02 => if F32.isNan x then F32.nan else if (f32Val x).lt Val.zero then F32.mul p0 x else x
  | 0x03 => F32.add x t
  | 0x04 => F32.min (F32.max x p0) p1
  | 0x10 => sigmoid x
  | 0x11 => silu x
  | 0x12 => F32.fma 0x40000000 (sigmoid (F32.mul 0x40000000 x)) (F32.neg F32.one)
  | 0x13 =>
    let u := F32.fma (F32.mul geluA (F32.mul x x)) x x
    F32.mul x (sigmoid (F32.mul geluB u))
  | 0x14 => F32.exp2 x
  | 0x15 => F32.mul x t
  | 0x16 => F32.add x t
  | _ => x

/-- The row sum of R132: per lane over the chunks in ascending order, then lanes pairwise up the tree. -/
def lanePairs : Nat → List Nat → Nat
  | 0, xs => xs.getD 0 0
  | _ + 1, [] => 0
  | _ + 1, [x] => x
  | n + 1, xs => lanePairs n ((List.range (ceilDiv xs.length 2)).map (fun i =>
      if 2 * i + 1 < xs.length then F32.add (xs.getD (2 * i) 0) (xs.getD (2 * i + 1) 0) else xs.getD (2 * i) 0))

def rowSum (lanes : Nat) (xs : List Nat) : Nat :=
  let per := (List.range lanes).map (fun j => (List.range (ceilDiv xs.length lanes)).foldl (fun s k =>
    if k * lanes + j < xs.length then (if k == 0 then xs.getD j 0 else F32.add s (xs.getD (k * lanes + j) 0)) else s) 0)
  lanePairs 8 per

/-- A row-wise function or the gated product over a whole row (Table 5-8): γ and β are operand rows. -/
def rowWise (lanes rfn p0 : Nat) (gamma beta xs : List Nat) : List Nat :=
  let n := xs.length
  let rn := F32.rcp (F32.ofNat n)
  match rfn with
  | 0x17 => (List.range (n / 2)).map (fun j => F32.mul (xs.getD j 0) (silu (xs.getD (j + n / 2) 0)))
  | 0x18 =>
    let m := xs.foldl F32.max (xs.getD 0 0)
    let es := xs.map (fun x => F32.exp2 (F32.mul (F32.sub x m) lambdaF32))
    let r := F32.rcp (rowSum lanes es)
    es.map (fun e => F32.mul e r)
  | 0x19 =>
    let q := F32.mul (rowSum lanes (xs.map (fun x => F32.mul x x))) rn
    let r := F32.rsqrt (F32.add q p0)
    (List.range n).map (fun j => F32.mul (F32.mul (xs.getD j 0) r) (gamma.getD j 0))
  | 0x1A =>
    let mu := F32.mul (rowSum lanes xs) rn
    let d := xs.map (fun x => F32.sub x mu)
    let v := F32.mul (rowSum lanes (d.map (fun x => F32.mul x x))) rn
    let r := F32.rsqrt (F32.add v p0)
    (List.range n).map (fun j => F32.add (F32.mul (F32.mul (d.getD j 0) r) (gamma.getD j 0)) (beta.getD j 0))
  | _ => xs

/-! The drain unit. -/

namespace Hw

def drnSrc (h : Hw) (c : Nat) : Src := { h.coreSrc c 0xB1 (some F.CR_DRN_STATUS_REASON) with core := h.logicalOf c }

/-- Byte address and size of the row buffer in matrix memory (R97). -/
def rowBufBase (h : Hw) (c : Nat) : Nat := h.get F.CR_DRN_CTRL_RB_BANK0 c * bankBytes
def rowBufSize (h : Hw) (c : Nat) : Nat := h.get F.CR_DRN_CTRL_RB_BANKS c * bankBytes

def onDrn (h : Hw) (c : Nat) (f : List DrainOp → List DrainOp) : Hw := h.onCore c (fun k => { k with drn := f k.drn })

/-- What one drained line weighs, a gathered line stored, and a row converted (Table 16-2; log entry 18). -/
def weighLine (h : Hw) (op : DrainOp) : Hw :=
  let h := (h.weigh op.owner 6 1).weigh op.owner 7 1
  if op.gather then h.weigh op.owner 5 (h.build.arrayCols / 16) else h
def weighRow (h : Hw) (op : DrainOp) : Hw := (h.weigh op.owner 7 (ceilDiv op.n h.build.arrayCols)).weigh op.owner 5 (ceilDiv (4 * op.n) 64)
def weighVec (h : Hw) (op : VecOp) : Hw :=
  let h := h.weigh op.owner 8 1
  if op.op == 0 then h else h.weigh op.owner 5 (h.build.arrayCols / 16)

def onVec (h : Hw) (c : Nat) (f : List VecOp → List VecOp) : Hw := h.onCore c (fun k => { k with vec := f k.vec })

/-- Count events of the drain unit, with their flag (R106). -/
def countDrain (h : Hw) (c : Nat) (ctr flagF : Fld) (n : Nat) : Hw := if n == 0 then h else (h.inc ctr n c).setFlag flagF c

end Hw

/-- The scale of a line or column for a drain: 1 where the operand carries none. -/
def scaleOr1 (rd : Nat → Nat → Option (List Byte)) (hdr : Option Nat) (r : Nat) (seg : Option Nat) : Except Nat Scale :=
  match hdr with
  | none => .ok { val := Val.one }
  | some a => readScale rd a r seg

/-- One element of R95 steps 1 and 2. -/
def drainElem (isInt : Bool) (code : Nat) (zp : Option Nat) (sigma : Int) (s t : Val) : Nat :=
  let x : Val := if isInt then Val.ofInt (i32Val code - (match zp with | some z => (z : Int) * sigma | none => 0)) else f32Val code
  roundR90 (Val.mul (Val.mul x s) t)

/-- The columns of a line that a command writes. -/
def drainCols (b : Build) (op : DrainOp) : List Nat :=
  if op.walker then List.range op.validCols
  else if op.gather then (List.range b.arrayCols).filter (fun j => op.j0 + j < op.n)
  else List.range b.arrayCols

/-- Steps 1 and 2 of R95 over the columns of a line, or the first code raised. -/
def drainLine (rd : Nat → Nat → Option (List Byte)) (b : Build) (op : DrainOp) (line : AccLine) (sums : List Int) (row : Nat) : Except Nat (List Nat) :=
  let mid (r : Nat) (other : Except Nat Scale) : Except Nat Scale := match op.midScales[r]? with
    | some s => .ok { val := FloatFmt.bf16.decode s }
    | none => other
  let lineScale : Except Nat Scale := if op.across then scaleOr1 rd op.lscale row op.lineSeg else mid row (scaleOr1 rd op.lscale row op.lineSeg)
  match lineScale with
  | .error e => .error e
  | .ok ls =>
    let scales := (drainCols b op).map (fun j =>
      let s := scaleOr1 rd op.cscale (op.j0 + j) op.colSeg
      if op.across then mid (op.j0 + j) s else s)
    match scales.findSome? (fun x => match x with | .error e => some e | .ok _ => none) with
    | some e => .error e
    | none =>
      .ok ((List.range b.arrayCols).map (fun j =>
        let cs := match scales.getD j (.ok { val := Val.one }) with | .ok s => s.val | .error _ => Val.one
        drainElem line.int ((lineVals b.arrayCols line).getD j 0) ls.zp (sums.getD j 0) ls.val cs))

/-- Row and column of C of column j of a line. -/
def DrainOp.place (op : DrainOp) (l j : Nat) : Nat × Nat := if op.across then (op.j0 + j, op.i0 + l) else (op.i0 + l, op.j0 + j)

/-- An element of a macro's operand tensor as F32: a vector has one row (R131). -/
def opdElem (rd : Nat → Nat → Option (List Byte)) (opd : List Byte) (r col : Nat) : Nat :=
  let bf := leAt 28 1 opd == 5
  let a := leAt 0 8 opd + (if leAt 16 4 opd ≤ r then 0 else r) * leAt 24 4 opd + col * (if bf then 2 else 4)
  let x := leNat ((rd a (if bf then 2 else 4)).getD [])
  if bf then ofBf16 x else x

/-- Free parameters of a row function that a direct DRAIN names: it has no parameter fields and pops no operand, and the spec does
not say where they come from (log entry 12). -/
def freeParam (draws i : Nat) : Nat := Config.freeNat (draws + i) % 2 ^ 32

/-- Results after the row function leave the drain unit: to the row buffer with GATHER, else to DEST (R95 step 4, R97, R165). -/
def deliverLine (w : Work) (c : Nat) (op : DrainOp) (pos : Nat) (ys : List Nat) : Work :=
  if op.gather then
    let base := w.hw.rowBufBase c + op.rowbuf * 64
    if op.walker then
      (((List.range op.validCols).foldl (fun w j =>
        let p := op.place pos j
        w.mmStore c (base + ((p.1 - op.band0) * op.n + p.2) * 4) (leBytes 4 (ys.getD j 0))) w)).onHw (fun h => h.event c 0x03 1)
    else
      let addr := base + ((op.line0 + pos) * op.n + op.j0) * 4
      (w.mmStore c addr (wordBytes (ys.take (min (op.n - op.j0) ys.length)))).onHw (fun h => h.event c 0x03 1)
  else
    let ys := if op.walker then ys.take op.validCols else ys
    w.onHw (fun h => (h.push c op.dest (if op.outFmt == 5 then bf16Chunk ys else f32Chunk ys)).event c 0x03 1)

/-- What a line of a DRAIN reads of matrix memory: the headers and records of its scale tensors. -/
def drainSpans (w : Work) (c : Nat) (op : DrainOp) : List (Nat × Nat) :=
  let one (hdr first n : Nat) : List (Nat × Nat) :=
    let k := recordSize (w.mem.le (Area.matrix c) hdr 1) none
    [(hdr, 16), (hdr + 16 + first * k, n * k)]
  if op.farHoop.isSome || op.raw then []
  else (match op.lscale with | some a => one a (op.i0 + op.pos) 1 | none => []) ++ (match op.cscale with | some a => one a op.j0 w.hw.build.arrayCols | none => [])

/-- What a row of a conversion reads of matrix memory: the gathered row and the header of its scale tensor. -/
def convertSpans (w : Work) (c : Nat) (op : DrainOp) : List (Nat × Nat) :=
  (w.hw.rowBufBase c + op.rowbuf * 64 + (op.line0 + op.pos) * op.n * 4, 4 * (if op.walker then op.validCols else op.n)) ::
    (if op.farHoop.isSome || op.fmt == 5 || op.fmt == 6 then [] else [(op.outHdr, 16)])

/-- One line of a DRAIN: read, scaled, passed through the row function, delivered; the line becomes EMPTY (R72, R95, R165). -/
def drainOneLine (w : Work) (c : Nat) (op : DrainOp) : Option Work :=
  let h := w.hw
  let b := h.build
  let l := op.line0 + op.pos
  let line := (h.arr c).line b.arrayRows op.tile l
  let q := if 0x20 ≤ op.rfn then 8 else op.dest
  if line.state != 2 || (!(op.gather && op.rfn < 0x20) && !h.queueRoom c q) || h.ab.on then none
  else
    let op' := { op with pos := op.pos + 1 }
    let sat := if line.int then (line.vals.filter (fun x => x == 0x7FFFFFFF || x == 0x80000000)).length else 0
    let h := h.countDrain c F.CR_DRN_SAT_COUNT F.CR_DRN_STATUS_SATURATED sat
    let h := h.onArr c (fun a => { a with lines := Tab.erase a.lines (op.tile * b.arrayRows + l) })
    let h := (h.weighLine op).onDrn c (fun xs => op' :: xs.drop 1)
    let w := w.onHw (fun _ => h)
    if op.walker && (op.validCols == 0 || op.validLines ≤ op.pos) then some w
    else if op.raw then
      let vs := lineVals b.arrayCols line
      let vs := if op.walker then vs.take op.validCols else vs
      some (w.onHw (fun h => (h.push c op.dest { kind := if line.int then 1 else 0, bytes := wordBytes vs }).event c 0x03 1))
    else match drainLine (spaceBytes h w.mem c op.farHoop) b op line (Tab.getD (h.arr c).colSums op.tile []) (op.i0 + op.pos) with
      | .error e => some (w.raise e (h.drnSrc c))
      | .ok ys =>
        if 0x20 ≤ op.rfn then
          some (w.onHw (fun h => (h.push c 8 { f32Chunk ys with fmt := op.rfn - 0x20 }).onDrn c (fun xs => { op' with inTambour := op.inTambour + 1 } :: xs.drop 1)))
        else
          let free := !op.walker && (op.rfn == 2 || op.rfn == 3 || op.rfn == 4 || op.rfn == 0x15 || op.rfn == 0x16)
          let rd := spaceBytes h w.mem c (if bit 0 (leAt 31 1 op.opd) then none else op.farHoop)
          let zs := (List.range ys.length).map (fun j =>
            if op.walker then rowFn op.rfn (ys.getD j 0) (op.params.getD 0 0) (op.params.getD 1 0)
              (if op.opd.isEmpty || j ≥ op.validCols then 0 else opdElem rd op.opd (op.place op.pos j).1 (op.place op.pos j).2)
            else rowFn op.rfn (ys.getD j 0) (freeParam h.draws 0) (freeParam h.draws 1) (freeParam h.draws (2 + j)))
          some ((deliverLine w c op op.pos zs).onHw (fun h => if free then h.draw (2 + ys.length) else h))

/-- A result that the core tambour has returned through T1 goes on as a drained line (R131, R238). -/
def drainFromTambour (w : Work) (c : Nat) (op : DrainOp) : Option Work :=
  match w.hw.queue c 9 with
  | [] => none
  | x :: rest =>
    if op.inTambour == 0 || (!op.gather && !w.hw.queueRoom c op.dest) then none
    else
      let l := op.pos - op.inTambour
      let w := w.onHw (fun h => (h.setQueue c 9 rest).onDrn c (fun xs => { op with inTambour := op.inTambour - 1 } :: xs.drop 1))
      if x.kind != 0 then some (w.onHw (fun h => h.halt c op.ringPos 0x22 Rc.PRG_QUEUE_MISMATCH))
      else some (deliverLine w c op l (words x.bytes))

/-- The result of converting one row (R98 to R102): element codes, record bytes, clipped elements, non-finite inputs, and whether
the scale clipped. -/
structure Converted where
  codes : List Nat
  record : List Byte
  clips : Nat
  nonfin : Nat
  scaleClip : Bool
  deriving DecidableEq, Repr

/-- Convert a row of F32 values to a narrow format (R98 to R102). `t` is the destination's TENSOR_SCALE. -/
def convertRow (fmt zp : Nat) (dataClass segmented : Bool) (t : Val) (tag : Nat) (xs : List Nat) : Converted :=
  let m := rowMax xs
  let q := qMax fmt zp
  let ds := dataScale m q t
  let code := if dataClass then ds.1 else streamScale m q
  let s := if dataClass then Val.mul (FloatFmt.ue4m3.decode code) t else FloatFmt.bf16.decode code
  let flushed := s.isZero
  let nseg := if segmented then ceilDiv xs.length 256 else 0
  let shifts := (List.range nseg).map (fun g => segShift (rowMax ((xs.drop (256 * g)).take 256)) m)
  let elems := (List.range xs.length).map (fun k =>
    if flushed then (if fmt == 10 || fmt == 11 then zp else 0, false)
    else convertElem fmt zp (if segmented then Val.mul s (.num false 1 (-((shifts.getD (k / 256) 0 : Nat) : Int))) else s) (xs.getD k 0))
  let kind3 := fmt == 10 || fmt == 11
  let rec0 := leBytes 2 tag ++ (if dataClass then [BitVec.ofNat 8 code, 0#8] else leBytes 2 code)
  let rec1 := if dataClass then rec0
    else if kind3 then rec0 ++ [BitVec.ofNat 8 zp, 0#8, 0#8, 0#8]
    else if segmented then rec0 ++ leBytes (4 * ceilDiv nseg 8) (shifts.foldr (fun k a => a * 16 + k) 0)
    else rec0
  { codes := elems.map (·.1), record := rec1, clips := (elems.filter (·.2)).length,
    nonfin := (xs.filter (fun x => (f32Val x).isNan || (f32Val x).isInf)).length, scaleClip := dataClass && ds.2 }

/-- PACKED chunks of a byte string, one chunk of ARRAY_COLS × 4 bytes at a time. -/
def packedChunks (b : Build) (fmt : Nat) (bs : List Byte) : List Chunk :=
  let n := 4 * b.arrayCols
  (List.range (ceilDiv bs.length n)).map (fun i => { kind := 2, fmt := fmt, bytes := (bs.drop (i * n)).take n })

/-- Chunks of F32 or BF16 lanes. -/
def floatChunks (b : Build) (bf : Bool) (xs : List Nat) : List Chunk :=
  (List.range (ceilDiv xs.length b.arrayCols)).map (fun i =>
    let ys := (xs.drop (i * b.arrayCols)).take b.arrayCols
    if bf then bf16Chunk ys else f32Chunk ys)

/-- The values of a gathered row, after the row-wise function of a macro (R97, R131, R132). -/
def gatheredRow (w : Work) (c : Nat) (op : DrainOp) : List Nat :=
  let h := w.hw
  let addr := h.rowBufBase c + op.rowbuf * 64 + (op.line0 + op.pos) * op.n * 4
  if op.walker then
    let xs := words (w.mm c addr (4 * op.validCols))
    let rd := spaceBytes h w.mem c (if bit 0 (leAt 31 1 op.opd) then none else op.farHoop)
    let row (r : Nat) : List Nat := if op.opd.isEmpty then [] else (List.range op.validCols).map (opdElem rd op.opd r)
    if op.rfn == 0x19 || op.rfn == 0x1A then rowWise h.build.arrayCols op.rfn (op.params.getD 0 0) (row 0) (row 1) xs
    else if op.rfn == 0x17 || op.rfn == 0x18 then rowWise h.build.arrayCols op.rfn (op.params.getD 0 0) [] [] xs
    else xs
  else words (w.mm c addr (4 * op.n))

/-- One row of a CVT, or of a macro's conversion (R97 to R101, R130, R166). -/
def convertOneRow (w : Work) (c : Nat) (op : DrainOp) : Work :=
  let h := w.hw
  let xs := gatheredRow w c op
  if op.fmt == 5 || op.fmt == 6 then
    w.onHw (fun h => ((h.weighRow op).onDrn c (fun rest => { op with pos := op.pos + 1, wait := floatChunks h.build (op.fmt == 5) xs } :: rest.drop 1)).event c 0x05 1)
  else
    let hd := (spaceBytes h w.mem c op.farHoop op.outHdr 16).getD []
    let tag := (leAt 2 2 hd + op.row0 + op.pos) % 65536
    let t := FloatFmt.f32.decode (leAt 4 4 hd)
    let r := convertRow op.fmt op.zp op.dataClass op.segmented t tag xs
    let chunks := packedChunks h.build op.fmt (packRow op.fmt r.codes) ++ (if op.records then [{ kind := 3, bytes := r.record }] else [])
    w.onHw (fun h =>
      let h := h.countDrain c F.CR_DRN_CLIPS_COUNT F.CR_DRN_STATUS_CLIPPED r.clips
      let h := h.countDrain c F.CR_DRN_NONFIN_COUNT F.CR_DRN_STATUS_NONFINITE r.nonfin
      let h := applyIf r.scaleClip (fun h => h.setFlag F.CR_DRN_STATUS_CLIPPED c) h
      ((h.weighRow op).onDrn c (fun rest => { op with pos := op.pos + 1, wait := chunks } :: rest.drop 1)).event c 0x05 1)

/-- One move of the drain unit: a waiting chunk, a line, a row, or the end of the command in front. -/
def drainStep (c : Nat) (w : Work) : Option Work :=
  match (w.hw.core c).drn with
  | [] => none
  | op :: rest =>
    match op.wait with
    | x :: xs =>
      if w.hw.queueRoom c op.dest then some (w.onHw (fun h => (h.push c op.dest x).onDrn c (fun _ => { op with wait := xs } :: rest))) else none
    | [] =>
      if op.held then none
      else if op.isCvt then
        if op.pos < op.lines then
          match w.hw.badSpans c (convertSpans w c op) with
          | some wh => some (w.onHw (fun h => (h.uncorrectableAt c 0 wh (h.drnSrc c)).onDrn c (fun _ => rest)))
          | none => some (convertOneRow w c op)
        else some (w.onHw (fun h => h.onDrn c (fun _ => rest)))
      else match drainFromTambour w c op with
        | some w' => some w'
        | none =>
          if op.pos < op.lines then
            match w.hw.badSpans c (drainSpans w c op) with
            | some wh => some (w.onHw (fun h => (h.uncorrectableAt c 0 wh (h.drnSrc c)).onDrn c (fun _ => rest)))
            | none => drainOneLine w c op
          else if op.inTambour == 0 then some (w.onHw (fun h => h.onDrn c (fun _ => rest)))
          else none

/-! The vector unit. -/

/-- A vector function on the lanes of its sources (Table 6-10). -/
def vecFn (func a b c : Nat) : Nat :=
  match func with
  | 0x01 => F32.add a b
  | 0x02 => F32.sub a b
  | 0x03 => F32.mul a b
  | 0x04 => F32.fma a b c
  | 0x05 => F32.max a b
  | 0x06 => F32.min a b
  | 0x07 => F32.abs a
  | 0x08 => F32.exp2 a
  | 0x09 => F32.log2 a
  | 0x0A => F32.rcp a
  | 0x0B => F32.sqrt a
  | 0x0C => F32.rsqrt a
  | _ => a

/-- How many sources a vector function takes (Table 6-10); 0 for a reserved code. -/
def vecArity (func : Nat) : Nat :=
  match func with
  | 0x00 => 1 | 0x01 => 2 | 0x02 => 2 | 0x03 => 2 | 0x04 => 3 | 0x05 => 2 | 0x06 => 2 | 0x07 => 1 | 0x08 => 1 | 0x09 => 1
  | 0x0A => 1 | 0x0B => 1 | 0x0C => 1 | 0x10 => 1 | 0x11 => 1
  | _ => 0

/-- The side of a queue end that is popped: the inbound side of a bobbin's end. -/
def popSide (q : Nat) : Nat := if 0x10 ≤ q && q ≤ 0x17 then q + 8 else q

/-- Queue ends that a vector operation pops, as named; each use of an end pops a chunk. -/
def vecSources (op : VecOp) : List Nat :=
  if op.op == 0 then [op.src1, op.src2, op.src3].filter (fun q => q != 0x1E && q != 0x1F)
  else if op.op == 2 then [op.src1]
  else []

/-- Pop one chunk from each named source in order. -/
def popAll (h : Hw) (c : Nat) : List Nat → Option (List (Nat × Chunk) × Hw)
  | [] => some ([], h)
  | q :: qs =>
    match h.queue c (popSide q) with
    | [] => none
    | x :: rest => match popAll (h.setQueue c (popSide q) rest) c qs with
      | some (xs, h') => some ((q, x) :: xs, h')
      | none => none

/-- The lanes of a source: IMM in every lane, the popped chunk of the end, or none. -/
def srcLanes (lanes imm q : Nat) (k : Nat) (popped : List (Nat × Chunk)) : List Nat :=
  if q == 0x1E then List.replicate lanes imm
  else if q == 0x1F then List.replicate lanes 0
  else words ((popped.getD k (0, { kind := 0, bytes := [] })).2.bytes)

/-- Lane results of one chunk of a VOP. -/
def vopLanes (lanes : Nat) (op : VecOp) (popped : List (Nat × Chunk)) : List Nat :=
  let real (q : Nat) : Nat := if q == 0x1E || q == 0x1F then 0 else 1
  let a := srcLanes lanes op.imm op.src1 0 popped
  let b := srcLanes lanes op.imm op.src2 (real op.src1) popped
  let d := srcLanes lanes op.imm op.src3 (real op.src1 + real op.src2) popped
  (List.range lanes).map (fun j => vecFn op.func (a.getD j 0) (b.getD j 0) (d.getD j 0))

/-- One chunk of a vector operation (R148, R167, R168): none when it has to wait. -/
def vecChunk (w : Work) (c : Nat) (op : VecOp) (put : VecOp → Hw → Hw) : Option Work :=
  let h := w.hw
  let lanes := h.build.arrayCols
  let last := op.pos + 1 == op.count
  let op' := { op with pos := op.pos + 1 }
  let reduce := op.op == 0 && (op.func == 0x10 || op.func == 0x11)
  if op.op == 1 then
    let addr := op.addr + op.pos * op.stride
    if !h.queueRoom c op.dest then none
    else match h.badSpans c [(addr, lanes * (if op.bf16 then 2 else 4))] with
    | some wh => some (w.onHw (fun h => put { op with pos := op.count } (h.uncorrectableAt c 0 wh (h.coreSrc c 0xA0 (some F.CR_SEQ_STATUS_REASON)))))
    | none =>
      let x := if op.bf16 then f32Chunk ((List.range lanes).map (fun j => ofBf16 (leAt (2 * j) 2 (w.mm c addr (2 * lanes)))))
        else { kind := 0, bytes := w.mm c addr (4 * lanes) }
      some (w.onHw (fun h => put op' (h.push c op.dest x)))
  else if op.op == 0 && op.dest != 0x1F && (!reduce || last) && !h.queueRoom c op.dest then none
  else match popAll h c (vecSources op) with
    | none => none
    | some (popped, h') =>
      if op.op == 2 then
        let x := (popped.getD 0 (0, { kind := 0, bytes := [] })).2
        let bs := if op.fmt == 1 && x.kind == 0 then ((words x.bytes).map (fun v => leBytes 2 (toBf16 v))).flatten else x.bytes
        let a := op.addr + op.pos * op.stride
        match h.badSpans c (Hw.partWords a bs.length) with
        | some wh => some (w.onHw (fun h => put { op with pos := op.count } (h.uncorrectableAt c 1 wh (h.coreSrc c 0xA0 (some F.CR_SEQ_STATUS_REASON)))))
        | none => some ((w.onHw (fun _ => put op' h')).mmStore c a bs)
      else if popped.any (fun p => p.2.kind != 0) then
        some (w.onHw (fun _ => (put { op with pos := op.count } h').halt c op.ringPos 0x30 Rc.PRG_QUEUE_MISMATCH))
      else if reduce then
        let xs := words ((popped.getD 0 (0, { kind := 0, bytes := [] })).2.bytes)
        let acc := if op.pos == 0 then xs else (List.range lanes).map (fun j =>
          if op.func == 0x10 then F32.add (op.acc.getD j 0) (xs.getD j 0) else F32.max (op.acc.getD j 0) (xs.getD j 0))
        let total := if op.func == 0x10 then lanePairs 8 acc else acc.foldl F32.max (acc.getD 0 0)
        let h' := if last then h'.push c op.dest (f32Chunk (List.replicate lanes total)) else h'
        some (w.onHw (fun _ => put { op' with acc := acc } h'))
      else some (w.onHw (fun _ => put op' (h'.push c op.dest (f32Chunk (vopLanes lanes op popped)))))

/-- Queue ends an operation fills. -/
def vecDests (op : VecOp) : List Nat := if op.op == 2 then [] else [op.dest]

/-- One move of the vector unit: the first operation in order that shares no queue end with one before it and can move a chunk;
an operation that has ended leaves and is counted. -/
def vecStepFrom (c : Nat) (w : Work) : List VecOp → List VecOp → Option Work
  | _, [] => none
  | before, op :: after =>
    if op.pos ≥ op.count then some (w.onHw (fun h => (h.onVec c (fun _ => before ++ after)).event c 0x04 1))
    else
      let clash := before.any (fun x => (vecSources x).any (fun q => (vecSources op).contains q) || (vecDests x).any (fun q => (vecDests op).contains q))
      let moved := if clash then none else vecChunk w c op (fun op' h => (h.weighVec op).onVec c (fun _ => before ++ op' :: after))
      match moved with
      | some w' => some w'
      | none => vecStepFrom c w (before ++ [op]) after

def vecStep (c : Nat) (w : Work) : Option Work := vecStepFrom c w [] (w.hw.core c).vec

/-- VOPT: one optimiser row (R104, R169). -/
def runVopt (w : Work) (c addr : Nat) : Work :=
  let h := w.hw
  let orb := w.mm c addr 64
  let u (o : Nat) : Nat := leAt o 4 orb
  let n := u 48
  let tag := leAt 52 2 orb
  let tagsOk := [16, 20, 24, 28].all (fun o => w.mem.le (Area.matrix c) (u o) 2 == tag)
  let recVal (o : Nat) : Nat := w.mem.le (Area.matrix c) (u o + 2) 2
  let bfBad (x : Nat) : Bool := bit 15 x || (FloatFmt.bf16.decode x).isNan || (FloatFmt.bf16.decode x).isInf
  let uw := recVal 16 % 256
  let tw := u 56
  let twBad := tw < 0x00800000 || 0x7F800000 ≤ tw
  let p (o : Nat) : Nat := w.mem.le (Area.matrix c) (u 32 + o) 4
  -- no field of the block gives the weight row's format: it is free among the weight formats of Table 4-6 (log entry 13)
  let fw := [0, 1, 2, 3, 4, 8, 9].getD (Config.freeNat h.draws % 7) 3
  let reads := [(u 0, packedLen fw n), (u 4, n), (u 8, n), (u 12, n), (u 16, 4), (u 20, 4), (u 24, 4), (u 28, 4), (u 32, 48)]
  if (h.badSpans c reads).isSome then
    w.onHw (fun h => h.uncorrectableAt c 0 ((h.badSpans c reads).getD 0) (h.coreSrc c 0xA0 (some F.CR_SEQ_STATUS_REASON)))
  else if !tagsOk then w.raise Rc.DIN_SCALE_SKEW { h.coreSrc c 0xA0 (some F.CR_SEQ_STATUS_REASON) with core := none }
  else if bfBad (recVal 20) || bfBad (recVal 24) || bfBad (recVal 28) || uw ≥ 0x7F || twBad then
    w.raise Rc.DIN_SCALE_INVALID (h.coreSrc c 0xA0 (some F.CR_SEQ_STATUS_REASON))
  else
    let row (o f : Nat) : List Byte := w.mm c (u o) (packedLen f n)
    let rw := row 0 fw
    let rg := row 4 4
    let rm := row 8 3
    let rv := row 12 3
    let dec (f code : Nat) (s : Val) : Nat := roundR91 (Val.mul (elemVal f code) s)
    let sOf (o : Nat) : Val := FloatFmt.bf16.decode (recVal o)
    let sw := Val.mul (FloatFmt.ue4m3.decode uw) (f32Val tw)
    let res := (List.range n).map (fun k =>
      let g := dec 4 (packedElem 4 rg k) (sOf 20)
      let m := dec 3 (packedElem 3 rm k) (sOf 24)
      let v := dec 3 (packedElem 3 rv k) (sOf 28)
      let wt := dec fw (packedElem fw rw k) sw
      let m1 := F32.fma (p 0) m (F32.mul (p 4) g)
      let v1 := F32.fma (p 8) v (F32.mul (p 12) (F32.mul g g))
      let den := F32.add (F32.sqrt (F32.mul v1 (p 20))) (p 28)
      let upd := F32.mul (F32.mul m1 (p 16)) (F32.rcp den)
      let w1 := F32.fma (F32.neg (p 24)) (F32.fma (p 32) wt upd) wt
      (w1, m1, v1))
    let base := h.rowBufBase c
    let w := w.mmStore c (base + u 36) (wordBytes (res.map (·.1)))
    let w := w.mmStore c (base + u 40) (wordBytes (res.map (·.2.1)))
    let w := w.mmStore c (base + u 44) (wordBytes (res.map (·.2.2)))
    w.onHw (fun h => h.draw.event c 0x04 1)

/-! Registers. -/

namespace Hw

/-- A write of CR_DRN_CTRL (R107, R404). -/
def writeDrnCtrl (h : Hw) (c v : Nat) : Hw :=
  let en := h.on F.CR_DRN_CTRL_ENABLE c
  let bank0 := bits 8 8 v
  let banks := bits 16 8 v
  let same := bank0 == h.get F.CR_DRN_CTRL_RB_BANK0 c && banks == h.get F.CR_DRN_CTRL_RB_BANKS c
  if en && !same then h.refuse Rc.CFG_CONFLICT F.CR_DRN_STATUS_REASON c (0xB1 + c)
  else
    let h := (h.put F.CR_DRN_CTRL_RB_BANK0 bank0 c).put F.CR_DRN_CTRL_RB_BANKS banks c
    if !en && bit 0 v then
      if bank0 + banks ≤ 4 * h.build.matmemMib then h.put F.CR_DRN_CTRL_ENABLE 1 c
      else h.refuse Rc.CFG_DRN_ROWBUF F.CR_DRN_STATUS_REASON c (0xB1 + c)
    else h.put F.CR_DRN_CTRL_ENABLE (flag (bit 0 v)) c

end Hw

end Sys2Proof.Machine
end

