-- ==== Sys2Proof/Machine/Seq.lean ====
section
/-! DEFINITION. The sequencer: ring, banks, issue, loops and scalar state (R137 to R163, R170). -/

namespace Sys2Proof.Machine

/-- A field of an instruction: byte offset, lowest bit, width (Table 6-2, Table 6-9). -/
def ifld (w : InstrWord) (off lo n : Nat) : Nat := bits (8 * off + lo) n w.toNat

/-- The opcode of an instruction. -/
def iop (w : InstrWord) : Nat := ifld w 6 0 8

/-- The instruction with its opcode byte set. -/
def withOp (w : InstrWord) (op : Nat) : InstrWord := BitVec.ofNat 256 (putBits 48 8 op w.toNat)

/-- The fields that an opcode's layout names: byte offset, lowest bit, width (Table 6-9). -/
def opFields (op : Nat) : List (Nat × Nat × Nat) :=
  match op with
  | 0x01 => [(8, 0, 15), (12, 0, 32), (16, 0, 8)]
  | 0x02 => [(8, 0, 18), (12, 0, 32), (16, 0, 28), (20, 0, 32)]
  | 0x03 => [(8, 0, 13)]
  | 0x08 => [(8, 0, 4), (16, 0, 64)]
  | 0x09 => [(8, 0, 15), (8, 16, 4), (16, 0, 64)]
  | 0x0A => [(8, 0, 4), (12, 0, 32)]
  | 0x0B => [(8, 0, 4), (12, 0, 32)]
  | 0x0C => [(8, 0, 10)]
  | 0x0D => [(8, 0, 3), (8, 4, 2), (8, 8, 8), (12, 0, 32)]
  | 0x0E => [(8, 0, 12), (16, 0, 64)]
  | 0x10 => [(8, 0, 17), (12, 0, 32), (16, 0, 28), (20, 0, 32)]
  | 0x18 => [(8, 0, 5), (12, 0, 32)]
  | 0x19 => [(8, 0, 8)]
  | 0x20 => [(8, 0, 32), (12, 0, 32)]
  | 0x21 => [(8, 0, 32), (12, 0, 26), (16, 0, 32), (20, 0, 32), (24, 0, 32)]
  | 0x22 => [(8, 0, 25), (8, 27, 5), (12, 0, 32), (16, 0, 22), (20, 0, 22), (24, 0, 24), (28, 0, 32)]
  | 0x23 => [(8, 0, 29), (12, 0, 20), (16, 0, 16), (20, 0, 21), (24, 0, 24)]
  | 0x28 => [(8, 0, 5), (12, 0, 32)]
  | 0x29 => [(12, 0, 32)]
  | 0x2A => [(12, 0, 32)]
  | 0x30 => [(8, 0, 28), (12, 0, 32), (16, 0, 32)]
  | 0x31 => [(8, 0, 6), (12, 0, 32), (16, 0, 32), (20, 0, 32)]
  | 0x32 => [(8, 0, 7), (12, 0, 32), (16, 0, 32), (20, 0, 32)]
  | 0x33 => [(12, 0, 32)]
  | _ => []

/-- The opcodes of Table 6-9. -/
def opcodes : List Nat :=
  [0x00, 0x01, 0x02, 0x03, 0x08, 0x09, 0x0A, 0x0B, 0x0C, 0x0D, 0x0E, 0x10, 0x18, 0x19, 0x20, 0x21, 0x22, 0x23, 0x28, 0x29,
   0x2A, 0x30, 0x31, 0x32, 0x33]

/-- Bits of the header and of the opcode's fields. -/
def usedBits (op : Nat) : Nat :=
  ((0, 0, 28) :: (4, 0, 16) :: (6, 0, 8) :: (7, 0, 1) :: opFields op).foldl (fun a f => a + (2 ^ f.2.2 - 1) * 2 ^ (8 * f.1 + f.2.1)) 0

/-- Every reserved bit of the instruction is 0 (R142). -/
def reservedOk (w : InstrWord) : Bool := Nat.land w.toNat (2 ^ 256 - 1 - usedBits (iop w)) == 0

/-- Byte offset of the field that AFF modifies (Table 6-9). -/
def addrField (op : Nat) : Option Nat :=
  match op with
  | 0x0A | 0x0B | 0x18 | 0x20 | 0x28 | 0x29 | 0x2A | 0x31 | 0x32 | 0x33 => some 12
  | 0x21 => some 16
  | _ => none

/-- Phase class: 0 A, 1 N, 2 C (R145). -/
def opClass (op : Nat) : Nat :=
  match op with
  | 0x20 | 0x21 => 2
  | 0x22 | 0x23 | 0x29 | 0x2A | 0x30 | 0x31 | 0x32 | 0x33 => 1
  | _ => 0

namespace Hw

def seq (h : Hw) (c : Nat) : Seq := (h.core c).seq

def head (h : Hw) (c : Nat) : Nat := h.get F.CR_SEQ_RING_HEAD_POS c

def seqRefuse (h : Hw) (c code : Nat) : Hw := h.refuse code F.CR_SEQ_STATUS_REASON c (0xA0 + c)

/-- Ring size in bytes, and the byte address of a position (R137). -/
def ringSize (h : Hw) (c : Nat) : Nat := 2 ^ h.get F.CR_SEQ_RING_SIZE_LOG2 c

def ringAddr (h : Hw) (c pos : Nat) : Nat := h.get F.CR_SEQ_RING_BASE_BASE c * 4096 + pos * 32 % h.ringSize c

/-- The block of a position, and its bank. -/
def blockStart (pos : Nat) : Nat := pos / 1024 * 1024
def bankOf (pos : Nat) : Nat := pos / 1024 % 2

def bankValid (h : Hw) (c k : Nat) : Bool := if k == 0 then h.on F.CR_SEQ_BANK_VALID0 c else h.on F.CR_SEQ_BANK_VALID1 c

def bankPos (h : Hw) (c k : Nat) : Nat := if k == 0 then h.get F.CR_SEQ_BANK0_POS_POS c else h.get F.CR_SEQ_BANK1_POS_POS c

def setBank (h : Hw) (c k : Nat) (valid grant : Bool) : Hw :=
  if k == 0 then (h.put F.CR_SEQ_BANK_VALID0 (flag valid) c).put F.CR_SEQ_BANK_GRANT0 (flag grant) c
  else (h.put F.CR_SEQ_BANK_VALID1 (flag valid) c).put F.CR_SEQ_BANK_GRANT1 (flag grant) c

/-- The fetch window: the bank of HEAD, the banks of the first body instructions of the open loops, and the bank of the last instruction issued
(R139). -/
def inWindow (h : Hw) (c k : Nat) : Bool :=
  bankOf (h.head c) == k || (h.seq c).lastBank == some k || (h.seq c).loops.any (fun l => bankOf l.first == k)

/-- Start a load of a bank with the block at a position (Table 6-1); `done` is the tick at which the bank becomes valid. -/
def startLoad (h : Hw) (c k pos : Nat) (grant : Bool) (done : Nat) : Hw :=
  let h := h.setBank c k false grant
  let h := if k == 0 then h.put F.CR_SEQ_BANK0_POS_POS pos c else h.put F.CR_SEQ_BANK1_POS_POS pos c
  h.onSeq c (fun s => { s with
    loadDue := Tab.insert s.loadDue k done, badPos := s.badPos.filter (fun p => bankOf p != k), bank0 := if k == 0 then [] else s.bank0, bank1 := if k == 1 then [] else s.bank1,
    copies := s.copies.filter (fun x => bankOf x.1 != k) })

/-- An instruction at a position has issued from its bank: the other bank leaves the fetch window unless it is pinned or holds HEAD, and takes the
block that follows, where it neither holds that block nor is loading it (R139). -/
def prefetch (h : Hw) (c pos : Nat) : Hw :=
  let h := h.onSeq c (fun s => { s with lastBank := some (bankOf pos) })
  let k := 1 - bankOf pos
  let next := (blockStart pos + 1024) % 2 ^ 32
  let has := h.bankPos c k == next && (h.bankValid c k || (Tab.find? (h.seq c).loadDue k).isSome)
  if has || h.inWindow c k then h else h.startLoad c k next true (h.after 154)

/-- The prefetcher reads the ring words [lo, hi): the uncorrectable ones are logged and marked (R215). -/
def ringBad (h : Hw) (c lo hi : Nat) : Hw :=
  if h.badWords.isEmpty then h
  else ((List.range (hi - lo)).map (fun i => lo + i)).foldl (fun h p => match h.badScratch (h.ringAddr c p) 32 with
    | some wh => (h.uncorrectable 0x40 0 wh).onSeq c (fun s => { s with badPos := s.badPos ++ [p] })
    | none => h) h

/-- The words of the published positions [lo, hi) of the ring. -/
def ringWords (h : Hw) (m : Mem) (c lo hi : Nat) : Tab InstrWord :=
  (List.range (hi - lo)).map (fun i => (lo + i, BitVec.ofNat 256 (m.le Area.block (h.ringAddr c (lo + i)) 32)))

/-- The instruction at HEAD waits for a bank: its own, or one that the range of a SKIPC covers (Table 6-3, R152). -/
def waitsFor (h : Hw) (c k : Nat) : Bool :=
  let p := h.head c
  bankOf p == k || (match Tab.find? ((if bankOf p == 0 then (h.seq c).bank0 else (h.seq c).bank1)) p with
    | some iw => iop iw == 3 && bankOf (p + ifld iw 8 3 10) == k
    | none => false)

/-- A bank load ends (R140): the block's published words as the ring holds them; the bank becomes valid. -/
def bankLoaded (h : Hw) (m : Mem) (c k : Nat) : Hw :=
  match Tab.find? (h.seq c).loadDue k with
  | none => h
  | some t =>
    let h := h.elapse t
    let p := h.bankPos c k
    let ahead := (h.get F.CR_SEQ_RING_TAIL_POS c + 2 ^ 32 - p) % 2 ^ 32
    let n := if ahead < 2 ^ 31 then min 1024 ahead else 0
    let ws := h.ringWords m c p (p + n)
    let h := h.onSeq c (fun s => { s with
      loadDue := Tab.erase s.loadDue k, bank0 := if k == 0 then ws else s.bank0, bank1 := if k == 1 then ws else s.bank1 })
    let h := (h.ringBad c p (p + n)).setBank c k true false
    -- the load takes the cycle in which the bank becomes valid: an instruction that waits for it issues in the next
    let h := if h.waitsFor c k then h.onSeq c (fun s => { s with nextIssue := max s.nextIssue (h.afterCycle 1) }) else h
    if (h.seq c).restart && h.bankValid c 0 && h.bankValid c 1 then
      (h.put F.CR_SEQ_STATUS_STATE 1 c).onSeq c (fun s => { s with restart := false })
    else h

/-- A published position is copied into its bank (R139). -/
def copyDone (h : Hw) (m : Mem) (c : Nat) : Hw :=
  match (h.seq c).copies with
  | [] => h
  | (lo, hi, t) :: rest =>
    let h := h.elapse t
    let k := bankOf lo
    let add (b : Tab InstrWord) : Tab InstrWord := (h.ringWords m c lo hi).foldl (fun b e => Tab.insert b e.1 e.2) b
    (h.ringBad c lo hi).onSeq c (fun s => { s with copies := rest, bank0 := if k == 0 then add s.bank0 else s.bank0, bank1 := if k == 1 then add s.bank1 else s.bank1 })

/-- Pieces of [lo, hi) that each lie in one block. -/
def blockPieces : Nat → Nat → Nat → List (Nat × Nat)
  | 0, _, _ => []
  | fuel + 1, lo, hi =>
    if hi ≤ lo then []
    else
      let cut := min hi (blockStart lo + 1024)
      (lo, cut) :: blockPieces fuel cut hi

/-- A write of TAIL is refused (R137): it goes back, or past the ring's size from CHEAD. -/
def tailRefused (h : Hw) (c v : Nat) : Bool :=
  let new := v % 2 ^ 32
  (new + 2 ^ 32 - h.get F.CR_SEQ_RING_TAIL_POS c) % 2 ^ 32 ≥ 2 ^ 31 ||
    (new + 2 ^ 32 - h.get F.CR_SEQ_RING_CHEAD_POS c) % 2 ^ 32 > h.ringSize c / 32

/-- An accepted write of TAIL publishes positions; those whose block sits in a valid bank are copied within 32 cycles (R137, R139). -/
def writeTail (h : Hw) (c v : Nat) : Hw :=
  let old := h.get F.CR_SEQ_RING_TAIL_POS c
  let new := v % 2 ^ 32
  if h.tailRefused c v then h.seqRefuse c Rc.CFG_SEQ_RING_FULL
  else
    let h := h.put F.CR_SEQ_RING_TAIL_POS new c
    let span := (new + 2 ^ 32 - old) % 2 ^ 32
    let pieces := (blockPieces 1000000 old (old + span)).filter (fun p =>
      h.bankValid c (bankOf p.1) && h.bankPos c (bankOf p.1) == blockStart p.1)
    h.onSeq c (fun s => { s with copies := s.copies ++ pieces.map (fun p => (p.1, p.2, h.after 32)) })

/-- A write of CR_SEQ_BANK requests reloads (R140). -/
def writeBank (h : Hw) (c v : Nat) : Hw :=
  if v % 4 == 0 then h else h.onSeq c (fun s => { s with bankReq := some (h.afterCycle 1, v % 4) })

/-- The requests of a core are judged in the cycle after the write, as of that cycle (R140). -/
def judgeBank (h : Hw) (c : Nat) : Hw :=
  match (h.seq c).bankReq with
  | none => h
  | some (t, v) =>
    if h.ticks < t then h
    else
      let one (h : Hw) (k : Nat) : Hw :=
        if h.inWindow c k then h.seqRefuse c Rc.CFG_SEQ_BANK_BUSY else h.startLoad c k (h.bankPos c k) true (t + 4 * 153)
      let h := h.onSeq c (fun s => { s with bankReq := none })
      applyIf (bit 1 v) (fun h => one h 1) (applyIf (bit 0 v) (fun h => one h 0) h)

/-- The requests of every core. -/
def judgeBanks (h : Hw) : Hw := (h.cores.map (·.1)).foldl judgeBank h

/-- Empty the core's data and descriptor queues, but for the bobbins' (R161). -/
def emptyQueues (h : Hw) (c : Nat) : Hw :=
  h.onCore c (fun k => { k with queues := k.queues.filter (fun q => 0x10 ≤ q.1), descs := [], drn := [], vec := [], mac := none })

/-- A write of CR_SEQ_CTRL (R170): the checks of Table 6-12, HEAD and CHEAD to TAIL; clearing stops issue. -/
def writeSeqCtrl (h : Hw) (c v : Nat) : Hw :=
  let en := h.on F.CR_SEQ_CTRL_ENABLE c
  let base := h.get F.CR_SEQ_RING_BASE_BASE c * 4096
  let lg := h.get F.CR_SEQ_RING_SIZE_LOG2 c
  if !en && bit 0 v then
    if lg < 16 || lg > 24 || base % 2 ^ lg != 0 || base + 2 ^ lg > h.scratchSize then h.seqRefuse c Rc.CFG_SEQ_RING
    else if !h.on F.CR_MAC_CTRL_ENABLE c then h.seqRefuse c Rc.CFG_SEQ_DEPENDS
    else
      let t := h.get F.CR_SEQ_RING_TAIL_POS c
      let h := (h.put F.CR_SEQ_CTRL_ENABLE 1 c).put F.CR_SEQ_STATUS_STATE 1 c
      let h := (h.put F.CR_SEQ_RING_HEAD_POS t c).put F.CR_SEQ_RING_CHEAD_POS t c
      let h := h.put F.CR_SEQ_SLACKMIN_MIN 0xFFFF c
      let cp (s : Seq) : Checkpoint := { s.checkpoint with }
      let h := h.onSeq c (fun s => { checkpoint := cp s, sel := s.sel, cm := s.cm, boundRun := h.runNumber })
      let h := h.startLoad c (bankOf t) (blockStart t) true (h.after 154)
      h.startLoad c (1 - bankOf t) ((blockStart t + 1024) % 2 ^ 32) true (h.after 154)
  else if en && !bit 0 v then
    let h := (h.put F.CR_SEQ_CTRL_ENABLE 0 c).put F.CR_SEQ_STATUS_STATE 0 c
    h.onSeq c (fun s => { s with bound := false, seg := none, loops := [], skip := .none })
  else h

/-- A write of CR_SEQ_RING_BASE or CR_SEQ_RING_SIZE: refused while ENABLE is 1. -/
def writeRing (h : Hw) (f : Fld) (c v : Nat) : Hw :=
  if h.on F.CR_SEQ_CTRL_ENABLE c then h.seqRefuse c Rc.CFG_CONFLICT else h.put f (bits f.lo f.w v) c

/-! Scalar state. -/

def sReg (h : Hw) (c n : Nat) : Nat := h.rd .CR_SEQ_S (sub c 16 n)

def setS (h : Hw) (c n v : Nat) : Hw := h.wr .CR_SEQ_S (sub c 16 n) (v % 2 ^ 64)

def ctReg (h : Hw) (c n : Nat) : Nat := h.rd .CR_SEQ_CT (sub c 8 n)

/-- A scalar operand: 00h–0Fh S, 10h–17h CT (Scalar state). -/
def scalar (h : Hw) (c code : Nat) : Nat := if code < 16 then h.sReg c code else h.ctReg c (code - 16)

/-- A comparator's result (R151). -/
def cmResult (h : Hw) (c i : Nat) : Bool :=
  let k := (h.seq c).cm.getD i {}
  let x := if k.qdepth then (h.queue c (popSide k.operand)).length else h.scalar c k.operand
  k.en && (match k.cond with
    | 0 => x == k.thresh
    | 1 => x != k.thresh
    | 2 => x < k.thresh
    | 3 => k.thresh ≤ x
    | 4 => signed 64 x < signed 64 k.thresh
    | _ => signed 64 k.thresh ≤ signed 64 x)

/-- SLD results whose cycle has come are written (R163). -/
def settleSld (h : Hw) (c : Nat) : Hw :=
  let due := (h.seq c).sldPending.filter (fun x => x.2.2 ≤ h.ticks)
  let h := h.onSeq c (fun s => { s with sldPending := s.sldPending.filter (fun x => h.ticks < x.2.2) })
  due.foldl (fun h x => h.setS c x.1 x.2.1) h

/-! Stamps. -/

/-- The effective stamp of an instruction (R153). -/
def effStamp (h : Hw) (c : Nat) (w : InstrWord) : Nat :=
  ifld w 0 0 20 * 256 + ifld w 0 20 8 + (h.seq c).loops.foldl (fun a l => a + l.index * l.dstamp) 0

/-- The effective address of an instruction's ADDR field (R154). -/
def effAddr (h : Hw) (c : Nat) (w : InstrWord) : Nat :=
  match addrField (iop w) with
  | none => 0
  | some o =>
    let a := ifld w o 0 32
    if ifld w 7 0 1 == 0 then a
    else encSigned 32 ((h.seq c).loops.foldl (fun (x : Int) l => x + l.index * l.astride) a)

/-- The root tick of a phase of a beat, beats other than the present one counted at the present one's length. -/
def tickOf (h : Hw) (beat phase : Nat) : Nat :=
  if h.time.beat ≤ beat then h.time.beatStart + (beat - h.time.beat) * h.beatTicks + 4 * phase
  else h.time.beatStart - (h.time.beat - beat) * h.beatTicks + 4 * phase

/-- Move HEAD to a position, closing or repeating the loops whose body ends before it (R155). -/
def moveHead : Nat → Nat → Nat → Hw → Hw
  | 0, _, _, h => h
  | fuel + 1, c, pos, h =>
    match (h.seq c).loops.getLast? with
    | none => h.put F.CR_SEQ_RING_HEAD_POS (pos % 2 ^ 32) c
    | some l =>
      if pos != l.last + 1 then h.put F.CR_SEQ_RING_HEAD_POS (pos % 2 ^ 32) c
      else if l.index + 1 < l.count then
        (h.onSeq c (fun s => { s with loops := s.loops.dropLast ++ [{ l with index := l.index + 1 }] })).put F.CR_SEQ_RING_HEAD_POS (l.first % 2 ^ 32) c
      else moveHead fuel c pos (h.onSeq c (fun s => { s with loops := s.loops.dropLast }))

/-- The instruction at a position has issued: counts, slack minimum, stamp order (R143, R144). -/
def issued (h : Hw) (c pos ceff e slack : Nat) : Hw :=
  let h := (h.inc F.CR_SEQ_ISSUED_COUNT 1 c).event c 0x01 1
  let unused := slack - (h.ticks - e) / 4
  let h := h.put F.CR_SEQ_SLACKMIN_MIN (min (h.get F.CR_SEQ_SLACKMIN_MIN c) (min unused 0xFFFF)) c
  (h.onSeq c (fun s => { s with lastStamp := ceff, nextIssue := h.afterCycle 1 })).prefetch c pos

/-- The NEWSTEP SEG at HEAD binds the core to the run in progress (R157). -/
def bindRun (h : Hw) (c : Nat) : Hw :=
  h.onSeq c (fun s => { s with
    bound := true, bindPos := some (h.head c), boundRun := h.runNumber, f := h.run.f, runHoop := none, lastStamp := 0, loops := [], skip := .none, seg := none, segs := [] })

/-- A NEWSTEP SEG of the present epoch may bind to the run in progress (R157). -/
def mayBind (h : Hw) (c : Nat) : Bool := h.planned && !h.run.reserve && (h.seq c).boundRun < h.runNumber

/-- The SEG at HEAD has bound the core and has not issued. -/
def binding (h : Hw) (c : Nat) : Bool := (h.seq c).bound && (h.seq c).bindPos == some (h.head c)

/-- TIM_LATE_ISSUE (R53, R143). -/
def lateIssue (h : Hw) (c : Nat) : Hw :=
  (h.setFlag F.CR_SEQ_STATUS_LATE c).raise Rc.TIM_LATE_ISSUE (h.coreSrc c 0xA0 (some F.CR_SEQ_STATUS_REASON))

/-- The sequencer may issue: RUN, not in abort, not in reset, no debug halt (R162, R344, R382). -/
def mayIssue (h : Hw) (c : Nat) : Bool :=
  h.get F.CR_SEQ_STATUS_STATE c == 1 && !h.ab.on && !(h.core c).inReset && !(h.core c).debugHalt

/-- The word at HEAD, when its bank is valid and its position copied (R139). -/
def wordAtHead (h : Hw) (c : Nat) : Option InstrWord :=
  let p := h.head c
  let k := bankOf p
  if p == h.get F.CR_SEQ_RING_TAIL_POS c || !h.bankValid c k || h.bankPos c k != blockStart p then none
  else Tab.find? (if k == 0 then (h.seq c).bank0 else (h.seq c).bank1) p

/-- HEAD has come to a block that no bank holds or is loading, over instructions that were skipped: its bank takes it. -/
def fetchHead (h : Hw) (c : Nat) : Hw :=
  let p := h.head c
  let k := bankOf p
  let held := h.bankPos c k == blockStart p && (h.bankValid c k || (Tab.find? (h.seq c).loadDue k).isSome)
  if !h.mayIssue c || held then h else h.startLoad c k (blockStart p) true (h.after 154)

/-- The published word at a position of a ring. -/
def publishedWord (h : Hw) (m : Mem) (c p : Nat) : Option InstrWord :=
  let ahead := (h.get F.CR_SEQ_RING_TAIL_POS c + 2 ^ 32 - p) % 2 ^ 32
  if ahead == 0 || 2 ^ 31 ≤ ahead then none else ((h.ringWords m c p (p + 1)).head?).map (·.2)

/-- A word is a SEG with NEWSTEP set. -/
def isNewstep (w : InstrWord) : Bool := iop w == 1 && ifld w 8 14 1 == 1

/-- The eligibility tick and the last tick of the slack of the instruction at HEAD, where its word is in a valid bank and it belongs to the run in
progress (R53, R143); the slack ends in the last cycle of the step's last beat (R144). -/
def slackOf (h : Hw) (c : Nat) : Option (Nat × Nat) :=
  let s := h.seq c
  match h.wordAtHead c with
  | none => none
  | some iw =>
    let first := isNewstep iw && h.mayBind c && ifld iw 16 0 8 == h.get F.TM_EPOCH_EPOCH % 256
    if !h.mayIssue c || s.skip != .none || !h.planned || h.run.reserve || (!first && !h.binding c && (!s.bound || isNewstep iw)) then none
    else
      let stamp := if first then ifld iw 0 0 20 * 256 + ifld iw 0 20 8 else h.effStamp c iw
      let beat := (if first then h.run.f else s.f) + stamp / 256
      if h.time.beat < beat then none
      else
        let e := h.tickOf beat (stamp % 256)
        let slackEnd := e + 4 * (ifld iw 4 0 16) + 4
        some (e, if h.time.beat + 1 == h.run.f + h.run.len then min slackEnd h.lastCycle else slackEnd)

/-- The slack of the instruction at HEAD runs out before it has issued: TIM_LATE_ISSUE in that cycle (R53, R143). -/
def slackExpiry (h : Hw) (c : Nat) : Hw :=
  match h.slackOf c with
  | none => h
  | some (_, t) =>
    if h.time.beatStart + h.beatTicks ≤ t then h
    else
      let h := h.elapse t
      (if (h.seq c).bound then h else h.bindRun c).lateIssue c

/-- The word at a position, when its bank is valid and the position copied. -/
def wordAt (h : Hw) (c p : Nat) : Option InstrWord :=
  let k := bankOf p
  if !h.bankValid c k || h.bankPos c k != blockStart p then none
  else Tab.find? (if k == 0 then (h.seq c).bank0 else (h.seq c).bank1) p

end Hw

/-! Issue. -/

/-- What an opcode contributes to the common issue of R143: the check of its operands, its holds, and its effect, each given the
effective address. -/
structure OpRule where
  /-- The halt code that the operands give, 0 for none. -/
  check : Nat → Work → Nat
  /-- Scalar registers read, for the hold on an SLD. -/
  reads : List Nat
  hold : Nat → Work → Bool
  effect : Nat → Work → Work
  /-- Ranges of matrix memory that the instruction reads as it issues, and the AGENT of Table 8-4. -/
  extent : Nat → List (Nat × Nat) := fun _ => []
  agent : Nat := 0
  /-- What the instruction waits for before its holds are looked at (R262). -/
  before : Hw → Hw := id
  /-- The effect moves HEAD itself (LOOP, SKIPC). -/
  jumps : Bool := false

/-- Wait for the SLD results that an instruction reads (Table 6-3). -/
def waitSld (h : Hw) (c : Nat) (regs : List Nat) : Hw :=
  let t := ((h.seq c).sldPending.filter (fun x => regs.contains x.1)).foldl (fun a x => max a x.2.2) 0
  (h.elapse t).settleSld c

/-- Issue an instruction other than SEG (R142 to R145, R153, R158): the checks when it becomes the next to issue, its eligibility,
its holds, its effect, and the move of HEAD. -/
def issueWith (c : Nat) (iw : InstrWord) (rule : OpRule) (w : Work) : Work :=
  let h := w.hw
  let op := iop iw
  let s := h.seq c
  let adv (w : Work) : Work := w.onHw (fun h => Hw.moveHead 8 c (h.head c + 1) h)
  let halt (code : Nat) : Work := w.onHw (fun h => h.haltAt c op code)
  if !h.mayIssue c then w
  else if s.skip != .none then adv w
  else if !reservedOk iw || (ifld iw 7 0 1 == 1 && (addrField op).isNone) then halt Rc.PRG_BAD_OPERAND
  else if s.seg.isNone then halt Rc.PRG_NO_CONTEXT
  else
    let ceff := h.effStamp c iw
    let beat := s.f + ceff / 256
    let tag := match h.logicalOf c with
      | some n => if h.planned then h.tagAt w.mem (h.run.plan + ceff / 256) n else 0
      | none => 0
    let addr := h.effAddr c iw
    let bad := rule.check addr w
    if ceff ≥ 2 ^ 28 || ceff < s.lastStamp || (s.bound && ceff / 256 ≥ h.run.len) then halt Rc.PRG_STAMP_ORDER
    else if (opClass op == 2 && tag != 2) || (opClass op == 1 && tag == 0) then halt Rc.PRG_PHASE_CONFLICT
    else if bad != 0 then halt bad
    else if h.time.beat < beat then w
    else
      let e := h.tickOf beat (ceff % 256)
      let slack := ifld iw 4 0 16
      let w0 := w
      let w := w.onHw (fun h => rule.before (waitSld (h.elapse (max e s.nextIssue)) c rule.reads))
      if w.hw.ticks > e + 4 * slack + 3 then (if w0.hw.ticks > e + 4 * slack + 3 then w0.onHw (fun h => h.lateIssue c) else w0)
      else if w.hw.beatOver || rule.hold addr w || ((addrField op).isSome && w.hw.on F.CR_MM_STATUS_INIT c) then w0
      else match w.hw.badSpans c (rule.extent addr) with
      | some wh => w.onHw (fun h => h.uncorrectableAt c rule.agent wh (h.coreSrc c 0xA0 (some F.CR_SEQ_STATUS_REASON)))
      | none =>
        let w := rule.effect addr w
        if w.hw.get F.CR_SEQ_STATUS_STATE c != 1 then w
        else (if rule.jumps then w else adv w).onHw (fun h => h.issued c (w0.hw.head c) ceff e slack)

/-- A rule with no hold. -/
def plainRule (check : Nat → Work → Nat) (reads : List Nat) (effect : Nat → Work → Work) : OpRule :=
  { check := check, reads := reads, hold := fun _ _ => false, effect := effect }

/-- PRG_BAD_OPERAND where a condition fails. -/
def badUnless (ok : Bool) : Nat := if ok then 0 else Rc.PRG_BAD_OPERAND

/-- A scalar operand code is not reserved. -/
def scalarOk (code : Nat) : Bool := code < 0x18

/-- S registers among scalar operand codes. -/
def sOf (codes : List Nat) : List Nat := codes.filter (· < 16)

def nopRule : OpRule := plainRule (fun _ _ => 0) [] (fun _ w => w)

/-- SLI loads a 64-bit immediate. -/
def sliRule (c : Nat) (iw : InstrWord) : OpRule :=
  plainRule (fun _ _ => 0) [] (fun _ w => w.onHw (fun h => h.setS c (ifld iw 8 0 4) (ifld iw 16 0 64)))

/-- Table 6-5. -/
def saluOp (op a b : Nat) : Nat :=
  match op with
  | 0 => (a + b) % 2 ^ 64
  | 1 => (a + 2 ^ 64 - b) % 2 ^ 64
  | 2 => Nat.land a b
  | 3 => Nat.lor a b
  | 4 => Nat.xor a b
  | 5 => a * 2 ^ (b % 64) % 2 ^ 64
  | 6 => a / 2 ^ (b % 64)
  | 7 => min a b
  | 8 => max a b
  | _ => a * b % 2 ^ 64

def saluRule (c : Nat) (iw : InstrWord) : OpRule :=
  let s1 := ifld iw 8 4 5
  let s2 := ifld iw 8 9 5
  let useImm := ifld iw 8 14 1 == 1
  let imm := ifld iw 16 0 64
  let op := ifld iw 8 16 4
  plainRule (fun _ _ => badUnless (op ≤ 9 && scalarOk s1 && (if useImm then s2 == 0 else scalarOk s2 && imm == 0)))
    (sOf (if useImm then [s1] else [s1, s2]))
    (fun _ w => w.onHw (fun h => h.setS c (ifld iw 8 0 4) (saluOp op (h.scalar c s1) (if useImm then imm else h.scalar c s2))))

/-- An address is aligned and its extent lies in matrix memory (R142). -/
def addrOk (w : Work) (addr align n : Nat) : Bool := addr % align == 0 && w.hw.inMatrix addr n

/-- SLD reads 8 bytes; its register is written 3 cycles after issue. -/
def sldRule (c : Nat) (iw : InstrWord) : OpRule :=
  { plainRule (fun a w => badUnless (addrOk w a 8 8)) []
      (fun a w => w.onHw (fun h =>
        (h.weigh (h.segOf c).1 5 1).onSeq c (fun s => { s with sldPending := s.sldPending ++ [(ifld iw 8 0 4, leNat (w.mm c a 8), h.after 3)] }))) with
    extent := fun a => [(a, 8)] }

/-- SST stores a scalar register to 8 bytes of a word, which is read and merged. -/
def sstRule (c : Nat) (iw : InstrWord) : OpRule :=
  { plainRule (fun a w => badUnless (addrOk w a 8 8)) [ifld iw 8 0 4]
      (fun a w => (w.mmStore c a (leBytes 8 (w.hw.sReg c (ifld iw 8 0 4)))).onHw (fun h => h.weigh (h.segOf c).1 5 1)) with
    extent := fun a => [(a, 8)], agent := 1 }

/-- Queue-end codes of Table 6-4 with a data queue, and with a descriptor queue. -/
def hasDataQueue (q : Nat) : Bool := (2 ≤ q && q ≤ 9) || (0x10 ≤ q && q ≤ 0x17)
def hasDescQueue (q : Nat) : Bool := q == 0 || q == 1 || q == 3 || q == 4

/-- SQD reads a queue end's depth. -/
def sqdRule (c : Nat) (iw : InstrWord) : OpRule :=
  let q := ifld iw 8 4 5
  let desc := ifld iw 8 9 1 == 1
  plainRule (fun _ _ => badUnless (if desc then hasDescQueue q else hasDataQueue q)) []
    (fun _ w => w.onHw (fun h => h.setS c (ifld iw 8 0 4) (if desc then (h.descQueue c q).length else (h.queue c (popSide q)).length)))

/-- Events of Table 6-6 that SELECT may name. -/
def eventOk (e : Nat) : Bool := e ≤ 6 || (8 ≤ e && e ≤ 0xF)

/-- CTR SET, ADD and SELECT (R150). -/
def ctrRule (c : Nat) (iw : InstrWord) : OpRule :=
  let ct := ifld iw 8 0 3
  let op := ifld iw 8 4 2
  let ev := ifld iw 8 8 8
  let v := ifld iw 12 0 32
  plainRule (fun _ _ => badUnless (if op == 2 then v == 0 && eventOk ev else op < 2 && ev == 0)) []
    (fun _ w => w.onHw (fun h =>
      if op == 0 then h.wr .CR_SEQ_CT (Hw.sub c 8 ct) v
      else if op == 1 then h.wr .CR_SEQ_CT (Hw.sub c 8 ct) ((h.ctReg c ct + v) % 2 ^ 32)
      else h.onSeq c (fun s => { s with sel := s.sel.set ct ev })))

/-- CMP configures a comparator (R151). -/
def cmpRule (c : Nat) (iw : InstrWord) : OpRule :=
  let operand := ifld iw 8 2 5
  let qd := ifld iw 8 7 1 == 1
  let cond := ifld iw 8 8 3
  let en := ifld iw 8 11 1 == 1
  let i := ifld iw 8 0 2
  plainRule (fun _ _ => badUnless (cond ≤ 5 && (if qd then hasDataQueue operand else scalarOk operand))) []
    (fun _ w => w.onHw (fun h =>
      h.onSeq c (fun s => { s with cm := s.cm.set i { operand := operand, qdepth := qd, cond := cond, en := en, thresh := ifld iw 16 0 64 } })))

/-- LOOP opens a level (R155, R156). -/
def loopRule (c : Nat) (iw : InstrWord) : OpRule :=
  let level := ifld iw 8 0 3
  let csrc := ifld iw 8 3 1 == 1
  let sreg := ifld iw 8 4 4
  let body := ifld iw 8 8 10 + 1
  let imm := ifld iw 12 0 32
  let count (h : Hw) : Nat := if csrc then h.sReg c sreg % 2 ^ 32 else imm
  { check := fun _ w =>
      let s := w.hw.seq c
      let first := w.hw.head c + 1
      if level ≥ 6 || (if csrc then imm != 0 else sreg != 0) || (!csrc && imm > 16777215) then Rc.PRG_BAD_OPERAND
      else if level != s.loops.length || (s.loops.getLast?.any (fun l => first + body - 1 > l.last)) ||
          (first + body - 1) / 1024 > first / 1024 + 1 then Rc.PRG_LOOP_NEST
      else 0
    reads := if csrc then [sreg] else []
    hold := fun _ _ => false
    jumps := true
    effect := fun _ w => w.onHw (fun h =>
      let n := count h
      let p := h.head c
      if n > 16777215 then h.haltAt c 0x02 Rc.PRG_BAD_OPERAND
      else if n == 0 then Hw.moveHead 8 c (p + 1 + body) h
      else
        let l : LoopLevel := { first := p + 1, last := p + body, count := n, index := 0, dstamp := ifld iw 16 0 28, astride := signed 32 (ifld iw 20 0 32) }
        (h.onSeq c (fun s => { s with loops := s.loops ++ [l] })).put F.CR_SEQ_RING_HEAD_POS ((p + 1) % 2 ^ 32) c) }

/-- SKIPC skips the next N instructions (R152). -/
def skipcRule (c : Nat) (iw : InstrWord) : OpRule :=
  let n := ifld iw 8 3 10
  let range (h : Hw) : List Nat := (List.range n).map (fun i => h.head c + 1 + i)
  { check := fun _ _ => badUnless (n ≥ 1)
    reads := []
    hold := fun _ w => !(range w.hw).all (fun p => w.hw.bankValid c (Hw.bankOf p) && w.hw.bankPos c (Hw.bankOf p) == Hw.blockStart p)
    jumps := true
    effect := fun _ w => w.onHw (fun h =>
      let p := h.head c
      if (range h).any (fun q => match h.wordAt c q with | some x => iop x == 1 || iop x == 2 | none => false) then h.haltAt c 0x03 Rc.PRG_BAD_OPERAND
      else if (h.seq c).loops.getLast?.any (fun l => p + n > l.last) then h.haltAt c 0x03 Rc.PRG_LOOP_NEST
      else if h.cmResult c (ifld iw 8 0 2) == (ifld iw 8 2 1 == 1) then Hw.moveHead 8 c (p + 1 + n) h
      else Hw.moveHead 8 c (p + 1) h) }

/-! SEG. -/

/-- The state of a request context as every plane sees it (R17): 0 FREE, 1 ADMITTED, 2 RUNNING, 3 DONE. -/
def Hw.ctxState (h : Hw) (x : Nat) : Nat := h.get F.CTX_STATE_STATE x

/-- A transition written in this beat, visible from the next (R16, R17). A first issue outweighs a cancellation. -/
def Hw.setCtxState (h : Hw) (x st : Nat) : Hw :=
  if Tab.find? h.ctxNext x == some 2 && st == 0 then h else { h with ctxNext := Tab.insert h.ctxNext x st }

/-- The transitions of the last beat become visible (R17). -/
def Hw.settleContexts (h : Hw) : Hw :=
  { h.ctxNext.foldl (fun h p => h.put F.CTX_STATE_STATE p.2 p.1) h with ctxNext := [] }

/-- Issue of a SEG (R157 to R159). -/
def issueSeg (c : Nat) (iw : InstrWord) (w : Work) : Work :=
  let h := w.hw
  let s := h.seq c
  let ctx := ifld iw 8 0 14
  let newstep := ifld iw 8 14 1 == 1
  let epoch := ifld iw 16 0 8
  let adv (h : Hw) : Hw := Hw.moveHead 8 c (h.head c + 1) (h.onSeq c (fun s => { s with bindPos := none }))
  let cur := h.get F.TM_EPOCH_EPOCH % 256
  let armed := h.on F.TM_EPOCH_CTRL_ARM && Img.epoch w.mem (h.get F.TM_PRK_SHADOW_BASE * 4096) % 256 == epoch
  let hoop := h.get F.CTX_STATE_HOOP ctx
  let logical := (h.logicalOf c).getD 0
  if !h.mayIssue c then w
  else if s.skip == .toNewstep && !newstep then w.onHw adv
  else if newstep && epoch != cur && !armed then w.onHw (fun h => adv (h.onSeq c (fun s => { s with skip := .toNewstep })))
  else if newstep && (epoch != cur || !(h.binding c || h.mayBind c)) then w
  else
    let w := w.onHw (fun h => if newstep && !h.binding c then h.bindRun c else h)
    let h := w.hw
    let s := h.seq c
    let ceff := h.effStamp c iw
    if !reservedOk iw || ifld iw 7 0 1 == 1 then w.onHw (fun h => h.haltAt c 0x01 Rc.PRG_BAD_OPERAND)
    else if h.ctxState ctx == 0 then w.onHw (fun h => adv (h.onSeq c (fun s => { s with skip := .toSeg, seg := none })))
    else if h.ctxState ctx == 3 then w.onHw (fun h => h.haltAt c 0x01 Rc.PRG_CONTEXT_STATE)
    else if newstep && ifld iw 12 0 32 != h.run.stepId then w.onHw (fun h => h.haltAt c 0x01 Rc.PRG_STEP_MISMATCH)
    else if !bit logical (h.rd .HP_CORES hoop) || (s.runHoop.any (· != hoop)) then w.onHw (fun h => h.haltAt c 0x01 Rc.SEC_HOOP_VIOLATION)
    else if ceff ≥ 2 ^ 28 || ceff < s.lastStamp || (s.bound && ceff / 256 ≥ h.run.len) then w.onHw (fun h => h.haltAt c 0x01 Rc.PRG_STAMP_ORDER)
    else if h.time.beat < s.f + ceff / 256 then w.onHw (fun h => h.onSeq c (fun s => { s with skip := .none }))
    else
      let e := h.tickOf (s.f + ceff / 256) (ceff % 256)
      let slack := ifld iw 4 0 16
      let h := (h.elapse (max e s.nextIssue)).judgeBank c
      if h.ticks > e + 4 * slack + 3 then w.onHw (fun _ => h.lateIssue c)
      else
        let pos := h.head c
        -- a cancellation of the same beat is refused (R17)
        let h := if Tab.find? h.ctxNext ctx == some 0 then h.refuse Rc.SYN_CTX_TRANSITION F.SQ_CTX_STATUS_REASON 0 0x97 else h
        let h := if h.ctxState ctx == 1 && Tab.find? h.ctxNext ctx != some 2 then (h.setCtxState ctx 2).energyStart ctx else h
        let h := h.onSeq c (fun s => { s with seg := some (ctx, hoop), runHoop := some hoop, segs := s.segs ++ [ctx], skip := .none })
        w.onHw (fun _ => (adv h).issued c pos ceff e slack)

/-! Array, drain and vector instructions. -/

/-- LOAD's parameters (R163, R164). -/
def loadOf (iw : InstrWord) (addr : Nat) : ArrLoad :=
  { mode := ifld iw 8 0 2, fmt := ifld iw 8 2 4, kRows := ifld iw 8 6 10, cols := ifld iw 8 16 7, accumulate := ifld iw 8 23 1 == 1,
    tile := ifld iw 8 24 4, pfmt := ifld iw 8 28 4, bank := addr / bankBytes, line := addr % bankBytes / 64 }

/-- A direct LOAD or PASS waits while a macro has passes to issue, or the array holds some of them (Table 6-3). -/
def macroHolds (c : Nat) (w : Work) : Bool :=
  let k := w.hw.core c
  k.mac.any (fun m => m.issued < m.passes.length) || k.arr.loads.any (·.started.isNone) || k.arr.passes.any (·.started.isNone)

/-- A direct LOAD issues in the cycle in which the array can start it (R65, R66, Table 6-3). -/
def loadRule (c : Nat) (iw : InstrWord) : OpRule :=
  { check := fun a w => badUnless (a % 64 == 0 && w.hw.loadOk (loadOf iw a)), reads := []
    before := fun h => h.elapse (h.loadFree c)
    hold := fun _ w => macroHolds c w || w.hw.arrHeld c
    effect := fun a w => w.onHwMem (fun m h =>
      let l := { loadOf iw a with owner := (h.segOf c).1 }
      if h.loadMeets c l then h.haltAt c 0x20 Rc.PRG_BAD_OPERAND else h.beginLoad m c l []) }

/-- PASS's parameters (R163, R164): the masks come from the mask block. -/
def passOf (w : Work) (c : Nat) (iw : InstrWord) (addr : Nat) : ArrPass :=
  let mask := ifld iw 8 31 1 == 1
  let mb := ifld iw 24 0 32
  let cb := ifld iw 20 0 32
  { mode := ifld iw 8 0 2, fmtA := ifld iw 8 2 4, fmtB := ifld iw 8 6 4, kRows := ifld iw 8 10 10, cols := ifld iw 8 20 7,
    accumulate := ifld iw 8 27 1 == 1, sealing := ifld iw 8 28 1 == 1, swap := ifld iw 8 29 1 == 1, csum := ifld iw 8 30 1 == 1,
    len := ifld iw 12 0 13, tile := ifld iw 12 13 4, line0 := ifld iw 12 17 9,
    rowMask := if mask then leNat (w.mm c mb 64) % 2 ^ (ifld iw 12 0 13) else 0, colMask := if mask then leNat (w.mm c (mb + 64) 8) else 0,
    bankA := addr / bankBytes, lineA := addr % bankBytes / 64, bankB := cb / bankBytes, lineB := cb % bankBytes / 64 }

/-- The operands of a direct PASS beside its parameters (R164). -/
def passFieldsOk (w : Work) (c : Nat) (iw : InstrWord) (addr : Nat) : Bool :=
  let mask := ifld iw 8 31 1 == 1
  let mb := ifld iw 24 0 32
  let cb := ifld iw 20 0 32
  addr % 64 == 0 && (if ifld iw 8 0 2 == 2 then cb % 64 == 0 else cb == 0) &&
  (if mask then mb % 64 == 0 && w.hw.inMatrix mb 128 && (w.mm c (mb + 72) 56).all (· == 0#8) else mb == 0)

/-- A direct PASS issues in the cycle in which the array can start it (R66, R71, R73, Table 6-3): PRG_BAD_OPERAND, RES_ACC_OVERFLOW, or it
begins to feed. -/
def passRule (c : Nat) (iw : InstrWord) : OpRule :=
  { check := fun a w => badUnless (passFieldsOk w c iw a && w.hw.passOk (passOf w c iw a)), reads := []
    extent := fun _ => if ifld iw 8 31 1 == 1 then [(ifld iw 24 0 32, 128)] else []
    before := fun h => h.elapse (h.feedFree c)
    hold := fun a w => macroHolds c w || !w.hw.passFree w.mem c (passOf w c iw a)
    effect := fun a w => w.onHwMem (fun m h =>
      let p := { passOf w c iw a with owner := (h.segOf c).1 }
      if h.build.accTiles ≤ p.tile then h.raise Rc.RES_ACC_OVERFLOW (h.arrSrc c)
      else if h.passMeets c p || !bankMatches (if p.swap then (h.arr c).standby else (h.arr c).active) p then h.haltAt c 0x21 Rc.PRG_BAD_OPERAND
      else h.beginPass m c p []) }

/-- The checks of R240 on a tambour: its state, its image's hoop, and the function named, if any: 0 or the failing code. `fixed`
asks for a FIXED function (R239). -/
def Hw.tambourUse (h : Hw) (c hoop : Nat) (f : Option Nat) (fixed : Bool) : Nat :=
  if h.get F.TB_STATUS_STATE c != 4 then Rc.TBR_NOT_READY
  else if !(h.on F.TB_ID_OPERATOR c || h.get F.TB_ID_HOOP c == hoop) then Rc.SEC_HOOP_VIOLATION
  else match f with
    | none => 0
    | some n => if h.on F.TB_FN_DEFINED (Hw.sub c 16 n) && (!fixed || h.on F.TB_FN_FIXED (Hw.sub c 16 n)) then 0 else Rc.TBR_NO_FUNCTION

/-- DRAIN's command (R163, R165). -/
def drainOf (h : Hw) (c : Nat) (iw : InstrWord) : DrainOp :=
  { isCvt := false, ringPos := h.head c, tile := ifld iw 8 0 4, line0 := ifld iw 8 4 9, lines := ifld iw 8 13 10, raw := ifld iw 8 23 1 == 1,
    gather := ifld iw 8 24 1 == 1, dest := ifld iw 8 27 5, rfn := ifld iw 12 0 8, outFmt := ifld iw 12 8 4, rowbuf := ifld iw 12 12 20,
    lscale := if ifld iw 16 21 1 == 1 then some (ifld iw 16 0 21 * 16) else none,
    cscale := if ifld iw 20 21 1 == 1 then some (ifld iw 20 0 21 * 16) else none,
    i0 := ifld iw 24 0 24, j0 := ifld iw 28 0 16, n := ifld iw 28 16 16 + 1 }

/-- The row functions that a direct DRAIN may name (R165). -/
def directRfn (r : Nat) : Bool := r ≤ 4 || (0x10 ≤ r && r ≤ 0x16) || (0x20 ≤ r && r ≤ 0x2F)

/-- The operands of a DRAIN (R97, R142, R165): a field that RAW, GATHER or a clear PRESENT bit leaves unused is 0. -/
def drainCheck (w : Work) (c : Nat) (iw : InstrWord) : Nat :=
  let h := w.hw
  let op := drainOf h c iw
  let hdrOk (x : Option Nat) : Bool := match x with | none => true | some a => h.inMatrix a 16
  let lRaw := ifld iw 16 0 21
  let cRaw := ifld iw 20 0 21
  let shape := op.tile < h.build.accTiles && 1 ≤ op.lines && op.line0 + op.lines ≤ h.build.arrayRows && directRfn op.rfn && !(op.raw && op.gather)
  let ok :=
    if op.raw then
      (op.dest == 2 || (0x10 ≤ op.dest && op.dest ≤ 0x17)) && op.rfn == 0 && op.outFmt == 0 && op.rowbuf == 0 && lRaw == 0 && cRaw == 0 &&
        op.lscale.isNone && op.cscale.isNone && op.i0 == 0 && op.j0 == 0 && op.n == 1
    else
      (op.lscale.isSome || (lRaw == 0 && op.i0 == 0)) && (op.cscale.isSome || cRaw == 0) && hdrOk op.lscale && hdrOk op.cscale &&
      (if op.gather then
        op.outFmt == 0 && op.j0 < op.n &&
          op.rowbuf * 64 + ((op.line0 + op.lines - 1) * op.n + min op.n (op.j0 + h.build.arrayCols)) * 4 ≤ h.rowBufSize c
       else (op.cscale.isSome || op.j0 == 0) && op.rowbuf == 0 && op.n == 1 && (op.outFmt == 6 || op.outFmt == 5) &&
          (op.dest == 3 || (4 ≤ op.dest && op.dest ≤ 7)))
  if !(shape && ok) then Rc.PRG_BAD_OPERAND
  else if 0x20 ≤ op.rfn then h.tambourUse c (h.segOf c).2 (some (op.rfn - 0x20)) true
  else 0

def drainRule (c : Nat) (iw : InstrWord) : OpRule :=
  { check := fun _ w => drainCheck w c iw, reads := []
    hold := fun _ w => (w.hw.core c).drn.length ≥ 4 || (ifld iw 8 24 1 == 0 && !w.hw.queueRoom c (ifld iw 8 27 5))
    effect := fun _ w => w.onHw (fun h => h.onDrn c (fun xs => xs ++ [{ drainOf h c iw with owner := (h.segOf c).1 }])) }

/-- CVT's command (R166). -/
def cvtOf (h : Hw) (c : Nat) (iw : InstrWord) : DrainOp :=
  { isCvt := true, ringPos := h.head c, lines := ifld iw 8 0 10, fmt := ifld iw 8 10 4, dataClass := ifld iw 8 14 1 == 1,
    segmented := ifld iw 8 15 1 == 1, zp := ifld iw 8 16 8, dest := ifld iw 8 24 5, rowbuf := ifld iw 12 0 20, n := ifld iw 16 0 16 + 1,
    outHdr := ifld iw 20 0 21 * 16, row0 := ifld iw 24 0 24 }

/-- The operands of a CVT (R97, R99, R102, R166). -/
def cvtCheck (w : Work) (c : Nat) (iw : InstrWord) : Nat :=
  let h := w.hw
  let op := cvtOf h c iw
  let narrow := op.fmt ≤ 4 || (8 ≤ op.fmt && op.fmt ≤ 0xB)
  badUnless (narrow && 1 ≤ op.lines && op.lines ≤ h.build.arrayRows && op.dest == 3 && h.inMatrix op.outHdr 16 &&
    (!op.segmented || (op.fmt == 0 && !op.dataClass)) && (!op.dataClass || (op.fmt != 10 && op.fmt != 11)) &&
    (if op.fmt == 10 then op.zp ≤ 15 else op.fmt == 11 || op.zp == 0) && op.rowbuf * 64 + op.lines * op.n * 4 ≤ h.rowBufSize c)

def cvtRule (c : Nat) (iw : InstrWord) : OpRule :=
  { check := fun _ w => cvtCheck w c iw, reads := [], hold := fun _ w => (w.hw.core c).drn.length ≥ 4 || !w.hw.queueRoom c 3
    effect := fun _ w => w.onHw (fun h => h.onDrn c (fun xs => xs ++ [{ cvtOf h c iw with owner := (h.segOf c).1 }])) }

/-- Sources that a VOP may name, and destinations (Table 6-4). -/
def vopSrcOk (q : Nat) : Bool := q == 2 || (4 ≤ q && q ≤ 7) || q == 9 || (0x10 ≤ q && q ≤ 0x17) || q == 0x1E
def vopDestOk (q : Nat) : Bool := (4 ≤ q && q ≤ 8) || (0x10 ≤ q && q ≤ 0x17)

/-- VOP's command. A source that the function does not take is none (1Fh) or 0. -/
def vopOf (h : Hw) (c : Nat) (iw : InstrWord) : VecOp :=
  let f := ifld iw 8 0 8
  let n := vecArity f
  { op := 0, ringPos := h.head c, func := f, src1 := if n ≥ 1 then ifld iw 8 8 5 else 0x1F, src2 := if n ≥ 2 then ifld iw 8 13 5 else 0x1F,
    src3 := if n ≥ 3 then ifld iw 8 18 5 else 0x1F, dest := ifld iw 8 23 5, count := ifld iw 12 0 32, imm := ifld iw 16 0 32 }

/-- The operands of a VOP (R147, R167, R240). -/
def vopCheck (w : Work) (c : Nat) (iw : InstrWord) : Nat :=
  let f := ifld iw 8 0 8
  let n := vecArity f
  let s1 := ifld iw 8 8 5
  let s2 := ifld iw 8 13 5
  let s3 := ifld iw 8 18 5
  let d := ifld iw 8 23 5
  let unused (q : Nat) : Bool := q == 0 || q == 0x1F
  let usesImm := (n ≥ 1 && s1 == 0x1E) || (n ≥ 2 && s2 == 0x1E) || (n ≥ 3 && s3 == 0x1E)
  let ok := n ≥ 1 && vopSrcOk s1 && (if n ≥ 2 then vopSrcOk s2 else unused s2) && (if n ≥ 3 then vopSrcOk s3 else unused s3) && vopDestOk d &&
    (1 ≤ ifld iw 12 0 32 && ifld iw 12 0 32 ≤ 65535) && (usesImm || ifld iw 16 0 32 == 0)
  if !ok then Rc.PRG_BAD_OPERAND
  else if d == 8 then w.hw.tambourUse c (w.hw.segOf c).2 (some 0) false
  else if [s1, s2, s3].contains 9 then w.hw.tambourUse c (w.hw.segOf c).2 none false
  else 0

/-- A vector operation is held while the vector unit's queue is full, a source is empty or its destination is full (Table 6-3). -/
def vecHold (c : Nat) (op : VecOp) (w : Work) : Bool :=
  (w.hw.core c).vec.length ≥ 4 || (vecSources op).any (fun q => (w.hw.queue c (popSide q)).isEmpty) || (vecDests op).any (fun q => !w.hw.queueRoom c q)

def vecRule (c : Nat) (check : Nat → Work → Nat) (mk : Hw → Nat → VecOp) : OpRule :=
  { check := check, reads := [], hold := fun a w => vecHold c (mk w.hw a) w
    effect := fun a w => w.onHw (fun h => h.onVec c (fun xs => xs ++ [{ mk h a with owner := (h.segOf c).1 }])) }

def vopRule (c : Nat) (iw : InstrWord) : OpRule := vecRule c (fun _ w => vopCheck w c iw) (fun h _ => vopOf h c iw)

/-- Every chunk of a strided range is aligned and lies in matrix memory (R142). -/
def stridedOk (w : Work) (addr stride count n : Nat) : Bool :=
  addr % 64 == 0 && stride % 64 == 0 && 1 ≤ count && w.hw.inMatrix (addr + (count - 1) * stride) n

def vldOf (h : Hw) (c : Nat) (iw : InstrWord) (addr : Nat) : VecOp :=
  { op := 1, ringPos := h.head c, dest := ifld iw 8 0 5, bf16 := ifld iw 8 5 1 == 1, addr := addr, count := ifld iw 16 0 32, stride := ifld iw 20 0 32 }

def vldRule (c : Nat) (iw : InstrWord) : OpRule :=
  vecRule c (fun a w => badUnless (4 ≤ ifld iw 8 0 5 && ifld iw 8 0 5 ≤ 7 &&
    stridedOk w a (ifld iw 20 0 32) (ifld iw 16 0 32) (w.hw.build.arrayCols * (if ifld iw 8 5 1 == 1 then 2 else 4)))) (fun h a => vldOf h c iw a)

def vstOf (h : Hw) (c : Nat) (iw : InstrWord) (addr : Nat) : VecOp :=
  { op := 2, ringPos := h.head c, src1 := ifld iw 8 0 5, fmt := ifld iw 8 5 2, addr := addr, count := ifld iw 16 0 32, stride := ifld iw 20 0 32 }

def vstRule (c : Nat) (iw : InstrWord) : OpRule :=
  let q := ifld iw 8 0 5
  vecRule c (fun a w =>
    let ok := (vopSrcOk q || q == 3) && q != 0x1E && ifld iw 8 5 2 ≤ 2 &&
      stridedOk w a (ifld iw 20 0 32) (ifld iw 16 0 32) (w.hw.build.arrayCols * (if ifld iw 8 5 2 == 1 then 2 else 4))
    if !ok then Rc.PRG_BAD_OPERAND else if q == 9 then w.hw.tambourUse c (w.hw.segOf c).2 none false else 0) (fun h a => vstOf h c iw a)

/-- The optimiser row block's fields are in range (R142, Table 6-11). -/
def orbOk (w : Work) (c addr : Nat) : Bool :=
  let orb := w.mm c addr 64
  let u (o : Nat) : Nat := leAt o 4 orb
  let n := u 48
  [16, 20, 24, 28].all (fun o => u o % 4 == 0 && w.hw.inMatrix (u o) 4) && u 32 % 16 == 0 && w.hw.inMatrix (u 32) 48 &&
  [36, 40, 44].all (fun o => u o % 64 == 0 && u o + 4 * n ≤ w.hw.rowBufSize c) && (1 ≤ n && n ≤ 65536) && leAt 54 2 orb == 0 && u 60 == 0

def voptRule (c : Nat) (_ : InstrWord) : OpRule :=
  { check := fun a w => badUnless (addrOk w a 64 64 && orbOk w c a), reads := [], hold := fun _ w => (w.hw.core c).vec.length ≥ 4
    extent := fun a => [(a, 64)]
    effect := fun a w => runVopt w c a }

end Sys2Proof.Machine
end

