-- ==== Sys2Proof/Machine/Sync.lean ====
section
/-! DEFINITION. Sync objects and the couch unit (R258 to R270, R452). -/

namespace Sys2Proof.Machine

namespace Hw

/-- The sync unit as a source of a raise in the run. -/
def sySrc (h : Hw) : Src := { unit := 0x91, inRun := h.run.on, reason := some (F.SY_USTATUS_REASON, 0) }

/-- The object that a name stands for, from a logical core (R259). -/
def objOf (h : Hw) (logical name : Nat) : Option Nat :=
  if name < 64 then some (64 * logical + name)
  else if 64 * h.build.cores ≤ name && name ≤ 16383 then some name
  else none

def isShared (h : Hw) (g : Nat) : Bool := 64 * h.build.cores ≤ g

/-- An object lies in the sync range of a valid hoop (R260). -/
def inSyncRange (h : Hw) (hoop g : Nat) : Bool :=
  h.on F.HP_CTRL_VALID hoop && h.get F.HP_SYNC_BASE hoop ≤ g && g < h.get F.HP_SYNC_BASE hoop + h.get F.HP_SYNC_COUNT hoop

/-- The hoop to which an object belongs (R260). -/
def objHoop (h : Hw) (g : Nat) : Option Nat :=
  if h.isShared g then (h.listed .HP_CTRL).find? (fun n => h.inSyncRange n g)
  else
    let s := h.seq (h.physOf (g / 64))
    if s.bound then s.runHoop else none

/-- Zeroing of the sync unit is in progress (R452). -/
def syncInit (h : Hw) : Bool := h.on F.SY_CTRL_INIT

/-- Apply an amount to an object: past FFFF_FFFFh it saturates with SYN_COUNTER_OVERFLOW (R263). -/
def applyInc (h : Hw) (g v : Nat) : Hw :=
  let x := h.rd .SY_VALUE g + v
  if x ≤ 0xFFFFFFFF then h.wr .SY_VALUE g x
  else ((h.wr .SY_VALUE g 0xFFFFFFFF).setFlag F.SY_STATUS_OVERFLOW g).raise Rc.SYN_COUNTER_OVERFLOW h.sySrc

/-- Increments whose cycle has come are applied, each as of its cycle (R262). -/
def settleIncs (h : Hw) : Hw :=
  let due := h.syncIncs.filter (fun x => x.2.2 ≤ h.ticks)
  let h := { h with syncIncs := h.syncIncs.filter (fun x => h.ticks < x.2.2) }
  due.foldl (fun h x => { { h with ticks := x.2.2 }.applyInc x.1 x.2.1 with ticks := h.ticks }) h

/-- An increment is issued: it shows from the next cycle on a core-local object, from the fourth on a shared one (R262). -/
def increment (h : Hw) (g v : Nat) : Hw :=
  { h with syncIncs := h.syncIncs ++ [(g, v, h.afterCycle (if h.isShared g then 4 else 1))] }

/-- An increment by an operation of a core's bound run on a named object (R259, R260); a shared object outside the hoop's range
raises SEC_HOOP_VIOLATION. -/
def signalFrom (h : Hw) (c name v : Nat) (src : Src) : Hw :=
  match h.objOf ((h.logicalOf c).getD 0) name with
  | none => h
  | some g =>
    if h.isShared g && !h.inSyncRange src.hoop g then h.raise Rc.SEC_HOOP_VIOLATION src
    else h.increment g v

/-! The couch unit. -/

/-- A mark is reached (R266). -/
def reached (count mark : Nat) : Bool := (count + 2 ^ 32 - mark) % 2 ^ 32 < 2 ^ 31

/-- Show the number of pending requests. -/
def showCouch (h : Hw) : Hw :=
  let n := h.couchPending.length
  (h.put F.SY_COUCH_PENDING n).put F.SY_COUCH_PEAK (max n (h.get F.SY_COUCH_PEAK))

/-- A request arrives at this block's couch unit (R265, R266, R452). -/
def couchArrive (h : Hw) (e : CouchReq) : Hw :=
  if h.syncInit then h.inc F.LK_MGMT_DROP_VALUE
  else if !h.run.on || e.fbeat % 2 ^ 32 != h.run.f % 2 ^ 32 then h
  else if !h.isShared e.obj || !h.inSyncRange e.hoop e.obj then h.raise Rc.SEC_HOOP_VIOLATION { h.sySrc with hoop := e.hoop }
  else if reached (h.rd .SY_RX e.stream) e.mark then h.increment e.obj e.value
  else if h.couchPending.length == 256 then h.raise Rc.SYN_COUCH_FULL h.sySrc
  else { h with couchPending := h.couchPending ++ [e] }.showCouch

/-- Valid bytes of a stream have been delivered: its count rises, and in the next cycle the pending requests whose mark is reached
are applied (R189, R266). -/
def received (h : Hw) (stream n : Nat) : Hw :=
  let h := h.wr .SY_RX stream ((h.rd .SY_RX stream + n) % 2 ^ 32)
  let ready := h.couchPending.filter (fun e => e.stream == stream && reached (h.rd .SY_RX stream) e.mark)
  let h := { h with couchPending := h.couchPending.filter (fun e => !(e.stream == stream && reached (h.rd .SY_RX stream) e.mark)) }
  (ready.foldl (fun h e => { h with syncIncs := h.syncIncs ++ [(e.obj, e.value, h.afterCycle 6)] }) h).showCouch

/-! Routes (R302). -/

/-- The port that leads to a fabric address: none where no route is valid; some none where the destination is the block itself. -/
def routeTo (h : Hw) (d : Nat) : Option (Option Nat) :=
  let own := h.get F.LK_ADDR_ADDR
  if d / 256 != own / 256 then
    (if h.on F.LK_GRT_VALID (d / 256) then some (some (h.get F.LK_GRT_PORT (d / 256))) else none)
  else if d != own then (if h.on F.LK_MRT_VALID (d % 256) then some (some (h.get F.LK_MRT_PORT (d % 256))) else none)
  else some none

/-- The link unit as a source of a raise in the run. -/
def lkSrc (h : Hw) : Src := { unit := 0x82, inRun := h.run.on, reason := some (F.LK_STATUS_REASON, 0) }

/-- A couch entry goes on its way: to this block's couch unit, or into the couch queue of the route's port (R297, R302). -/
def couchSend (h : Hw) (e : CouchReq) : Hw :=
  match h.routeTo e.dest with
  | none => h.raise Rc.FAB_NO_ROUTE { h.lkSrc with hoop := e.hoop }
  | some none => h.couchArrive e
  | some (some p) =>
    let q := Tab.getD h.couchOut p []
    if q.length ≥ 64 then h.raise Rc.FAB_COUCH_QUEUE { h.lkSrc with unit := 0x70 + p, reason := some (F.LK_P_STATUS_REASON, p), hoop := e.hoop }
    else { h with couchOut := Tab.put h.couchOut [] p (q ++ [{ e with frame := h.time.beat + (if h.cycle ≤ 220 then 0 else 1) }]) }

/-! Commit and abort. -/

/-- Objects that hold anything. -/
def liveObjects (h : Hw) : List Nat := (h.listed .SY_VALUE ++ h.listed .SY_WMARK ++ h.listed .SY_COMMITTED).eraseDups

/-- The re-base of the commit (R268). -/
def rebase (h : Hw) : Hw :=
  let h := h.liveObjects.foldl (fun h g =>
    let v := h.rd .SY_VALUE g
    let wm := h.rd .SY_WMARK g
    let h := if v < wm then (h.setFlag F.SY_STATUS_UNDER g).raise Rc.SYN_REBASE_UNDER h.sySrc else h
    ((h.wr .SY_VALUE g (v - min v wm)).wr .SY_COMMITTED g (v - min v wm)).wr .SY_WMARK g 0) h
  h.clearReg .SY_RX

/-- The return to the committed values at an abort (R269). -/
def syncAbort (h : Hw) : Hw :=
  let h := h.liveObjects.foldl (fun h g => (h.wr .SY_VALUE g (h.rd .SY_COMMITTED g)).wr .SY_WMARK g 0) h
  { h with syncIncs := [], couchPending := [] }.clearReg .SY_RX |>.showCouch

/-- A write of SY_CTRL (R286, R452). -/
def writeSyCtrl (h : Hw) (v : Nat) : Hw :=
  let en := h.on F.SY_CTRL_ENABLE
  if !en && bit 0 v then
    if !h.hasPlan then h.refuse Rc.CFG_SY_DEPENDS F.SY_USTATUS_REASON 0 0x91
    else
      let h := (h.put F.SY_CTRL_ENABLE 1).put F.SY_CTRL_INIT 1
      let h := (((h.clearReg .SY_VALUE).clearReg .SY_COMMITTED).clearReg .SY_WMARK).clearReg .SY_RX
      { h with syncIncs := [], couchPending := [], syncInitDue := some (h.after 16384) }.showCouch.put F.SY_COUCH_PEAK 0
  else h.put F.SY_CTRL_ENABLE (flag (bit 0 v))

/-- The zeroing ends (R452). -/
def syncInitDone (h : Hw) : Hw :=
  match h.syncInitDue with
  | none => h
  | some t => { h.elapse t with syncInitDue := none }.put F.SY_CTRL_INIT 0

/-- An object may be hand-set by the debug port (R270): D3, or D2 for the hoop that the object belongs to. -/
def mayHandSet (h : Hw) (g : Nat) : Bool :=
  let l := h.get F.SC_DEBUG_LEVEL
  l == 3 || (l == 2 && h.objHoop g == some (h.get F.SC_DEBUG_HOOP))

/-- A write of SY_VALUE (R263, R270, R452): accepted from the debug port alone. The hoop's contexts are marked DEBUGGED. -/
def handSet (h : Hw) (a : Agent) (g v : Nat) : Hw :=
  if h.syncInit then h
  else if a != .debug || !h.mayHandSet g then h.refuse Rc.SEC_HOOP_VIOLATION F.SY_USTATUS_REASON 0 0x91
  else
    let h := h.settleIncs
    let h := ((h.wr .SY_VALUE g (v % 2 ^ 32)).wr .SY_COMMITTED g (v % 2 ^ 32)).setFlag F.SY_STATUS_HAND_SET g
    match h.objHoop g with
    | none => h
    | some n => (h.listed .CTX_STATE).foldl (fun h x =>
        if h.get F.CTX_STATE_HOOP x == n && h.get F.CTX_STATE_STATE x != 0 then { h with debugged := Tab.insert h.debugged x 1 } else h) h

end Hw

/-! The SYNC instructions (R261 to R265). -/

/-- The cycle in which a WAIT or TAKE of a logical core looks at an object: any cycle for a core-local one, cycles congruent to the
core's number modulo 4 from the run start for a shared one (R262). -/
def Hw.syncLook (h : Hw) (logical g : Nat) : Hw :=
  let n := (h.ticks - h.run.startTick + 3) / 4
  let h := if h.isShared g then h.elapse (h.run.startTick + 4 * (n + (logical + 4 - n % 4) % 4)) else h
  h.settleIncs

/-- What TAKEs of the present cycle have subtracted from an object (R263). -/
def Hw.takenNow (h : Hw) (g : Nat) : Nat :=
  (h.takesNow.filter (fun x => x.1 == g && x.2.2 == h.cycleTick)).foldl (fun a x => a + x.2.1) 0

/-- A TAKE is granted. -/
def Hw.grantTake (h : Hw) (g v : Nat) : Hw :=
  { h.wr .SY_VALUE g (h.rd .SY_VALUE g - v) with takesNow := h.takesNow.filter (fun x => x.2.2 == h.cycleTick) ++ [(g, v, h.cycleTick)] }

/-- Fields of SYNC that must be 0, and the ranges of VALUE (R261). -/
def syncFieldsOk (op : Nat) (iw : InstrWord) : Bool :=
  let v := ifld iw 12 0 32
  let rest := ifld iw 16 0 32 == 0 && ifld iw 20 0 32 == 0
  match op with
  | 0 => rest
  | 1 => rest && v ≥ 1
  | 2 => rest && v == 0
  | 3 => rest && v ≥ 1
  | 4 => v ≥ 1
  | _ => false

/-- SYNC. -/
def syncRule (c : Nat) (iw : InstrWord) : OpRule :=
  let op := ifld iw 8 0 3
  let name := ifld iw 8 3 14
  let v := ifld iw 12 0 32
  let logical (h : Hw) : Nat := (h.logicalOf c).getD 0
  let g (h : Hw) : Nat := (h.objOf (logical h) name).getD 0
  let hoop (h : Hw) : Nat := (h.segOf c).2
  let outside (h : Hw) : Bool := op != 4 && h.isShared (g h) && !h.inSyncRange (hoop h) (g h)
  let violation (h : Hw) : Hw := h.raise Rc.SEC_HOOP_VIOLATION (h.coreSrc c 0xA0 (some F.CR_SEQ_STATUS_REASON))
  { check := fun _ w => badUnless (syncFieldsOk op iw && (w.hw.objOf (logical w.hw) name).isSome)
    reads := []
    before := fun h => if op ≤ 1 && !outside h then h.syncLook (logical h) (g h) else h
    hold := fun _ w => w.hw.syncInit || (op ≤ 1 && !outside w.hw && w.hw.rd .SY_VALUE (g w.hw) + (if op == 0 then w.hw.takenNow (g w.hw) else 0) < v)
    effect := fun _ w => w.onHw (fun h =>
      if outside h then violation h
      else match op with
        | 0 => h.wr .SY_WMARK (g h) (max (h.rd .SY_WMARK (g h)) v)
        | 1 => h.grantTake (g h) v
        | 2 => h.increment (g h) 1
        | 3 => h.increment (g h) v
        | _ =>
          let e : CouchReq :=
            { dest := ifld iw 16 0 16, obj := name, value := v, mark := ifld iw 20 0 32, stream := ifld iw 16 16 12, hoop := hoop h,
              fbeat := h.run.f % 2 ^ 32 }
          h.couchSend e) }

end Sys2Proof.Machine
end

