-- ==== Sys2Proof/Machine/Tiles.lean ====
section
/-! DEFINITION. Matrix macros: descriptors, the parameter block, tiles, the walk, and the layout of staging (R109 to R127, R68). -/

namespace Sys2Proof.Machine

/-! Tensor descriptors (Table 5-1). -/

namespace Td

def addr (d : List Byte) : Nat := leAt 0 8 d
def scale (d : List Byte) : Nat := leAt 8 8 d
def rows (d : List Byte) : Nat := leAt 16 4 d
def cols (d : List Byte) : Nat := leAt 20 4 d
def pitch (d : List Byte) : Nat := leAt 24 4 d
def fmt (d : List Byte) : Nat := leAt 28 1 d
def rowsSrc (d : List Byte) : Nat := leAt 29 1 d
def colsSrc (d : List Byte) : Nat := leAt 30 1 d
def loc (d : List Byte) : Nat := leAt 31 1 d % 4
def bstride (d : List Byte) : Int := signed 64 (leAt 32 8 d)
def sstride (d : List Byte) : Int := signed 64 (leAt 40 8 d)
def shapeAddr (d : List Byte) : Nat := leAt 48 4 d

/-- A run-time source code of Table 5-6. -/
def srcOk (s : Nat) : Bool := s == 0 || (0x10 ≤ s && s ≤ 0x1F) || (0x20 ≤ s && s ≤ 0x22)

/-- The checks of BIND (R110 to R112). -/
def ok (d : List Byte) : Bool :=
  let f := fmt d
  (f ≤ 6 || (8 ≤ f && f ≤ 0xC)) && leAt 31 1 d ≤ 1 && leAt 52 4 d == 0 && leAt 56 8 d == 0 &&
  (1 ≤ rows d && rows d ≤ 16777216) && (1 ≤ cols d && cols d ≤ 16777216) &&
  (loc d == 1 || (pitch d % 64 == 0 && packedLen f (cols d) ≤ pitch d)) &&
  srcOk (rowsSrc d) && srcOk (colsSrc d) && shapeAddr d % 4 == 0

/-- ADDR and SCALE of a batch instance. -/
def addrOf (d : List Byte) (b : Nat) : Nat := ((addr d : Int) + b * bstride d).toNat
def scaleOf (d : List Byte) (b : Nat) : Option Nat := if scale d == 0 then none else some ((scale d : Int) + b * sstride d).toNat

end Td

/-! The parameter block (Table 5-3). -/

namespace Mpb

def mode (p : List Byte) : Nat := leAt 0 1 p
def order (p : List Byte) : Nat := leAt 1 1 p
def group (p : List Byte) : Nat := leAt 2 1 p
def split (p : List Byte) : Nat := leAt 3 1 p
def coreSet (p : List Byte) : Nat := leAt 4 2 p
def accBase (p : List Byte) : Nat := leAt 6 1 p
def accCount (p : List Byte) : Nat := leAt 7 1 p
def kblk (p : List Byte) : Nat := leAt 8 2 p
def batchSrc (p : List Byte) : Nat := leAt 10 1 p
def rfn (p : List Byte) : Nat := leAt 11 1 p
def batch (p : List Byte) : Nat := leAt 12 4 p
def stgA (p : List Byte) : Nat := leAt 16 4 p
def stgB (p : List Byte) : Nat := leAt 20 4 p
def rowbuf (p : List Byte) : Nat := leAt 24 4 p
def zp (p : List Byte) : Nat := leAt 28 1 p
def midFmt (p : List Byte) : Nat := leAt 29 1 p
def frows (p : List Byte) : Nat := leAt 30 2 p
def combine (p : List Byte) : Nat := leAt 32 4 p
def signal (p : List Byte) : Nat := leAt 36 2 p
def sigAdd (p : List Byte) : Nat := leAt 38 2 p
def stgMid (p : List Byte) : Nat := leAt 40 4 p
def param (p : List Byte) (i : Nat) : Nat := leAt (48 + 4 * i) 4 p

/-- FIRST bank and SETS of a staging word. -/
def first (s : Nat) : Nat := bits 0 8 s
def sets (s : Nat) : Nat := bits 8 4 s

/-- A staging word is in range. -/
def stgOk (s : Nat) : Bool := s < 4096 && 1 ≤ sets s

end Mpb

/-! Row functions (Table 5-8). -/

/-- A row function whose result needs the whole row. -/
def rowWiseRfn (r : Nat) : Bool := 0x17 ≤ r && r ≤ 0x1A

/-- A row function that pops an operand from V0. -/
def rfnOperand (r : Nat) : Bool := r == 0x03 || r == 0x15 || r == 0x16 || r == 0x19 || r == 0x1A

/-- A code of Table 5-8. -/
def rfnDefined (r : Nat) : Bool := r ≤ 4 || (0x10 ≤ r && r ≤ 0x1A) || (0x20 ≤ r && r ≤ 0x2F)

/-- A narrow output format (R88, R98). -/
def narrowFmt (f : Nat) : Bool := f ≤ 4 || (8 ≤ f && f ≤ 0xB)

namespace Macro

def a (m : Macro) : List Byte := m.descs.getD 0 []
def b1 (m : Macro) : List Byte := m.descs.getD 1 []
/-- Operand B of a product. -/
def bOf (m : Macro) (product : Nat) : List Byte := m.descs.getD product []
def output (m : Macro) : List Byte := m.descs.getD (if m.two then 3 else 2) []
def mode (m : Macro) : Nat := Mpb.mode m.mpb
def rfn (m : Macro) : Nat := Mpb.rfn m.mpb

/-- Formats of the operands of a product. -/
def fmtA (m : Macro) (product : Nat) : Nat := if product == 2 then Mpb.midFmt m.mpb else Td.fmt m.a
def fmtB (m : Macro) (product : Nat) : Nat := Td.fmt (m.bOf product)

/-- Elements per PE, and whether the product accumulates in I32. -/
def cls (m : Macro) (product : Nat) : Nat × Bool := (classOf (m.fmtA product) (m.fmtB product)).getD (1, false)

/-- Planned M, N, K of a product, and run-time M, N, K. -/
def planM (m : Macro) : Nat := Td.rows m.a
def planN (m : Macro) (product : Nat) : Nat := Td.cols (m.bOf product)
def planK (m : Macro) (product : Nat) : Nat := if product == 2 then Td.cols m.b1 else Td.cols m.a
def runN (m : Macro) (product : Nat) : Nat := if m.two && product == 1 then m.rtMid else m.rtN
def runK (m : Macro) (product : Nat) : Nat := if product == 2 then m.rtMid else m.rtK

end Macro

/-- Sizes M_T, N_T, K_T of a tile (Table 5-4). -/
def tileM (b : Build) (mode : Nat) : Nat := if mode == 1 then b.arrayCols else b.arrayRows
def tileN (b : Build) (mode : Nat) : Nat := if mode == 1 then b.arrayRows else b.arrayCols
def tileK (b : Build) (mode kblk epp : Nat) : Nat := (if mode == 2 then kblk else b.arrayRows) * epp

/-- The length of tile i of a dimension. -/
def tileLen (total size i : Nat) : Nat := min size (total - i * size)

/-- Elements of a tile inside the run-time extent. -/
def tileValid (rt total size i : Nat) : Nat := min (tileLen total size i) (rt - i * size)

/-! The walk (R117, R118, R127). -/

/-- hilbert_d2xy of R117. -/
def hilbert (k d : Nat) : Nat × Nat :=
  let r := (List.range k).foldl (fun (st : Nat × Nat × Nat) i =>
    let t := st.1
    let s := 2 ^ i
    let rx := t / 2 % 2
    let ry := (t + rx) % 2
    let x := st.2.1
    let y := st.2.2
    let p := if ry == 0 then (if rx == 1 then (s - 1 - y, s - 1 - x) else (y, x)) else (x, y)
    (t / 4, p.1 + s * rx, p.2 + s * ry)) (d, 0, 0)
  r.2

/-- The smallest k with 2^k at or above n. -/
def log2Up (n : Nat) : Nat := ((List.range 32).find? (fun k => n ≤ 2 ^ k)).getD 32

/-- Grid points of a bx × by grid in Hilbert order. -/
def gridWalk (bx by' : Nat) : List (Nat × Nat) :=
  ((List.range (4 ^ log2Up (max bx by'))).map (hilbert (log2Up (max bx by')))).filter (fun p => p.1 < bx && p.2 < by')

/-- What the walk of one macro is cut into. -/
structure WalkPlan where
  st : Nat
  ot : Nat
  kt : Nat
  group : Nat
  split : Nat
  rank : Nat
  members : Nat

/-- K tiles of a member in its order, with idle places where the share has run out (R127). -/
def memberK (p : WalkPlan) : List (Nat × Bool) :=
  if p.split == 3 then (List.range (ceilDiv p.kt p.members)).map (fun i => (i * p.members + p.rank, i * p.members + p.rank ≥ p.kt))
  else (List.range p.kt).map (fun k => (k, false))

/-- Passes of one visit in order (R117, R118, R127). -/
def visitPasses (p : WalkPlan) (b x y v : Nat) : List GenPass :=
  let ks := memberK p
  let lastK := ((ks.filter (fun k => !k.2)).map (·.1)).getLast?
  let o := if p.split == 1 then y * p.members + p.rank else y
  (ks.map (fun kc => ((List.range p.group).filter (fun g => (if p.split == 2 then x * p.members else x) * p.group + g < p.st)).map (fun g =>
    let s := (if p.split == 2 then x * p.members + p.rank else x) * p.group + g
    ({ n := 0, b := b, s := s, o := o, kc := kc.1, g := g, v := v, first := ks.head?.any (fun k => k.1 == kc.1), last := lastK == some kc.1,
       idle := kc.2 || p.ot ≤ o || p.st ≤ s } : GenPass)))).flatten

/-- Passes of ORDER 0 of a batch instance. -/
def bandFirst (p : WalkPlan) (b : Nat) : List GenPass :=
  let bx := ceilDiv (ceilDiv p.st p.group) (if p.split == 2 then p.members else 1)
  let by' := ceilDiv p.ot (if p.split == 1 then p.members else 1)
  let grid := gridWalk bx by'
  ((List.range grid.length).map (fun v => let q := grid.getD v (0, 0); visitPasses p b q.1 q.2 v)).flatten

/-- Passes of ORDER 1 of a batch instance. -/
def kFirst (p : WalkPlan) (b : Nat) : List GenPass :=
  let p1 := { p with group := 1 }
  let bx := ceilDiv p.st (if p.split == 2 then p.members else 1)
  let by' := ceilDiv p.ot (if p.split == 1 then p.members else 1)
  let ks := memberK p
  (ks.map (fun kc => ((gridWalk bx by').map (fun q =>
    (visitPasses p1 b q.1 q.2 (q.1 * p.ot + q.2)).filter (fun x => x.kc == kc.1))).flatten)).flatten

/-- Number the passes. -/
def numbered (ps : List GenPass) : List GenPass := (List.range ps.length).map (fun i => match ps[i]? with
  | some p => { p with n := i }
  | none => { n := i, b := 0, s := 0, o := 0, kc := 0, g := 0, v := 0, first := false, last := false })

namespace Macro

/-- The plan of the walk of a product. -/
def walkPlan (bld : Build) (m : Macro) (product : Nat) : WalkPlan :=
  let mo := m.mode
  let mt := ceilDiv m.planM (tileM bld mo)
  let nt := ceilDiv (m.planN product) (tileN bld mo)
  { st := if mo == 1 then nt else mt, ot := if mo == 1 then mt else nt,
    kt := ceilDiv (m.planK product) (tileK bld mo (Mpb.kblk m.mpb) (m.cls product).1),
    group := Mpb.group m.mpb, split := Mpb.split m.mpb, rank := m.rank, members := m.members }

/-- Passes of a fused product (R133): chunk by chunk, product 1 over N1, then product 2 over N2, K inner. -/
def fusedPasses (bld : Build) (m : Macro) (b : Nat) : List GenPass :=
  let one (product chunk v0 : Nat) : List GenPass :=
    let p := m.walkPlan bld product
    let nt := if m.mode == 1 then p.st else p.ot
    ((List.range nt).map (fun y => (List.range p.kt).map (fun kc =>
      ({ n := 0, b := b, s := if m.mode == 1 then y else chunk, o := if m.mode == 1 then chunk else y, kc := kc, g := 0, v := v0 + y,
         first := kc == 0, last := kc + 1 == p.kt, product := product, chunk := chunk } : GenPass)))).flatten
  let nts (product : Nat) : Nat := let p := m.walkPlan bld product; if m.mode == 1 then p.st else p.ot
  ((List.range (ceilDiv m.planM (max 1 (Mpb.frows m.mpb)))).map (fun c =>
    one 1 c (c * (nts 1 + nts 2)) ++ one 2 c (c * (nts 1 + nts 2) + nts 1))).flatten

/-- Every pass of the macro in generated order. -/
def allPasses (bld : Build) (m : Macro) : List GenPass :=
  numbered (((List.range (Mpb.batch m.mpb)).map (fun b =>
    if m.two then m.fusedPasses bld b
    else if Mpb.order m.mpb == 0 then bandFirst (m.walkPlan bld 1) b
    else kFirst (m.walkPlan bld 1) b)).flatten)

/-- First row of a pass's M range, its planned rows, and its rows inside the run-time shape. -/
def mOf (bld : Build) (m : Macro) (p : GenPass) : Nat × Nat × Nat :=
  let size := if m.two then max 1 (Mpb.frows m.mpb) else tileM bld m.mode
  let i := if m.mode == 1 then p.o else p.s
  (i * size, tileLen m.planM size i, tileValid m.rtM m.planM size i)

/-- First column of a pass's N range, its planned columns, and its columns inside the run-time shape. -/
def nOf (bld : Build) (m : Macro) (p : GenPass) : Nat × Nat × Nat :=
  let size := tileN bld m.mode
  let i := if m.mode == 1 then p.s else p.o
  (i * size, tileLen (m.planN p.product) size i, tileValid (m.runN p.product) (m.planN p.product) size i)

/-- First K element of a pass, and its planned K elements. -/
def kOf (bld : Build) (m : Macro) (p : GenPass) : Nat × Nat :=
  let size := tileK bld m.mode (Mpb.kblk m.mpb) (m.cls p.product).1
  (p.kc * size, tileLen (m.planK p.product) size p.kc)

/-- The accumulator tile of a pass (R119). -/
def tileOf (m : Macro) (p : GenPass) : Nat :=
  let g := Mpb.group m.mpb
  if m.two || Mpb.order m.mpb == 0 then
    Mpb.accBase m.mpb + g * (p.v % max 1 (Mpb.accCount m.mpb / max 1 g)) + p.g
  else Mpb.accBase m.mpb + p.v

/-- The pass has SWAP (R118). -/
def swapOf (m : Macro) (p : GenPass) : Bool := p.g == 0 || m.mode == 2

/-- Every column is masked: a share that has run out, or a batch instance beyond the run-time count (R123, R127). -/
def blank (m : Macro) (p : GenPass) : Bool := p.idle || m.rtB ≤ p.b

end Macro

/-! Staging (R68, R116, R120, R123). -/

/-- The code of element (row, col) of a tensor in row-major packed form; 0 outside the given extents. -/
def tensorElem (rd : Nat → Nat → Option (List Byte)) (d : List Byte) (b row col rows cols : Nat) : Nat :=
  if rows ≤ row || cols ≤ col then 0
  else
    let base := Td.addrOf d b + row * Td.pitch d
    let w := fmtBits (Td.fmt d)
    if w == 4 then bits (4 * (col % 2)) 4 (leNat ((rd (base + col / 2) 1).getD []))
    else if w == 6 then bits (6 * (col % 4)) 6 (leNat ((rd (base + col / 4 * 3) 3).getD []))
    else leNat ((rd (base + col * (w / 8)) (w / 8)).getD [])

namespace Macro

/-- An element of operand A at (M index, K index), or of operand B at (N index, K index), inside the run-time shape. -/
def elemA (m : Macro) (rd : Nat → Nat → Option (List Byte)) (b i k : Nat) : Nat := tensorElem rd m.a b i k m.rtM m.rtK
def elemB (m : Macro) (rd : Nat → Nat → Option (List Byte)) (product b j k : Nat) : Nat :=
  tensorElem rd (m.bOf product) b k j (m.runK product) (m.runN product)

/-- Operand 0 (A) or 1 (B) is the stationary one of the mode. -/
def isStationary (m : Macro) (operand : Nat) : Bool := (m.mode == 0 && operand == 1) || (m.mode == 1 && operand == 0)

/-- Data of one PE: epp consecutive K elements of one row of an operand. -/
def peCode (m : Macro) (rd : Nat → Nat → Option (List Byte)) (p : GenPass) (operand mn k : Nat) : Nat :=
  let epp := (m.cls p.product).1
  let f := if operand == 0 then m.fmtA p.product else m.fmtB p.product
  (List.range epp).foldl (fun a i =>
    let kk := k + i
    let e := if operand == 0 then m.elemA rd p.b mn kk else m.elemB rd p.product p.b mn kk
    a + e * 2 ^ (i * fmtBits f)) 0

end Macro

/-- The nibbles of a byte string, and back. -/
def nibbles (bs : List Byte) : List Nat := (bs.map (fun b => [b.toNat % 16, b.toNat / 16])).flatten

def ofNibbles : List Nat → List Byte
  | a :: b :: t => BitVec.ofNat 8 (a + 16 * b) :: ofNibbles t
  | [a] => [BitVec.ofNat 8 a]
  | [] => []

/-- The n low nibbles of a number. -/
def nibblesOf (n x : Nat) : List Nat := (List.range n).map (fun i => bits (4 * i) 4 x)

/-- Write a feeder set (R68): codes of wBits for stream element e and row i; other bytes keep their contents. -/
def writeStream (w : Work) (c bank wBits len groups : Nat) (code : Nat → Nat → Nat) : Work :=
  let nw := wBits / 4
  (List.range groups).foldl (fun w g => (List.range (len + 31)).foldl (fun w l =>
    let addr := (bank + g) * bankBytes + l * 64
    let old := nibbles (w.mm c addr 64)
    let new := ((List.range 32).map (fun i =>
      if i ≤ l && l - i < len then nibblesOf nw (code (l - i) (32 * g + i)) else (old.drop (nw * i)).take nw)).flatten
    w.mmStore c addr (ofNibbles (new ++ old.drop (32 * nw)))) w) w

/-- Write a stationary set (R65): codes of wBits for PE row r and column j. -/
def writeStation (w : Work) (c bank wBits rows cols : Nat) (code : Nat → Nat → Nat) : Work :=
  (List.range rows).foldl (fun w r =>
    let bs := ofNibbles (((List.range cols).map (fun j => nibblesOf (wBits / 4) (code r j))).flatten)
    (List.range (ceilDiv bs.length 64)).foldl (fun w p =>
      w.mmStore c ((bank + p) * bankBytes + r * 64) ((bs.drop (64 * p)).take 64)) w) w

namespace Macro

/-- Bits of the data of one PE of an operand. -/
def peBitsOf (m : Macro) (product operand : Nat) : Nat :=
  (m.cls product).1 * fmtBits (if operand == 0 then m.fmtA product else m.fmtB product)

/-- Banks of a staging set of an operand (R120). -/
def setBanks (bld : Build) (m : Macro) (product operand : Nat) : Nat :=
  if m.isStationary operand then ceilDiv (bld.arrayCols * m.peBitsOf product operand) 512
  else if m.mode == 2 && operand == 1 then bld.arrayCols / 32
  else bld.arrayRows / 32

/-- The number of the set's user: the pass, or the load of a stationary operand. -/
def useNo (m : Macro) (operand n : Nat) : Nat :=
  if m.isStationary operand then ((m.passes.take n).filter m.swapOf).length else n

/-- The staging word of an operand of a pass. -/
def stgOf (m : Macro) (p : GenPass) (operand : Nat) : Nat :=
  if operand == 0 then (if p.product == 2 then Mpb.stgMid m.mpb else Mpb.stgA m.mpb) else Mpb.stgB m.mpb

/-- The tile of a staged tensor (LOC 01b) that a pass reads: tiles stand in row-major order of the tensor's tile grid
(log entry 14). -/
def stagedTile (bld : Build) (m : Macro) (p : GenPass) (operand : Nat) : Nat :=
  let wp := m.walkPlan bld p.product
  let nt := if m.mode == 1 then wp.st else wp.ot
  if operand == 0 then (if m.mode == 1 then p.o else p.s) * wp.kt + p.kc else p.kc * nt + (if m.mode == 1 then p.s else p.o)

/-- First bank and line of an operand of a pass. -/
def placeOf (bld : Build) (m : Macro) (p : GenPass) (operand : Nat) : Nat × Nat :=
  let d := if operand == 0 then m.a else m.bOf p.product
  let stg := m.stgOf p operand
  if operand == 0 && p.product == 2 then (Mpb.first stg + p.kc % max 1 (Mpb.sets stg) * m.setBanks bld 2 0, 0)
  else if Td.loc d == 1 then
    let a := Td.addrOf d p.b + m.stagedTile bld p operand * Td.pitch d
    (a / bankBytes, a % bankBytes / 64)
  else (Mpb.first stg + m.useNo operand p.n % max 1 (Mpb.sets stg) * m.setBanks bld p.product operand, 0)

/-- Far runs of the fetch of an operand of a pass: one for each row of the tensor that the tile touches inside the run-time shape. -/
def fetchRuns (bld : Build) (m : Macro) (p : GenPass) (operand : Nat) : List (Nat × Nat) :=
  let d := if operand == 0 then m.a else m.bOf p.product
  let k := m.kOf bld p
  let kv := min k.2 (m.runK p.product - k.1)
  let mn := if operand == 0 then m.mOf bld p else m.nOf bld p
  let rows := if operand == 0 then (mn.1, mn.2.2) else (k.1, kv)
  let cols := if operand == 0 then (k.1, kv) else (mn.1, mn.2.2)
  let w := fmtBits (Td.fmt d)
  let lo := if w == 4 then cols.1 / 2 else if w == 6 then cols.1 / 4 * 3 else cols.1 * (w / 8)
  let hi := packedLen (Td.fmt d) (cols.1 + cols.2)
  if m.blank p || cols.2 == 0 then []
  else (List.range rows.2).map (fun i => (Td.addrOf d p.b + (rows.1 + i) * Td.pitch d + lo, hi - lo))

/-- Write the staging set of an operand of a pass on a core (R68, R116, R123). -/
def stageFill (m : Macro) (far : Option Nat) (n operand : Nat) (c : Nat) (w : Work) : Work :=
  match m.passes[n]? with
  | none => w
  | some p =>
    let bld := w.hw.build
    let m0 := w.mem
    let rd := spaceBytes w.hw m0 c far
    let k := m.kOf bld p
    let epp := (m.cls p.product).1
    let wb := m.peBitsOf p.product operand
    let place := m.placeOf bld p operand
    let mn := if operand == 0 then m.mOf bld p else m.nOf bld p
    let code (i kk : Nat) : Nat := if kk < k.2 then m.peCode rd p operand (mn.1 + i) (k.1 + kk) else 0
    if m.isStationary operand then
      writeStation w c place.1 wb bld.arrayRows bld.arrayCols (fun r j => if j < mn.2.1 then code j (r * epp) else 0)
    else if m.mode == 2 then
      writeStream w c place.1 wb (ceilDiv k.2 epp) (m.setBanks bld p.product operand) (fun e i => if i < mn.2.1 then code i (e * epp) else 0)
    else writeStream w c place.1 wb mn.2.1 (bld.arrayRows / 32) (fun e r => code e (r * epp))

end Macro

end Sys2Proof.Machine
end

