-- ==== Sys2Proof/Machine/Bobbin.lean ====
section
/-! DEFINITION. Bobbins: descriptors, slots, transfers, the regulator, slot moves and gather mode (R171 to R201). -/

namespace Sys2Proof.Machine

/-! Descriptors. -/

/-- The descriptor in 128 bytes (Table 7-2). -/
def decodeDesc (bs : List Byte) (src : Nat) : BobbinDesc :=
  let u (o n : Nat) : Nat := leAt o n bs
  { op := u 0 1, flags := u 1 1, atom := u 2 1, qend := u 3 1, obj := u 4 2, sigAdd := u 6 2, far := u 8 8, near := u 16 4, mask := u 20 2,
    stream := u 22 2, maxu := u 24 2, ckind := u 26 1, valid0 := u 28 4, counts := (List.range 6).map (fun i => u (32 + 4 * i) 4),
    fstride := (List.range 6).map (fun i => signed 32 (u (56 + 4 * i) 4)), nstride := (List.range 6).map (fun i => signed 32 (u (80 + 4 * i) 4)),
    aux := u 104 8, src := src }

namespace BobbinDesc

/-- Atoms of the descriptor (R174), or runs of a walker descriptor. -/
def total (d : BobbinDesc) : Nat := match d.runs with
  | some r => r.length
  | none => d.counts.foldl (· * ·) 1

/-- Index of a level at an atom. -/
def index (d : BobbinDesc) (i level : Nat) : Nat := i / (d.counts.take level).foldl (· * ·) 1 % max 1 (d.counts.getD level 1)

/-- Address in nibbles of an atom from a base in bytes. -/
def walk (d : BobbinDesc) (base : Nat) (strides : List Int) (i : Nat) : Nat :=
  ((List.range 6).foldl (fun (a : Int) l => a + d.index i l * strides.getD l 0) (2 * base)).toNat

/-- Nibbles of an atom. -/
def size (d : BobbinDesc) (i : Nat) : Nat := match d.runs with
  | some r => 2 * (r.getD i (0, 0)).2
  | none => d.atom

/-- Far-side (FAR, FSTRIDE) and near-side (NEAR, NSTRIDE) addresses of an atom; of MOVE, NSTRIDE steps AUX. -/
def farAt (d : BobbinDesc) (i : Nat) : Nat := match d.runs with
  | some r => 2 * (r.getD i (0, 0)).1
  | none => d.walk (if d.op == 9 then d.far % 2 ^ 32 else d.far) d.fstride i
def nearAt (d : BobbinDesc) (i : Nat) : Nat := d.walk (if d.op == 8 then d.aux else d.near) d.nstride i

/-- An atom that is written as zero and reads no source (VALID0). -/
def isZero (d : BobbinDesc) (i : Nat) : Bool := d.runs.isNone && d.valid0 != 0 && d.valid0 ≤ d.index i 0

def signalEn (d : BobbinDesc) : Bool := bit 0 d.flags
def noAlloc (d : BobbinDesc) : Bool := bit 1 d.flags
def widen (d : BobbinDesc) : Bool := bit 2 d.flags

/-- Lowest and highest nibble that the affine pattern reaches from a base (R176). -/
def extent (d : BobbinDesc) (base : Nat) (strides : List Int) : Int × Int :=
  let ends := (List.range 6).map (fun l => ((d.counts.getD l 1 : Int) - 1) * strides.getD l 0)
  (ends.foldl (fun (a : Int) x => a + min x 0) (2 * base), ends.foldl (fun (a : Int) x => a + max x 0) (2 * base) + d.atom - 1)

end BobbinDesc

/-! The gather parameter block (Table 7-5). -/

namespace Gpb

def idx (p : List Byte) : Nat := leAt 0 4 p
def offs (p : List Byte) : Nat := leAt 4 4 p
def bags (p : List Byte) : Nat := leAt 8 4 p
def rows (p : List Byte) : Nat := leAt 12 4 p
def rowPitch (p : List Byte) : Nat := leAt 16 4 p
def pool (p : List Byte) : Nat := leAt 20 1 p
def efmt (p : List Byte) : Nat := leAt 21 1 p
def elems (p : List Byte) : Nat := leAt 22 2 p
def scales (p : List Byte) : Nat := leAt 24 8 p
def bagStat (p : List Byte) : Nat := leAt 32 4 p
def ovf (p : List Byte) : Nat := leAt 36 4 p
def budget (p : List Byte) : Nat := leAt 40 4 p
def reserve (p : List Byte) : Nat := leAt 44 4 p
def shardRows (p : List Byte) : Nat := leAt 48 4 p
def ovfMax (p : List Byte) : Nat := leAt 52 4 p
def tscale (p : List Byte) : Nat := leAt 56 4 p
def reply (p : List Byte) : Nat := leAt 60 2 p

/-- A remote gather names a shard table. -/
def remote (p : List Byte) : Bool := shardRows p != 0

/-- Bytes of a table row, and of a reply entry (R88, R196). -/
def rowLen (p : List Byte) : Nat := if efmt p == 6 then 4 * elems p else packedLen (efmt p) (elems p)
def entryLen (p : List Byte) : Nat := 4 + 4 * ceilDiv (rowLen p) 4

/-- The block keeps Table 7-5 (R176, R192). -/
def ok (serve : Bool) (p : List Byte) : Bool :=
  let f := efmt p
  (f ≤ 6 || f == 8 || f == 9) && (1 ≤ elems p && elems p ≤ 4096) && rowPitch p % 4 == 0 && rowLen p ≤ rowPitch p && pool p ≤ 4 && leAt 62 2 p == 0 &&
  (if serve then reserve p == 0 && shardRows p == 0 && tscale p == 0 && reply p < 4096
   else idx p % 4 == 0 && (1 ≤ bags p && bags p ≤ 65536) && reply p == 0 &&
     (if remote p then 1 ≤ reserve p && reserve p ≤ 4096 else tscale p == 0))

end Gpb

namespace Hw

def bobbin (h : Hw) (c b : Nat) : Bobbin := Tab.getD (h.core c).bobbins b {}
def onBobbin (h : Hw) (c b : Nat) (f : Bobbin → Bobbin) : Hw := h.onCore c (fun k => { k with bobbins := Tab.modify k.bobbins {} b f })
def slot (h : Hw) (c b s : Nat) : Option BobSlot := Tab.find? (h.bobbin c b).slots s
def onSlot (h : Hw) (c b s : Nat) (f : BobSlot → BobSlot) : Hw :=
  h.onBobbin c b (fun k => match Tab.find? k.slots s with
    | some x => { k with slots := Tab.insert k.slots s (f x) }
    | none => k)

/-- A slot is FREE at once. -/
def freeSlot (h : Hw) (c b s : Nat) : Hw := h.onBobbin c b (fun k => { k with slots := Tab.erase k.slots s })

/-- END: the slot is FREE from the next cycle (R178). -/
def closeOut (h : Hw) (c b s : Nat) : Hw :=
  h.onBobbin c b (fun k => { k with slots := Tab.erase k.slots s, freed := Tab.insert (k.freed.filter (fun x => h.ticks < x.2)) s (h.afterCycle 1) })

/-- A slot is in the cycle of its END. -/
def closing (h : Hw) (c b s : Nat) : Bool := h.ticks < Tab.getD (h.bobbin c b).freed s 0

/-- A slot is busy (R177, R179). -/
def slotBusy (h : Hw) (c b s : Nat) : Bool := (h.slot c b s).isSome || h.closing c b s

/-- Keys of a bobbin's outbound and inbound queues. -/
def outQ (b : Nat) : Nat := 0x10 + b
def inQ (b : Nat) : Nat := 0x18 + b

/-- A bobbin as the source of a raise. -/
def bbSrc (h : Hw) (c : Nat) : Src := { h.coreSrc c 0xC2 (some F.BB_STATUS_REASON) with detail := h.rd .BB_FAULT c }

/-- A bobbin's fault (R197): the first is recorded, and the step is aborted. -/
def bbFault (h : Hw) (c b s op ordinal code : Nat) : Hw :=
  let h := if h.on F.BB_STATUS_FAULT c then h else h.wr .BB_FAULT c (b + s * 2 ^ 3 + op % 16 * 2 ^ 8 + ordinal % 2 ^ 48 * 2 ^ 16)
  (h.setFlag F.BB_STATUS_FAULT c).raise code (h.bbSrc c)

/-- The bobbins that the walker of a core reserves (R190). -/
def walkerBobbin (h : Hw) (c b : Nat) : Bool :=
  [h.get F.BB_CTRL_WALK_A c, h.get F.BB_CTRL_WALK_B c, h.get F.BB_CTRL_WALK_OUT c].contains b

def reservedBobbin (h : Hw) (c b : Nat) : Bool := (h.core c).mac.isSome && h.walkerBobbin c b

/-- Physical cores of a COPY_IN: the mask's, or the issuing core. -/
def copyCores (h : Hw) (c : Nat) (d : BobbinDesc) : List Nat :=
  if d.mask == 0 then [c] else ((List.range 16).filter (fun n => bit n d.mask)).map h.physOf

end Hw

/-! Arming. -/

/-- QEND values of an operation (Table 7-4). -/
def qendOk (b op q : Nat) : Bool :=
  let own := q == 0x10 + b
  let pops := q == 2 || q == 3 || q == 9 || own
  if op == 2 then own else if op == 5 then own || q == 0x1F else if op == 3 then pops else if op == 4 then pops || q == 0x1F else q == 0x1F

/-- A descriptor is well formed (R176, R191, R192). -/
def descOk (h : Hw) (c b : Nat) (bs gpb : List Byte) (d : BobbinDesc) : Bool :=
  let gather := d.op == 6 || d.op == 7
  let logical := (h.logicalOf c).getD 0
  d.op ≤ 9 && d.flags < 8 && (d.op == 2 || !d.widen) && leAt 27 1 bs == 0 && leAt 112 8 bs == 0 && leAt 120 8 bs == 0 && d.ckind ≤ 3 &&
  (if gather then d.atom == 0 else 1 ≤ d.atom && d.atom ≤ 128) &&
  d.counts.all (· ≤ 16777215) && d.valid0 ≤ d.counts.getD 0 0 && qendOk b d.op d.qend &&
  d.stream < 4096 && (d.stream == 0 || d.op == 4 || d.op == 5 || d.op == 7) &&
  (d.mask == 0 || (d.op == 0 && bit logical d.mask && d.mask < 2 ^ h.build.cores)) &&
  (if d.signalEn then 1 ≤ d.sigAdd && (h.objOf logical d.obj).isSome else d.sigAdd == 0) &&
  (if d.op == 4 || d.op == 5 then d.far == 0 else true) && (d.op == 8 || d.op == 6 || d.aux == 0) && (d.op != 9 || d.far < 2 ^ 32) &&
  (!gather || (d.counts.all (· == 0) && d.fstride.all (· == 0) && d.valid0 == 0 &&
    (List.range 6).all (fun l => l == 1 || d.nstride.getD l 0 == 0) && Gpb.ok (d.op == 7) gpb))

/-- A nibble extent lies in matrix memory and touches no row-buffer bank. -/
def nearOk (h : Hw) (c : Nat) (e : Int × Int) : Bool :=
  let lo := h.rowBufBase c
  let hi := lo + h.rowBufSize c
  0 ≤ e.1 && e.2 < 2 * h.matrixSize && (hi == lo || e.2 < 2 * lo || 2 * (hi : Int) ≤ e.1)

/-- The near extents of a descriptor (R176, R191). -/
def rangeOk (h : Hw) (c : Nat) (gpb : List Byte) (d : BobbinDesc) : Bool :=
  if d.op == 6 then
    let k : Int := if Gpb.pool gpb == 0 then 1 else Gpb.bags gpb
    let len := if Gpb.pool gpb == 0 then Gpb.rowLen gpb else 4 * Gpb.elems gpb
    let step := (k - 1) * d.nstride.getD 1 0
    nearOk h c (2 * d.near + min step 0, 2 * d.near + max step 0 + 2 * len - 1)
  else if d.op == 7 || d.op == 8 || d.op == 2 || d.op == 3 || d.counts.any (· == 0) then true
  else if (d.op == 4 || d.op == 5) && d.qend != 0x1F then true
  else (h.copyCores c d).all (fun k => nearOk h k (d.extent d.near d.nstride)) &&
    (d.op != 9 || nearOk h c (d.extent (d.far % 2 ^ 32) d.fstride))

/-- The parameter block of a GATHER or SERVE. -/
def gpbOf (m : Mem) (c : Nat) (d : BobbinDesc) : List Byte := m.read (Area.matrix c) (if d.op == 7 then d.far else d.aux) 64

/-- The checks of a POOL 4 gather on the gather tambour (R243). -/
def Hw.gatherUse (h : Hw) (hoop : Nat) : Nat :=
  if h.get F.GT_STATUS_STATE != 4 then Rc.TBR_NOT_READY
  else if !(h.on F.GT_ID_OPERATOR || h.get F.GT_ID_HOOP == hoop) then Rc.SEC_HOOP_VIOLATION
  else if h.on F.GT_FN_DEFINED && h.on F.GT_FN_FIXED then 0
  else Rc.TBR_NO_FUNCTION

/-- The context that a descriptor works for (R410): that of the open segment, or the macro's for a bobbin of the walker. -/
def Hw.ownerOf (h : Hw) (c b : Nat) : Nat :=
  match (h.core c).mac with
  | some m => if h.walkerBobbin c b then m.owner else (h.segOf c).1
  | none => (h.segOf c).1

/-- Arm a descriptor in a free slot: ARMED from the next cycle, NEXT advances (R177). -/
def Hw.arm (h : Hw) (c b s : Nat) (d : BobbinDesc) : Hw :=
  h.onBobbin c b (fun k =>
    { k with slots := Tab.insert k.slots s { state := 1, since := h.afterCycle 1, desc := d, serial := k.armed + 1, owner := h.ownerOf c b }, next := (s + 1) % 4, armed := k.armed + 1 })

/-- BBARM: reserved, busy, order, descriptor, range, in this order (R173, R176, R177, R190, R243). -/
def bbarm (c b s addr : Nat) (w : Work) : Work :=
  let h := w.hw
  let bs := w.mm c addr 128
  let d := decodeDesc bs addr
  let gpb := gpbOf w.mem c d
  let fault (code : Nat) : Work := w.onHw (fun h => h.bbFault c b s d.op 0 code)
  if h.reservedBobbin c b then fault Rc.RES_BOBBIN_RESERVED
  else if h.slotBusy c b s then fault Rc.RES_BOBBIN_SLOT_BUSY
  else if s != (h.bobbin c b).next then fault Rc.RES_BOBBIN_SLOT_ORDER
  else match h.badSpans c ((addr, 128) :: (if d.op == 6 then [(d.aux, 64)] else if d.op == 7 then [(d.far, 64)] else [])) with
  | some wh => w.onHw (fun h => (h.uncorrectable c 0 wh).bbFault c b s 0 0 Rc.DIN_UNCORRECTABLE)
  | none =>
  if !descOk h c b bs gpb d then fault Rc.RES_BOBBIN_DESC
  else if !rangeOk h c gpb d then fault Rc.RES_BOBBIN_RANGE
  else if d.op == 6 && Gpb.pool gpb == 4 && h.gatherUse (h.segOf c).2 != 0 then fault (h.gatherUse (h.segOf c).2)
  else w.onHw (fun h => h.arm c b s d)

/-- BBARM as an instruction: a misaligned or outlying address halts the core, and so does a T1 end the tambour does not serve (R142,
R240). -/
def bbarmRule (c : Nat) (iw : InstrWord) : OpRule :=
  { check := fun a w =>
      let d := decodeDesc (w.mm c a 128) a
      if !addrOk w a 64 128 then Rc.PRG_BAD_OPERAND
      else if d.qend == 9 && (d.op == 3 || d.op == 4) then w.hw.tambourUse c (w.hw.segOf c).2 none false
      else 0
    reads := []
    hold := fun _ w => w.hw.on F.CR_MM_STATUS_INIT c
    effect := fun a w => bbarm c (ifld iw 8 0 3) (ifld iw 8 3 2) a w }

/-! Nibble access. -/

/-- n nibbles of a core's matrix memory. -/
def mmNibbles (w : Work) (c a n : Nat) : List Nat := ((nibbles (w.mm c (a / 2) (ceilDiv (a % 2 + n) 2))).drop (a % 2)).take n

/-- Bytes of a range with nibbles replaced. -/
def mergeNibbles (old : List Byte) (off : Nat) (xs : List Nat) : List Byte :=
  let o := nibbles old
  ofNibbles (o.take off ++ xs ++ o.drop (off + xs.length))

/-- Store nibbles to a core's matrix memory. -/
def mmPutNibbles (w : Work) (c a : Nat) (xs : List Nat) : Work :=
  if xs.isEmpty then w
  else w.mmStore c (a / 2) (mergeNibbles (w.mm c (a / 2) (ceilDiv (a % 2 + xs.length) 2)) (a % 2) xs)

/-! Transfers. -/

/-- The run of pieces of the next transfer on one side: maximal, consecutive, in one 512-byte block, no zero atom (R174, R175).
A piece is (ordinal, nibble within the atom, address in nibbles, nibbles). The answer has the position after the run. -/
def nextRun (d : BobbinDesc) (at' : Nat → Nat) (skipZero : Bool) : Nat → Nat → Nat → Option Nat → List (Nat × Nat × Nat × Nat) × Nat × Nat
  | 0, pos, off, _ => ([], pos, off)
  | fuel + 1, pos, off, block =>
    if d.total ≤ pos || (skipZero && d.isZero pos) then ([], pos, off)
    else
      let a := at' pos + off
      let here := a / 1024
      if block.any (· != here) then ([], pos, off)
      else
        let left := d.size pos - off
        let n := min left (1024 - a % 1024)
        let next := if n == left then nextRun d at' skipZero fuel (pos + 1) 0 (some here) else ([], pos, off + n)
        ((pos, off, a, n) :: next.1, next.2.1, next.2.2)

/-- Enough steps for any run: a block holds at most 1,024 nibbles, and an atom has at least one unless strides repeat. -/
def runFuel (d : BobbinDesc) : Nat := d.total + 1

namespace Hw

/-- Beat tags in which an operation may start transfers (R171). -/
def mayMove (h : Hw) (m : Mem) (c op : Nat) : Bool :=
  let t := h.coreTag m c
  if op == 9 then t != 0 else t == 1 || t == 3

/-- The bound run's hoop has CONST_TIME (R375). -/
def constTime (h : Hw) (hoop : Nat) : Bool := h.on F.HP_CTRL_CONST_TIME hoop

/-- The tick at which a far transfer that starts now takes effect: its worst case for a CONST_TIME hoop (R223, R375). -/
def effectTick (h : Hw) (hoop worst : Nat) : Nat := if h.constTime hoop then h.after worst else h.ticks

/-- The lowest tag of a port that no outstanding transaction has (R220). -/
def freeTag (h : Hw) (port : Nat) : Option Nat :=
  (List.range 256).find? (fun t => !h.txns.any (fun x => x.port == port && x.tag == t))

/-- Show the transactions in flight of a port. -/
def showOutstanding (h : Hw) (port : Nat) : Hw := h.put F.MP_STATUS_OUTSTANDING (h.txns.filter (·.port == port)).length port

end Hw

/-- What comes of a read transfer's start: a fault, a wait for a tag, or the transfer and the block with what it changed. -/
inductive StartRead where
  | fault (code : Nat) (w : Work)
  | wait
  | started (data : Option (List Nat)) (due : Nat) (w : Work)

/-- The data of a decoded word with five or more symbol errors is open (R213). -/
def garbled (h : Hw) (symbols : Nat) (xs : List Nat) : List Nat :=
  if symbols < 5 then xs else (List.range xs.length).map (fun i => (Config.sc2Byte h.draws i).toNat % 16)

/-- Start a read of the far bytes of a run (R172, R202, R210, R215, R220): its nibbles in piece order where they come at once.
`symbols` is the number of symbol errors in the first word read. -/
def startRead (c b hoop : Nat) (noAlloc : Bool) (xfer symbols : Nat) (pieces : List (Nat × Nat)) (w : Work) : StartRead :=
  let h := w.hw
  match pieces with
  | [] => .started (some []) h.ticks w
  | (a0, _) :: _ =>
    let block := a0 / 1024 * 512
    let lo := pieces.foldl (fun m p => min m (p.1 / 2)) (a0 / 2)
    let hi := pieces.foldl (fun m p => max m ((p.1 + p.2 + 1) / 2)) (a0 / 2 + 1)
    match h.resolve { hoop := hoop, write := false, bobbin := true } lo (hi - lo) with
    | .error e => .fault e w
    | .ok (loc, _) =>
      let at0 : FarLoc := match loc with
        | .scratch o => .scratch (o - (lo - block))
        | .port o k => .port (o - (lo - block)) k
      let take (bs : List Byte) : List Nat := (pieces.map (fun p => ((nibbles bs).drop (p.1 - 2 * block)).take p.2)).flatten
      let out := h.decodeWord symbols
      match loc with
      | .scratch o =>
        let wh := blockWhere o
        if out == 2 then .fault Rc.DIN_UNCORRECTABLE (w.onHw (fun h => h.uncorrectable 0x40 0 wh))
        else match h.badScratch o (hi - lo) with
        | some bad => .fault Rc.DIN_UNCORRECTABLE (w.onHw (fun h => h.uncorrectable 0x40 0 bad))
        | none =>
          let w := if out == 1 && symbols ≤ 2 then w.onHw (fun h => h.corrected 0x40 symbols 0 wh true) else if symbols ≥ 5 then w.onHw (·.draw) else w
          .started (some (garbled h symbols (take (farRead h w.mem hoop at0 512)))) (h.effectTick hoop 24) w
      | .port _ cached =>
        let u := at0.unit
        let port := h.portOf u
        let hit := if cached then h.cacheWay hoop u else none
        match hit, out == 2 with
        | some way, false =>
          .started (some (take (farRead h w.mem hoop at0 512))) (h.effectTick hoop 32)
            (w.onHw (fun h => ((if out == 1 && symbols ≤ 2 then h.corrected 0x40 symbols 0 (blockWhere (u * 512)) true else h).inc F.MP_BM_HITS_COUNT).cacheTouch u way))
        | _, _ =>
          match h.freeTag port with
          | none => .wait
          | some tag =>
            let t : PortTxn :=
              { port := port, tag := tag, unit := u, data := none, hoop := hoop, gen := h.keyGen hoop,
                alloc := cached && !noAlloc && h.invalDue.isNone, cached := cached, core := c, bobbin := b, xfer := xfer }
            .started none (h.effectTick hoop (70 + h.get F.MP_WC_READ)) (w.onHw (fun h =>
              let h := if hit.isSome then
                  (((h.logError 0x40 0xFF 3 (blockWhere (u * 512))).inc F.MP_BM_REFETCH_COUNT).cacheDrop (fun l => l.unit == u))
                else h
              let h := if cached then h.inc F.MP_BM_MISSES_COUNT else h
              { h with txns := h.txns ++ [t] }.showOutstanding port))

/-- Start a write of pieces (address, nibbles) with their data (R172, R204, R218, R221, R227): fault code, wait, or whether the port
has yet to answer. -/
def startWrite (c b hoop xfer : Nat) (pieces : List (Nat × Nat)) (data : List Nat) (w : Work) : Except (Nat × Work) (Option (Bool × Nat × Work)) :=
  let h := w.hw
  match pieces with
  | [] => .ok (some (false, h.ticks, w))
  | (a0, _) :: _ =>
    let block := a0 / 1024 * 512
    let lo := pieces.foldl (fun m p => min m (p.1 / 2)) (a0 / 2)
    let hi := pieces.foldl (fun m p => max m ((p.1 + p.2 + 1) / 2)) (a0 / 2 + 1)
    match h.resolve { hoop := hoop, write := true, bobbin := true } lo (hi - lo) with
    | .error e => .error (e, w)
    | .ok (loc, region) =>
      let at0 : FarLoc := match loc with
        | .scratch o => .scratch (o - (lo - block))
        | .port o k => .port (o - (lo - block)) k
      let merged := (pieces.foldl (fun (st : List Byte × List Nat) p =>
        (mergeNibbles st.1 (p.1 - 2 * block) (st.2.take p.2), st.2.drop p.2)) (farRead h w.mem hoop at0 512, data)).1
      let covered := pieces.foldl (fun a p => a + p.2) 0
      match loc with
      | .scratch o =>
        let merging := if covered < 2 * (hi - lo) then [(o, hi - lo)] else Hw.partWords o (hi - lo)
        match merging.findSome? (fun p => h.badScratch p.1 p.2) with
        | some bad => .error (Rc.DIN_UNCORRECTABLE, w.onHw (fun h => h.uncorrectable 0x40 1 bad))
        | none =>
          let w := farStore w hoop loc (sliceBytes (lo - block) (hi - lo) merged)
          .ok (some (false, h.effectTick hoop 20, w.onHw (fun h => markRegion h region)))
      | .port _ _ =>
        if covered != 1024 then .error (Rc.RES_MP_PARTIAL, w)
        else
          let u := at0.unit
          let port := h.portOf u
          match h.freeTag port with
          | none => .ok none
          | some tag =>
            let t : PortTxn :=
              { port := port, tag := tag, unit := u, data := some merged, hoop := hoop, gen := h.keyGen hoop, alloc := false, cached := false,
                core := c, bobbin := b, xfer := xfer }
            .ok (some (true, h.effectTick hoop (62 + h.get F.MP_WC_WRITE),
              w.onHw (fun h => { (markRegion (h.cacheWrite hoop u) region) with txns := h.txns ++ [t] }.showOutstanding port)))

end Sys2Proof.Machine
end

