-- ==== Sys2Proof/Machine/Time.lean ====
section
/-! DEFINITION. The time unit: discipline, trims, and the arming of an epoch (R24 to R37, R55, R59). -/

namespace Sys2Proof.Machine

/-- The time unit as the source of a raise in the run (R340). -/
def tmSrc : Src := { unit := 0x90, inRun := true, reason := some (F.TM_STATUS_REASON, 0) }

/-- States of TM_STATUS.STATE (Table 2-2). -/
def tmFree : Nat := 0
def tmAcquire : Nat := 1
def tmLocked : Nat := 2
def tmHoldover : Nat := 3
def tmMaster : Nat := 4

namespace Hw

def tmState (h : Hw) : Nat := h.get F.TM_STATUS_STATE

/-- The time unit is LOCKED or MASTER (R33). -/
def tmInService (h : Hw) : Bool := h.tmState == tmLocked || h.tmState == tmMaster

def setTmState (h : Hw) (s : Nat) : Hw := h.put F.TM_STATUS_STATE s

/-- Enter ACQUIRE: the count is loaded at the next valid mark (R31, R32). -/
def enterAcquire (h : Hw) : Hw :=
  { h.setTmState tmAcquire with time := { h.time with acquired := false, lockRun := 0, errors := [], stepDue := 0 } }

/-- Enter HOLDOVER (R31, R33). -/
def enterHoldover (h : Hw) : Hw :=
  { h.setTmState tmHoldover with time := { h.time with holdBeats := 0, holdSum := 0, stepDue := 0 } }

/-- Refuse a write of a time-unit register with TM_STATUS.REASON. -/
def tmRefuse (h : Hw) (code : Nat) : Hw := h.refuse code F.TM_STATUS_REASON 0 0x90

/-- Refuse with TM_EPOCH_CTRL.REASON (R55). -/
def epochRefuse (h : Hw) (code : Nat) : Hw := h.refuse code F.TM_EPOCH_CTRL_REASON 0 0x90

/-- A write of TM_CTRL (R36, R404). -/
def writeTmCtrl (h : Hw) (w : Nat) : Hw :=
  let v := w % 2 ^ 20
  let old := h.rd .TM_CTRL 0
  let source := bits 1 3 v
  let depth := bits 14 3 v
  let backup := bits 9 5 v
  let checkOk := depth ≤ 4 && depthOk source depth
  if h.tmState == tmLocked || h.tmState == tmHoldover || h.tmState == tmMaster then
    if v == putBits 0 1 0 old then (h.wr .TM_CTRL 0 v).setTmState tmFree else h.tmRefuse Rc.CFG_CONFLICT
  else if source > 2 || bits 4 5 v ≥ h.build.linkports || (backup != 31 && backup ≥ h.build.linkports) || bits 17 3 v > 4 then
    h.tmRefuse Rc.CFG_RANGE
  else if bit 0 old then
    if !checkOk then h.tmRefuse Rc.CFG_TM_DEPTH
    else if bit 0 v then h.wr .TM_CTRL 0 v
    else (h.wr .TM_CTRL 0 v).setTmState tmFree
  else if !bit 0 v then h.wr .TM_CTRL 0 v
  else if !checkOk then (h.wr .TM_CTRL 0 (putBits 0 1 0 v)).tmRefuse Rc.CFG_TM_DEPTH
  else if source == 0 then (h.wr .TM_CTRL 0 v).setTmState tmMaster
  else (h.wr .TM_CTRL 0 v).enterAcquire

/-- A field of TM_TRIM as it is in force in this beat (R37). -/
def trimField (h : Hw) (f : Fld) : Nat := bits f.lo f.w (h.time.trimHeld.getD (h.rd .TM_TRIM 0))

/-- A write of TM_TRIM (R37): the fields take effect at the next beat boundary; a STEP bit works only with MODE 10b. -/
def writeTmTrim (h : Hw) (v : Nat) : Hw :=
  if bits 0 2 v == 3 || bits 4 4 v == 0 || bits 8 4 v > 7 || bits 12 4 v < 8 then h.tmRefuse Rc.CFG_RANGE
  else if bit 2 v && bit 3 v then h.tmRefuse Rc.CFG_CONFLICT
  else
    let step : Int := if bits 0 2 v != 2 then h.time.stepDue else if bit 2 v then 1 else if bit 3 v then -1 else h.time.stepDue
    let held := h.time.trimHeld.getD (h.rd .TM_TRIM 0)
    let h := h.wr .TM_TRIM 0 (putBits 2 2 0 (v % 2 ^ 16))
    { h with time := { h.time with trimHeld := some held, stepDue := step } }

/-- A write of TM_PRK_SHADOW (R55). -/
def writePrkShadow (h : Hw) (v : Nat) : Hw :=
  if h.on F.TM_EPOCH_CTRL_ARM then h.epochRefuse Rc.CFG_CONFLICT else h.put F.TM_PRK_SHADOW_BASE (bits 12 16 v)

/-- A write of TM_EPOCH_CTRL (R55). -/
def writeEpochCtrl (h : Hw) (m : Mem) (uncorrectable : Bool) (v : Nat) : Hw :=
  if bit 0 v && bit 1 v then h.epochRefuse Rc.CFG_CONFLICT
  else
    let h := applyIf (bit 2 v) (fun h => h.put F.TM_EPOCH_CTRL_SWITCHED 0) h
    let h := applyIf (bit 3 v) (fun h => h.put F.TM_EPOCH_CTRL_SET_DURING_CLEAR 0) h
    let armed := h.on F.TM_EPOCH_CTRL_ARM
    let base := h.get F.TM_PRK_SHADOW_BASE * 4096
    if bit 0 v && !armed then
      let code := h.armCheck m base uncorrectable
      if code == 0 then (h.put F.TM_EPOCH_CTRL_ARM 1).put F.TM_EPOCH_CTRL_REASON 0 else h.epochRefuse code
    else if bit 1 v && armed then
      if Img.startBeat m base ≤ h.time.beat + 1024 then h.epochRefuse Rc.CFG_PRK_SWITCH_LATE
      else (h.put F.TM_EPOCH_CTRL_ARM 0).put F.TM_EPOCH_CTRL_REASON 0
    else h

/-! Beat marks. -/

/-- The recorded delay of a port in whole beats and cycles: the active pricking's (R29), or before one the measured (R304). -/
def portDelay (h : Hw) (m : Mem) (p : Nat) : Nat × Nat :=
  if h.hasPlan then (Img.delayBeats m h.imgBase p, Img.rxPhase m h.imgBase p)
  else (h.get F.LK_P_DELAY_DELAY p / 1024, h.get F.LK_P_DELAY_DELAY p % 1024 / 4)

/-- The error e of a mark whose expected boundary is at a root tick: the nearest local boundary minus it, in quarter cycles (R29). -/
def markError (h : Hw) (expected : Nat) : Int :=
  let here : Int := (h.time.beatStart : Int) - expected
  let next : Int := here + h.beatTicks
  if here.natAbs ≤ next.natAbs then here else next

/-- The averaged error in the register: the spec does not say how the quotient is rounded, so an inexact one is free between
its two neighbours. -/
def averaged (h : Hw) (sum : Int) (n : Nat) : Int :=
  if sum % n == 0 then sum / n else if Config.freeBit h.draws then sum / n else sum / n + 1

/-- A mark of the source in use is measured: TM_ERR, the trim decision, the lock, the bound and the loss of lock
(R29, R31, R34). `beats` is the number of beats between two marks. -/
def measureMark (h : Hw) (e : Int) (beats : Nat) : Hw :=
  let n := 2 ^ h.trimField F.TM_TRIM_AVG_LOG2
  let errs := (e :: h.time.errors).take n
  let sum := errs.foldl (· + ·) 0
  let full := errs.length == n
  let thresh : Int := h.trimField F.TM_TRIM_THRESH * n
  let auto := h.trimField F.TM_TRIM_MODE == 1
  let step : Int := if !auto then h.time.stepDue else if full && sum ≤ -thresh then 1 else if full && thresh ≤ sum then -1 else 0
  let quiet := full && sum.natAbs ≤ 4 * n
  let lock := if h.tmState == tmAcquire then (if quiet then h.time.lockRun + beats else 0) else h.time.lockRun
  let avg := h.averaged sum (max 1 errs.length)
  let h := (h.put F.TM_ERR_LAST (encSigned 16 e)).put F.TM_ERR_AVG (encSigned 16 avg)
  let h := { h.draw with time := { h.time with errors := errs, stepDue := step, lockRun := lock } }
  if h.tmState == tmLocked && e.natAbs > 256 then h.enterAcquire
  else if h.tmState == tmLocked && full && sum.natAbs > 16 * n then
    (h.setFlag F.TM_STATUS_BOUND).raise Rc.TIM_BOUND_EXCEEDED tmSrc
  else if h.tmState == tmAcquire && lock ≥ 256 then h.setTmState tmLocked
  else if h.tmState == tmHoldover && e.natAbs ≤ 16 then h.setTmState tmLocked
  else h

/-- In ACQUIRE the first valid mark loads the count and jumps the phase to zero error (R32). -/
def jumpTo (h : Hw) (beat boundary : Nat) : Hw :=
  { h with time := { h.time with beat := beat, beatStart := boundary, acquired := true, errors := [], lockRun := 0, trim := 0 } }

/-- Whether a link port is the primary source, the backup, or neither. -/
def sourceRole (h : Hw) (port : Nat) : Option Bool :=
  if h.get F.TM_CTRL_SOURCE == 1 && h.get F.TM_CTRL_PORT == port then some false
  else if h.get F.TM_CTRL_SOURCE != 0 && h.get F.TM_CTRL_BACKUP_PORT == port then some true
  else none

/-- A mark is noted for its source (R31). -/
def noteMark (h : Hw) (backup : Bool) : Hw :=
  { h with time := if backup then { h.time with silentBackup := 0 } else { h.time with silentPrimary := 0 } }

/-- A mark arrives from a source, with its expected boundary and, for a frame, the beat that boundary starts. -/
def takeMark (h : Hw) (backup : Bool) (expected : Nat) (beat : Option Nat) (beats : Nat) : Hw :=
  let h := h.noteMark backup
  let st := h.tmState
  if st == tmFree || st == tmMaster then h
  else if st == tmAcquire && !h.time.acquired then
    match beat with
    | some b => h.jumpTo b expected
    | none =>
      match h.time.tracked with
      | some (b, t) =>
        let d : Int := (expected : Int) - t
        let len : Int := 1024 + 4 * (h.get F.TM_STRETCH_CURRENT : Int)
        h.jumpTo ((b : Int) + (2 * d + len) / (2 * len)).toNat expected
      | none => h
  else if st == tmHoldover then
    let h := { h with time := { h.time with onBackup := backup, errors := if backup == h.time.onBackup then h.time.errors else [] } }
    h.measureMark (h.markError expected) beats
  else if backup == h.time.onBackup then h.measureMark (h.markError expected) beats
  else h

/-- A start of frame on a link port at a root tick, its header carrying BEAT (R29, R32). The port's delay is subtracted. Ports
that are no source of this block mark nothing; their frames are tracked for an ACQUIRE from TREF. -/
def linkMark (h : Hw) (m : Mem) (port tick frameBeat : Nat) : Hw :=
  let d := h.portDelay m port
  let expected := tick - 4 * d.2
  let st := h.get F.LK_P_STATUS_STATE port
  let h := applyIf (st == 3 || st == 4) (fun h => { h with time := { h.time with tracked := some (frameBeat + d.1, expected) } }) h
  match h.sourceRole port with
  | some backup => h.takeMark backup expected (some (frameBeat + d.1)) 1
  | none => h

/-- A rising edge of TREF at a root tick, the primary source when SOURCE is TREF (R28, R32). -/
def trefMark (h : Hw) (tick : Nat) : Hw :=
  if h.get F.TM_CTRL_SOURCE == 2 then h.takeMark false tick none (2 ^ h.get F.TM_CTRL_TREF_LOG2) else h

/-- This block is the deputy of the active pricking (R31). -/
def isDeputy (h : Hw) (m : Mem) : Bool := h.hasPlan && Img.deputy m h.imgBase == Img.self m h.imgBase

/-- Four beats without a mark of the source in use (Table 2-2): the other source, MASTER for a deputy whose sources are both
silent, or HOLDOVER. -/
def markTimeout (h : Hw) (m : Mem) : Hw :=
  let t := h.time
  let both := t.silentPrimary ≥ 4 && t.silentBackup ≥ 4
  let mine := if t.onBackup then t.silentBackup else t.silentPrimary
  let other := if t.onBackup then t.silentPrimary else t.silentBackup
  let usable := other < 4 && (t.onBackup || h.get F.TM_CTRL_BACKUP_PORT != 31)
  if h.tmState == tmLocked && mine ≥ 4 then
    if usable then { h with time := { t with onBackup := !t.onBackup, errors := [] } }
    else if both && h.isDeputy m then h.setTmState tmMaster
    else h.enterHoldover
  else if h.tmState == tmHoldover && both && h.isDeputy m then h.setTmState tmMaster
  else h

/-- 1,024 beats in HOLDOVER (R33). -/
def holdoverExpiry (h : Hw) : Hw :=
  if h.tmState == tmHoldover && h.time.holdBeats ≥ 1024 && !h.on F.TM_STATUS_LOST then
    (h.setFlag F.TM_STATUS_LOST).raise Rc.TIM_SOURCE_LOST { tmSrc with inRun := false }
  else h

/-- While ACLK is stopped the plinth adds 44 root ticks per REFCLK cycle, and a beat per 1,024 ticks (R24). -/
def plinthCount (h : Hw) (cycles : Nat) : Hw :=
  if h.clocks.aclk then h
  else
    let t := h.time.plinthTicks + 44 * cycles
    let now := h.ticks + 44 * cycles
    { h with ticks := now, time := { h.time with beat := h.time.beat + t / 1024, plinthTicks := t % 1024, beatStart := now - t % 1024 } }

/-- The trim of the beat that begins now (R27, R29, R33, R37): a step in waiting when MINGAP permits, the mean rate in
HOLDOVER. -/
def nextTrim (h : Hw) : Int :=
  let due : Int := if h.tmState == tmHoldover then (if h.time.holdSum ≥ 4096 then 1 else if h.time.holdSum ≤ -4096 then -1 else 0) else h.time.stepDue
  let manual := h.trimField F.TM_TRIM_MODE == 2
  if h.tmState == tmMaster && !manual then 0
  else if h.time.sinceTrim < h.trimField F.TM_TRIM_MINGAP then 0
  else if due > 0 then 1 else if due < 0 then -1 else 0

/-- The stretch of the next beat: one cycle toward the target from the effective beat on (R40). -/
def stretchStep (h : Hw) : Hw :=
  let h := applyIf (h.on F.TM_STRETCH_PENDING && h.time.stretchAt ≤ h.time.beat)
    (fun h => { h.put F.TM_STRETCH_PENDING 0 with time := { h.time with stretchGoal := h.get F.TM_STRETCH_TARGET } }) h
  let cur := h.get F.TM_STRETCH_CURRENT
  let target := h.time.stretchGoal
  if cur < target then h.put F.TM_STRETCH_CURRENT (cur + 1)
  else if target < cur then h.put F.TM_STRETCH_CURRENT (cur - 1)
  else h

/-- The beat ends and phase 0 of the next begins (R24): count, stretch, trim in force, silence of the sources. -/
def advanceBeat (h : Hw) : Hw :=
  let stop := h.time.beatStart + h.beatTicks
  let t := h.time
  let h := { h with ticks := max h.ticks stop, time := { t with
    beat := t.beat + 1, beatStart := stop, sinceTrim := min 4096 (t.sinceTrim + 1), silentPrimary := min 4096 (t.silentPrimary + 1),
    silentBackup := min 4096 (t.silentBackup + 1), holdBeats := if h.tmState == tmHoldover then t.holdBeats + 1 else t.holdBeats } }
  let h := { h with time := { h.time with trimHeld := none } }
  let h := h.stretchStep
  let rate : Int := ((h.time.trimLog.filter (fun p => h.time.beat ≤ p.1 + 4096)).map (·.2)).foldl (· + ·) 0
  let h := applyIf (h.tmState == tmHoldover) (fun h => { h with time := { h.time with holdSum := h.time.holdSum + rate } }) h
  let trim : Int := h.nextTrim
  let t := h.time
  let t := { t with trim := trim }
  if trim == 0 then { h with time := t }
  else
    let h := if (0 : Int) < trim then h.inc F.TM_TRIMCNT_LONG else h.inc F.TM_TRIMCNT_SHORT
    { h with time := { t with
      sinceTrim := 0, stepDue := 0, holdSum := if h.tmState == tmHoldover then t.holdSum - trim * 4096 else t.holdSum,
      trimLog := if h.tmState == tmHoldover then t.trimLog else (t.trimLog.filter (fun p => t.beat ≤ p.1 + 4096)) ++ [(t.beat, trim)] } }

/-- At a switch-over the time unit takes the role and sources that the new pricking names (R35, R36). -/
def takeRole (h : Hw) (m : Mem) (base : Nat) : Hw :=
  let old := h.rd .TM_CTRL 0
  let source := Img.source m base
  let v := putBits 1 3 source (putBits 4 5 (Img.port m base) (putBits 9 5 (Img.backup m base) (putBits 14 3 (Img.depth m base) (putBits 17 3 (Img.trefLog2 m base) old))))
  let changed := bits 1 13 v != bits 1 13 old
  let h := h.wr .TM_CTRL 0 v
  let st := h.tmState
  let h := applyIf changed (fun h => { h with time := { h.time with errors := [], onBackup := false, silentPrimary := 0, silentBackup := 0 } }) h
  if st == tmLocked && source == 0 then h.setTmState tmMaster
  else if st == tmMaster && source != 0 then h.setTmState tmLocked
  else h

end Hw

end Sys2Proof.Machine
end

