-- ==== Sys2Proof/Machine/Energy.lean ====
section
/-! DEFINITION. The energy unit (R407 to R424): weights, the division of measured energy, accounts and sampler records. -/

namespace Sys2Proof.Machine

namespace Hw

def enSrc : Src := { unit := 0xE6, reason := some (F.EN_STATUS_REASON, 0) }

def enRefuse (h : Hw) (code : Nat) : Hw := h.refuse code F.EN_STATUS_REASON 0 0xE6

def onEnergy (h : Hw) (f : EnergyUnit → EnergyUnit) : Hw := { h with energy := f h.energy }

/-- The accumulator of an entry by category, open or committed. -/
def accOf (h : Hw) (o cat : Nat) (comm : Bool) : Nat := Tab.getD h.energy.acc (o * 8 + cat * 2 + flag comm) 0

/-- The sum of an entry's four categories. -/
def accTotal (h : Hw) (o : Nat) (comm : Bool) : Nat := (List.range 4).foldl (fun a k => a + h.accOf o k comm) 0

/-- EN_OVERHEAD and EN_REPLAY show their accounts. -/
def showAccounts (h : Hw) : Hw :=
  (h.wr .EN_OVERHEAD 0 (h.accTotal overheadEntry false)).wr .EN_REPLAY 0 (h.accTotal replayEntry false)

end Hw

/-- Open quantities of contexts move to another place: from every open key of a context to the key that `f` names. -/
def moveOpen (f : Nat → Nat) (t : Tab Nat) : Tab Nat :=
  t.foldl (fun a p => if p.1 < 16384 * 8 && p.1 % 2 == 0 then Tab.modify (Tab.erase a p.1) 0 (f p.1) (· + p.2) else a) t

namespace Hw

/-- A commit makes open weights and open energy committed (R414). -/
def energyCommit (h : Hw) : Hw :=
  h.onEnergy (fun e => { e with now := moveOpen (· + 1) e.now, before := moveOpen (· + 1) e.before, acc := moveOpen (· + 1) e.acc })

/-- An abort moves open weights and open energy to the replay account (R347, R414). -/
def energyAbort (h : Hw) : Hw :=
  let f (k : Nat) : Nat := replayEntry * 8 + k % 8
  (h.onEnergy (fun e => { e with now := moveOpen f e.now, before := moveOpen f e.before, acc := moveOpen f e.acc })).showAccounts

/-- A context that becomes FREE gives its accumulators back (R418). -/
def energyFree (h : Hw) (x : Nat) : Hw :=
  let drop (t : Tab Nat) : Tab Nat := Tab.erase t x
  let dropAcc (t : Tab Nat) : Tab Nat := t.filter (fun p => p.1 / 8 != x)
  h.onEnergy (fun e => { e with
    acc := dropAcc e.acc, now := dropAcc e.now, before := dropAcc e.before, marked := drop e.marked, samples := drop e.samples,
    started := drop e.started, ended := drop e.ended, commitPeriod := drop e.commitPeriod, produced := drop e.produced })

/-! The weights of a beat. -/

/-- Rows r < n with ((r + c) mod 64) < level, in one cycle (R83). -/
def dummyRows (n level c : Nat) : Nat :=
  n / 64 * level + ((List.range (n % 64)).filter (fun r => (n / 64 * 64 + r + c) % 64 < level)).length

/-- Rows of a core that carry a pass element in a cycle: element e of a pass that began to feed in cycle F is in row r in cycle
F + 3 + e + r (Table 3-4). -/
def busyRow (h : Hw) (c r tick : Nat) : Bool :=
  (h.arr c).passes.any (fun p => match p.started with
    | some t => r < p.kRows && t + 4 * (3 + r) ≤ tick && tick < t + 4 * (3 + r + p.len)
    | none => false)

/-- A core's array executes dummy operations in this beat (R22): a Fill or Drain beat, or an Idle beat of a run of at most 64. -/
def dummyBeat (h : Hw) (m : Mem) (c : Nat) : Bool :=
  match h.logicalOf c with
  | none => false
  | some n =>
    if !h.planned || !h.on F.CR_ARR_CTRL_ENABLE c then false
    else match h.tagAt m h.planBeat n with
      | 1 => true
      | 3 => true
      | 0 =>
        let idle (t : Nat) : Bool := h.tagAt m t n == 0
        let up := ((List.range 65).takeWhile (fun i => idle (h.planBeat + i))).length
        let down := ((List.range 65).takeWhile (fun i => i < h.planBeat && idle (h.planBeat - 1 - i))).length
        up + down ≤ 64
      | _ => false

/-- Dummy row-operations of a core in the present beat (R83). -/
def dummyOps (h : Hw) (m : Mem) (c : Nat) : Nat :=
  let level := h.get F.CR_ARR_DUMMY_LEVEL c
  if level == 0 || !h.dummyBeat m c then 0
  else
    let n := h.build.arrayRows + 2
    (List.range (h.beatTicks / 4)).foldl (fun a k =>
      let t := h.time.beatStart + 4 * k
      if (h.arr c).passes.any (·.started.isSome) then
        a + ((List.range n).filter (fun r => (r + k) % 64 < level && !h.busyRow c r t)).length
      else a + dummyRows n level k) 0

/-- The first cycle of a beat: STAT of each logical core, dummy operations, and the slots and port units of the beat, which count as
overhead until a context uses them (R410). `lanes` is the number of active lanes. -/
def energyBeat (h : Hw) (m : Mem) (lanes : Nat) : Hw :=
  if !h.on F.EN_CTRL_ENABLE then h
  else
    let h := (List.range h.build.cores).foldl (fun h n =>
      let c := h.physOf n
      let o := if (h.core c).seq.bound then (h.segOf c).1 else overheadEntry
      (h.weighIn o 1 1).weigh o 3 (h.dummyOps m c)) h
    (h.weighIn overheadEntry 2 (40 * lanes)).weighIn overheadEntry 3 (348 * h.build.memports)

/-! Telemetry periods (R407 to R409). -/

/-- The first cycle of a period: the sample of the period before is requested. -/
def telemetryRequest (h : Hw) : Hw :=
  if !h.on F.EN_CTRL_ENABLE || h.time.beat % 64 != 0 then h
  else h.onEnergy (fun e => { e with
    before := e.now, now := [], cycles := (h.time.beatStart - e.began) / 4, began := h.time.beatStart, asked := true, settled := false })

/-- The rails sampled. -/
def railsOn (h : Hw) : List Nat := (List.range 8).filter (fun r => h.on F.EN_RAIL_EN r)

/-- Rail energies of the period, with the remainders carried; the answers are by CLASS. -/
def settleRails (h : Hw) (num : Nat → Nat) (den : Nat) (estimated : Bool) : Hw :=
  let step (st : EnergyUnit × Nat) (r : Nat) : EnergyUnit × Nat :=
    let e := st.1
    let x := num r * e.cycles * 10 + Tab.getD e.rho r 0
    let uj := x / den
    let k := h.get F.EN_RAIL_CLASS r
    ({ e with rho := Tab.put e.rho 0 r (x % den), byClass := e.byClass.set k (e.byClass.getD k 0 + uj) }, st.2 + uj)
  let st := h.railsOn.foldl step ({ h.energy with byClass := [0, 0, 0, 0] }, 0)
  let e := { st.1 with asked := false, settled := true, estimated := estimated }
  ({ h with energy := e }).inc F.EN_MEASURED_UJ st.2

/-- Σ DYN of the period before, in µJ (R412). -/
def dynUj (h : Hw) : Nat := ((h.energy.before.filter (fun p => p.1 % 8 / 2 == 0)).foldl (fun a p => a + p.2) 0) / 10 ^ 9

/-- A complete sample arrives (R408): V in mV and I in mA of each rail. -/
def energySample (h : Hw) (volts amps : List Nat) : Hw :=
  if !h.energy.asked then h
  else
    let h := h.railsOn.foldl (fun h r => (h.wr .EN_RAIL_V r (volts.getD r 0 % 65536)).wr .EN_RAIL_I r (amps.getD r 0 % 2 ^ 32)) h
    (h.settleRails (fun r => h.get F.EN_RAIL_V_MV r * h.get F.EN_RAIL_I_MA r) (11 * 10 ^ 9) false).onEnergy (fun e => { e with missing := 0 })

/-- A sample is missing (R409): the fallback of each rail, and the modelled dynamic energy once for the core rails. -/
def energyMissing (h : Hw) : Hw :=
  let d := h.dynUj
  let h := h.settleRails (fun r => h.get F.EN_RAIL_FALLBACK_MW r) (11 * 10 ^ 6) true
  let core := h.railsOn.any (fun r => h.get F.EN_RAIL_CLASS r == 0)
  let h := if core then (h.onEnergy (fun e => { e with byClass := e.byClass.set 0 (e.byClass.getD 0 0 + d) })).inc F.EN_MEASURED_UJ d else h
  (h.setFlag F.EN_STATUS_ESTIMATED).onEnergy (fun e => { e with missing := e.missing + 1 })

/-! The division (R411 to R414). -/

end Hw

/-- The split of E µJ by weights (R411): entries in ascending order with their shares. -/
def splitEnergy (e : Nat) (ws : Tab Nat) : Tab Nat :=
  let w := ws.foldl (fun a p => a + p.2) 0
  if w == 0 then [(Hw.overheadEntry, e)]
  else
    let base := ws.map (fun p => (p.1, e * p.2 / w, e * p.2 % w))
    let left := e - base.foldl (fun a p => a + p.2.1) 0
    base.map (fun p =>
      let ahead := (base.filter (fun q => p.2.2 < q.2.2 || (q.2.2 == p.2.2 && q.1 < p.1))).length
      (p.1, p.2.1 + flag (ahead < left)))

/-- Weights of a category by entry, committed and open together. -/
def entryWeights (t : Tab Nat) (cat : Nat) : Tab Nat :=
  (t.filter (fun p => p.1 % 8 / 2 == cat)).foldl (fun a p => Tab.modify a 0 (p.1 / 8) (· + p.2)) []

namespace Hw

/-- Give an entry its share of a category. A context's share divides by its committed and open weights; the spec does not say how that
division is rounded, so an inexact one is free between its two neighbours (log entry 19). -/
def giveShare (h : Hw) (cat o uj : Nat) : Hw :=
  if uj == 0 then h
  else if o ≥ 16384 then h.onEnergy (fun e => { e with acc := Tab.modify e.acc 0 (o * 8 + cat * 2) (· + uj) })
  else
    let wc := Tab.getD h.energy.before (o * 8 + cat * 2 + 1) 0
    let wo := Tab.getD h.energy.before (o * 8 + cat * 2) 0
    let exact := uj * wc % max 1 (wc + wo) == 0
    let comm := uj * wc / max 1 (wc + wo) + (if exact then 0 else flag (Config.freeBit h.draws))
    let h := if exact then h else h.draw
    h.onEnergy (fun e => { e with
      acc := Tab.modify (Tab.modify e.acc 0 (o * 8 + cat * 2 + 1) (· + comm)) 0 (o * 8 + cat * 2) (· + (uj - comm)) })

/-- Split an amount by the weights of a category, into a category. -/
def splitBy (h : Hw) (weights into uj : Nat) : Hw :=
  (splitEnergy uj (entryWeights h.energy.before weights)).foldl (fun h p => h.giveShare into p.1 p.2) h

/-- APPORTIONMENT: the settled energy of the period before is divided. -/
def apportion (h : Hw) : Hw :=
  let e := h.energy
  if !e.settled then h
  else
    let core := e.byClass.getD 0 0
    let dyn := min core h.dynUj
    let touched := ((e.before.filter (fun p => p.2 != 0)).map (fun p => p.1 / 8)).eraseDups
    let h := ((h.splitBy 0 0 dyn).splitBy 1 1 (core - dyn)).splitBy 1 1 (e.byClass.getD 3 0)
    let h := (h.splitBy 2 2 (e.byClass.getD 1 0)).splitBy 3 3 (e.byClass.getD 2 0)
    let note (t : Tab Nat) : Tab Nat := touched.foldl (fun t o => Tab.insert t o (Tab.getD t o 0 + 1)) t
    (h.onEnergy (fun x => { x with
      before := [], settled := false, lastPeriod := h.time.beat / 64,
      marked := if e.estimated then note x.marked else x.marked, samples := if e.estimated then x.samples else note x.samples })).showAccounts

/-! Registers. -/

/-- A write of EN_CTRL (R424, R420): every accumulator, account and remainder is zeroed. -/
def writeEnCtrl (h : Hw) (v : Nat) : Hw :=
  let on := h.on F.EN_CTRL_ENABLE
  if !on && bit 0 v then
    if !(List.range 8).any (fun r => h.on F.EN_RAIL_EN r && h.get F.EN_RAIL_CLASS r == 0) then h.enRefuse Rc.CFG_EN_RAIL
    else if !h.tmInService || h.rd .EN_SIGNBUF 0 + 288 > h.scratchSize then h.enRefuse Rc.CFG_EN_DEPENDS
    else
      let h := h.put F.EN_CTRL_ENABLE 1
      let h := (h.wr .EN_MEASURED 0 0).clearReg .EN_ACCT
      (h.onEnergy (fun e => { e with
        now := [], before := [], acc := [], rho := [], began := h.ticks, asked := false, settled := false, missing := 0, resumed := true })).showAccounts
  else h.put F.EN_CTRL_ENABLE (flag (bit 0 v))

/-- A write of EN_CALe, or of EN_CAL_ID at e = 16: held until the next switch-over, ignored in SEALED; coefficients 12 to 15 are
reserved (R415). -/
def writeCal (h : Hw) (e v : Nat) : Hw :=
  if h.get F.SC_STATE_STATE == 2 || (12 ≤ e && e ≤ 15) then h
  else h.onEnergy (fun x => { x with calHeld := Tab.insert x.calHeld e (v % 2 ^ 32) })

/-- Held coefficients take effect (R415). -/
def applyCal (h : Hw) : Hw :=
  { h.energy.calHeld.foldl (fun h p => if p.1 == 16 then h.wr .EN_CAL_ID 0 p.2 else h.wr .EN_CAL p.1 p.2) h with
    energy := { h.energy with calHeld := [] } }

/-! Sampler records (R417 to R419). -/

/-- A 16-byte fabric time (R23). -/
def timeBytes (beat phase : Nat) : List Byte := leBytes 8 beat ++ leBytes 8 phase

/-- The body of a record: context entry and energy unit (Table 16-4). -/
def recordBody (h : Hw) (blk : Bool) (x : Nat) : List Byte :=
  let o := if blk then overheadEntry else x
  let e := h.energy
  let cats := (List.range 4).map (fun k => h.accOf o k (!blk))
  let flags := flag blk + flag (Tab.find? e.marked o).isSome * 2 + (if blk then 0 else bits 8 1 (h.rd .CTX_STATE x) * 4) +
    flag e.chainStart * 8 + flag (e.resumed && !e.chainStart) * 16
  let started := if blk then timeBytes e.blockEnd 0 else timeBytes (Tab.getD e.started x 0 / 256) (Tab.getD e.started x 0 % 256)
  let ended := if blk then timeBytes (e.lastPeriod * 64) 0 else timeBytes (Tab.getD e.ended x 0) 0
  let hash := if e.chainStart then List.replicate 48 0#8 else ((List.range 12).map (fun i => leBytes 4 (h.rd .EN_LASTHASH i))).flatten
  leBytes 2 2 ++ leBytes 2 flags ++ leBytes 2 (if blk then 0 else h.get F.CTX_STATE_HOOP x) ++ leBytes 2 (if blk then 0xFFFF else x) ++
  leBytes 8 h.build.serial ++ leBytes 8 (if blk then 0 else h.rd .CTX_TAG x) ++ started ++ ended ++
  (cats.map (leBytes 8)).flatten ++ leBytes 8 (cats.foldl (· + ·) 0) ++ leBytes 8 (if blk then h.accTotal replayEntry false else 0) ++
  leBytes 8 (h.rd .EN_CHAIN 0) ++ leBytes 8 (h.rd .EN_COUNTER 0) ++ leBytes 4 (Tab.getD e.samples o 0) ++ leBytes 4 (h.rd .EN_CAL_ID 0) ++
  leBytes 2 (if blk then 0 else h.get F.CTX_ENERGY_STATUS x) ++ List.replicate 6 0#8 ++ leBytes 8 (if blk then h.rd .EN_MEASURED 0 else 0) ++ hash

/-- A write of EN_SIGN (R418). GO starts a record, or is refused with CFG_EN_SIGN. -/
def writeEnSign (h : Hw) (v : Nat) : Hw :=
  let h := applyIf (bit 16 v) (fun h => h.put F.EN_SIGN_DONE 0) h
  let h := applyIf (bit 17 v) (fun h => h.put F.EN_SIGN_SET_DURING_CLEAR 0) h
  let x := bits 0 14 v
  let blk := bit 14 v
  if !bit 15 v then
    if h.on F.EN_SIGN_GO then h else (h.put F.EN_SIGN_CONTEXT x).put F.EN_SIGN_BLOCK (flag blk)
  else
    let unfinished := match Tab.find? h.energy.commitPeriod x with
      | some p => h.energy.lastPeriod ≤ p
      | none => false
    if h.on F.EN_SIGN_GO ||
        (!blk && (h.get F.CTX_STATE_STATE x != 3 || (Tab.find? h.energy.produced x).isSome || unfinished)) then h.enRefuse Rc.CFG_EN_SIGN
    else
      let h := ((h.put F.EN_SIGN_CONTEXT x).put F.EN_SIGN_BLOCK (flag blk)).put F.EN_SIGN_GO 1
      let body := h.recordBody blk x
      let h := h.onEnergy (fun e => { e with signing := some (body, if blk then overheadEntry else x) })
      if blk then
        (h.onEnergy (fun e => { e with
          acc := e.acc.filter (fun p => p.1 / 8 < 16384), marked := Tab.erase e.marked overheadEntry,
          samples := Tab.erase e.samples overheadEntry, blockEnd := e.lastPeriod * 64 })).showAccounts
      else h

end Hw

/-- SAMPLER_SIGN_DONE: the record is signed, written to EN_SIGNBUF and chained; its energy joins the hoop's account (R418, R419). -/
def signDone (w : Work) : Work :=
  match w.hw.energy.signing with
  | none => w
  | some (body, o) =>
    let rec' := body ++ sliceBytes 0 96 (Config.deviceSign (Config.sha384 body))
    let hash := (Config.sha384 rec').toNat
    let w := w.store Area.block (w.hw.rd .EN_SIGNBUF 0) rec'
    w.onHw (fun h =>
      let h := (List.range 12).foldl (fun h i => h.wr .EN_LASTHASH i (bits (32 * (11 - i)) 32 hash)) h
      let h := (h.inc F.EN_COUNTER_COUNT).onEnergy (fun e => { e with
        signing := none, chainStart := false, resumed := false, produced := if o < 16384 then Tab.insert e.produced o 1 else e.produced })
      let h := if o < 16384 then h.inc F.EN_ACCT_UJ (h.accTotal o true) (h.get F.CTX_STATE_HOOP o) else h
      (h.put F.EN_SIGN_GO 0).setFlag F.EN_SIGN_DONE)

end Sys2Proof.Machine
end

