-- ==== Sys2Proof/Machine/Stream.lean ====
section
/-! DEFINITION. What a bobbin's slots do: activation, transfers and their delivery, gather mode, slot moves, the regulator, the end of a
descriptor and its cancel (R171, R174, R175, R178 to R201). -/

namespace Sys2Proof.Machine

/-! Chunks of the queue sides (R180). -/

/-- Bytes of a chunk of a queue. -/
def chunkBytes (b : Build) : Nat := 4 * b.arrayCols

/-- Nibbles that make one inbound chunk: half of them when WIDEN takes BF16 to F32. -/
def chunkIn (b : Build) (d : BobbinDesc) : Nat := if d.widen then 4 * b.arrayCols else 8 * b.arrayCols

/-- The chunk that nibbles make (Table 7-2: CKIND and WIDEN). -/
def makeChunk (d : BobbinDesc) (serial : Nat) (xs : List Nat) : Chunk :=
  let bs := ofNibbles xs
  if d.widen then { kind := d.ckind, bytes := wordBytes ((List.range (bs.length / 2)).map (fun i => ofBf16 (leAt (2 * i) 2 bs))), owner := serial }
  else { kind := d.ckind, bytes := bs, owner := serial }

/-- Nibbles of the assembly buffer (R182). -/
def assembly : Nat := 65536

namespace Gpb

/-- Entry of the shard table: request stream, reply stream, budget with reserve. -/
def shardReq (rd : Nat → List Byte) (p : List Byte) (k : Nat) : Nat := leAt 0 2 (rd (budget p + 16 * k)) % 4096
def shardReply (rd : Nat → List Byte) (p : List Byte) (k : Nat) : Nat := leAt 2 2 (rd (budget p + 16 * k)) % 4096
def shardBudget (rd : Nat → List Byte) (p : List Byte) (k : Nat) : Nat :=
  if k < reserve p then leAt 4 4 (rd (budget p + 16 * k)) + leAt 8 4 (rd (budget p + 16 * k)) else 0

/-- Request payloads of a number of entries, and the reply payloads that answer them (R196). -/
def reqPayloads (n : Nat) : Nat := ceilDiv n 127
def replyPayloads (p : List Byte) (n : Nat) : Nat := ceilDiv (n * entryLen p) 512

/-- Offset j of the bags. -/
def off (m : Mem) (c : Nat) (p : List Byte) (j : Nat) : Nat := m.le (Area.matrix c) (offs p + 4 * j) 4

/-- The index list: bag and index, in list order. -/
def entries (m : Mem) (c : Nat) (p : List Byte) : List (Nat × Nat) :=
  ((List.range (bags p)).map (fun j => (List.range (off m c p (j + 1) - off m c p j)).map (fun e =>
    (j, m.le (Area.matrix c) (idx p + 4 * (off m c p j + e)) 4)))).flatten

end Gpb

/-- The parameter block of a slot's GATHER or SERVE, and reads of its shard table. -/
def slotGpb (w : Work) (c : Nat) (x : BobSlot) : List Byte := gpbOf w.mem c x.desc
def shardTab (w : Work) (c : Nat) (a : Nat) : List Byte := w.mm c a 16

/-- Add to a count of a table. -/
def tally (t : Tab Nat) (i : Nat) : Tab Nat := Tab.insert t i (Tab.getD t i 0 + 1)

/-- One index of the list (R193): skipped, served or overflowed. -/
def gatherIndex (rd : Nat → List Byte) (p : List Byte) (g : GatherState) (e : Nat × Nat) : GatherState :=
  if Gpb.rows p ≤ e.2 then { g with skips := tally g.skips e.1 }
  else
    let shard := if Gpb.remote p then e.2 / Gpb.shardRows p else 0
    let limit := if Gpb.remote p then Gpb.shardBudget rd p shard else Gpb.budget p + Gpb.reserve p
    let o := Tab.getD g.ordinals shard 0
    let g := { g with ordinals := tally g.ordinals shard }
    if o < limit then { g with rowQ := g.rowQ ++ [(e.1, e.2, g.rowQ.length)] }
    else if g.overflow.length < Gpb.ovfMax p then
      { g with overflow := g.overflow ++ [e], incomplete := Tab.insert g.incomplete e.1 1 }
    else { g with dropped := g.dropped + 1, incomplete := Tab.insert g.incomplete e.1 1 }

/-- The index list is read when the descriptor becomes ACTIVE, and every index takes its place (R193; log entry 15). -/
def beginGather (c b s : Nat) (x : BobSlot) (w : Work) : Work :=
  let p := slotGpb w c x
  let g := (Gpb.entries w.mem c p).foldl (gatherIndex (shardTab w c) p) { x.gather with begun := true }
  let skipped := g.skips.foldl (fun a e => a + e.2) 0
  w.onHw (fun h => ((h.onSlot c b s (fun x => { x with gather := g })).inc F.BB_GSKIP_COUNT skipped c).inc F.BB_GOVF_COUNT
    (g.overflow.length + g.dropped) c)

/-- Shards of a remote gather, and the served rows of one. -/
def shardsOf (p : List Byte) : List Nat := List.range (Gpb.reserve p)
def shardRowsOf (p : List Byte) (g : GatherState) (k : Nat) : List (Nat × Nat × Nat) := g.rowQ.filter (fun e => e.2.1 / max 1 (Gpb.shardRows p) == k)

/-- Every atom, row or payload of the descriptor has started. -/
def allStarted (w : Work) (c : Nat) (x : BobSlot) : Bool :=
  let d := x.desc
  let g := x.gather
  match d.op with
  | 1 => d.total ≤ x.wpos
  | 3 => d.total ≤ x.wpos
  | 4 => d.total ≤ x.pos
  | 5 => d.total ≤ x.wpos
  | 6 =>
    let p := slotGpb w c x
    g.begun && (if Gpb.remote p then
        (shardsOf p).all (fun k =>
          let n := Gpb.shardBudget (shardTab w c) p k
          Gpb.reqPayloads n ≤ Tab.getD g.sent k 0 && Gpb.replyPayloads p n ≤ Tab.getD g.got k 0)
      else g.rowQ.length ≤ g.pos)
  | 7 =>
    let p := slotGpb w c x
    Gpb.reqPayloads (Gpb.budget p) ≤ g.reqGot && Gpb.replyPayloads p (Gpb.budget p) ≤ g.outSent
  | 8 => d.total ≤ x.wpos
  | 9 => if d.qend == 3 then d.total ≤ x.wpos else d.total ≤ x.pos
  | _ => d.total ≤ x.pos

namespace Hw

/-- Busy slots in ring order, the oldest first. -/
def slotOrder (h : Hw) (c b : Nat) : List (Nat × BobSlot) :=
  let k := h.bobbin c b
  (List.range 4).filterMap (fun i =>
    let s := (k.next + i) % 4
    (Tab.find? k.slots s).map (fun x => (s, x)))

def activeSlot (h : Hw) (c b : Nat) : Option (Nat × BobSlot) := (h.slotOrder c b).find? (fun p => p.2.state == 2)

/-- The hoop whose far memory the bobbins of a core move (R172). -/
def bobHoop (h : Hw) (c : Nat) : Nat := (h.seq c).runHoop.getD 0

/-- The first armed slot becomes ACTIVE when no slot is (R178), now or in the cycle after it became ARMED; ends popped by two bobbins at once
fault (R180). -/
def activate (h : Hw) (c b : Nat) : Hw :=
  if (h.activeSlot c b).isSome || h.ab.on then h
  else match (h.slotOrder c b).find? (fun p => p.2.state == 1) with
    | none => h
    | some (s, x) =>
      let q := x.desc.qend
      let pops := (x.desc.op == 3 || x.desc.op == 4 || (x.desc.op == 9 && q == 3)) && (q == 2 || q == 3 || q == 9)
      let other := (List.range 8).any (fun b' => b' != b && (h.bobbin c b').slots.any (fun y =>
        y.2.state ≥ 2 && (y.2.desc.op == 3 || y.2.desc.op == 4 || y.2.desc.op == 9) && y.2.desc.qend == q))
      if pops && other then h.bbFault c b s x.desc.op 0 Rc.RES_BOBBIN_QUEUE_SHARED
      else (h.onSlot c b s (fun x => { x with state := 2, since := max h.ticks (x.since + 4) })).wr .BB_DESC (sub c 8 b) x.desc.src

/-- DESCRIPTOR_ACTIVATE: the cycle in which the first armed slot becomes ACTIVE has come. -/
def activateNow (h : Hw) (c b : Nat) : Hw :=
  if (h.activeSlot c b).isSome || h.ab.on then h
  else match (h.slotOrder c b).find? (fun p => p.2.state == 1) with
    | none => h
    | some (_, x) => (h.elapse (x.since + 4)).activate c b

/-- In the cycle after the ACTIVE slot started its last transfer, or became ACTIVE with nothing to move, it becomes CLOSING and the next armed
slot ACTIVE (R178). -/
def closeSlot (h : Hw) (c b s : Nat) : Hw :=
  let t := match h.slot c b s with
    | some x => max (h.afterCycle 1) (x.since + 4)
    | none => h.ticks
  let h := h.onSlot c b s (fun x => if x.state == 2 then { x with state := 3, since := t } else x)
  match (h.slotOrder c b).find? (fun p => p.2.state == 1) with
  | some (s', x') => if x'.since + 4 ≤ t then (h.activate c b).onSlot c b s' (fun x => if x.state == 2 then { x with since := t } else x) else h
  | none => h

/-- Count units and atoms (R199). -/
def countUnits (h : Hw) (c b units atoms : Nat) : Hw :=
  (h.inc F.BB_UNITS_COUNT units (sub c 8 b)).inc F.BB_ATOMS_COUNT atoms (sub c 8 b)

/-- A fault of a transfer: the violation is shown in the hoop's record, and the step is aborted (R197). -/
def xferFault (h : Hw) (c b s op ordinal va code : Nat) : Hw :=
  (noteViolation h (h.bobHoop c) va code).bbFault c b s op ordinal code

end Hw

/-- Atoms that a run ends. -/
def endedAtoms (d : BobbinDesc) (ps : List (Nat × Nat × Nat × Nat)) : Nat := (ps.filter (fun p => p.2.1 + p.2.2.2 == d.size p.1)).length

/-- Put nibbles at a near place of the descriptor: of every core of a multicast (R191). -/
def putNear (c : Nat) (d : BobbinDesc) (a : Nat) (xs : List Nat) (w : Work) : Work :=
  (w.hw.copyCores c d).foldl (fun w k => mmPutNibbles w k a xs) w

/-- Move chunks of a source queue into the slot's buffer until it holds n nibbles (R180). -/
def fillFromQueue (c b s q n : Nat) : Nat → Work → Work
  | 0, w => w
  | fuel + 1, w =>
    match w.hw.slot c b s with
    | none => w
    | some x =>
      if n ≤ x.buf.length then w
      else match w.hw.queue c q with
        | [] => w
        | ch :: rest =>
          fillFromQueue c b s q n fuel (w.onHw (fun h => (h.setQueue c q rest).onSlot c b s (fun x =>
            { x with buf := x.buf ++ nibbles (ch.bytes.take (chunkBytes h.build)) })))

/-- Chunks of a queue that may be needed for n nibbles. -/
def fillFuel : Nat := 32

/-- A read of matrix memory by a bobbin (R214, R215): the code, and the block with a corrected word noted. `symbols` is the number of
symbol errors in its first word. -/
def nearCheck (c : Nat) (spans : List (Nat × Nat)) (symbols : Nat) (w : Work) : Nat × Work :=
  let h := w.hw
  match spans with
  | [] => (0, w)
  | (a, _) :: _ =>
    let out := h.decodeWord symbols
    if out == 2 then (Rc.DIN_UNCORRECTABLE, w.onHw (fun h => h.uncorrectable c 0 (matrixWhere (a / 2))))
    else match h.badSpans c (spans.map (fun p => (p.1 / 2, ceilDiv (p.1 % 2 + p.2) 2))) with
    | some wh => (Rc.DIN_UNCORRECTABLE, w.onHw (fun h => h.uncorrectable c 0 wh))
    | none =>
    if out == 1 && symbols ≤ 2 then (0, w.onHw (fun h => h.corrected c symbols 0 (matrixWhere (a / 2)) true))
    else (0, w)

/-! Starting a transfer. -/

/-- Record a transfer that has started on the source side. -/
def noteRead (c b s : Nat) (d : BobbinDesc) (ps : List (Nat × Nat × Nat × Nat)) (pos off : Nat) (data : Option (List Nat)) (due units : Nat)
    (h : Hw) : Hw :=
  let xf : Xfer := { id := (h.bobbin c b).nextId, write := false, pieces := ps.map (fun p => (p.2.2.1, d.nearAt p.1 + p.2.1, p.2.2.2)), data := data, due := due }
  let h := h.onSlot c b s (fun x => { x with pos := pos, off := off, started := x.started + units, xfers := x.xfers ++ [xf] })
  (h.onBobbin c b (fun k => { k with nextId := k.nextId + 1 })).countUnits c b units (endedAtoms d ps)

/-- COPY_IN, Q_IN and the read side of MOVE. -/
def readMove (c b s symbols : Nat) (x : BobSlot) (w : Work) : Option Work :=
  let d := x.desc
  let run := nextRun d d.farAt true (runFuel d) x.pos x.off none
  let spans := run.1.map (fun p => (p.2.2.1, p.2.2.2))
  match startRead c b (w.hw.bobHoop c) d.noAlloc (w.hw.bobbin c b).nextId symbols spans w with
  | .fault code w => some (w.onHw (fun h => h.xferFault c b s d.op x.pos (d.farAt x.pos / 2) code))
  | .wait => none
  | .started data due w => some (w.onHw (noteRead c b s d run.1 run.2.1 run.2.2 data due 1))

/-- The data of a run of pieces on its way out: zero atoms are zeros; the others come from matrix memory or the slot's buffer. -/
def outData (c : Nat) (d : BobbinDesc) (near : Bool) (ps : List (Nat × Nat × Nat × Nat)) (buf : List Nat) (w : Work) : List Nat × List Nat :=
  ps.foldl (fun (st : List Nat × List Nat) p =>
    if d.isZero p.1 then (st.1 ++ List.replicate p.2.2.2 0, st.2)
    else if near then (st.1 ++ mmNibbles w c (d.nearAt p.1 + p.2.1) p.2.2.2, st.2)
    else (st.1 ++ st.2.take p.2.2.2, st.2.drop p.2.2.2)) ([], buf)

/-- Nibbles that a run takes from its source. -/
def sourceNeed (d : BobbinDesc) (ps : List (Nat × Nat × Nat × Nat)) : Nat := ps.foldl (fun a p => if d.isZero p.1 then a else a + p.2.2.2) 0

/-- The address of an atom on the written side: FAR, or AUX for a MOVE. -/
def outAt (d : BobbinDesc) (i : Nat) : Nat := if d.op == 8 then d.nearAt i else d.farAt i

/-- COPY_OUT, Q_OUT and the write side of MOVE; none while the data of the run are not there. A MOVE's zero atoms are already in its
buffer. -/
def writeMove (c b s symbols : Nat) (x : BobSlot) (w : Work) : Option Work :=
  let d := x.desc
  let run := nextRun d (outAt d) false (runFuel d) x.wpos x.woff none
  let spans := run.1.map (fun p => (p.2.2.1, p.2.2.2))
  let need := if d.op == 8 then spans.foldl (fun a p => a + p.2) 0 else sourceNeed d run.1
  let w := if d.op == 3 then fillFromQueue c b s (popSide d.qend) need fillFuel w else w
  match w.hw.slot c b s with
  | none => none
  | some x =>
    if run.1.isEmpty || (d.op != 1 && x.buf.length < need) then none
    else
      let fault (code : Nat) (w : Work) : Work := w.onHw (fun h => h.xferFault c b s d.op x.wpos (outAt d x.wpos / 2) code)
      let nc := if d.op == 1 then nearCheck c ((run.1.filter (fun p => !d.isZero p.1)).map (fun p => (d.nearAt p.1 + p.2.1, p.2.2.2))) symbols w else (0, w)
      if nc.1 != 0 then some (fault nc.1 nc.2)
      else
        let w := nc.2
        let data := if d.op == 8 then (x.buf.take need, x.buf.drop need) else outData c d (d.op == 1) run.1 x.buf w
        let id := (w.hw.bobbin c b).nextId
        match startWrite c b (w.hw.bobHoop c) id spans data.1 w with
        | .error (code, w) => some (fault code w)
        | .ok none => none
        | .ok (some (waiting, due, w)) =>
          let xf : Xfer := { id := id, write := true, pieces := [], data := some [], due := due, waiting := waiting }
          some (w.onHw (fun h =>
            let h := h.onSlot c b s (fun x =>
              { x with wpos := run.2.1, woff := run.2.2, started := x.started + 1, buf := data.2, xfers := x.xfers ++ [xf] })
            (h.onBobbin c b (fun k => { k with nextId := k.nextId + 1 })).countUnits c b 1 (if d.op == 8 then 0 else endedAtoms d run.1)))

/-- LOCAL: from matrix memory to matrix memory, with no unit and no place. A walker's output in matrix memory takes DR instead of the
source; a walker's staged fetch only passes over its runs. -/
def localMove (c b s symbols : Nat) (x : BobSlot) (w : Work) : Option Work :=
  let d := x.desc
  if d.qend == 3 then
    let run := nextRun d d.farAt false (runFuel d) x.wpos x.woff none
    let need := sourceNeed d run.1
    let w := fillFromQueue c b s 3 need fillFuel w
    match w.hw.slot c b s with
    | none => none
    | some x =>
      if run.1.isEmpty || x.buf.length < need then none
      else
        let w := (run.1.foldl (fun (st : Work × List Nat) p =>
          (mmPutNibbles st.1 c p.2.2.1 (st.2.take p.2.2.2), st.2.drop p.2.2.2)) (w, x.buf)).1
        some (w.onHw (fun h => h.onSlot c b s (fun x => { x with wpos := run.2.1, woff := run.2.2, buf := x.buf.drop need })))
  else
    let run := nextRun d d.farAt true (runFuel d) x.pos x.off none
    let nc := nearCheck c (run.1.map (fun p => (p.2.2.1, p.2.2.2))) symbols w
    if run.1.isEmpty then none
    else if nc.1 != 0 then some (nc.2.onHw (fun h => h.bbFault c b s d.op x.pos nc.1))
    else
      let w := if d.stage.isSome then nc.2 else
        run.1.foldl (fun w p => mmPutNibbles w c (d.nearAt p.1 + p.2.1) (mmNibbles w c p.2.2.1 p.2.2.2)) nc.2
      some (w.onHw (fun h => (h.onSlot c b s (fun x => { x with pos := run.2.1, off := run.2.2 })).countUnits c b 0 (endedAtoms d run.1)))

/-- A transfer of a table row: of the local GATHER's table at FAR, or of a SERVE's at its base (log entry 16). -/
def rowMove (c b s symbols : Nat) (x : BobSlot) (w : Work) : Option Work :=
  let d := x.desc
  let g := x.gather
  let p := slotGpb w c x
  match g.rowQ[g.pos]? with
  | none => none
  | some e =>
    let base := if d.op == 7 then Config.serveBase d.far d.near else d.far
    let a := base + e.2.1 * Gpb.rowPitch p + g.rowOff
    let n := min (Gpb.rowLen p - g.rowOff) (512 - a % 512)
    let last := g.rowOff + n == Gpb.rowLen p
    match startRead c b (w.hw.bobHoop c) d.noAlloc (w.hw.bobbin c b).nextId symbols [(2 * a, 2 * n)] w with
    | .fault code w => some (w.onHw (fun h => h.xferFault c b s d.op g.pos a code))
    | .wait => none
    | .started data due w =>
      let xf : Xfer := { id := (w.hw.bobbin c b).nextId, write := false, pieces := [(2 * a, 0, 2 * n)], data := data, due := due }
      some (w.onHw (fun h =>
        let h := h.onSlot c b s (fun x => { x with
          started := x.started + 1, xfers := x.xfers ++ [xf],
          gather := { x.gather with pos := if last then g.pos + 1 else g.pos, rowOff := if last then 0 else g.rowOff + n } })
        (h.onBobbin c b (fun k => { k with nextId := k.nextId + 1 })).countUnits c b 1 (flag last)))

/-! The regulator (R183 to R185). -/

/-- Slot entries of a plan beat that name a core, with their places, in ascending port, lane and slot order. -/
def slotEntries (h : Hw) (m : Mem) (rx : Bool) (t core : Nat) : List (Nat × Nat × Nat × SlotEntry) :=
  ((List.range h.build.linkports).map (fun p => ((List.range 4).map (fun l => (List.range 19).filterMap (fun s =>
    let e := h.slotAt m rx t p l s
    if (e.kind == 1 || (rx && e.kind == 3)) && e.unit == core then some (p, l, s, e) else none))).flatten)).flatten

namespace Hw

/-- Transmit moves of a core in this beat: entries of KIND LOCAL of the next plan beat (R186). -/
def txDue (h : Hw) (m : Mem) (core : Nat) : List (Nat × Nat × Nat × SlotEntry) :=
  if h.planned && !h.ab.on then slotEntries h m false (h.planBeat + 1) core else []

/-- Receive moves of a core in this beat: slots of the beat before that name it (R187). -/
def rxDue (h : Hw) (core : Nat) : List SlotData :=
  if h.ab.on then [] else h.rxMoving.filter (fun x => x.typ == 1 && (x.kind == 1 || x.kind == 3) && x.unit == core)

/-- Path places of a core in a cycle of the beat (R183, R184). -/
def placesAt (h : Hw) (moves cycle : Nat) : Nat := h.build.arrayRows / 256 - (if cycle < moves then 1 else 0)

/-- Cycles of the present beat (R24). -/
def beatCycles (h : Hw) : Nat := h.beatTicks / 4

end Hw

/-- Classes of transfer that a slot has ready, in the order in which it takes them: 0 READ, 1 WRITE, 2 none. -/
def readyClasses (w : Work) (c b s : Nat) (x : BobSlot) : List Nat :=
  let d := x.desc
  let inFlight := x.xfers.foldl (fun a t => a + t.pieces.foldl (fun a p => a + p.2.2) 0) 0
  let room := x.buf.length + inFlight + 1024 ≤ assembly
  let more := x.pos < d.total
  match d.op with
  | 0 => if more then [0] else []
  | 2 => if more && room && w.hw.queueRoom c (Hw.inQ b) then [0] else []
  | 1 => if x.wpos < d.total then [1] else []
  | 3 => if x.wpos < d.total && (writeMove c b s 0 x w).isSome then [1] else []
  | 8 => (if x.wpos < d.total && (writeMove c b s 0 x w).isSome then [1] else []) ++ (if more && room then [0] else [])
  | 9 => if (localMove c b s 0 x w).isSome then [2] else []
  | 6 => if x.gather.pos < x.gather.rowQ.length && !Gpb.remote (slotGpb w c x) then [0] else []
  | 7 => if x.gather.pos < x.gather.rowQ.length then [0] else []
  | _ => []

/-- The class that a bobbin's ACTIVE descriptor may start a transfer of now (R171, R184). -/
def bobClass (w : Work) (c b : Nat) : Option (Nat × BobSlot × Nat) :=
  let h := w.hw
  match h.activeSlot c b with
  | none => none
  | some (s, x) =>
    let last := h.beatCycles - 1 - h.cycle
    let placeOk := h.get F.BB_GRANT_REMOTE c ≤ h.build.arrayRows / 256 * last
    if x.cancelled || !h.mayMove w.mem c x.desc.op || (x.desc.maxu != 0 && x.desc.maxu ≤ x.started) then none
    else ((readyClasses w c b s x).find? (fun k =>
      k == 2 || (placeOk && (if k == 0 then 0 < h.get F.BB_GRANT_READ c else 0 < h.get F.BB_GRANT_WRITE c)))).map (fun k => (s, x, k))

/-- What a transfer that starts weighs (Table 16-2; log entry 18): itself, the lines of matrix memory on its near side, and a line of
block memory or a unit of a port on its far side. -/
def weighTransfer (h : Hw) (x : BobSlot) (cls : Nat) (port : Bool) : Hw :=
  let h := h.weigh x.owner 11 1
  let h := if x.desc.op == 3 || x.desc.op == 2 then h else h.weigh x.owner 5 (if cls == 2 then 16 else 8)
  if cls == 2 then h else if port then h.weighOut x.owner 3 1 else h.weigh x.owner 10 8

/-- Start the transfer of a class of a bobbin's active slot, and spend its unit. -/
def startClass (c b symbols : Nat) (s : Nat) (x : BobSlot) (cls : Nat) (w : Work) : Work :=
  let moved := match cls, x.desc.op with
    | 2, _ => localMove c b s symbols x w
    | 1, _ => writeMove c b s symbols x w
    | _, 6 => rowMove c b s symbols x w
    | _, 7 => rowMove c b s symbols x w
    | _, _ => readMove c b s symbols x w
  match moved with
  | none => w
  | some w' => w'.onHw (fun h =>
      let h := weighTransfer h x cls (w.hw.txns.length < h.txns.length)
      let h := if cls == 0 then h.put F.BB_GRANT_READ (h.get F.BB_GRANT_READ c - 1) c
        else if cls == 1 then h.put F.BB_GRANT_WRITE (h.get F.BB_GRANT_WRITE c - 1) c else h
      h.onCore c (fun k => { k with places := k.places ++ [b] }))

/-- The regulator gives the next place to a ready transfer of a core (R184). Where the places of this cycle are taken, or every ready
bobbin has started one in it, the next cycle of the beat begins. -/
def transferStart (c symbols : Nat) (w : Work) : Work :=
  if w.hw.ab.on || !w.hw.on F.BB_CTRL_ENABLE c || w.hw.on F.CR_MM_STATUS_INIT c then w
  else
    let core := (w.hw.logicalOf c).getD 0
    let moves := (w.hw.txDue w.mem core).length + (w.hw.rxDue core).length
    let fresh (w : Work) : Work :=
      if (w.hw.core c).placeTick == w.hw.cycleTick then w
      else w.onHw (fun h => h.onCore c (fun k => { k with placeTick := h.cycleTick, places := [] }))
    let pick (w : Work) : Option (Nat × Nat × BobSlot × Nat) :=
      let used := (w.hw.core c).places
      let taken := (used.filter (fun b => match w.hw.activeSlot c b with
        | some (_, x) => x.desc.op != 9
        | none => true)).length
      (List.range 8).findSome? (fun b =>
        match bobClass w c b with
        | some (s, x, k) => if used.contains b || w.hw.ticks < x.since || (k != 2 && w.hw.placesAt moves w.hw.cycle ≤ taken) then none else some (b, s, x, k)
        | none => none)
    let go (w : Work) : Option Work := (pick w).map (fun q => startClass c q.1 symbols q.2.1 q.2.2.1 q.2.2.2 w)
    let w0 := fresh w
    match go w0 with
    | some w => w
    | none =>
      let next := w0.hw.cycleTick + 4
      if next < w0.hw.time.beatStart + w0.hw.beatTicks && (List.range 8).any (fun b => (bobClass w0 c b).isSome) then
        (go (fresh (w0.onHw (fun h => h.elapse next)))).getD w0
      else w

/-! Delivery. -/

/-- F32 elements of a served row (R194). -/
def gatherVals (p row : List Byte) (s : Val) : List Nat :=
  let f := Gpb.efmt p
  (List.range (Gpb.elems p)).map (fun i =>
    roundR91 (Val.mul (if f == 6 then f32Val (leAt (4 * i) 4 row) else elemVal f (packedElem f row i)) s))

/-- The scale of a table row under its KIND 1 header, read in the bobbin's far memory (R92 to R94). -/
def tableScale (w : Work) (c hdr idx : Nat) : Except Nat Val :=
  let rd := farBytes w.hw w.mem (w.hw.bobHoop c)
  if ((rd hdr 1).getD []).map (·.toNat) == [1] then (readScale rd hdr idx none).map (·.val)
  else if (rd hdr 16).isNone then .error Rc.SEC_HOOP_VIOLATION
  else .error Rc.DIN_SCALE_INVALID

/-- The byte of a table row's record that a SERVE sends: 38h where the owner has no scale tensor (R196). -/
def serveScale (w : Work) (c hdr idx : Nat) : Except Nat Nat :=
  if hdr == 0 then .ok 0x38
  else
    let rd := farBytes w.hw w.mem (w.hw.bobHoop c)
    match tableScale w c hdr idx with
    | .error e => .error e
    | .ok _ => .ok (leNat ((rd (hdr + 16 + 4 * idx + 2) 1).getD []))

/-- A served row joins its bag, or is written as it is (R193, R194). -/
def joinBag (c b s : Nat) (x : BobSlot) (bag n : Nat) (row : List Byte) (scale : Val) (w : Work) : Work :=
  let d := x.desc
  let p := slotGpb w c x
  let g := x.gather
  let served := tally g.served bag
  let vals := gatherVals p row scale
  let zeros := List.replicate (Gpb.elems p) 0
  let setG (g : GatherState) (w : Work) : Work := w.onHw (fun h => h.onSlot c b s (fun x => { x with gather := g }))
  match Gpb.pool p with
  | 0 => setG { g with served := served, done := g.done + 1 } (mmPutNibbles w c ((2 * d.near + n * d.nstride.getD 1 0 : Int)).toNat (nibbles row))
  | 4 =>
    let more := (g.rowQ.drop (g.done + 1)).any (fun e => e.1 == bag)
    let r : PoolRow := { core := c, bobbin := b, bag := bag, last := !more, row := wordBytes vals }
    (setG { g with served := served, done := g.done + 1, pooling := if g.pooling.contains bag then g.pooling else g.pooling ++ [bag] } w).onHw
      (fun h => { h with poolRows := h.poolRows ++ [r] })
  | k =>
    let first := (Tab.find? g.acc bag).isNone
    let old := Tab.getD g.acc bag zeros
    let new := (List.range (Gpb.elems p)).map (fun i =>
      let v := vals.getD i 0
      if k == 3 then (if first then v else F32.max (old.getD i 0) v) else roundR90 (Val.add (f32Val (old.getD i 0)) (f32Val v)))
    setG { g with served := served, done := g.done + 1, acc := Tab.insert g.acc bag new } w

/-- The bytes of the next row have come: of a GATHER it joins its bag, of a SERVE it is answered with an entry (R196). -/
def rowArrived (c b s : Nat) (x : BobSlot) (w : Work) : Work :=
  let d := x.desc
  let p := slotGpb w c x
  let g := x.gather
  let row := g.buf.take (Gpb.rowLen p)
  let g1 := { g with buf := g.buf.drop (Gpb.rowLen p) }
  let x1 := { x with gather := g1 }
  let e := g.rowQ.getD g.done (0, 0, 0)
  let fault (code : Nat) : Work := w.onHw (fun h => h.xferFault c b s d.op g.done (Gpb.scales p) code)
  if d.op == 7 then
    match serveScale w c (Gpb.scales p) e.2.1 with
    | .error code => fault code
    | .ok u =>
      let entry := leBytes 2 e.2.1 ++ [BitVec.ofNat 8 u, 0#8] ++ row ++ List.replicate (Gpb.entryLen p - 4 - row.length) 0#8
      w.onHw (fun h => h.onSlot c b s (fun x => { x with gather := { g1 with done := g.done + 1, out := g.out ++ entry } }))
  else if Gpb.pool p == 0 || Gpb.scales p == 0 then joinBag c b s x1 e.1 e.2.2 row Val.one w
  else match tableScale w c (Gpb.scales p) e.2.1 with
    | .error code => fault code
    | .ok v => joinBag c b s x1 e.1 e.2.2 row v w

/-- The transfer at the front of a slot takes effect (R178, R182): its data go to matrix memory, the buffer or the row. -/
def deliverFront (c b s : Nat) (x : BobSlot) (t : Xfer) (data : List Nat) (w : Work) : Work :=
  let d := x.desc
  let w := w.onHw (fun h => h.onSlot c b s (fun x => { x with xfers := x.xfers.drop 1 }))
  if t.write then w
  else if d.op == 2 || d.op == 8 then w.onHw (fun h => h.onSlot c b s (fun x => { x with buf := x.buf ++ data }))
  else if d.op == 6 || d.op == 7 then
    w.onHw (fun h => h.onSlot c b s (fun x => { x with gather := { x.gather with buf := x.gather.buf ++ ofNibbles data } }))
  else if d.stage.isSome then w
  else (t.pieces.foldl (fun (st : Work × List Nat) p => (putNear c d p.2.1 (st.2.take p.2.2) st.1, st.2.drop p.2.2)) (w, data)).1

/-- A zero atom at the front is written, or takes its place in the data, and is passed over (R174). -/
def zeroAtom (c b s : Nat) (x : BobSlot) (w : Work) : Work :=
  let d := x.desc
  let zs := List.replicate (d.size x.pos) 0
  let w := if d.op == 2 || d.op == 8 then
      w.onHw (fun h =>
        let xf : Xfer := { id := (h.bobbin c b).nextId, write := false, pieces := [], data := some zs, due := h.ticks }
        (h.onSlot c b s (fun x => { x with xfers := x.xfers ++ [xf] })).onBobbin c b (fun k => { k with nextId := k.nextId + 1 }))
    else putNear c d (d.nearAt x.pos) zs w
  w.onHw (fun h => (h.onSlot c b s (fun x => { x with pos := x.pos + 1 })).countUnits c b 0 1)

/-- A requested row at or above the shard's ROWS is answered with an all-zero entry (R196). -/
def serveAbsent (c b s : Nat) (p : List Byte) (w : Work) : Work :=
  w.onHw (fun h => (h.onSlot c b s (fun x =>
    { x with gather := { x.gather with pos := x.gather.pos + 1, done := x.gather.done + 1, out := x.gather.out ++ List.replicate (Gpb.entryLen p) 0#8 } })).inc
      F.BB_GSKIP_COUNT 1 c)

/-- One step of a slot's progress that needs no place: none where there is none. -/
def slotStep (c b s : Nat) (x : BobSlot) (w : Work) : Option Work :=
  let d := x.desc
  let g := x.gather
  let h := w.hw
  let front := x.xfers.head?.bind (fun t => match t.data with
    | some v => if !t.waiting && t.due ≤ h.ticks then some (t, v) else none
    | none => none)
  if x.cancelled then
    if x.xfers.isEmpty then some (w.onHw (fun h => (h.freeSlot c b s).activate c b))
    else front.map (fun _ => w.onHw (fun h => h.onSlot c b s (fun x => { x with xfers := x.xfers.drop 1 })))
  else match front with
    | some (t, data) => some (deliverFront c b s x t data w)
    | none =>
      let n := chunkIn h.build d
      if (d.op == 2 || d.op == 5) && n ≤ x.buf.length && h.queueRoom c (Hw.inQ b) then
        some (w.onHw (fun h => (h.push c (Hw.inQ b) (makeChunk d x.serial (x.buf.take n))).onSlot c b s (fun x => { x with buf := x.buf.drop n })))
      else if (d.op == 0 || d.op == 2 || d.op == 8 || d.op == 9) && x.state == 2 && x.pos < d.total && d.isZero x.pos && x.off == 0 && h.mayMove w.mem c d.op then
        some (zeroAtom c b s x w)
      else if d.op == 6 && x.state == 2 && !g.begun then some (beginGather c b s x w)
      else if d.op == 7 && x.state == 2 && g.pos == g.done && g.rowQ.length > g.pos && Gpb.rows (slotGpb w c x) ≤ (g.rowQ.getD g.pos (0, 0, 0)).2.1 then
        some (serveAbsent c b s (slotGpb w c x) w)
      else if (d.op == 6 || d.op == 7) && g.done < g.rowQ.length && !(d.op == 6 && Gpb.remote (slotGpb w c x)) && Gpb.rowLen (slotGpb w c x) ≤ g.buf.length &&
          g.done < g.pos then
        some (rowArrived c b s x w)
      else if x.state == 2 && allStarted w c x then some (w.onHw (fun h => h.closeSlot c b s))
      else none

/-- One step of a core's bobbins. -/
def bobStep (c : Nat) (w : Work) : Option Work :=
  if w.hw.ab.on || (w.hw.core c).bobbins.isEmpty then none
  else (List.range 8).findSome? (fun b => (w.hw.slotOrder c b).findSome? (fun p => slotStep c b p.1 p.2 w))

/-! The end of a descriptor. -/

/-- The pooled row of a bag as it is written (R194). -/
def bagRow (p : List Byte) (g : GatherState) (j : Nat) : List Nat :=
  match Tab.find? g.acc j with
  | none => List.replicate (Gpb.elems p) 0
  | some v =>
    if Gpb.pool p == 2 && (Tab.find? g.incomplete j).isNone then
      let r := F32.rcp (F32.ofNat (Tab.getD g.served j 0))
      v.map (fun a => F32.mul a r)
    else v

/-- An element is NaN or infinite. -/
def nonFinite (xs : List Nat) : Bool := xs.any (fun v => (f32Val v).isNan || (f32Val v).isInf)

/-- Write the row of a bag. -/
def writeBag (c : Nat) (d : BobbinDesc) (j : Nat) (xs : List Nat) (w : Work) : Work :=
  mmPutNibbles w c ((2 * d.near + j * d.nstride.getD 1 0 : Int)).toNat (nibbles (wordBytes xs))

/-- Rows of the bags, their status entries, and the overflow list (R194, R195). -/
def writeBags (c : Nat) (x : BobSlot) (w : Work) : Work :=
  let d := x.desc
  let p := slotGpb w c x
  let g := x.gather
  let w := (List.range (Gpb.bags p)).foldl (fun w j =>
    let pooled := 1 ≤ Gpb.pool p && Gpb.pool p ≤ 3
    let empty := Tab.getD g.served j 0 == 0
    let row := if pooled then bagRow p g j else List.replicate (Gpb.elems p) 0
    let w := if pooled || (Gpb.pool p == 4 && empty) then writeBag c d j row w else w
    let nf := (pooled && nonFinite row) || (Tab.find? g.nonfinite j).isSome
    let skips := min (Tab.getD g.skips j 0) 0xFFFF
    let flags := flag (Tab.find? g.incomplete j).isSome + 2 * flag (skips != 0) + 4 * flag nf
    w.mmStore c (Gpb.bagStat p + 8 * j) (leBytes 4 (Tab.getD g.served j 0) ++ leBytes 2 flags ++ leBytes 2 skips)) w
  let list := (g.overflow.map (fun e => leBytes 4 e.1 ++ leBytes 4 e.2)).flatten
  w.mmStore c (Gpb.ovf p) (leBytes 4 g.overflow.length ++ leBytes 4 g.dropped ++ list)

/-- The staged data of a walker's fetch stand in matrix memory of its cores, and the macros there may use them (R118, R120, R128). -/
def stageDone (c : Nat) (x : BobSlot) (w : Work) : Work :=
  match x.desc.stage, (w.hw.core c).mac with
  | some (operand, n), some m =>
    let far := if x.desc.nearRuns then none else some m.hoop
    (w.hw.copyCores c x.desc).foldl (fun w k =>
      let mk := ((w.hw.core k).mac.getD m)
      (mk.stageFill far n operand k w).onHw (fun h => h.onCore k (fun q =>
        { q with mac := q.mac.map (fun m => { m with staged := m.staged ++ [(operand, n)] }) }))) w
  | _, _ => w

/-- END of a CLOSING descriptor whose reads have delivered and whose writes are visible (R178, R195). -/
def endSlot (c b s : Nat) (x : BobSlot) (w : Work) : Work :=
  let d := x.desc
  let partialOut := (d.op == 2 || d.op == 5) && !x.buf.isEmpty
  if partialOut && !w.hw.queueRoom c (Hw.inQ b) then w
  else
    let w := if partialOut then w.onHw (fun h => h.push c (Hw.inQ b) (makeChunk d x.serial x.buf)) else w
    let w := if d.op == 6 then writeBags c x w else w
    let w := stageDone c x w
    w.onHw (fun h =>
      let outside := match h.objOf ((h.logicalOf c).getD 0) d.obj with
        | some g => h.isShared g && !h.inSyncRange (h.bobHoop c) g
        | none => false
      if d.signalEn && outside then h.bbFault c b s d.op 0 Rc.SEC_HOOP_VIOLATION
      else
        let h := if d.signalEn then h.signalFrom c d.obj d.sigAdd { h.bbSrc c with hoop := h.bobHoop c } else h
        (h.event c (0x08 + b) 1).closeOut c b s)

/-- A slot has nothing left in flight. -/
def slotQuiet (x : BobSlot) : Bool := x.xfers.isEmpty && x.gather.pooling.isEmpty && x.gather.done == x.gather.rowQ.length

/-- DESCRIPTOR_END of a bobbin: its oldest CLOSING descriptor. Time goes on to the tick at which its last transfer takes effect; a cancelled
descriptor's slot becomes FREE then. -/
def descriptorEnd (c b : Nat) (w : Work) : Work :=
  if w.hw.ab.on then w
  else match (w.hw.slotOrder c b).find? (fun p => p.2.state == 3) with
    | none => w
    | some (s, x) =>
      if x.xfers.any (fun t => t.waiting || t.data.isNone) then w
      else
        let due := x.xfers.foldl (fun a t => max a t.due) x.since
        let w := Work.repeatStep 100000 (bobStep c) (w.onHw (fun h => h.elapse due))
        match w.hw.slot c b s with
        | none => w
        | some x => if x.state == 3 && !x.cancelled && slotQuiet x then endSlot c b s x w else w

/-! Cancel (R181). -/

/-- Cancel a busy slot. -/
def cancelSlot (c b s : Nat) (h : Hw) : Hw :=
  match h.slot c b s with
  | none => h
  | some x =>
    let h := h.setQueue c (Hw.inQ b) ((h.queue c (Hw.inQ b)).filter (fun ch => ch.owner != x.serial))
    if x.state == 1 then h.freeSlot c b s
    else
      let h := h.inc F.BB_DISCARD_COUNT (x.xfers.filter (fun (t : Xfer) => !t.write)).length (Hw.sub c 8 b)
      let h := { h with
        txns := h.txns.map (fun (t : PortTxn) => if t.core == c && t.bobbin == b && x.xfers.any (fun f => f.id == t.xfer) then { t with alloc := false } else t),
        poolRows := h.poolRows.filter (fun r => !(r.core == c && r.bobbin == b)) }
      let h := h.onSlot c b s (fun x => { x with
        state := 3, cancelled := true, buf := [], gather := {}, xfers := x.xfers.filter (fun t => t.data.isNone || t.waiting || h.ticks < t.due) })
      (if (h.slot c b s).any (fun x => x.xfers.isEmpty) then h.freeSlot c b s else h).activate c b

/-- Cancel the slots of a mask. -/
def cancelSlots (c b mask : Nat) (h : Hw) : Hw := (List.range 4).foldl (fun h s => if bit s mask then cancelSlot c b s h else h) h

/-- An END that falls in this cycle is made before a cancellation in the same cycle (R181). -/
def endDue (c b : Nat) (w : Work) : Work :=
  match (w.hw.slotOrder c b).find? (fun p => p.2.state == 3) with
  | none => w
  | some (_, x) => if x.since ≤ w.hw.ticks && x.xfers.all (fun t => t.due ≤ w.hw.ticks) then descriptorEnd c b w else w

/-- BBCAN (R181, R190). -/
def bbcanRule (c : Nat) (iw : InstrWord) : OpRule :=
  let b := ifld iw 8 0 3
  plainRule (fun _ _ => 0) [] (fun _ w => (endDue c b (Work.repeatStep 100000 (bobStep c) w)).onHw (fun h =>
    if h.reservedBobbin c b then h.bbFault c b 0 0 0 Rc.RES_BOBBIN_RESERVED else cancelSlots c b (ifld iw 8 4 4) h))

/-! Slot moves (R185 to R189). -/

/-- Spend a REMOTE unit for a slot move, or raise RES_BOBBIN_REMOTE_OVER; the move is made either way (R185). -/
def spendRemote (h : Hw) (c b : Nat) : Hw :=
  let left := h.get F.BB_GRANT_REMOTE c
  if left == 0 then h.bbFault c b 0 0 0 Rc.RES_BOBBIN_REMOTE_OVER
  else (h.put F.BB_GRANT_REMOTE (left - 1) c).countUnits c b 1 0

/-- Nibbles of the next payload of a SEND: pieces of its pattern, at most 1,024 nibbles. -/
def sendPieces (d : BobbinDesc) : Nat → Nat → Nat → Nat → List (Nat × Nat × Nat × Nat) × Nat × Nat
  | 0, pos, off, _ => ([], pos, off)
  | fuel + 1, pos, off, room =>
    if d.total ≤ pos || room == 0 then ([], pos, off)
    else
      let left := d.size pos - off
      let n := min left room
      let next := if n == left then sendPieces d fuel (pos + 1) 0 (room - n) else ([], pos, off + n)
      ((pos, off, d.nearAt pos + off, n) :: next.1, next.2.1, next.2.2)

/-- The payload of a SEND: its bytes; none while they are not there. -/
def sendPayload (c b s : Nat) (x : BobSlot) (w : Work) : Option (List Byte × Work) :=
  let d := x.desc
  let run := sendPieces d 1025 x.pos x.off 1024
  let near := d.qend == 0x1F
  let need := sourceNeed d run.1
  let w := if near then w else fillFromQueue c b s (popSide d.qend) need fillFuel w
  match w.hw.slot c b s with
  | none => none
  | some x =>
    if run.1.isEmpty || (!near && x.buf.length < need) then none
    else
      let out := outData c d near run.1 x.buf w
      some (ofNibbles out.1, w.onHw (fun h => (h.onSlot c b s (fun x => { x with pos := run.2.1, off := run.2.2, buf := out.2 })).countUnits c b 0 (endedAtoms d run.1)))

/-- The request payload of a shard (R196). -/
def requestPayload (p : List Byte) (g : GatherState) (k n : Nat) : List Byte :=
  let rows := ((shardRowsOf p g k).drop (127 * n)).take 127
  let ws := rows.map (fun e => leBytes 4 (e.2.1 % max 1 (Gpb.shardRows p)))
  sliceBytes 0 512 (leBytes 2 rows.length ++ leBytes 2 0 ++ ws.flatten)

/-- The next payload of a slot for a stream, with its valid bytes: of a SEND, a remote GATHER's requests, a SERVE's replies. -/
def txPayload (c b stream : Nat) (s : Nat) (x : BobSlot) (w : Work) : Option (List Byte × Work) :=
  let g := x.gather
  let setG (g : GatherState) (w : Work) : Work := w.onHw (fun h => h.onSlot c b s (fun x => { x with gather := g }))
  if x.cancelled || x.state < 2 then none
  else match x.desc.op with
    | 4 => if x.desc.stream == stream then sendPayload c b s x w else none
    | 6 =>
      let p := slotGpb w c x
      if !g.begun || !Gpb.remote p then none
      else ((shardsOf p).find? (fun k => Gpb.shardReq (shardTab w c) p k == stream &&
          Tab.getD g.sent k 0 < Gpb.reqPayloads (Gpb.shardBudget (shardTab w c) p k))).map (fun k =>
        (requestPayload p g k (Tab.getD g.sent k 0), setG { g with sent := tally g.sent k } w))
    | 7 =>
      let p := slotGpb w c x
      let total := Gpb.replyPayloads p (Gpb.budget p)
      let all := Gpb.reqPayloads (Gpb.budget p) ≤ g.reqGot && g.done == g.rowQ.length
      if Gpb.reply p != stream || total ≤ g.outSent || !(512 ≤ g.out.length || all) then none
      else some (sliceBytes 0 512 g.out, setG { g with out := g.out.drop 512, outSent := g.outSent + 1 } w)
    | _ => none

/-- SLOT_TRANSMIT_MOVE: the next transmit move of a core in this beat (R186, R188). -/
def transmitMove (c : Nat) (w : Work) : Work :=
  let h := w.hw
  let due := h.txDue w.mem ((h.logicalOf c).getD 0)
  let k := (h.core c).txMoves
  match due[k]? with
  | none => w
  | some (p, l, sl, e) =>
    let w := w.onHw (fun h => spendRemote ((h.elapse (h.time.beatStart + 4 * k)).onCore c (fun q => { q with txMoves := k + 1 })) c e.sub)
    let tag := w.hw.coreTag w.mem c
    match (if tag == 1 || tag == 3 then (w.hw.slotOrder c e.sub).findSome? (fun q => (txPayload c e.sub e.stream q.1 q.2 w).map (fun r => (q.2.owner, r))) else none) with
    | none => w.onHw (fun h => h.bbFault c e.sub 0 4 0 Rc.RES_BOBBIN_SEND_LATE)
    | some (o, bs, w) =>
      let d : SlotData := { port := p, lane := l, slot := sl, typ := 1, stream := e.stream, hoop := w.hw.bobHoop c, len := bs.length, data := sliceBytes 0 512 bs }
      w.onHw (fun h => ({ h with txSlots := h.txSlots ++ [d] }.weighOut o 2 1).weigh o 5 8)

/-- A RECV writes payload nibbles along its pattern, or gathers them for the inbound queue; zero atoms take zeros. -/
def recvPut (c b s : Nat) : Nat → List Nat → Work → Work
  | 0, _, w => w
  | fuel + 1, xs, w =>
    match w.hw.slot c b s with
    | none => w
    | some x =>
      let d := x.desc
      if d.total ≤ x.wpos then w
      else
        let zero := d.isZero x.wpos
        let left := d.size x.wpos - x.woff
        let n := if zero then left else min left xs.length
        if n == 0 then w
        else
          let ys := if zero then List.replicate n 0 else xs.take n
          let w := if d.qend == 0x1F then mmPutNibbles w c (d.nearAt x.wpos + x.woff) ys else w.onHw (fun h => h.onSlot c b s (fun x => { x with buf := x.buf ++ ys }))
          let w := w.onHw (fun h => (h.onSlot c b s (fun x =>
            { x with wpos := if n == left then x.wpos + 1 else x.wpos, woff := if n == left then 0 else x.woff + n })).countUnits c b 0 (flag (n == left)))
          recvPut c b s fuel (if zero then xs else xs.drop n) w

/-- Take reply entries that are complete (R194, R196). -/
def replyEntries (c b s shard : Nat) : Nat → Work → Work
  | 0, w => w
  | fuel + 1, w =>
    match w.hw.slot c b s with
    | none => w
    | some x =>
      let g := x.gather
      let p := slotGpb w c x
      let bs := Tab.getD g.replies shard []
      match (shardRowsOf p g shard)[Tab.getD g.taken shard 0]? with
      | none => w
      | some e =>
        if bs.length < Gpb.entryLen p then w
        else
          let g1 := { g with replies := Tab.insert g.replies shard (bs.drop (Gpb.entryLen p)), taken := tally g.taken shard }
          let u := leAt 2 1 bs
          let ts := FloatFmt.f32.decode (Gpb.tscale p)
          let fault (code : Nat) : Work := w.onHw (fun h => h.xferFault c b s 6 e.2.2 0 code)
          let scaled := Gpb.pool p != 0 && Gpb.scales p != 0
          if leAt 0 2 bs != e.2.1 % max 1 (Gpb.shardRows p) % 65536 then fault Rc.DIN_SCALE_SKEW
          else if scaled && (u ≥ 0x7F || ts.isNan || ts.isInf || ts.isNeg || Gpb.tscale p < 0x00800000) then fault Rc.DIN_SCALE_INVALID
          else
            let v := if scaled then Val.mul (FloatFmt.ue4m3.decode u) ts else Val.one
            replyEntries c b s shard fuel (joinBag c b s { x with gather := g1 } e.1 e.2.2 (sliceBytes 4 (Gpb.rowLen p) bs) v w)

/-- The shard of a GATHER that awaits a reply payload of a stream. -/
def replyShard (w : Work) (c : Nat) (x : BobSlot) (stream : Nat) : Option Nat :=
  let p := slotGpb w c x
  if !x.gather.begun || !Gpb.remote p then none
  else (shardsOf p).find? (fun k => Gpb.shardReply (shardTab w c) p k == stream &&
    Tab.getD x.gather.got k 0 < Gpb.replyPayloads p (Gpb.shardBudget (shardTab w c) p k))

/-- A busy slot can take a received payload (R187). -/
def canTake (w : Work) (c b : Nat) (x : BobSlot) (stream len : Nat) : Bool :=
  let d := x.desc
  if x.cancelled then false
  else match d.op with
    | 5 => d.stream == stream && x.wpos < d.total &&
        (d.qend == 0x1F || (x.buf.length + 2 * len) / chunkIn w.hw.build d + (w.hw.queue c (Hw.inQ b)).length ≤ Hw.queueCap (Hw.inQ b))
    | 6 => (replyShard w c x stream).isSome
    | 7 => d.stream == stream && x.gather.reqGot < Gpb.reqPayloads (Gpb.budget (slotGpb w c x))
    | _ => false

/-- Deliver a payload to a slot. -/
def takePayload (c b s : Nat) (x : BobSlot) (d : SlotData) (w : Work) : Work :=
  let setG (g : GatherState) (w : Work) : Work := w.onHw (fun h => h.onSlot c b s (fun x => { x with gather := g }))
  match x.desc.op with
  | 5 => recvPut c b s 4096 (nibbles (d.data.take d.len)) w
  | 6 => match replyShard w c x d.stream with
    | none => w
    | some k =>
      let g := x.gather
      replyEntries c b s k 512 (setG { g with got := tally g.got k, replies := Tab.insert g.replies k (Tab.getD g.replies k [] ++ sliceBytes 0 512 d.data) } w)
  | _ =>
    let g := x.gather
    let rows := (List.range (min 127 (leAt 0 2 d.data))).map (fun i => (0, leAt (4 + 4 * i) 4 d.data, 0))
    setG { g with reqGot := g.reqGot + 1, rowQ := (g.rowQ ++ rows).take (Gpb.budget (slotGpb w c x)) } w

/-- SLOT_RECEIVE_MOVE: the next receive move of a core in this beat, after its transmit moves (R187, R188, R189). -/
def receiveMove (c : Nat) (w : Work) : Work :=
  let h := w.hw
  let core := (h.logicalOf c).getD 0
  let k := (h.core c).rxMoves
  match (h.rxDue core)[k]? with
  | none => w
  | some d =>
    let b := d.sub
    let cyc := (h.txDue w.mem core).length + k
    let w := w.onHw (fun h => spendRemote ((h.elapse (h.time.beatStart + 4 * cyc)).onCore c (fun q => { q with rxMoves := k + 1 })) c b)
    let tag := w.hw.coreTag w.mem c
    let target := if tag == 1 || tag == 3 then (w.hw.slotOrder c b).find? (fun q => canTake w c b q.2 d.stream d.len) else none
    match target with
    | none => w.onHw (fun h => h.bbFault c b 0 5 0 Rc.RES_BOBBIN_NO_SINK)
    | some (s, x) => (takePayload c b s x d w).onHw (fun h => ((h.received d.stream d.len).weighOut x.owner 2 1).weigh x.owner 5 8)

/-! Beats, steps, aborts, enable. -/

namespace Hw

/-- The first cycle of a beat (R183): units left lapse, and the budgets of a Fill or Drain beat are loaded. -/
def loadGrants (h : Hw) (m : Mem) (c : Nat) : Hw :=
  let g := h.rd .BB_GRANT c
  let left := bits 0 10 g + bits 10 10 g + bits 20 10 g
  let h := if left == 0 then h else h.inc F.BB_LAPSED_COUNT left c
  let tag := h.coreTag m c
  let core := (h.logicalOf c).getD 0
  let load := (tag == 1 || tag == 3) && (h.logicalOf c).isSome
  let v := if load then h.grantNow m core 0 % 1024 + h.grantNow m core 1 % 1024 * 1024 + h.grantNow m core 2 % 1024 * 1048576 else 0
  let h := if v == h.rd .BB_GRANT c then h else h.wr .BB_GRANT c v
  if (h.core c).bobbins.isEmpty && (h.core c).txMoves == 0 && (h.core c).rxMoves == 0 then h
  else h.onCore c (fun k => { k with
    txMoves := 0, rxMoves := 0, bobbins := Tab.mapAll k.bobbins {} (fun _ q => { q with slots := q.slots.map (fun p => (p.1, { p.2 with started := 0 })) }) })

/-- A step's last cycle finds a slot busy or a queue of a bobbin occupied (R198): bobbin and slot. -/
def bobbinLeft (h : Hw) (c : Nat) : Option (Nat × Nat) :=
  (List.range 8).findSome? (fun b =>
    match (h.slotOrder c b).head? with
    | some (s, _) => some (b, s)
    | none => match (List.range 4).find? (fun s => h.closing c b s) with
      | some s => some (b, s)
      | none => if (h.queue c (outQ b)).isEmpty && (h.queue c (inQ b)).isEmpty then none else some (b, 0))

/-- The commit records NEXT (R197). -/
def commitBobbins (h : Hw) (c : Nat) : Hw :=
  if (h.core c).bobbins.isEmpty then h
  else h.onCore c (fun k => { k with bobbins := Tab.mapAll k.bobbins {} (fun _ q => { q with committed := q.next }) })

/-- A transfer is still in flight. -/
def inFlightXfer (h : Hw) (t : Xfer) : Bool := t.data.isNone || t.waiting || h.ticks < t.due

/-- After an abort, transfers that have completed are discarded; once none of a bobbin remains in flight its slots are FREE, its queues are empty,
and NEXT is that of the last commit (R161, R197). `all`: none remains. -/
def quietBobbins (h : Hw) (c : Nat) (all : Bool) : Hw :=
  if (h.core c).bobbins.isEmpty && (h.core c).queues.isEmpty then h
  else
    let left (q : Bobbin) : Tab BobSlot :=
      if all then [] else (q.slots.map (fun p => (p.1, { p.2 with xfers := p.2.xfers.filter h.inFlightXfer }))).filter (fun p => !p.2.xfers.isEmpty)
    let quiet (b : Nat) : Bool := (left (h.bobbin c b)).isEmpty
    h.onCore c (fun k => { k with
      bobbins := Tab.mapAll k.bobbins {} (fun _ q => if (left q).isEmpty then { q with slots := [], freed := [], next := q.committed } else { q with slots := left q })
      queues := k.queues.filter (fun q => q.1 < 0x10 || !quiet (q.1 % 8)) })

/-- The abort: no slot starts another transfer; data of reads in flight are discarded (R197). -/
def abortBobbins (h : Hw) (c : Nat) : Hw :=
  let n (b : Nat) : Nat := (h.bobbin c b).slots.foldl (fun a p => a + (p.2.xfers.filter (fun t => !t.write)).length) 0
  let h := (List.range 8).foldl (fun h b => if n b == 0 then h else h.inc F.BB_DISCARD_COUNT (n b) (sub c 8 b)) h
  let h := h.onCore c (fun k => { k with bobbins := Tab.mapAll k.bobbins {} (fun _ q =>
    { q with slots := (q.slots.filter (fun p => 2 ≤ p.2.state)).map (fun p => (p.1, { p.2 with state := 3, cancelled := true, buf := [], gather := {} })) }) })
  { h with
    txns := h.txns.map (fun (t : PortTxn) => if t.core == c then { t with alloc := false } else t),
    poolRows := h.poolRows.filter (fun r => r.core != c) }.quietBobbins c false

/-- A write of BB_CTRL (R181, R200, R404). -/
def writeBbCtrl (h : Hw) (c v : Nat) : Hw :=
  let refuse (h : Hw) (code : Nat) : Hw := h.refuse code F.BB_STATUS_REASON c (0xC2 + c)
  let wa := bits 4 3 v
  let wb := bits 8 3 v
  let wo := bits 12 3 v
  let on := h.on F.BB_CTRL_ENABLE c
  let same := wa == h.get F.BB_CTRL_WALK_A c && wb == h.get F.BB_CTRL_WALK_B c && wo == h.get F.BB_CTRL_WALK_OUT c
  if on && !same then refuse h Rc.CFG_CONFLICT
  else
    let h' := ((h.put F.BB_CTRL_WALK_A wa c).put F.BB_CTRL_WALK_B wb c).put F.BB_CTRL_WALK_OUT wo c
    if !on && bit 0 v then
      if wa == wb || wa == wo || wb == wo then refuse h' Rc.CFG_BB_WALK
      else if !h.hasPlan then refuse h' Rc.CFG_BB_DEPENDS
      else
        let h' := h'.put F.BB_CTRL_ENABLE 1 c
        let h' := ((h'.wr .BB_LAPSED c 0).wr .BB_GSKIP c 0).wr .BB_GOVF c 0
        (List.range 8).foldl (fun h b => ((h.wr .BB_ATOMS (sub c 8 b) 0).wr .BB_UNITS (sub c 8 b) 0).wr .BB_DISCARD (sub c 8 b) 0) h'
    else if on && !bit 0 v then
      (List.range 8).foldl (fun h b => cancelSlots c b 15 h) (h'.put F.BB_CTRL_ENABLE 0 c)
    else h'

/-- BBn_SLOTS as it reads. -/
def slotsWord (h : Hw) (c b : Nat) : Nat :=
  let k := h.bobbin c b
  let shown (s : Nat) : Nat := match Tab.find? k.slots s with
    | some x => if x.since ≤ h.ticks then x.state else x.state - 1
    | none => if h.closing c b s then 3 else 0
  let st := (List.range 4).foldl (fun a s => a + shown s * 4 ^ s) 0
  let act := ((List.range 4).find? (fun s => shown s == 2)).getD 0
  st + act * 2 ^ 8 + k.next * 2 ^ 10 + (h.queue c (outQ b)).length * 2 ^ 16

end Hw

/-! Responses of the memory ports (R210, R215, R220, R221, R224, R441). -/

namespace Hw

/-- The data of a transaction reach its bobbin's transfer, or its write is answered. -/
def answerXfer (h : Hw) (t : PortTxn) (data : List Nat) : Hw :=
  h.onBobbin t.core t.bobbin (fun k => { k with slots := k.slots.map (fun p => (p.1, { p.2 with
    xfers := p.2.xfers.map (fun x => if x.id == t.xfer then
        (if x.write then { x with waiting := false, due := max x.due h.ticks } else { x with data := some data, due := max x.due h.ticks }) else x) })) })

/-- The transfer's far pieces. -/
def xferPieces (h : Hw) (t : PortTxn) : List (Nat × Nat × Nat) :=
  (((h.bobbin t.core t.bobbin).slots.findSome? (fun p => p.2.xfers.find? (fun x => x.id == t.xfer))).map (·.pieces)).getD []

/-- The slot of a transfer. -/
def xferSlot (h : Hw) (t : PortTxn) : Option (Nat × BobSlot) :=
  List.find? (fun p => p.2.xfers.any (fun x => x.id == t.xfer)) (h.bobbin t.core t.bobbin).slots

/-- Remove a transaction. -/
def endTxn (h : Hw) (t : PortTxn) : Hw := { h with txns := h.txns.filter (fun x => !(x.port == t.port && x.tag == t.tag)) }.showOutstanding t.port

/-- A fault of a port, of the transfer's bobbin. A cancelled or aborted transfer raises no fault of a run any more. -/
def portFault (h : Hw) (t : PortTxn) (code : Nat) : Hw :=
  let h := h.put F.MP_STATUS_REASON code t.port
  match h.xferSlot t with
  | some (s, x) => if x.cancelled then h.raise code { unit := 0x50 + t.port } else h.bbFault t.core t.bobbin s x.desc.op x.pos code
  | none => h.raise code { unit := 0x50 + t.port }

end Hw

/-- The nibbles that a transfer takes of a unit. -/
def unitData (w : Work) (t : PortTxn) (symbols : Nat) : List Nat :=
  let unit := nibbles (farRead w.hw w.mem t.hoop (.port (t.unit * 512) false) 512)
  let ps := w.hw.xferPieces t
  garbled w.hw symbols ((ps.map (fun p => (unit.drop (p.1 % 1024)).take p.2.2)).flatten)

/-- PORT_READ_RESPONSE: a read unit, or an error response, on a tag of a port. `symbols` is the number of symbol errors found. -/
def portRead (port tag : Nat) (err : Bool) (symbols : Nat) (w : Work) : Work :=
  match w.hw.txns.find? (fun t => t.port == port && t.tag == tag && t.data.isNone && !t.filled) with
  | none => w
  | some t =>
    let unit := 0x50 + port
    let wh := t.unit / w.hw.build.memports * 8
    let out := w.hw.decodeWord symbols
    if err then w.onHw (fun h => (h.setFlag F.MP_STATUS_ERRRESP port |>.portFault t Rc.DIN_MP_RESPONSE).endTxn t)
    else if out == 2 then w.onHw (fun h => ((h.uncorrectable unit 0 wh).portFault t Rc.DIN_UNCORRECTABLE).endTxn t)
    else
      let w := if out == 1 && symbols ≤ 2 then w.onHw (fun h => h.corrected unit symbols 0 wh false) else if symbols ≥ 5 then w.onHw (·.draw) else w
      if t.cached then w.onHw (fun h => { h with txns := h.txns.map (fun x => if x.port == port && x.tag == tag then { x with filled := true, symbols := symbols } else x) })
      else
        let data := unitData w t symbols
        w.onHw (fun h => (h.answerXfer t data).endTxn t)

/-- CACHE_FILL: the oldest unit that has arrived is delivered, and allocated where the transaction allows it (R210). -/
def cacheFillStep (w : Work) : Work :=
  match w.hw.txns.find? (·.filled) with
  | none => w
  | some t =>
    let data := unitData w t t.symbols
    w.onHw (fun h => applyIf (t.alloc && t.gen == h.keyGen t.hoop) (fun h => h.cacheFill t.hoop t.gen t.unit) ((h.answerXfer t data).endTxn t))

/-- PORT_WRITE_RESPONSE: the write is visible to every reader, and its tag is free (R221). -/
def portWrite (port tag : Nat) (err : Bool) (w : Work) : Work :=
  match w.hw.txns.find? (fun t => t.port == port && t.tag == tag && t.data.isSome) with
  | none => w
  | some t =>
    if err then w.onHw (fun h => (h.setFlag F.MP_STATUS_ERRRESP port |>.portFault t Rc.DIN_MP_RESPONSE).endTxn t)
    else
      let key := (w.hw.keyOf t.hoop).getD 0
      let w := w.store Area.port (t.unit * 512) (t.data.getD [])
      w.onHw (fun h => ({ h with portKeys := Tab.insert h.portKeys t.unit key }.answerXfer t []).endTxn t)

end Sys2Proof.Machine
end

