-- ==== Sys2Proof/Machine/Walker.lean ====
section
/-! DEFINITION. Tensor descriptors and the tile walker: BIND, MMUL, MMUL2, fetches, passes, conversions, the combine of SPLIT K, and the
macro's signal (R109 to R136). -/

namespace Sys2Proof.Machine

namespace Hw

/-- The walker as the source of a raise. -/
def macSrc (h : Hw) (c : Nat) : Src := { h.coreSrc c 0xA0 (some F.CR_MAC_STATUS_REASON) with detail := h.rd .CR_MAC_FAULT c }

/-- A RES code of Table 5-11, with the coordinates of the first one. -/
def macFault (h : Hw) (c code : Nat) (p : Option GenPass) : Hw :=
  let h := match p with
    | some p => if h.on F.CR_MAC_STATUS_FAULT c then h else h.wr .CR_MAC_FAULT c (p.s % 65536 + p.o % 65536 * 2 ^ 16 + p.kc % 65536 * 2 ^ 32 + p.b % 65536 * 2 ^ 48)
    | none => h
  (h.setFlag F.CR_MAC_STATUS_FAULT c).raise code (h.macSrc c)

def onMac (h : Hw) (c : Nat) (f : Macro → Macro) : Hw := h.onCore c (fun k => { k with mac := k.mac.map f })

end Hw

/-! BIND (R109 to R112). -/

def bindRule (c : Nat) (iw : InstrWord) : OpRule :=
  let q := ifld iw 8 0 5
  { check := fun a w =>
      if !(hasDescQueue q && addrOk w a 64 64) then Rc.PRG_BAD_OPERAND
      else if !Td.ok (w.mm c a 64) then Rc.PRG_TD_FORMAT
      else if (w.hw.descQueue c q).length ≥ 4 then Rc.PRG_QUEUE_MISMATCH
      else 0
    reads := []
    hold := fun _ w => w.hw.on F.CR_MM_STATUS_INIT c
    extent := fun a => [(a, 64)]
    effect := fun a w => w.onHw (fun h => h.setDescQueue c q (h.descQueue c q ++ [w.mm c a 64])) }

/-! The issue of a macro. -/

/-- A run-time value (Table 5-6). -/
def runtime (w : Work) (c src planned shape : Nat) : Nat :=
  if src == 0 then planned
  else if src < 0x20 then w.hw.sReg c (src - 0x10) % 2 ^ 32
  else leNat (w.mm c (shape + 4 * (src - 0x20)) 4)

def rtRows (w : Work) (c : Nat) (d : List Byte) : Nat := runtime w c (Td.rowsSrc d) (Td.rows d) (Td.shapeAddr d)
def rtCols (w : Work) (c : Nat) (d : List Byte) : Nat := runtime w c (Td.colsSrc d) (Td.cols d) (Td.shapeAddr d)

/-- Members of a core set. -/
def members (b : Build) (set : Nat) : List Nat := (List.range b.cores).filter (fun n => bit n set)

/-- The descriptors that a macro would pop, in order: A, B, (B2,) output, and the V0 operand (R113). -/
def macroDescs (w : Work) (c : Nat) (two : Bool) : List (List Byte) × List Byte :=
  let h := w.hw
  ((h.descQueue c 0).take 1 ++ (h.descQueue c 1).take (if two then 2 else 1) ++ (h.descQueue c 3).take 1, ((h.descQueue c 4).head?).getD [])

/-- The macro that an MPB and the queues describe, with its run-time shape (R113, R122). -/
def macroOf (w : Work) (c : Nat) (two : Bool) (a : Nat) : Macro :=
  let p := w.mm c a 64
  let ds := macroDescs w c two
  let da := ds.1.getD 0 []
  let db := ds.1.getD 1 []
  let db2 := ds.1.getD 2 []
  let logical := (w.hw.logicalOf c).getD 0
  let ms := members w.hw.build (Mpb.coreSet p)
  let rtM := rtRows w c da
  let rtK := rtCols w c da
  let rtN := if two then rtCols w c db2 else rtCols w c db
  let rtB := runtime w c (Mpb.batchSrc p) (Mpb.batch p) (Td.shapeAddr da)
  { two := two, mpb := p, descs := ds.1, opd := if rfnOperand (Mpb.rfn p) then ds.2 else [], rtM := rtM, rtN := rtN, rtK := rtK, rtB := rtB,
    rtMid := if two then rtCols w c db else 0, zero := rtM == 0 || rtN == 0 || rtK == 0 || rtB == 0,
    rank := (ms.filter (· < logical)).length, members := ms.length, hoop := (w.hw.segOf c).2, f := w.hw.run.f, owner := (w.hw.segOf c).1 }

/-- The parameter block keeps Table 5-3, and the plan the limit of R116 and the rules of R127 and R133. -/
def mpbOk (h : Hw) (c : Nat) (m : Macro) : Bool :=
  let p := m.mpb
  let b := h.build
  let mo := Mpb.mode p
  let tiles (n size : Nat) : Bool := ceilDiv n size ≤ 65535
  let narrowZ := Td.fmt m.output == 10
  mo ≤ 2 && Mpb.order p ≤ 1 && (1 ≤ Mpb.group p && Mpb.group p ≤ 16) && ((mo != 2 && !m.two) || Mpb.group p == 1) && Mpb.split p ≤ 3 &&
  (1 ≤ Mpb.accCount p && Mpb.accCount p ≤ 16) &&
  (if mo == 2 then Mpb.kblk p % b.arrayRows == 0 && b.arrayRows ≤ Mpb.kblk p && Mpb.kblk p ≤ 4096 else Mpb.kblk p == 0) &&
  Td.srcOk (Mpb.batchSrc p) && (1 ≤ Mpb.batch p && Mpb.batch p ≤ 65535) && Mpb.stgOk (Mpb.stgA p) && Mpb.stgOk (Mpb.stgB p) &&
  (if m.two then Mpb.stgOk (Mpb.stgMid p) else Mpb.stgMid p < 4096) && Mpb.rowbuf p % 64 == 0 && (!narrowZ || Mpb.zp p ≤ 15) &&
  (if m.two then narrowFmt (Mpb.midFmt p) && (1 ≤ Mpb.frows p && Mpb.frows p ≤ tileM b mo) && mo != 2 && Mpb.split p == 0
   else Mpb.midFmt p == 0 && Mpb.frows p == 0) &&
  (Mpb.signal p == 0xFFFF || (1 ≤ Mpb.sigAdd p && (h.objOf ((h.logicalOf c).getD 0) (Mpb.signal p)).isSome)) && leAt 44 4 p == 0 &&
  (Mpb.split p != 0 || m.members ≤ 1) &&
  tiles m.planM (tileM b mo) && tiles (m.planN 1) (tileN b mo) && tiles (m.planK 1) (tileK b mo (Mpb.kblk p) (m.cls 1).1) &&
  (!m.two || tiles (m.planN 2) (tileN b mo))

/-- The operand pairing of R60 and R61 for a product; I32 is the output of integer classes alone. -/
def pairOk (m : Macro) (product : Nat) : Bool :=
  let fa := m.fmtA product
  (classOf fa (m.fmtB product)).isSome && ((fa != 10 && fa != 11) || m.mode == 0)

/-- The shapes agree, planned and at run time (R115). -/
def shapesOk (w : Work) (c : Nat) (m : Macro) : Bool :=
  let b2 := m.bOf 2
  let half (n : Nat) : Nat := if m.rfn == 0x17 && !m.two then n / 2 else n
  let n := m.planN (if m.two then 2 else 1)
  Td.rows m.b1 == Td.cols m.a && (!m.two || Td.rows b2 == Td.cols m.b1) && Td.rows m.output == m.planM && Td.cols m.output == half n &&
  rtRows w c m.b1 == m.rtK && (!m.two || rtRows w c b2 == m.rtMid) && rtRows w c m.output == m.rtM && rtCols w c m.output == half m.rtN

/-- The row function is defined, has its operand, and can run (R131, R132). -/
def rfnOk (w : Work) (c : Nat) (m : Macro) : Bool :=
  let r := m.rfn
  let n := m.planN 1
  rfnDefined r && (!rfnOperand r || (!m.opd.isEmpty && (Td.fmt m.opd == 6 || Td.fmt m.opd == 5))) && (r != 0x17 || n % 2 == 0) &&
  (r < 0x20 || w.hw.tambourUse c (w.hw.segOf c).2 (some (r - 0x20)) false == 0)

namespace Macro

/-- The results of a product are gathered in the row buffer (R130, R133). -/
def gathers (m : Macro) (product : Nat) : Bool :=
  (m.two && product == 1) || narrowFmt (Td.fmt m.output) || (!m.two && rowWiseRfn m.rfn)

/-- Bytes of the gather region (R130, R133). -/
def regionSize (bld : Build) (m : Macro) : Nat :=
  let rows := if Mpb.order m.mpb == 1 && !m.two then m.planM else min m.planM (tileM bld m.mode)
  let one := if m.two then Mpb.frows m.mpb * m.planN 1 * 4 else if m.gathers 1 then rows * m.planN 1 * 4 else 0
  let two := if m.two && m.gathers 2 then Mpb.frows m.mpb * m.planN 2 * 4 else 0
  max one two

/-- A run-time value above its planned value (R125). -/
def exceeds (m : Macro) : Bool :=
  m.planM < m.rtM || m.planN (if m.two then 2 else 1) < m.rtN || m.planK 1 < m.rtK || Mpb.batch m.mpb < m.rtB || (m.two && m.planN 1 < m.rtMid)

/-- A fetch of an operand that a pass needs: none for staged tensors, the intermediate, a stationary operand without a swap, and operand A
of a member that takes rank 0's multicast (R118, R120, R128). -/
def needsFetch (m : Macro) (p : GenPass) (operand : Nat) : Bool :=
  let d := if operand == 0 then m.a else m.bOf p.product
  !(operand == 0 && p.product == 2) && Td.loc d == 0 && (!m.isStationary operand || m.swapOf p)

/-- Passes and fetches of the macro. -/
def planned (bld : Build) (m : Macro) : Macro :=
  if m.zero then m
  else
    let ps := m.allPasses bld
    let m := { m with passes := ps }
    let of (operand : Nat) : List Nat := (ps.filter (fun p => m.needsFetch p operand)).map (·.n)
    { m with fetchA := if Mpb.split m.mpb == 1 && m.rank != 0 then [] else of 0, fetchB := of 1 }

end Macro

/-- The checks of a macro at issue, the first that fails: pops, row-function operand, MPB, core set, pairing, shapes, row function, row
buffer (R97, R109, R112 to R116, R127, R130, R132, R133). -/
def macroCheck (c : Nat) (two : Bool) (a : Nat) (w : Work) : Nat :=
  let h := w.hw
  let m := macroOf w c two a
  let logical := (h.logicalOf c).getD 0
  if !addrOk w a 64 64 then Rc.PRG_BAD_OPERAND
  else if m.descs.length != (if two then 4 else 3) then Rc.PRG_QUEUE_MISMATCH
  else if !mpbOk h c m then Rc.PRG_MPB_FORMAT
  else if !bit logical (Mpb.coreSet m.mpb) || 2 ^ h.build.cores ≤ Mpb.coreSet m.mpb then Rc.PRG_CORE_SET
  else if !(pairOk m 1 && (!two || pairOk m 2) && (Td.fmt m.output != 0xC || (m.cls (if two then 2 else 1)).2)) then Rc.PRG_BAD_OPERAND
  else if !shapesOk w c m then Rc.PRG_SHAPE_CONFLICT
  else if !rfnOk w c m then Rc.PRG_RFN_ILLEGAL
  else if Mpb.rowbuf m.mpb + m.regionSize h.build > h.rowBufSize c && m.regionSize h.build != 0 then Rc.PRG_BAD_OPERAND
  else 0

/-- A macro issues: descriptors popped, run-time values latched, the walk begun (R113, R122 to R126). -/
def macroIssue (c : Nat) (two : Bool) (a : Nat) (w : Work) : Work :=
  let h := w.hw
  let m := macroOf w c two a
  let pop (q n : Nat) (h : Hw) : Hw := h.setDescQueue c q ((h.descQueue c q).drop n)
  let h := pop 3 1 (pop 1 (if two then 2 else 1) (pop 0 1 h))
  let h := if rfnOperand m.rfn then pop 4 1 h else h
  let h := (((h.wr .CR_MAC_RTM c m.rtM).wr .CR_MAC_RTN c m.rtN).wr .CR_MAC_RTK c m.rtK).wr .CR_MAC_RTB c m.rtB
  if m.exceeds then w.onHw (fun _ => h.macFault c Rc.RES_SHAPE_EXCEEDS_PLAN none)
  else
    let m := { m.planned h.build with due := h.ticks + 4 * Config.plannedCycles m.mpb m.descs }
    let h := h.put F.CR_MAC_STATUS_BUSY 1 c
    let h := if m.zero then h.setFlag F.CR_MAC_STATUS_ZERO c else h
    w.onHw (fun _ => h.onCore c (fun k => { k with mac := some m }))

/-- MMUL and MMUL2: held while a macro is in progress or the walker is out of service. -/
def mmulRule (c : Nat) (two : Bool) : OpRule :=
  { check := fun a w => macroCheck c two a w
    reads := []
    hold := fun _ w => (w.hw.core c).mac.isSome || !w.hw.on F.CR_MAC_CTRL_ENABLE c || w.hw.on F.CR_MM_STATUS_INIT c
    extent := fun a => [(a, 64)]
    effect := fun a w => macroIssue c two a w }

/-! Fetches and outputs (R120, R128, R190). -/

/-- The set that a fetch fills is no longer read: the passes that used it have issued and left flight (R69, R120). -/
def setFree (h : Hw) (c : Nat) (m : Macro) (p : GenPass) (operand : Nat) : Bool :=
  let place := m.placeOf h.build p operand
  let region := (place.1, m.setBanks h.build p.product operand)
  let sets := max 1 (Mpb.sets (m.stgOf p operand))
  let use := m.useNo operand p.n
  let before := (m.passes.take p.n).filter (fun q => m.needsFetch q operand && m.useNo operand q.n % sets == use % sets && m.useNo operand q.n < use)
  before.all (fun q => q.n < m.issued) && !banksMeet [region] (h.busyBanks c)

/-- The fetch leaves matrix memory or touches the row buffer (R120). -/
def stageOver (h : Hw) (c : Nat) (m : Macro) (p : GenPass) (operand : Nat) : Bool :=
  let place := m.placeOf h.build p operand
  let n := m.setBanks h.build p.product operand
  4 * h.build.matmemMib < place.1 + n ||
    rangesMeet (place.1, n) (h.get F.CR_DRN_CTRL_RB_BANK0 c, h.get F.CR_DRN_CTRL_RB_BANKS c)

/-- WALKER_ARM: the walker of a core arms the next fetch of operand A (0) or B (1), or the next output descriptor (2), when the bobbin's
next slot is free (R190). -/
def walkerArm (c which : Nat) (w : Work) : Work :=
  let h := w.hw
  match (h.core c).mac with
  | none => w
  | some m =>
    let b := h.get (if which == 0 then F.BB_CTRL_WALK_A else if which == 1 then F.BB_CTRL_WALK_B else F.BB_CTRL_WALK_OUT) c
    let s := (h.bobbin c b).next
    if h.ab.on || (h.slot c b s).isSome || !h.on F.BB_CTRL_ENABLE c then w
    else if which ≥ 2 then
      match m.outs with
      | [] => w
      | runs :: rest =>
        let near := Td.loc m.output == 1
        let d : BobbinDesc := { op := if near then 9 else 3, qend := 3, runs := some runs, nearRuns := near }
        w.onHw (fun h => (h.onMac c (fun m => { m with outs := rest })).arm c b s d)
    else
      match (if which == 0 then m.fetchA else m.fetchB) with
      | [] => w
      | n :: rest =>
        match m.passes[n]? with
        | none => w
        | some p =>
          if stageOver h c m p which then w.onHw (fun h => h.macFault c Rc.RES_STAGE_OVERFLOW (some p))
          else if !setFree h c m p which then w
          else
            let mask := if which == 0 && Mpb.split m.mpb == 1 && 1 < m.members then Mpb.coreSet m.mpb else 0
            let d : BobbinDesc := { op := 0, mask := mask, runs := some (m.fetchRuns h.build p which), stage := some (which, n) }
            w.onHw (fun h => (h.onMac c (fun m => if which == 0 then { m with fetchA := rest } else { m with fetchB := rest })).arm c b s d)

/-! Passes (R118, R119, R122, R123). -/

namespace Macro

/-- The operands of a pass are staged. -/
def ready (m : Macro) (p : GenPass) : Bool :=
  [0, 1].all (fun operand =>
    if operand == 0 && p.product == 2 then m.midReady.contains p.chunk
    else !m.needsFetch p operand || m.staged.contains (operand, p.n))

/-- Masks of stream elements and columns outside the run-time shape. -/
def maskFrom (n total : Nat) : Nat := (2 ^ (total - n) - 1) * 2 ^ n

/-- Stream extent of a pass, planned and inside the run-time shape; the other dimension likewise. -/
def streamOf (bld : Build) (m : Macro) (p : GenPass) : Nat × Nat × Nat := if m.mode == 1 then m.nOf bld p else m.mOf bld p
def otherOf (bld : Build) (m : Macro) (p : GenPass) : Nat × Nat × Nat := if m.mode == 1 then m.mOf bld p else m.nOf bld p

/-- KIND and segments of operand A's scale tensor, where it is segmented (R102). -/
def segsOf (rd : Nat → Nat → Option (List Byte)) (m : Macro) (p : GenPass) : Option Nat :=
  if p.product == 2 || Td.fmt m.a != 0 then none
  else match Td.scaleOf m.a p.b with
    | none => none
    | some hd => if leNat ((rd hd 1).getD []) == 4 then some (ceilDiv (Td.cols m.a) 256) else none

/-- The pass as the array takes it. -/
def arrPass (bld : Build) (m : Macro) (rd : Nat → Nat → Option (List Byte)) (p : GenPass) : ArrPass :=
  let k := m.kOf bld p
  let cl := m.cls p.product
  let kl := ceilDiv k.2 cl.1
  let st := m.streamOf bld p
  let ot := m.otherOf bld p
  let o := m.mode == 2
  let fa := m.fmtA p.product
  let pa := m.placeOf bld p 0
  let pb := m.placeOf bld p 1
  let shifts := match m.segsOf rd p, Td.scaleOf m.a p.b with
    | some n, some hd =>
      let mr := m.mOf bld p
      (List.range mr.2.1).map (fun i => if i < mr.2.2 then readShifts rd hd (mr.1 + i) n else [])
    | _, _ => []
  { mode := m.mode, fmtA := fa, fmtB := m.fmtB p.product, kRows := if o then bld.arrayRows else kl, cols := if o then bld.arrayCols else ot.2.1,
    len := if o then kl else st.2.1, tile := m.tileOf p, line0 := 0, accumulate := !p.first, sealing := p.last, swap := m.swapOf p,
    csum := cl.2 && (fa == 10 || fa == 11), rowMask := if o then 0 else maskFrom st.2.2 st.2.1,
    colMask := if m.blank p then 2 ^ bld.arrayCols - 1 else maskFrom (if o then (m.nOf bld p).2.2 else ot.2.2) bld.arrayCols,
    bankA := pa.1, lineA := pa.2, bankB := pb.1, lineB := pb.2, shifts := shifts, k0 := k.1, walker := true }

/-- The stationary load of a swapping pass: B's tile in mode W, A's in mode S, the tile of C in mode O (R65, R118). -/
def arrLoad (bld : Build) (m : Macro) (p : GenPass) : ArrLoad :=
  let cl := m.cls p.product
  if m.mode == 2 then
    { mode := 2, fmt := if cl.2 then 0xC else 6, pfmt := 0, kRows := bld.arrayRows, cols := bld.arrayCols, accumulate := !p.first,
      tile := m.tileOf p, bank := 0, line := 0 }
  else
    let w := m.mode == 0
    let place := m.placeOf bld p (if w then 1 else 0)
    { mode := m.mode, fmt := if w then m.fmtB p.product else m.fmtA p.product, pfmt := if w then m.fmtA p.product else m.fmtB p.product,
      kRows := ceilDiv (m.kOf bld p).2 cl.1, cols := (m.otherOf bld p).2.1, accumulate := false, tile := 0, bank := place.1, line := place.2 }

/-- The rows of C that are converted together: a band of M tiles under ORDER 0 in modes W and O, else an M tile, or a chunk (R130, R133). -/
def bandKey (m : Macro) (p : GenPass) : Nat × Nat × Nat :=
  if m.two then (p.b, p.product, p.chunk)
  else if m.mode == 1 then (p.b, 1, p.o)
  else (p.b, 1, if Mpb.order m.mpb == 0 then p.s / max 1 (Mpb.group m.mpb) else p.s)

/-- First row of a band and its rows inside the run-time shape. -/
def bandRows (bld : Build) (m : Macro) (p : GenPass) : Nat × Nat :=
  let size := if m.two then max 1 (Mpb.frows m.mpb)
    else tileM bld m.mode * (if m.mode != 1 && Mpb.order m.mpb == 0 then max 1 (Mpb.group m.mpb) else 1)
  let k := (m.bandKey p).2.2
  (k * size, tileValid m.rtM m.planM size k)

/-- Row that stands first in the gather region (R97, R130; log entry 17). -/
def regionRow (bld : Build) (m : Macro) (p : GenPass) : Nat := if Mpb.order m.mpb == 1 && !m.two then 0 else (m.bandRows bld p).1

/-- The row function of the drain's slot, of whole rows or of elements, for a product. -/
def slotRfn (m : Macro) (product : Nat) : Nat := if m.two && product == 2 then 0 else m.rfn

/-- The drain of the lines that a sealing pass seals (R95, R123, R130). -/
def drainOf (bld : Build) (m : Macro) (rd : Nat → Nat → Option (List Byte)) (ringPos : Nat) (p : GenPass) : DrainOp :=
  let st := m.streamOf bld p
  let ot := m.otherOf bld p
  let across := m.mode == 1
  let scaleA := if p.product == 2 then none else Td.scaleOf m.a p.b
  let scaleB := Td.scaleOf (m.bOf p.product) p.b
  let seg := m.segsOf rd p
  let f := Td.fmt m.output
  let r := m.slotRfn p.product
  let g := m.gathers p.product
  { isCvt := false, ringPos := ringPos, tile := m.tileOf p, line0 := 0, lines := if m.mode == 2 then st.2.1 else st.2.2, validLines := st.2.2,
    raw := f == 0xC && !(m.two && p.product == 1), gather := g, dest := 3, rfn := if rowWiseRfn r then 0 else r, outFmt := if f == 5 && !g then 5 else 6,
    rowbuf := Mpb.rowbuf m.mpb / 64, lscale := if across then scaleB else scaleA, cscale := if across then scaleA else scaleB,
    lineSeg := if across then none else seg, colSeg := if across then seg else none, i0 := st.1, j0 := ot.1, n := m.planN p.product,
    walker := true, params := (List.range 4).map (Mpb.param m.mpb), opd := m.opd, farHoop := some m.hoop,
    validCols := if m.blank p then 0 else ot.2.2, across := across, band0 := m.regionRow bld p,
    midScales := if p.product == 2 then m.midScales else [] }

/-- Bytes of an element of the output as it is drained without a row buffer. -/
def outSize (m : Macro) : Nat := if Td.fmt m.output == 5 then 2 else 4

/-- Where the drained lines of a sealing pass go, in the order in which the drain pushes them: runs of the output tensor, or of its tile in
matrix memory (log entry 14). -/
def lineRuns (bld : Build) (m : Macro) (p : GenPass) : List (Nat × Nat) :=
  let st := m.streamOf bld p
  let ot := m.otherOf bld p
  let d := m.output
  let sz := m.outSize
  let base := Td.addrOf d p.b
  if m.blank p || ot.2.2 == 0 then []
  else if Td.loc d == 1 then
    let wp := m.walkPlan bld p.product
    let tile := (if m.mode == 1 then p.o else p.s) * (if m.mode == 1 then wp.st else wp.ot) + (if m.mode == 1 then p.s else p.o)
    (List.range st.2.2).map (fun l => (base + tile * Td.pitch d + l * bld.arrayCols * sz, ot.2.2 * sz))
  else if m.mode == 1 then
    ((List.range st.2.2).map (fun l => (List.range ot.2.2).map (fun j => (base + (ot.1 + j) * Td.pitch d + (st.1 + l) * sz, sz)))).flatten
  else (List.range st.2.2).map (fun l => (base + (st.1 + l) * Td.pitch d + ot.1 * sz, ot.2.2 * sz))

/-- Columns of the output inside the run-time shape. -/
def outCols (m : Macro) : Nat := if m.rfn == 0x17 && !m.two then m.rtN / 2 else m.rtN

/-- Where the rows of a converted band go, each followed by its scale record. -/
def bandRuns (bld : Build) (m : Macro) (recSize : Nat) (p : GenPass) : List (Nat × Nat) :=
  let d := m.output
  let f := Td.fmt d
  let br := m.bandRows bld p
  let len := if f == 6 || f == 0xC then 4 * m.outCols else packedLen f m.outCols
  if m.blank p then []
  else ((List.range br.2).map (fun i =>
    (Td.addrOf d p.b + (br.1 + i) * Td.pitch d, len) ::
      (match Td.scaleOf d p.b with
        | some hd => if narrowFmt f then [(hd + 16 + (br.1 + i) * recSize, recSize)] else []
        | none => []))).flatten

/-- The conversion of a band (R98 to R101, R130), or of a chunk's intermediate (R133). -/
def convertOf (bld : Build) (m : Macro) (ringPos : Nat) (p : GenPass) : DrainOp :=
  let br := m.bandRows bld p
  let mid := m.two && p.product == 1
  let f := if mid then Mpb.midFmt m.mpb else Td.fmt m.output
  let hd := if mid then none else Td.scaleOf m.output p.b
  { isCvt := true, ringPos := ringPos, lines := if m.blank p then 0 else br.2, line0 := br.1 - m.regionRow bld p, row0 := br.1, n := m.planN p.product,
    rfn := m.slotRfn p.product, dest := 3, fmt := f, zp := Mpb.zp m.mpb, outHdr := hd.getD 0, rowbuf := Mpb.rowbuf m.mpb / 64, walker := true,
    params := (List.range 4).map (Mpb.param m.mpb), opd := m.opd, farHoop := some m.hoop, validCols := m.runN p.product,
    records := hd.isSome, held := true, mid := if mid then some p.chunk else none }

end Macro

/-- The combine area's bytes of one member: the lines of a tile, then its column sums (R129). -/
def combineSize (b : Build) : Nat := b.arrayRows * b.arrayCols * 4 + b.arrayCols * 4

/-- What follows a sealing pass's lines: their drain and its output, and, after the last tile of a band, the band's conversion. -/
def queueDrain (c : Nat) (m : Macro) (p : GenPass) (w : Work) : Work :=
  let bld := w.hw.build
  let rd := spaceBytes w.hw w.mem c (some m.hoop)
  let pos := w.hw.head c
  let d := m.drainOf bld rd pos p
  let addOut (runs : List (Nat × Nat)) (h : Hw) : Hw := if runs.isEmpty then h else h.onMac c (fun m => { m with outs := m.outs ++ [runs] })
  let w := w.onHw (fun h => h.onDrn c (· ++ [{ d with owner := m.owner }]))
  if !m.gathers p.product then w.onHw (addOut (m.lineRuns bld p))
  else
    let key := m.bandKey p
    let lastOfBand := (m.passes.filter (fun q => q.last && !q.idle && m.bandKey q == key)).getLast?.any (fun q => q.n == p.n)
    if !lastOfBand || (Mpb.split m.mpb == 1 && 1 < m.members) then w
    else
      let hd := Td.scaleOf m.output p.b
      let kind := match hd with
        | some a => leNat ((rd a 1).getD [])
        | none => 2
      let rs := recordSize kind (some (ceilDiv (Td.cols m.output) 256))
      let cv := m.convertOf bld pos p
      let cv := { cv with dataClass := kind == 1 && cv.mid.isNone, segmented := kind == 4 && cv.mid.isNone }
      w.onHw (fun h => (if cv.mid.isSome then h else addOut (m.bandRuns bld rs p) h).onDrn c (· ++ [{ cv with owner := m.owner }]))

/-- The scale records whose segment shifts a pass applies carry the tags of its rows (R93, R102). -/
def shiftCheck (m : Macro) (bld : Build) (rd : Nat → Nat → Option (List Byte)) (p : GenPass) : Nat :=
  match m.segsOf rd p, Td.scaleOf m.a p.b with
  | some n, some hd =>
    let mr := m.mOf bld p
    ((List.range mr.2.2).findSome? (fun i => match readScale rd hd (mr.1 + i) (some n) with
      | .error e => some e
      | .ok _ => none)).getD 0
  | _, _ => 0

/-- WALKER_PASS_ISSUE: the next generated pass issues once its operands are staged (R118, R119). -/
def walkerPass (c : Nat) (w : Work) : Work :=
  let h := w.hw
  match (h.core c).mac with
  | none => w
  | some m =>
    match m.passes[m.issued]? with
    | none => w
    | some p =>
      let bld := h.build
      let rd := spaceBytes h w.mem c (some m.hoop)
      if h.ab.on || h.arrHeld c || !m.ready p then w
      else if Mpb.accBase m.mpb + Mpb.accCount m.mpb ≤ m.tileOf p || bld.accTiles ≤ m.tileOf p then
        w.onHw (fun h => h.macFault c Rc.RES_ACC_OVERFLOW (some p))
      else if !m.blank p && shiftCheck m bld rd p != 0 then w.onHw (fun h => h.raise (shiftCheck m bld rd p) (h.arrSrc c))
      else
        let ap := m.arrPass bld rd p
        let w := w.onHw (fun h =>
          let h := h.onMac c (fun m => { m with issued := m.issued + 1 })
          let h := if ap.swap then h.queueLoad c 0x29 (m.arrLoad bld p) else h
          if h.get F.CR_SEQ_STATUS_STATE c != 1 then h else h.queuePass c 0x29 ap)
        if !p.last || w.hw.get F.CR_SEQ_STATUS_STATE c != 1 then w
        else if Mpb.split m.mpb == 3 && 1 < m.members then w.onHw (fun h => h.onMac c (fun m => { m with combine := m.combine ++ [p] }))
        else queueDrain c m p w

/-! SPLIT K (R129). -/

/-- Add what a partner sent to a core's own sealed lines and column sums. -/
def combineAdd (b : Build) (tile : Nat) (lines : List Nat) (sums : List Int) (data : List Byte) (a : ArrayUnit) : ArrayUnit :=
  let a := lines.foldl (fun a l =>
    let x := a.line b.arrayRows tile l
    let vals := (List.range b.arrayCols).map (fun j => accAdd x.int (x.vals.getD j 0) (leAt ((l * b.arrayCols + j) * 4) 4 data))
    { a with lines := Tab.insert a.lines (tile * b.arrayRows + l) { x with vals := vals } }) a
  let own := Tab.getD a.colSums tile []
  if sums.isEmpty then a
  else { a with colSums := Tab.insert a.colSums tile ((List.range b.arrayCols).map (fun j => satI32 (own.getD j 0 + sums.getD j 0))) }

/-- COMBINE_ROUND: the next round of the first tile of a core that waits: it sends its raw lines to the COMBINE area, or adds its
partner's (R129). Rank 0 drains after its last round. -/
def combineRound (c : Nat) (w : Work) : Work :=
  let h := w.hw
  match (h.core c).mac with
  | none => w
  | some m =>
    match m.combine with
    | [] => w
    | p :: rest =>
      let b := h.build
      let tile := m.tileOf p
      let st := m.streamOf b p
      let n := if m.mode == 2 then st.2.1 else st.2.2
      let lines := List.range n
      let i := m.rounds
      let r := m.rank
      let kt := (m.walkPlan b 1).kt
      let area (rank : Nat) : Nat := Mpb.combine m.mpb * 4096 + rank * combineSize b
      let final := 2 ^ i ≥ m.members
      let sealed0 := lines.all (fun l => ((h.arr c).line b.arrayRows tile l).state == 2)
      let next (h : Hw) : Hw := h.onMac c (fun m => { m with rounds := i + 1 })
      let hoop := m.hoop
      let key (rank : Nat) : Nat × Nat × Nat := (Mpb.combine m.mpb, rank, p.n)
      if h.ab.on || !sealed0 || !(h.mayMove w.mem c 1 || final) then w
      else if final then
        queueDrain c m p (w.onHw (fun h => h.onMac c (fun m => { m with combine := rest, rounds := 0 })))
      else if r % 2 ^ (i + 1) == 2 ^ i then
        if h.combineSent.any (fun x => x.1 == Mpb.combine m.mpb && x.2.1 == r) then w
        else match h.resolve { hoop := hoop, write := true, bobbin := true } (area r) (combineSize b) with
          | .error e => w.onHw (fun h => (h.noteViolation hoop (area r) e).raise e (h.macSrc c))
          | .ok (loc, reg) =>
            let raw := (lines.map (fun l => wordBytes (lineVals b.arrayCols ((h.arr c).line b.arrayRows tile l)))).flatten
            let sums := Tab.getD (h.arr c).colSums tile []
            let sumBytes := ((List.range b.arrayCols).map (fun j => leBytes 4 (i32Code (sums.getD j 0)))).flatten
            let w := farStore w hoop loc (sliceBytes 0 (b.arrayRows * b.arrayCols * 4) raw ++ sumBytes)
            w.onHw (fun h =>
              let h := markRegion h reg
              let h := h.onArr c (fun a => { a with lines := lines.foldl (fun t l => Tab.erase t (tile * b.arrayRows + l)) a.lines })
              { h.onMac c (fun m => { m with combine := rest, rounds := 0 }) with combineSent := h.combineSent ++ [key r] })
      else if m.members ≤ r + 2 ^ i || kt ≤ r + 2 ^ i then w.onHw next
      else if !h.combineSent.contains (key (r + 2 ^ i)) then w
      else match h.resolve { hoop := hoop, write := false, bobbin := true } (area (r + 2 ^ i)) (combineSize b) with
        | .error e => w.onHw (fun h => (h.noteViolation hoop (area (r + 2 ^ i)) e).raise e (h.macSrc c))
        | .ok (loc, _) =>
          let data := farRead h w.mem hoop loc (combineSize b)
          let sums := (List.range b.arrayCols).map (fun j => i32Val (leAt (b.arrayRows * b.arrayCols * 4 + 4 * j) 4 data))
          let own := Tab.getD (h.arr c).colSums tile []
          w.onHw (fun h =>
            let h := h.onArr c (combineAdd b tile lines (if own.isEmpty && sums.all (· == 0) then [] else sums) data)
            next { h with combineSent := h.combineSent.filter (· != key (r + 2 ^ i)) })

/-! Conversions (R130, R133). -/

/-- The scale-tensor header suits the format of a conversion (R94, Table 4-3). -/
def convertHeaderOk (hd : List Byte) (fmt : Nat) : Bool :=
  let kind := leAt 0 1 hd
  let flags := leAt 1 1 hd
  let ts := leAt 4 4 hd
  let t := FloatFmt.f32.decode ts
  (if fmt == 10 || fmt == 11 then kind == 3 else kind == 1 || kind == 2 || (kind == 4 && fmt == 0)) && (flags == 0 || (flags == 1 && kind == 4)) &&
  (kind != 1 || !(t.isNan || t.isInf || t.isNeg || ts < 0x00800000))

/-- The intermediate of a chunk: rows converted to MID_FMT with streamed scales, written in the layout of operand A of product 2 (R133). -/
def midConvert (c chunk : Nat) (m : Macro) (op : DrainOp) (w : Work) : Work :=
  let bld := w.hw.build
  let rows := (List.range op.lines).map (fun i =>
    convertRow op.fmt op.zp false false Val.one ((op.row0 + i) % 65536) (gatheredRow w c { op with pos := i }))
  let scales := List.replicate op.row0 0 ++ rows.map (fun r => leAt 2 2 r.record)
  match m.passes.find? (fun p => p.product == 2 && p.chunk == chunk) with
  | none => w
  | some p0 =>
    let kt := (m.walkPlan bld 2).kt
    let epp := (m.cls 2).1
    let wb := m.peBitsOf 2 0
    let fb := fmtBits op.fmt
    let w := (List.range kt).foldl (fun w kc =>
      let p := { p0 with kc := kc }
      let place := m.placeOf bld p 0
      let k := m.kOf bld p
      let code (i kk : Nat) : Nat := (List.range epp).foldl (fun a e =>
        a + (if kk + e < k.2 then (rows.getD i ⟨[], [], 0, 0, false⟩).codes.getD (k.1 + kk + e) 0 else 0) * 2 ^ (e * fb)) 0
      if m.isStationary 0 then writeStation w c place.1 wb bld.arrayRows bld.arrayCols (fun r j => code j (r * epp))
      else writeStream w c place.1 wb (m.mOf bld p).2.1 (bld.arrayRows / 32) (fun e r => code e (r * epp))) w
    w.onHw (fun h =>
      let h := h.countDrain c F.CR_DRN_CLIPS_COUNT F.CR_DRN_STATUS_CLIPPED (rows.foldl (fun a r => a + r.clips) 0)
      let h := h.countDrain c F.CR_DRN_NONFIN_COUNT F.CR_DRN_STATUS_NONFINITE (rows.foldl (fun a r => a + r.nonfin) 0)
      let h := h.onMac c (fun m => { m with midReady := m.midReady ++ [chunk], midScales := scales })
      (h.onDrn c (·.drop 1)).event c 0x05 op.lines)

/-- BAND_CONVERT: the conversion whose band has been gathered begins (R130); the intermediate of a chunk is converted whole (R133). -/
def bandConvert (c : Nat) (w : Work) : Work :=
  match (w.hw.core c).drn, (w.hw.core c).mac with
  | op :: _, some m =>
    if !op.held || w.hw.ab.on then w
    else match op.mid with
      | some chunk =>
        let place := m.passes.find? (fun p => p.product == 2 && p.chunk == chunk)
        let exceeds := match place with
          | some p => (List.range (m.walkPlan w.hw.build 2).kt).any (fun kc => stageOver w.hw c m { p with kc := kc } 0)
          | none => false
        if exceeds then w.onHw (fun h => h.macFault c Rc.RES_STAGE_OVERFLOW place) else midConvert c chunk m op w
      | none =>
        let hd := (spaceBytes w.hw w.mem c op.farHoop op.outHdr 16).getD []
        if op.records && narrowFmt op.fmt && op.lines != 0 && !convertHeaderOk hd op.fmt then
          w.onHw (fun h => h.raise Rc.DIN_SCALE_INVALID (h.drnSrc c))
        else w.onHw (fun h => h.onDrn c (fun xs => { op with held := false } :: xs.drop 1))
  | _, _ => w

/-! Completion (R126). -/

/-- Every pass, drain, conversion and write of the macro has ended. -/
def macroDone (h : Hw) (c : Nat) (m : Macro) : Bool :=
  m.passes.length ≤ m.issued && m.combine.isEmpty && m.outs.isEmpty && m.fetchA.isEmpty && m.fetchB.isEmpty &&
  !(h.arr c).passes.any (·.walker) && !(h.core c).drn.any (·.walker) && (h.bobbin c (h.get F.BB_CTRL_WALK_OUT c)).slots.isEmpty

/-- MACRO_SIGNAL: at the planned completion cycle the macro's increment is applied and the macro ends (R126). -/
def macroSignal (c : Nat) (w : Work) : Work :=
  match (w.hw.core c).mac with
  | none => w
  | some m =>
    if w.hw.ab.on || !macroDone w.hw c m then w
    else w.onHw (fun h =>
      let h := h.elapse m.due
      let h := if Mpb.signal m.mpb == 0xFFFF then h else h.signalFrom c (Mpb.signal m.mpb) (Mpb.sigAdd m.mpb) { h.macSrc c with hoop := m.hoop }
      (h.put F.CR_MAC_STATUS_BUSY 0 c).onCore c (fun k => { k with mac := none }))

/-- A write of CR_MAC_CTRL (R136, R404). -/
def Hw.writeMacCtrl (h : Hw) (c v : Nat) : Hw :=
  if !h.on F.CR_MAC_CTRL_ENABLE c && bit 0 v && !(h.on F.CR_ARR_CTRL_ENABLE c && h.on F.CR_DRN_CTRL_ENABLE c) then
    h.refuse Rc.CFG_MAC_DEPENDS F.CR_MAC_STATUS_REASON c (0xA0 + c)
  else h.put F.CR_MAC_CTRL_ENABLE (flag (bit 0 v)) c

end Sys2Proof.Machine
end

