-- ==== Sys2Proof/Machine/Issue.lean ====
section
/-! DEFINITION. The issue of an instruction by its opcode (R141 to R145, Table 6-9), and the progress of a core's units between
commands. -/

namespace Sys2Proof.Machine

/-- The word with a field of its operand area replaced: the row of the table fixes it. -/
def withField (iw : InstrWord) (off lo n v : Nat) : InstrWord := BitVec.ofNat 256 (putBits (8 * off + lo) n v iw.toNat)

/-- Issue of an instruction by its opcode; a code that Table 6-9 does not list halts the core (R142). -/
def issueWord (c : Nat) (iw : InstrWord) (w : Work) : Work :=
  match iop iw with
  | 0x00 => issueWith c iw nopRule w
  | 0x01 => issueSeg c iw w
  | 0x02 => issueWith c iw (loopRule c iw) w
  | 0x03 => issueWith c iw (skipcRule c iw) w
  | 0x08 => issueWith c iw (sliRule c iw) w
  | 0x09 => issueWith c iw (saluRule c iw) w
  | 0x0A => issueWith c iw (sldRule c iw) w
  | 0x0B => issueWith c iw (sstRule c iw) w
  | 0x0C => issueWith c iw (sqdRule c iw) w
  | 0x0D => issueWith c iw (ctrRule c iw) w
  | 0x0E => issueWith c iw (cmpRule c iw) w
  | 0x10 => issueWith c iw (syncRule c iw) w
  | 0x18 => issueWith c iw (bbarmRule c iw) w
  | 0x19 => issueWith c iw (bbcanRule c iw) w
  | 0x20 => issueWith c iw (loadRule c iw) w
  | 0x21 => issueWith c iw (passRule c iw) w
  | 0x22 => issueWith c iw (drainRule c iw) w
  | 0x23 => issueWith c iw (cvtRule c iw) w
  | 0x28 => issueWith c iw (bindRule c iw) w
  | 0x29 => issueWith c iw (mmulRule c false) w
  | 0x2A => issueWith c iw (mmulRule c true) w
  | 0x30 => issueWith c iw (vopRule c iw) w
  | 0x31 => issueWith c iw (vldRule c iw) w
  | 0x32 => issueWith c iw (vstRule c iw) w
  | 0x33 => issueWith c iw (voptRule c iw) w
  | op =>
    if !w.hw.mayIssue c then w
    else if (w.hw.seq c).skip != .none then w.onHw (fun h => Hw.moveHead 8 c (h.head c + 1) h)
    else w.onHw (fun h => h.haltAt c op Rc.PRG_ILLEGAL_OPCODE)

/-- INSTRUCTION_ISSUE: the instruction at HEAD, where its word is in a valid bank. A word that the prefetcher found uncorrectable raises
DIN_UNCORRECTABLE when the run needs it (R215). -/
def issueNext (c : Nat) (w : Work) : Work :=
  match w.hw.wordAtHead c with
  | none => w.onHw (fun h => h.fetchHead c)
  | some iw =>
    if (w.hw.seq c).badPos.contains (w.hw.head c) && (w.hw.seq c).bound && w.hw.mayIssue c then
      w.onHw (fun h => h.raise Rc.DIN_UNCORRECTABLE (h.coreSrc c 0xA0 (some F.CR_SEQ_STATUS_REASON)))
    else issueWord c iw w

/-! The progress of a core's units that takes no command of its own: queues, conversions, drains and bobbin deliveries move as far as
they can. -/

/-- One move of a core's units. -/
def coreStep (c : Nat) (w : Work) : Option Work :=
  match drainStep c w with
  | some w => some w
  | none => match vecStep c w with
    | some w => some w
    | none => bobStep c w

/-- Moves of a core's units in one command, at most. -/
def pumpFuel : Nat := 1000000

/-- The units of a core move as far as they can. -/
def pumpCore (w : Work) (c : Nat) : Work :=
  if w.hw.ab.on then w.onHw (fun h => h.quietBobbins c false)
  else if w.hw.on F.CR_MM_STATUS_INIT c then w
  else Work.repeatStep pumpFuel (coreStep c) w

/-- The units of every core that is not in its reset state move as far as they can. -/
def pump (w : Work) : Work := (w.hw.cores.map (·.1)).foldl pumpCore w

end Sys2Proof.Machine
end

