-- ==== Sys2Proof/Machine/Memories.lean ====
section
/-! DEFINITION. The memories' own operations: zeroing, the cache's invalidation, write-backs, scrubbing (R206, R209, R212 to R217,
R230). -/

namespace Sys2Proof.Machine

/-- Zeroing of a core's matrix memory begins (R206). -/
def mmZero (c : Nat) (w : Work) : Work :=
  (w.clear (Area.matrix c) 0 w.hw.matrixSize).onHw (fun h =>
    { h.put F.CR_MM_STATUS_INIT 1 c with
      mmInitDue := Tab.insert h.mmInitDue c (h.after 4096), badWords := h.badWords.filter (fun p => p.1 / 2 ^ 32 != c) })

/-- A write of CR_MM_CTRL (R206). -/
def writeMmCtrl (c v : Nat) (w : Work) : Work :=
  let on := w.hw.on F.CR_MM_CTRL_ENABLE c
  let w := w.onHw (fun h => h.put F.CR_MM_CTRL_ENABLE (flag (bit 0 v)) c)
  if !on && bit 0 v then mmZero c w else w

/-- The zeroing of block memory begins (R209): every line is zero, every cache line invalid. -/
def bmZero (w : Work) : Work :=
  (w.clear Area.block 0 (w.hw.build.blockmemMib * 1048576)).onHw (fun h =>
    { h.put F.MP_BM_STATUS_INIT 1 with
      bmInitDue := some (h.after (h.build.blockmemMib * 64)), cache := [], plru := [],
      badWords := h.badWords.filter (fun p => p.1 / 2 ^ 32 != 0x40) })

/-- A write of MP_BM_CTRL (R209, R212, R230, R404). -/
def writeBmCtrl (v : Nat) (w : Work) : Work :=
  let h := w.hw
  let on := h.on F.MP_BM_CTRL_ENABLE
  let units := bits 8 6 v
  let refuse (h : Hw) (code : Nat) : Hw := h.refuse code F.MP_BM_STATUS_REASON 0 0x40
  if on && units != h.get F.MP_BM_CTRL_SCRATCH_UNITS then w.onHw (fun h => refuse h Rc.CFG_CONFLICT)
  else if bits 16 4 v < 8 then w.onHw (fun h => refuse h Rc.CFG_RANGE)
  else
    let w := w.onHw (fun h => (h.put F.MP_BM_CTRL_SCRATCH_UNITS units).put F.MP_BM_CTRL_SCRUB_LOG2 (bits 16 4 v))
    let w := if !on && bit 0 v then
        if units == 0 || h.build.blockmemMib / 8 < units then w.onHw (fun h => refuse h Rc.CFG_BM_SPLIT)
        else if h.build.sizeGib == 0 then w.onHw (fun h => refuse h Rc.CFG_MP_SIZE)
        else bmZero (w.onHw (fun h => h.put F.MP_BM_CTRL_ENABLE 1))
      else w.onHw (fun h => h.put F.MP_BM_CTRL_ENABLE (flag (bit 0 v)))
    w.onHw (fun h => applyIf (bit 1 v && h.invalDue.isNone) (fun h => h.startInval) h)

namespace Hw

/-- Zeroing ends (R206, R209). -/
def mmInitDone (h : Hw) (c : Nat) : Hw :=
  match Tab.find? h.mmInitDue c with
  | none => h
  | some t => { h.elapse t with mmInitDue := Tab.erase h.mmInitDue c }.put F.CR_MM_STATUS_INIT 0 c

def bmInitDone (h : Hw) : Hw :=
  match h.bmInitDue with
  | none => h
  | some t => { h.elapse t with bmInitDue := none }.put F.MP_BM_STATUS_INIT 0

/-- The invalidation ends (R212). -/
def invalDone (h : Hw) : Hw :=
  match h.invalDue with
  | none => h
  | some t => { h.elapse t with invalDue := none }.put F.MP_BM_CTRL_INVAL 0

/-- The oldest corrected word is written back (R214). -/
def writeBackWord (h : Hw) : Hw := { h with writeBacks := h.writeBacks.drop 1 }

/-- Words of a memory that the scrubber visits, by its UNIT code (Table 8-4); 0 for a code that names no memory of the build. -/
def scrubWords (h : Hw) (unit : Nat) : Nat :=
  if unit < h.physCores then h.matrixSize / 64
  else if 0x20 ≤ unit && unit < 0x20 + h.physCores then (h.build.accTiles + 2) * h.build.arrayRows * h.build.arrayCols / 16
  else if unit == 0x40 then h.build.blockmemMib * 16384
  else if unit == 0x60 then 2048
  else 0

/-- WHERE of a word of a memory. -/
def scrubWhere (unit p : Nat) : Nat :=
  if unit ≤ 0x10 then matrixWhere (64 * p) else if unit == 0x40 then blockWhere (64 * p) else p

end Hw

/-- The scrubber visits the next word of a memory (R216): a corrected word is logged and written back; an uncorrectable one is logged and
raises nothing. Of a word with five or more symbol errors that the decoder lets pass, the data are open (R213). -/
def scrubVisit (unit symbols : Nat) (w : Work) : Work :=
  let n := w.hw.scrubWords unit
  if n == 0 then w
  else
    let p := Tab.getD w.hw.scrubAt unit 0
    let wh := Hw.scrubWhere unit p
    let out := if w.hw.isBad unit wh then 2 else w.hw.decodeWord symbols
    let open' := out == 1 && symbols ≥ 5 && (unit ≤ 0x10 || unit == 0x40)
    let w := if open' then w.store (if unit == 0x40 then Area.block else Area.matrix unit) (64 * p)
        ((List.range 64).map (Config.sc2Byte w.hw.draws)) else w
    w.onHw (fun h =>
      let h := if symbols ≥ 5 then h.draw else h
      let h := if out == 2 then h.uncorrectable unit 2 wh else if out == 1 && symbols ≤ 2 then h.corrected unit symbols 2 wh false else h
      { h with scrubAt := Tab.put h.scrubAt 0 unit ((p + 1) % n) })

end Sys2Proof.Machine
end

