-- ==== Sys2Proof/Machine/Hoop.lean ====
section
/-! DEFINITION. Hoops, keys, security states, permits and debug halts (R365 to R387). -/

namespace Sys2Proof.Machine

namespace Hw

def hpRefuse (h : Hw) (n code : Nat) : Hw := h.refuse code F.HP_STATUS_REASON n 0xE4
def keyRefuse (h : Hw) (code : Nat) : Hw := h.refuse code F.HP_KEYSTAT_REASON 0 0xE4
def scRefuse (h : Hw) (code : Nat) : Hw := h.refuse code F.SC_STATE_REASON 0 0xE4

/-! Newest values: the held one where there is one (R366). -/

/-- Words of a hoop record: 0 CTRL, 1 CORES, 2 SYNC, 3 QUEUE. -/
def hoopReg (word : Nat) : Reg := match word with
  | 0 => .HP_CTRL
  | 1 => .HP_CORES
  | 2 => .HP_SYNC
  | _ => .HP_QUEUE

def newHoopWord (h : Hw) (n word : Nat) : Nat := (Tab.find? h.hoopHeld (n * 4 + word)).getD (h.rd (hoopReg word) n)

def newWindow (h : Hw) (n i : Nat) : Option Window := (Tab.find? h.windowsHeld (n * 16 + i)).getD (Tab.find? h.windows (n * 16 + i))

def newKey (h : Hw) (n : Nat) : KeySlot := (Tab.find? h.keysHeld n).getD (Tab.getD h.keys n {})

/-- A held write of a hoop awaits a commit (HP_CTRL.PENDING). -/
def hoopPending (h : Hw) (n : Nat) : Bool :=
  h.hoopHeld.any (fun p => p.1 / 4 == n) || h.windowsHeld.any (fun p => p.1 / 16 == n) || (Tab.find? h.keysHeld n).isSome

/-! Application (R366, R372). -/

/-- A key slot takes a new content: with a new key, the next generation, and a sweep of the lines of the one after it. -/
def applyKey (h : Hw) (n : Nat) (k : KeySlot) : Hw :=
  let k := if k.key.isSome then { k with gen := ((Tab.getD h.keys n {}).gen + 1) % 4 } else { k with gen := (Tab.getD h.keys n {}).gen }
  let h := { h with keys := Tab.put h.keys {} n k }
  if k.key.isSome then { h with keySweep := Tab.insert h.keySweep n (h.after h.cacheSets) } else h

/-- Held hoop records, windows and keys are applied. -/
def applyHoops (h : Hw) : Hw :=
  let h := h.hoopHeld.foldl (fun h p => h.wr (hoopReg (p.1 % 4)) (p.1 / 4) p.2) h
  let h := h.windowsHeld.foldl (fun h p => { h with windows := match p.2 with
    | some w => Tab.insert h.windows p.1 w
    | none => Tab.erase h.windows p.1 }) h
  let h := h.keysHeld.foldl (fun h p => h.applyKey p.1 p.2) h
  { h with hoopHeld := [], windowsHeld := [], keysHeld := [] }

/-- An accepted write is applied at once when no pricking is active. -/
def settleHoops (h : Hw) : Hw := if h.hasPlan then h else h.applyHoops

/-! Hoop records (R369, R373, R387). -/

/-- Two ranges (base, count) overlap. -/
def rangesOverlap (a b : Nat × Nat) : Bool := a.2 != 0 && b.2 != 0 && a.1 < b.1 + b.2 && b.1 < a.1 + a.2

def syncRange (w : Nat) : Nat × Nat := (bits 0 14 w, bits 16 15 w)
def queueRange (w : Nat) : Nat × Nat := (bits 0 12 w, bits 16 13 w)

/-- Valid hoops by their newest values. -/
def newValidHoops (h : Hw) : List Nat :=
  ((h.listed .HP_CTRL ++ ((h.hoopHeld.filter (fun (p : Nat × Nat) => p.1 % 4 == 0)).map (fun (p : Nat × Nat) => p.1 / 4))).eraseDups).filter (fun n => bit 0 (h.newHoopWord n 0))

/-- The conditions of R369 on a hoop's cores and ranges as they would stand. -/
def hoopRangesOk (h : Hw) (n cores sync queue : Nat) : Bool :=
  let s := syncRange sync
  let q := queueRange queue
  (s.2 == 0 || (64 * h.build.cores ≤ s.1 && s.1 + s.2 ≤ 16384)) && (q.2 == 0 || q.1 + q.2 ≤ 4096) && bits 0 16 cores < 2 ^ h.build.cores &&
  h.newValidHoops.all (fun x => x == n ||
    (!rangesOverlap s (syncRange (h.newHoopWord x 2)) && !rangesOverlap q (queueRange (h.newHoopWord x 3))))

/-- What keeps a hoop from closing (R373): a context that is not FREE, an enabled queue in its range, a tambour with its image. -/
def hoopBusy (h : Hw) (n : Nat) : Bool :=
  let ctx := (h.listed .CTX_STATE).any (fun x => h.get F.CTX_STATE_HOOP x == n && h.get F.CTX_STATE_STATE x != 0)
  let q := queueRange (h.newHoopWord n 3)
  let qs := (h.listed .SQ_CTRL).any (fun x => h.on F.SQ_CTRL_ENABLE x && q.1 ≤ x && x < q.1 + q.2)
  let tb := (List.range h.physCores).any (fun c => h.get F.TB_STATUS_STATE c != 0 && !h.on F.TB_ID_OPERATOR c && h.get F.TB_ID_HOOP c == n)
  let gt := h.get F.GT_STATUS_STATE != 0 && !h.on F.GT_ID_OPERATOR && h.get F.GT_ID_HOOP == n
  ctx || qs || tb || gt

/-- A write of HP_CTRL (R373, R387). Closing clears every window, the key slot, TPUB and both ranges. -/
def writeHpCtrl (h : Hw) (n v : Nat) : Hw :=
  let was := bit 0 (h.newHoopWord n 0)
  let hold (h : Hw) (v : Nat) : Hw := { h with hoopHeld := Tab.insert h.hoopHeld (n * 4) (v % 4) }
  if n ≥ h.build.hoops then h
  else if !was && bit 0 v then
    if h.hoopRangesOk n (h.newHoopWord n 1) (h.newHoopWord n 2) (h.newHoopWord n 3) then (hold h v).settleHoops
    else ((hold h (v % 4 / 2 * 2)).settleHoops).hpRefuse n Rc.CFG_HP_RANGE
  else if was && !bit 0 v then
    if h.hoopBusy n then h.hpRefuse n Rc.CFG_HP_BUSY
    else
      let h := hold h v
      let h := { h with hoopHeld := Tab.insert (Tab.insert h.hoopHeld (n * 4 + 2) 0) (n * 4 + 3) 0, keysHeld := Tab.insert h.keysHeld n {} }
      ((List.range 16).foldl (fun h i =>
        if (h.newWindow n i).isSome then { h with windowsHeld := Tab.insert h.windowsHeld (n * 16 + i) none } else h) h).settleHoops
  else (hold h v).settleHoops

/-- A write of HP_CORES, HP_SYNC or HP_QUEUE: word 1, 2 or 3 (R369). -/
def writeHpRange (h : Hw) (n word v : Nat) : Hw :=
  let v := if word == 1 then bits 0 16 v else if word == 2 then bits 0 14 v + bits 16 15 v * 65536 else bits 0 12 v + bits 16 13 v * 65536
  let pick (i : Nat) : Nat := if i == word then v else h.newHoopWord n i
  if n ≥ h.build.hoops then h
  else if bit 0 (h.newHoopWord n 0) && !h.hoopRangesOk n (pick 1) (pick 2) (pick 3) then h.hpRefuse n Rc.CFG_HP_RANGE
  else { h with hoopHeld := Tab.insert h.hoopHeld (n * 4 + word) v }.settleHoops

/-- The hoop whose queue range in force holds a queue (SQ_HOOP). -/
def queueHoop (h : Hw) (q : Nat) : Option Nat :=
  (h.listed .HP_CTRL).find? (fun n =>
    h.on F.HP_CTRL_VALID n && (queueRange (h.rd .HP_QUEUE n)).1 ≤ q && q < (queueRange (h.rd .HP_QUEUE n)).1 + (queueRange (h.rd .HP_QUEUE n)).2)

/-! Windows (R368). -/

/-- The windows that are valid by their newest values: key hoop × 16 + index. -/
def newWindows (h : Hw) : List (Nat × Window) :=
  ((h.windows.map (·.1) ++ h.windowsHeld.map (·.1)).eraseDups).filterMap (fun k => (h.newWindow (k / 16) (k % 16)).map (fun w => (k, w)))

/-- A physical range lies in one area of Table 8-1 and in what is installed of it. -/
def physRangeOk (h : Hw) (pa n : Nat) : Bool :=
  if 3 * 2 ^ 62 ≤ pa then pa % 2 ^ 62 + n ≤ 4096 * 2 ^ 32 else (h.physLoc pa n).isSome

/-- A staged window passes the checks of R368. -/
def windowOk (h : Hw) (key : Nat) (w : Window) : Bool :=
  w.vbase % 65536 == 0 && w.pbase % 65536 == 0 && w.size != 0 && h.physRangeOk w.pbase w.size &&
  h.newWindows.all (fun p => p.1 == key ||
    (if p.1 / 16 == key / 16 then !rangesOverlap (w.vbase, w.size) (p.2.vbase, p.2.size)
     else !((w.write || p.2.write) && rangesOverlap (w.pbase, w.size) (p.2.pbase, p.2.size))))

/-- A write of HP_WIN_APPLY. -/
def applyWindow (h : Hw) : Hw :=
  let n := h.get F.HP_WSEL_HOOP
  let key := n * 16 + h.get F.HP_WSEL_WINDOW
  let a := h.rd .HP_WIN_ATTR 0
  let w : Window := { vbase := h.rd .HP_WIN_VBASE 0, pbase := h.rd .HP_WIN_PBASE 0, size := h.rd .HP_WIN_SIZE 0 * 65536, read := bit 1 a, write := bit 2 a }
  if n ≥ h.build.hoops then h
  else if !bit 0 a then { h with windowsHeld := Tab.insert h.windowsHeld key none }.settleHoops
  else if !h.windowOk key w then h.hpRefuse n Rc.CFG_HP_WINDOW
  else { h with windowsHeld := Tab.insert h.windowsHeld key (some w) }.settleHoops

/-- A word that HP_WIN_* returns: of the window in force that HP_WSEL selects. -/
def windowWord (h : Hw) (r : Reg) : Nat :=
  match Tab.find? h.windows (h.get F.HP_WSEL_HOOP * 16 + h.get F.HP_WSEL_WINDOW) with
  | none => 0
  | some w => match r with
    | .HP_WIN_VBASE => w.vbase
    | .HP_WIN_PBASE => w.pbase
    | .HP_WIN_SIZE => w.size / 65536
    | _ => 1 + flag w.read * 2 + flag w.write * 4

/-! Keys (R371, R372, R380). -/

/-- A D3 entered by permit is in force (R380). -/
def d3Entered (h : Hw) : Bool := h.get F.SC_DEBUG_LEVEL == 3 && h.get F.SC_STATE_STATE != 0

/-- The unwrapped K1‖K2‖H of a blob: clear in MANUFACTURE, else under the KEK. -/
def unwrapKey (h : Hw) (n : Nat) (blob : List Byte) : Option (List Byte) :=
  if h.get F.SC_STATE_STATE == 0 then some (sliceBytes 116 112 blob)
  else
    let info : List Byte := ("FRV2-HOOP".toList.map (fun c => BitVec.ofNat 8 c.toNat)) ++ leBytes 2 n ++ leBytes 4 (leAt 8 4 blob)
    Config.kwUnwrap (Config.hkdf (Config.ecdh 1 (sliceBytes 16 97 blob)) (leBytes 8 h.build.serial) info 32) (sliceBytes 116 120 blob)

/-- HP_KEYCMD INSTALL (R371). -/
def installKey (h : Hw) (m : Mem) (n : Nat) : Hw :=
  let addr := h.rd .HP_KEYBLOB 0
  let blob := m.read Area.block addr 384
  if n ≥ h.build.hoops then h
  else if h.d3Entered then h.keyRefuse Rc.SEC_DEBUG_STATE
  else if (Tab.find? h.keySweep n).isSome then h.hpRefuse n Rc.CFG_HP_BUSY
  else match h.badScratch addr 384 with
    | some wh => (h.uncorrectable 0x40 0 wh).keyRefuse Rc.SEC_KEY_INVALID
    | none =>
      if leAt 0 4 blob != 0x4B570002 || leAt 4 2 blob != n || leAt 8 4 blob != h.rd .HP_KEYCNT n + 1 then h.keyRefuse Rc.SEC_KEY_INVALID
      else match h.unwrapKey n blob with
        | none => h.keyRefuse Rc.SEC_KEY_INVALID
        | some kkh =>
          let tpub := sliceBytes 256 97 blob
          if kkh.take 32 == (kkh.drop 32).take 32 || leAt 64 48 kkh != (Config.sha384 tpub).toNat then h.keyRefuse Rc.SEC_KEY_INVALID
          else
            let h := h.wr .HP_KEYCNT n (h.rd .HP_KEYCNT n + 1)
            { h with keysHeld := Tab.insert h.keysHeld n { key := some (leNat (kkh.take 64)), tpub := tpub } }.settleHoops

/-- HP_KEYCMD ERASE (R372). -/
def eraseKey (h : Hw) (n : Nat) : Hw :=
  if n ≥ h.build.hoops then h
  else if (Tab.find? h.keySweep n).isSome then h.hpRefuse n Rc.CFG_HP_BUSY
  else { h with keysHeld := Tab.insert h.keysHeld n {} }.settleHoops

/-- A write of HP_KEYCMD. REASON shows the outcome of this command (the dictionary reads 0 there after an install that succeeds). -/
def writeKeyCmd (h : Hw) (m : Mem) (v : Nat) : Hw :=
  let h := h.put F.HP_KEYSTAT_REASON 0
  match bits 0 2 v with
  | 1 => h.installKey m (bits 16 12 v)
  | 2 => h.eraseKey (bits 16 12 v)
  | _ => h.keyRefuse Rc.CFG_RANGE

/-- A write of HP_KEYBLOB: refused where the blob is misaligned or leaves scratch (R371). -/
def writeKeyBlob (h : Hw) (v : Nat) : Hw :=
  if v % 64 != 0 || v + 384 > h.scratchSize then h.keyRefuse Rc.CFG_RANGE else h.wr .HP_KEYBLOB 0 v

/-- The sweep of stale lines ends (R372). -/
def keySweepDone (h : Hw) (n : Nat) : Hw :=
  match Tab.find? h.keySweep n with
  | none => h
  | some t =>
    let g := (h.keyGen n + 1) % 4
    { (h.elapse t).cacheDrop (fun l => l.hoop == n && l.gen == g) with keySweep := Tab.erase h.keySweep n }

/-- Every key slot and TPUB is erased at once (R376, R380). -/
def eraseAllKeys (h : Hw) : Hw := { h with keys := Tab.mapAll h.keys {} (fun _ k => { gen := k.gen }), keysHeld := [] }

/-! Lifecycle (R376). -/

/-- SC_NONCE takes a fresh value. -/
def freshNonce (h : Hw) : Hw := (h.wr .SC_NONCE 0 (Config.trng h.draws).toNat).draw

/-- The hash of the operator's owner key (SC_OPKEY2). -/
def opKey (h : Hw) (k : Nat) : Nat := (List.range 12).foldl (fun a i => a + h.rd .SC_OPKEY (k * 12 + i) * 2 ^ (32 * i)) 0

/-- A signature by one of Knaulo's keys over a body. -/
def knauloSigned (k : Nat) (body sig : List Byte) : Bool := Config.ecdsaOk (Config.knauloKey k) (Config.sha384 body) sig

/-- The signatures of a lifecycle command suffice for its transition (Table 14-4). -/
def lifecycleSigned (h : Hw) (target : Nat) (cmd : List Byte) : Bool :=
  let body := cmd.take 64
  let s1 := sliceBytes 64 96 cmd
  let second := bit 0 (leAt 5 1 cmd)
  match h.get F.SC_STATE_STATE, target with
  | 0, 1 => knauloSigned 1 body s1
  | 1, 2 => Config.signedUnder (h.opKey 2) body s1
  | 0, 3 => true
  | 1, 3 => second && Config.signedUnder (h.opKey 2) body s1 && knauloSigned 1 body (sliceBytes 160 96 cmd)
  | 2, 3 => second && Config.signedUnder (h.opKey 2) body s1 && knauloSigned 1 body (sliceBytes 160 96 cmd)
  | _, _ => false

/-- A device public key: 97 bytes made from a fresh seed, in SC_DEVPUBk. -/
def makeDeviceKey (h : Hw) (k : Nat) : Hw :=
  let pub := sliceBytes 0 100 (sliceBytes 0 97 (Config.ephemeralPub h.draws))
  ((List.range 25).foldl (fun h i => h.wr .SC_DEVPUB (k * 25 + i) (leAt (4 * i) 4 pub)) h).draw

/-- A write of SC_CMDGO. -/
def lifecycle (h : Hw) (m : Mem) : Hw :=
  let addr := h.rd .SC_CMD 0
  let cmd := m.read Area.block addr 256
  let target := leAt 4 1 cmd
  let readable := addr + 256 ≤ h.scratchSize && (h.badScratch addr 256).isNone
  let formOk := leAt 0 4 cmd == 0x4C430002 && leAt 5 1 cmd < 2 && leAt 6 2 cmd == 0 && leAt 8 8 cmd == h.build.serial &&
    leAt 16 8 cmd == h.rd .SC_NONCE 0 && leAt 24 8 cmd == 0 && (sliceBytes 32 32 cmd).all (· == 0#8)
  if !readable || !formOk || h.on F.SC_STATE_PENDING || !h.lifecycleSigned target cmd then (h.scRefuse Rc.SEC_LIFECYCLE).freshNonce
  else
    let h := ((h.put F.SC_STATE_NEXT target).put F.SC_STATE_PENDING 1).freshNonce
    match target with
    | 1 => ((h.makeDeviceKey 0).makeDeviceKey 1).eraseAllKeys
    | 3 => (((h.eraseAllKeys).clearReg .SC_OPKEY).clearReg .SC_DEVPUB).put F.FT_SVC_ADMITTED 0
    | _ => h

/-! Permits (R379 to R381). -/

/-- Release a debug halt (R381, R382). -/
def releaseHalt (h : Hw) : Hw :=
  if !h.on F.DG_HALT_HALTED then h
  else (h.cores.map (·.1)).foldl (fun h c => h.onCore c (fun k => { k with debugHalt := false })) (h.put F.DG_HALT_HALTED 0)

/-- The level in force ends and another comes into force. -/
def setLevel (h : Hw) (level hoop notAfter : Nat) : Hw :=
  let h := if 2 ≤ h.get F.SC_DEBUG_LEVEL then h.releaseHalt else h
  let h := ((h.put F.SC_DEBUG_LEVEL level).put F.SC_DEBUG_HOOP hoop).wr .SC_DEBUG_END 0 notAfter
  if level == 2 then h.wr .DG_APER_HOOP 0 hoop else h

/-- A permit is accepted (R379). -/
def permitOk (h : Hw) (p : List Byte) : Bool :=
  let body := p.take 64
  let s1 := sliceBytes 64 96 p
  let level := leAt 4 1 p
  let hoop := leAt 6 2 p
  let st := h.get F.SC_STATE_STATE
  let tpub := (Tab.getD h.keys hoop {}).tpub
  let byTenant := !tpub.isEmpty && Config.ecdsaOk tpub (Config.sha384 body) s1
  let byOwner := Config.signedUnder (h.opKey 2) body s1
  leAt 0 4 p == 0x50540002 && leAt 5 1 p < 2 && leAt 8 8 p == h.build.serial && leAt 16 8 p == h.rd .SC_NONCE 0 &&
  (sliceBytes 32 32 p).all (· == 0#8) && h.time.beat < leAt 24 8 p && (st == 1 || st == 2) &&
  (match level with
    | 1 => hoop < 4096 && h.on F.HP_CTRL_VALID hoop && !tpub.isEmpty && (byTenant || byOwner)
    | 2 => hoop < 4096 && h.on F.HP_CTRL_VALID hoop && !tpub.isEmpty && byTenant
    | 3 => hoop == 0 && byOwner && (st != 2 || (bit 0 (leAt 5 1 p) && knauloSigned 1 body (sliceBytes 160 96 p))) &&
        !(List.range h.build.cores).any (fun n => bit (h.physOf n) (h.get F.FT_SVC_ADMITTED))
    | _ => false)

/-- DBG_PERMIT: verification starts at Update-DR. -/
def startPermit (h : Hw) (p : List Byte) : Hw :=
  { h.put F.SC_DEBUG_BUSY 1 with tap := { h.tap with ir := 0x10, permit := some (sliceBytes 0 256 p) } }

/-- The first beat above NOT_AFTER ends a level (R381). In MANUFACTURE the level is fixed (R383). -/
def levelExpiry (h : Hw) : Hw :=
  if h.get F.SC_DEBUG_LEVEL == 0 || h.get F.SC_STATE_STATE == 0 || h.time.beat ≤ h.rd .SC_DEBUG_END 0 then h
  else h.setLevel 0 0 0

/-! Debug halts (R382). -/

/-- A write of DG_HALT: HALT stops issue on the cores whose bound run is of the permitted hoop, on every core at D3. -/
def writeDgHalt (h : Hw) (v : Nat) : Hw :=
  let level := h.get F.SC_DEBUG_LEVEL
  let h := if bit 1 v then h.releaseHalt else h
  if !bit 0 v || level < 2 then h
  else
    (List.range h.physCores).foldl (fun h c =>
      if level == 3 || ((h.seq c).bound && (h.seq c).runHoop == some (h.get F.SC_DEBUG_HOOP)) then
        (h.onCore c (fun k => { k with debugHalt := true })).stopArray c false false
      else h) (h.put F.DG_HALT_HALTED 1)

/-! The test access port (R384). -/

/-- The TAP serves an instruction in the present combination of Table 14-8. -/
def tapServes (h : Hw) (ir : Nat) : Bool :=
  let st := h.get F.SC_STATE_STATE
  let level := h.get F.SC_DEBUG_LEVEL
  if h.power.porzLow then false
  else if h.power.sleeping then ir == 0xFF || ir == 0x01 || ir == 0x02 || ir == 0x13
  else match ir with
    | 0x03 => level == 3 || st == 3
    | 0x12 => level != 0
    | _ => ir == 0xFF || ir == 0x01 || ir == 0x02 || ir == 0x10 || ir == 0x11 || ir == 0x13 || ir == 0x14

/-- An instruction is selected, or BYPASS where it is not served; the data register captures a value. -/
def tapSelect (h : Hw) (ir dr : Nat) : Hw :=
  if h.tapServes ir then { h with tap := { h.tap with ir := ir, dr := dr, driven := ir == 0x03 } }
  else { h with tap := { h.tap with ir := 0xFF, dr := 0, driven := false } }

/-- The device identification code (R384). -/
def idcode (h : Hw) : Nat := h.build.revision % 16 * 2 ^ 28 + 0x0F52 * 2 ^ 12 + 0x2B7 * 2 + 1

/-- The boundary-scan register: SAMPLE captures the pins and PRELOAD takes what is shifted in. -/
def tapBoundary (h : Hw) (ir pins preload : Nat) : Hw :=
  let h := h.tapSelect ir pins
  if h.tap.ir == ir then { h with tap := { h.tap with boundary := preload } } else h

end Hw

end Sys2Proof.Machine
end

