-- ==== Sys2Proof/Machine/Submit.lean ====
section
/-! DEFINITION. Queues, the scanner, graphs, contexts and the Dispatcher's handling of queue entries (R271 to R286, R323, R324, R334). -/

namespace Sys2Proof.Machine

namespace Hw

def onSub (h : Hw) (f : Submission → Submission) : Hw := { h with submit := f h.submit }

def sqRefuse (h : Hw) (q code : Nat) : Hw := h.refuse code F.SQ_STATUS_REASON q 0x97
def ctxRefuse (h : Hw) (code : Nat) : Hw := h.refuse code F.SQ_CTX_STATUS_REASON 0 0x97

/-! Queue registers. -/

/-- STATE of a queue: 0 OFF, 1 RUN, 2 WAIT, 3 STOPPED. -/
def sqState (h : Hw) (q : Nat) : Nat := h.get F.SQ_STATUS_STATE q

def setSqState (h : Hw) (q s : Nat) : Hw := h.put F.SQ_STATUS_STATE s q

/-- Entries of the ring. -/
def sqSize (h : Hw) (q : Nat) : Nat := 2 ^ h.get F.SQ_CTRL_LOG2 q

/-- Address of an entry, and of its record. -/
def sqEntryAddr (h : Hw) (q i : Nat) : Nat := h.rd .SQ_BASE q + 64 * (i % h.sqSize q)
def sqRecordAddr (h : Hw) (q i : Nat) : Nat := h.rd .SQ_COMPBASE q + 16 * (i % h.sqSize q)

/-- A physical range lies in a window of a hoop. -/
def inHoopPhys (h : Hw) (hoop pa n : Nat) : Bool :=
  h.windows.any (fun p => p.1 / 16 == hoop && p.2.pbase ≤ pa && pa + n ≤ p.2.pbase + p.2.size)

/-- A range of hoop addresses lies in a window of a hoop. -/
def inHoop (h : Hw) (hoop va n : Nat) : Bool :=
  match h.windowOf hoop va with
  | some w => va + n ≤ w.vbase + w.size
  | none => false

/-- n bytes at a physical address, under a hoop's key; bytes that are not mapped read 0. -/
def physBytes (h : Hw) (m : Mem) (hoop pa n : Nat) : List Byte :=
  match h.physLoc pa n with
  | some l => farRead h m hoop l n
  | none => List.replicate n 0#8

/-- The checks of SQ_CTRL.ENABLE (Table 10-8): 0, or the first failing code. -/
def sqCheck (h : Hw) (q : Nat) : Nat :=
  let lg := h.get F.SQ_CTRL_LOG2 q
  let base := h.rd .SQ_BASE q
  let tail := h.rd .SQ_TAILADDR q
  let comp := h.rd .SQ_COMPBASE q
  let mapped (a n : Nat) : Bool := (h.physLoc a n).isSome
  if !(4 ≤ lg && lg ≤ 16 && base % 64 == 0 && mapped base (64 * 2 ^ lg) && tail % 4 == 0 && mapped tail 4 && comp % 16 == 0 &&
      comp + 16 * 2 ^ lg ≤ h.scratchSize) then Rc.CFG_SQ_RING
  else match h.queueHoop q with
    | none => Rc.CFG_SQ_HOOP
    | some n => if h.inHoopPhys n base (64 * 2 ^ lg) && h.inHoopPhys n tail 4 && h.inHoopPhys n comp (16 * 2 ^ lg) then 0 else Rc.CFG_SQ_HOOP

/-- A write of SQ_CTRL (R274, R283, R286, Table 12-2): a Dispatcher write changes RESTART only. -/
def writeSqCtrl (h : Hw) (a : Agent) (q v : Nat) : Hw :=
  let h := if bit 1 v && h.sqState q == 3 then h.setSqState q 1 else h
  let on := h.on F.SQ_CTRL_ENABLE q
  let lg := bits 8 5 v
  if a == .dispatcher then h
  else if lg != h.get F.SQ_CTRL_LOG2 q && (on || h.rd .SQ_DONE q != h.rd .SQ_HEAD q) then h.sqRefuse q Rc.CFG_CONFLICT
  else
    let h := h.put F.SQ_CTRL_LOG2 lg q
    if !on && bit 0 v then
      let code := h.sqCheck q
      if code != 0 then h.sqRefuse q code
      else
        let h := ((h.put F.SQ_CTRL_ENABLE 1 q).wr .SQ_HEAD q 0).wr .SQ_DONE q 0
        ((h.wr .SQ_TAILSEEN q 0).setSqState q 1).onSub (fun s => { s with taken := s.taken.filter (fun t => t.queue != q) })
    else if on && !bit 0 v then (h.put F.SQ_CTRL_ENABLE 0 q).setSqState q 0
    else h

/-- A write of SQ_BASE, SQ_TAILADDR or SQ_COMPBASE. -/
def writeSqAddr (h : Hw) (r : Reg) (q v : Nat) : Hw :=
  if h.on F.SQ_CTRL_ENABLE q || h.rd .SQ_DONE q != h.rd .SQ_HEAD q then h.sqRefuse q Rc.CFG_CONFLICT else h.wr r q v

/-! The scanner (R271, R272). -/

/-- SQ_READY shows the ready list. -/
def showReady (h : Hw) : Hw :=
  match h.submit.ready with
  | [] => h.wr .SQ_READY 0 0x8000
  | q :: _ => h.wr .SQ_READY 0 q

/-- QUEUE_SCAN_VISIT: the next enabled queue in RUN or WAIT, one visit every 4 PCLK cycles; at most 16 tail reads in flight. -/
def scanVisit (h : Hw) : Hw :=
  let live := (List.range 4096).filter (fun q => h.on F.SQ_CTRL_ENABLE q && (h.sqState q == 1 || h.sqState q == 2))
  if !h.on F.SQ_SCAN_CTRL_ENABLE || h.submit.reads.length ≥ 16 then h
  else
    let pclk := if h.clocks.pclk then 4 else 44
    let h := h.elapse h.submit.visitDue
    let next := live.find? (fun q => h.submit.scanAt ≤ q)
    match next.or live.head? with
    | none => h
    | some q =>
      let wraps := next.isNone
      let h := if wraps then h.wr .SQ_SWEEP 0 ((h.ticks - h.submit.sweepStart) / pclk) else h
      h.onSub (fun s => { s with
        scanAt := q + 1, visitDue := h.ticks + 4 * pclk, sweepStart := if wraps then h.ticks else s.sweepStart,
        reads := if s.reads.contains q then s.reads else s.reads ++ [q] })

/-- TAIL_READ_DONE: a tail word that has changed is stored and the queue joins the ready list; one too far ahead stops the queue. -/
def tailRead (h : Hw) (m : Mem) (q : Nat) : Hw :=
  if !h.submit.reads.contains q then h
  else
    let h := h.onSub (fun s => { s with reads := s.reads.filter (· != q) })
    let tail := leNat (h.physBytes m ((h.queueHoop q).getD 0) (h.rd .SQ_TAILADDR q) 4)
    if !h.on F.SQ_CTRL_ENABLE q || tail == h.rd .SQ_TAILSEEN q then h
    else
      let h := (h.wr .SQ_TAILSEEN q tail).onSub (fun s => { s with ready := if s.ready.contains q then s.ready else s.ready ++ [q] })
      let h := h.showReady
      if (tail + 2 ^ 32 - h.rd .SQ_HEAD q) % 2 ^ 32 > h.sqSize q then
        (h.setSqState q 3).raise Rc.SYN_QUEUE_OVERRUN { unit := 0x97, reason := some (F.SQ_STATUS_REASON, q) }
      else h

/-- A write of SQ_READY_POP. -/
def readyPop (h : Hw) : Hw := (h.onSub (fun s => { s with ready := s.ready.drop 1 })).showReady

/-! Graph and armature entries. -/

/-- The buffers of a graph lie in its hoop, with a length in range. -/
def graphOk (h : Hw) (buf0 buf1 len hoop : Nat) : Bool :=
  16 ≤ len && len ≤ 16777216 && hoop < 4096 && h.inHoop hoop buf0 len && h.inHoop hoop buf1 len

/-- A write of a word of a graph entry: word 0 to 7 at its offset. -/
def writeGraph (h : Hw) (g word v : Nat) : Hw :=
  let b0 := h.rd .GRAPH_BUF0 g
  let b1 := h.rd .GRAPH_BUF1 g
  let n0 := if word == 0 then putBits 0 32 v b0 else if word == 1 then putBits 32 32 v b0 else b0
  let n1 := if word == 2 then putBits 0 32 v b1 else if word == 3 then putBits 32 32 v b1 else b1
  let len := if word == 4 then v else h.rd .GRAPH_LENGTH g
  let fl := h.rd .GRAPH_FLAGS g
  let nf := if word == 5 then bits 0 12 v + flag (bit 16 v) * 2 ^ 16 + bits 17 2 fl * 2 ^ 17 + flag (bit 19 v) * 2 ^ 19 else fl
  let changes := n0 != b0 || n1 != b1 || len != h.rd .GRAPH_LENGTH g || bits 0 12 nf != bits 0 12 fl || bit 19 nf != bit 19 fl
  let used := h.get F.GRAPH_USE_USE0 g != 0 || h.get F.GRAPH_USE_USE1 g != 0
  if word == 4 && !(16 ≤ v && v ≤ 16777216) then h.ctxRefuse Rc.CFG_RANGE
  else if (changes && used) || (bit 16 nf && !h.graphOk n0 n1 len (bits 0 12 nf)) then h.ctxRefuse Rc.CFG_GRAPH_ENTRY
  else ((h.wr .GRAPH_BUF0 g n0).wr .GRAPH_BUF1 g n1).wr .GRAPH_LENGTH g len |>.wr .GRAPH_FLAGS g nf

/-- A write of a word of an armature entry: word 0 to 7 at its offset. -/
def writeArm (h : Hw) (a word v : Nat) : Hw :=
  let cfg := if word == 0 then bits 0 17 v + bits 24 8 v * 2 ^ 24 else h.rd .ARM_CFG a
  let comp0 := h.rd .ARM_COMPBASE a
  let comp := if word == 4 then putBits 0 32 v comp0 else if word == 5 then putBits 32 32 v comp0 else comp0
  let tag0 := h.rd .ARM_TAGBASE a
  let tag := if word == 2 then putBits 0 32 v tag0 else if word == 3 then putBits 32 32 v tag0 else tag0
  let g := bits 0 16 cfg
  let ok := g < 4096 && h.on F.GRAPH_FLAGS_VALID g && (1 ≤ bits 24 8 cfg && bits 24 8 cfg ≤ 8) && comp % 16 == 0 && comp + 4096 ≤ h.scratchSize
  if bit 16 cfg && !ok then h.ctxRefuse Rc.CFG_ARM_ENTRY
  else (((h.wr .ARM_CFG a cfg).wr .ARM_COMPBASE a comp).wr .ARM_TAGBASE a tag).wr .ARM_STEP a (if word == 1 then v else h.rd .ARM_STEP a)

/-! Contexts (R16, R17, R284). -/

/-- A context can be admitted: FREE, and no transition of it is under way. -/
def ctxFree (h : Hw) (x : Nat) : Bool := x < 16384 && h.ctxState x == 0 && (Tab.find? h.ctxNext x).isNone

/-- USE of a graph's buffer. -/
def useFld (b : Nat) : Fld := if b == 0 then F.GRAPH_USE_USE0 else F.GRAPH_USE_USE1

/-- The launch of a context from its graph's buffer gives the buffer back, once (R275, R324). -/
def useDown (h : Hw) (x : Nat) : Hw :=
  let g := h.get F.CTX_QUEUE_GRAPH x
  let act := h.get F.GRAPH_FLAGS_ACTIVE g
  let b := if h.rd .CTX_GEN x == h.rd .GRAPH_GEN g then act else 1 - act
  h.put (useFld b) (h.get (useFld b) g - 1) g

/-- A context is admitted: state, SEGS_TOTAL with no segment done, and USE of its graph's active buffer (R275, R323). -/
def admitCtx (h : Hw) (x segs : Nat) : Hw :=
  let g := h.get F.CTX_QUEUE_GRAPH x
  let b := h.get F.GRAPH_FLAGS_ACTIVE g
  let h := (h.setCtxState x 1).wr .DP_CTXPROG x (segs % 65536 * 65536)
  (h.put (useFld b) (h.get (useFld b) g + 1) g).onSub (fun s => { s with segs := Tab.erase s.segs x })

/-- A context gives up its segments that are not written yet. -/
def dropLaunch (h : Hw) (x : Nat) : Hw :=
  if h.get F.DP_CTXPROG_SEGS_DONE x < h.get F.DP_CTXPROG_SEGS_TOTAL x then h.useDown x else h

/-- A write of CMD: a transition of Table 1-3 by its writer; the debug port at D3 acts as the Keeper (R284). -/
def writeCtxCmd (h : Hw) (a : Agent) (x v : Nat) : Hw :=
  let target := v % 4
  let st := h.ctxState x
  if (Tab.find? h.ctxNext x).isSome then h.ctxRefuse Rc.SYN_CTX_TRANSITION
  else if st == 0 && target == 1 && a == .dispatcher then h.setCtxState x 1
  else if st == 1 && target == 0 && a == .dispatcher then (h.setCtxState x 0).dropLaunch x
  else if st == 3 && target == 0 && a != .dispatcher then (h.setCtxState x 0).energyFree x
  else h.ctxRefuse Rc.SYN_CTX_TRANSITION

/-- A write of a word of a context entry other than CMD: by the Dispatcher, while STATE is FREE. -/
def writeCtx (h : Hw) (x word v : Nat) : Hw :=
  if h.ctxState x != 0 then h
  else match word with
    | 0 => h.put F.CTX_STATE_HOOP (bits 16 12 v) x
    | 1 => h.wr .CTX_QUEUE x (bits 0 12 v + bits 16 12 v * 65536)
    | 2 => h.wr .CTX_TAG x (putBits 0 32 v (h.rd .CTX_TAG x))
    | 3 => h.wr .CTX_TAG x (putBits 32 32 v (h.rd .CTX_TAG x))
    | 4 => h.wr .CTX_SEQ x v
    | 5 => h.wr .CTX_ENERGY x v
    | 6 => h.wr .CTX_GEN x v
    | _ => h

/-- A cancelled launch's entry, and the CANCEL that named it, once the beat has decided (R17, R279). -/
def settleCancels (h : Hw) : Hw :=
  let late (x : Nat) : Bool := Tab.find? h.ctxNext x == some 2
  let names (x : Nat) : Bool := h.submit.taken.any (fun t => t.cancels == some x)
  h.onSub (fun s => { s with taken := s.taken.map (fun t =>
    match t.cancels, t.ctx with
    | some x, _ => { t with cancels := none, status := if late x then Rc.SYN_CANCEL_LATE else 0 }
    | none, some x => if names x && !late x then { t with ctx := none, status := Rc.SYN_CANCELLED } else t
    | none, none => t) })

/-! The take (R273, R274, R323). -/

/-- A queue holds an entry that has not been taken. -/
def hasEntry (h : Hw) (q : Nat) : Bool :=
  h.on F.SQ_CTRL_ENABLE q && (h.sqState q == 1 || h.sqState q == 2) && h.rd .SQ_TAILSEEN q != h.rd .SQ_HEAD q

/-- The entry at the head, 64 bytes. -/
def headEntry (h : Hw) (m : Mem) (q : Nat) : List Byte :=
  h.physBytes m ((h.queueHoop q).getD 0) (h.sqEntryAddr q (h.rd .SQ_HEAD q)) 64

/-- Take the entry at the head: with a context, or with the STATUS of its record. -/
def takeEntry (h : Hw) (m : Mem) (q : Nat) (ctx : Option (Nat × Nat)) (status : Nat) (cancels : Option Nat := none) : Hw :=
  let e := h.headEntry m q
  let seq := h.rd .SQ_HEAD q
  let failed := ctx.isNone && status != 0
  let t : Taken := { queue := q, seq := seq, tag := leAt 8 8 e, ctx := ctx.map (·.1), status := if ctx.isNone then status else 0,
                     halts := failed && bit 1 (leAt 1 1 e), cancels := cancels }
  let h := (h.wr .SQ_HEAD q (seq + 1)).inc F.DP_TAKES_COUNT
  let h := match ctx with
    | some (x, segs) => h.admitCtx x segs
    | none => h
  let h := (h.onSub (fun s => { s with taken := s.taken ++ [t] })).setSqState q 1
  if failed then (h.setFlag F.SQ_STATUS_FAIL q).raise status { unit := 0x97, reason := some (F.SQ_STATUS_REASON, q), hoop := (h.queueHoop q).getD 0 }
  else h

/-- DISPATCH_TAKE: a write of DP_TAKE. -/
def dispatchTake (h : Hw) (m : Mem) (v : Nat) : Hw :=
  let q := bits 0 12 v
  let x := h.get F.DP_TAKE_CTX_CONTEXT
  let staged := h.on F.DP_TAKE_CTX_VALID
  let status := h.get F.DP_TAKE_CTX_STATUS
  if !h.hasEntry q || (staged && !h.ctxFree x) then h.refuse Rc.CFG_DP_JOURNAL F.DP_STATUS_REASON 0 0x93
  else (h.takeEntry m q (if staged then some (x, status) else none) status).put F.DP_TAKE_CTX_VALID 0

/-- A write of a core's TAIL, with the journal of DP_STAGEn (R324, R359). -/
def publish (h : Hw) (n v : Nat) : Hw :=
  let c := h.physOf n
  let accepted := !h.tailRefused c v
  let h := h.writeTail c v
  if !accepted || !h.on F.DP_STAGE_VALID n then h
  else
    let x := h.get F.DP_STAGE_CONTEXT n
    let done := h.get F.DP_STAGE_SEG n + 1
    let before := h.get F.DP_CTXPROG_SEGS_DONE x
    let h := (h.put F.DP_CTXPROG_SEGS_DONE done x).put F.DP_STAGE_VALID 0 n
    if before < h.get F.DP_CTXPROG_SEGS_TOTAL x && done == h.get F.DP_CTXPROG_SEGS_TOTAL x then h.useDown x else h

end Hw

/-! Patches (R275, R276). -/

/-- Store to a hoop's addresses through an aperture of the hoop; none where the hoop may not. -/
def hoopStore (hoop va : Nat) (bs : List Byte) (w : Work) : Option Work :=
  match w.hw.resolve { hoop := hoop, write := true, bobbin := false } va bs.length with
  | .ok (l, _) => some (farStore w hoop l bs)
  | .error _ => none

/-- n bytes at a hoop's addresses through an aperture of the hoop. -/
def hoopBytes (w : Work) (hoop va n : Nat) : Option (List Byte) :=
  match w.hw.resolve { hoop := hoop, write := false, bobbin := false } va n with
  | .ok (l, _) => some (farRead w.hw w.mem hoop l n)
  | .error _ => none

/-- Address of a graph's buffer. -/
def Hw.graphBuf (h : Hw) (g b : Nat) : Nat := if b == 0 then h.rd .GRAPH_BUF0 g else h.rd .GRAPH_BUF1 g

/-- Every record of a patch list is in range. -/
def patchesOk (len : Nat) (recs : List (Nat × Nat × List Byte)) : Bool :=
  recs.all (fun r => r.1 % 8 == 0 && r.2.1 == 0 && r.1 + 8 ≤ len)

/-- The records of a patch list: OFFSET, the word after it, and the value. -/
def patchRecords (bs : List Byte) (n : Nat) : List (Nat × Nat × List Byte) :=
  (List.range n).map (fun i => (leAt (16 * i) 4 bs, leAt (16 * i + 4) 4 bs, sliceBytes (16 * i + 8) 8 bs))

/-- Write the records into a buffer. -/
def writePatches (hoop base : Nat) (recs : List (Nat × Nat × List Byte)) (w : Work) : Option Work :=
  recs.foldl (fun a r => a.bind (fun w => hoopStore hoop (base + r.1) r.2.2 w)) (some w)

/-- Apply patch records to a graph, or say why not (R275). -/
def patchGraph (g : Nat) (recs : List (Nat × Nat × List Byte)) (w : Work) : Except Nat Work :=
  let h := w.hw
  let hoop := h.get F.GRAPH_FLAGS_HOOP g
  let len := h.rd .GRAPH_LENGTH g
  let act := h.get F.GRAPH_FLAGS_ACTIVE g
  let orViolation (x : Option Work) : Except Nat Work := match x with
    | some w => .ok w
    | none => .error Rc.SEC_HOOP_VIOLATION
  if !patchesOk len recs then .error Rc.SYN_PATCH_RANGE
  else if h.on F.GRAPH_FLAGS_SHADOW g then orViolation (writePatches hoop (h.graphBuf g (1 - act)) recs w)
  else if h.get (Hw.useFld act) g == 0 then
    orViolation ((writePatches hoop (h.graphBuf g act) recs w).map (fun w => w.onHw (fun h => h.inc F.GRAPH_GEN_GEN 1 g)))
  else if h.get (Hw.useFld (1 - act)) g == 0 then
    match hoopBytes w hoop (h.graphBuf g act) len with
    | none => .error Rc.SEC_HOOP_VIOLATION
    | some bs => orViolation (((hoopStore hoop (h.graphBuf g (1 - act)) bs w).bind (writePatches hoop (h.graphBuf g (1 - act)) recs)).map
        (fun w => w.onHw (fun h => h.put F.GRAPH_FLAGS_SHADOW 1 g)))
  else .error Rc.SYN_GRAPH_BUSY

/-- A patch list of an entry: read through the queue's hoop, and applied. -/
def patchList (hoop g n addr : Nat) (w : Work) : Except Nat Work :=
  if n == 0 then .ok w
  else match hoopBytes w hoop addr (16 * n) with
    | none => .error Rc.SEC_HOOP_VIOLATION
    | some bs => patchGraph g (patchRecords bs n) w

/-- A launch makes a pending shadow active (R275). -/
def Hw.activateGraph (h : Hw) (g : Nat) : Hw :=
  if h.on F.GRAPH_FLAGS_SHADOW g then
    ((h.put F.GRAPH_FLAGS_ACTIVE (1 - h.get F.GRAPH_FLAGS_ACTIVE g) g).inc F.GRAPH_GEN_GEN 1 g).put F.GRAPH_FLAGS_SHADOW 0 g
  else h

/-- The header of a graph's active command buffer: SEGS and CONT. -/
def graphHeader (w : Work) (g : Nat) : Nat × Nat :=
  let bs := (hoopBytes w (w.hw.get F.GRAPH_FLAGS_HOOP g) (w.hw.graphBuf g (w.hw.get F.GRAPH_FLAGS_ACTIVE g)) 8).getD []
  (leAt 4 2 bs, leAt 6 2 bs)

/-- The checks of R334 on a launch of a graph. -/
def contOk (w : Work) (g : Nat) : Bool :=
  let cont := (graphHeader w g).2
  let n := bits 0 12 cont
  let h := w.hw
  bit 15 cont == h.on F.GRAPH_FLAGS_CONT g &&
  (!bit 15 cont || (h.on F.GRAPH_FLAGS_VALID n && h.get F.GRAPH_FLAGS_HOOP n == h.get F.GRAPH_FLAGS_HOOP g && !h.on F.GRAPH_FLAGS_CONT n))

/-- The Dispatcher fills a context's entry. -/
def Hw.fillCtx (h : Hw) (x hoop queue graph tag seq flags : Nat) : Hw :=
  let h := ((h.wr .CTX_STATE x (flags * 256 + hoop * 65536)).wr .CTX_QUEUE x (queue % 4096 + graph * 65536)).wr .CTX_TAG x tag
  ((h.wr .CTX_SEQ x seq).put F.CTX_ENERGY_STATUS 0 x).wr .CTX_GEN x (h.rd .GRAPH_GEN graph)

/-! Queue entries (R273, R275, R277 to R279). -/

/-- KIND of the head entry, where the Dispatcher may take it: continuations come first (R334), and a SERIAL entry waits for the records of
the entries before it (R273). -/
def headKind (w : Work) (q : Nat) : Option Nat :=
  let h := w.hw
  let e := h.headEntry w.mem q
  if !h.hasEntry q || !h.submit.continuations.isEmpty || (bit 0 (leAt 1 1 e) && h.rd .SQ_DONE q != h.rd .SQ_HEAD q) then none
  else some (leAt 0 1 e)

/-- The fields that every entry keeps at 0, and those of its KIND (Table 10-3). -/
def entryOk (e : List Byte) : Bool :=
  let target := leAt 2 2 e
  let value := leAt 4 4 e
  let patches := leAt 16 8 e
  leAt 1 1 e < 4 && (sliceBytes 24 40 e).all (· == 0#8) && (value != 0 || patches == 0 || leAt 0 1 e == 3) &&
  (match leAt 0 1 e with
    | 0 => target == 0 && value == 0
    | 1 => target < 4096 && value ≤ 4096
    | 2 => target < 4096 && 1 ≤ value && value ≤ 4096
    | 3 => target < 4096 && patches == 0
    | 4 => target == 0 && patches == 0
    | _ => false)

/-- The failure of a LAUNCH or PATCH before its patches: 0 or STATUS (Table 10-4). -/
def graphFail (w : Work) (q : Nat) (e : List Byte) : Nat :=
  let g := leAt 2 2 e
  if !entryOk e || !w.hw.on F.GRAPH_FLAGS_VALID g then Rc.SYN_ENTRY_FORMAT
  else if w.hw.queueHoop q != some (w.hw.get F.GRAPH_FLAGS_HOOP g) then Rc.SEC_HOOP_VIOLATION
  else 0

/-- Take the head entry with a STATUS. -/
def takeStatus (q status : Nat) (w : Work) : Work := w.onHwMem (fun m h => h.takeEntry m q none status)

/-- LAUNCH: the head entry's patches, the pending shadow, and a context for its graph. -/
def launch (q x : Nat) (w : Work) : Work :=
  let e := w.hw.headEntry w.mem q
  let g := leAt 2 2 e
  let hoop := (w.hw.queueHoop q).getD 0
  if headKind w q != some 1 then w
  else
    let bad := graphFail w q e
    if bad != 0 then takeStatus q bad w
    else if !w.hw.ctxFree x then w
    else match patchList hoop g (leAt 4 4 e) (leAt 16 8 e) w with
      | .error code => takeStatus q code w
      | .ok w =>
        let w := w.onHw (fun h => h.activateGraph g)
        if !contOk w g then takeStatus q Rc.SYN_ENTRY_FORMAT w
        else
          let segs := (graphHeader w g).1
          w.onHwMem (fun m h => (h.fillCtx x hoop q g (leAt 8 8 e) (h.rd .SQ_HEAD q) 0).takeEntry m q (some (x, segs)) 0)

/-- PATCH. -/
def patchEntry (q : Nat) (w : Work) : Work :=
  let e := w.hw.headEntry w.mem q
  if headKind w q != some 2 then w
  else
    let bad := graphFail w q e
    if bad != 0 then takeStatus q bad w
    else match patchList ((w.hw.queueHoop q).getD 0) (leAt 2 2 e) (leAt 4 4 e) (leAt 16 8 e) w with
      | .error code => takeStatus q code w
      | .ok w => takeStatus q 0 w

/-- NOP, and an entry of a reserved KIND, which fails. -/
def nopEntry (q : Nat) (w : Work) : Work :=
  match headKind w q with
  | none => w
  | some k =>
    if k == 0 || 5 ≤ k then takeStatus q (if entryOk (w.hw.headEntry w.mem q) then 0 else Rc.SYN_ENTRY_FORMAT) w else w

/-- A fence wait on a queue is satisfied (R277). -/
def Hw.fenceMet (h : Hw) (q v : Nat) : Bool := (h.rd .SQ_DONE q + 2 ^ 32 - v) % 2 ^ 32 < 2 ^ 31

/-- The edge of a queue whose head waits: to the queue it waits on, where the value needs an entry that is not taken (R278). -/
def fenceEdge (w : Work) (q : Nat) : Option Nat :=
  let e := w.hw.headEntry w.mem q
  let b := leAt 2 2 e
  let ahead := (leAt 4 4 e + 2 ^ 32 - w.hw.rd .SQ_HEAD b) % 2 ^ 32
  if w.hw.hasEntry q && w.hw.sqState q == 2 && leAt 0 1 e == 3 && !w.hw.fenceMet b (leAt 4 4 e) && 1 ≤ ahead && ahead < 2 ^ 31 then some b
  else none

/-- The queues of the cycle through a queue, following edges from another. -/
def fenceCycle (w : Work) (q : Nat) : Nat → Nat → List Nat → List Nat
  | 0, _, _ => []
  | fuel + 1, at', seen =>
    match fenceEdge w at' with
    | none => []
    | some b => if b == q then seen ++ [at'] else if seen.contains b then [] else fenceCycle w q fuel b (seen ++ [at'])

/-- FENCE_WAIT: satisfied, its queue waits, or every wait on a cycle fails. -/
def fenceWait (q : Nat) (w : Work) : Work :=
  let e := w.hw.headEntry w.mem q
  if headKind w q != some 3 then w
  else if !entryOk e then takeStatus q Rc.SYN_ENTRY_FORMAT w
  else if (w.hw.queueHoop (leAt 2 2 e)).isNone || w.hw.queueHoop (leAt 2 2 e) != w.hw.queueHoop q then takeStatus q Rc.SEC_HOOP_VIOLATION w
  else if w.hw.fenceMet (leAt 2 2 e) (leAt 4 4 e) then takeStatus q 0 w
  else
    let w := w.onHw (fun h => h.setSqState q 2)
    (fenceCycle w q 4096 q []).foldl (fun w x => takeStatus x Rc.SYN_FENCE_CYCLE w) w

/-- CANCEL. -/
def cancelEntry (q : Nat) (w : Work) : Work :=
  let h := w.hw
  let e := h.headEntry w.mem q
  let n := leAt 4 4 e
  let back := (h.rd .SQ_HEAD q + 2 ^ 32 - n) % 2 ^ 32
  let kind := leAt 0 1 (h.physBytes w.mem ((h.queueHoop q).getD 0) (h.sqEntryAddr q n) 1)
  if headKind w q != some 4 then w
  else if !entryOk e || back == 0 || 2 ^ 31 ≤ back || kind != 1 then takeStatus q Rc.SYN_ENTRY_FORMAT w
  else
    let target := h.submit.taken.find? (fun t => t.queue == q && t.seq == n)
    match target.bind (·.ctx) with
    | some x =>
      if h.ctxState x == 1 && (Tab.find? h.ctxNext x).isNone then
        w.onHwMem (fun m h => ((h.setCtxState x 0).dropLaunch x).takeEntry m q none 0 (some x))
      else takeStatus q Rc.SYN_CANCEL_LATE w
    | none => takeStatus q Rc.SYN_CANCEL_LATE w

/-! The armature and continuations (R280, R334). -/

/-- Launches of an armature entry that are not yet DONE. -/
def Hw.armLive (h : Hw) (a : Nat) : Nat :=
  ((h.listed .CTX_STATE).filter (fun x => h.on F.CTX_STATE_ARMATURE x && !h.on F.CTX_STATE_CONTINUATION x && h.get F.CTX_QUEUE_QUEUE x == a &&
    (h.ctxState x == 1 || h.ctxState x == 2 || Tab.find? h.ctxNext x == some 1))).length

/-- ARMATURE_LAUNCH: one occurrence of the entry's STEP_ID. Without a context, or at MAXOUT, it is counted as a skip. -/
def armLaunch (a x : Nat) (w : Work) : Work :=
  let h := w.hw
  let g := h.get F.ARM_CFG_GRAPH a
  if !h.on F.ARM_CFG_VALID a then w
  else if h.armLive a ≥ h.get F.ARM_CFG_MAXOUT a || !h.ctxFree x || !contOk w g then w.onHw (fun h => h.inc F.ARM_SKIPS_COUNT 1 a)
  else
    let w := w.onHw (fun h => h.activateGraph g)
    let segs := (graphHeader w g).1
    w.onHw (fun h =>
      let n := h.rd .ARM_LAUNCHES a
      let h := h.fillCtx x (h.get F.GRAPH_FLAGS_HOOP g) a g ((h.rd .ARM_TAGBASE a + n) % 2 ^ 64) n 2
      (h.admitCtx x segs).inc F.ARM_LAUNCHES_COUNT 1 a)

/-- CONTINUATION_ADMIT: the first continuation that waits: the overflow list is copied, its count is patched in, and a context for graph
CONT is admitted. -/
def continuationAdmit (x : Nat) (w : Work) : Work :=
  match w.hw.submit.continuations with
  | [] => w
  | k :: rest =>
    if !w.hw.ctxFree x then w
    else
      let h := w.hw
      let buf := h.graphBuf k.graph (h.get F.GRAPH_FLAGS_ACTIVE k.graph)
      let (segs, cont) := graphHeader w k.graph
      let g := bits 0 12 cont
      let d := (hoopBytes w k.hoop (buf + 8 + 16 * segs) 24).getD []
      let list := (3 * 2 ^ 62) + bits 0 12 (leAt 0 2 d) * 2 ^ 32 + leAt 4 4 d
      let region (off n : Nat) : List Byte := match h.resolvePhys { hoop := k.hoop, write := false, bobbin := false } (list + off) n with
        | .ok (l, _) => farRead h w.mem k.hoop l n
        | .error _ => List.replicate n 0#8
      let count := min (leNat (region 0 4)) (leAt 20 4 d)
      let w := (hoopStore k.hoop (leAt 8 8 d) (region 0 (8 + 8 * count)) w).getD w
      match patchGraph g [(leAt 16 4 d, 0, leBytes 8 count)] w with
      | .error _ => w
      | .ok w =>
        let w := w.onHw (fun h => h.activateGraph g)
        let segs' := (graphHeader w g).1
        w.onHw (fun h =>
          let h := h.fillCtx x k.hoop k.queue g k.tag k.seq (4 + flag k.armature * 2)
          (h.admitCtx x segs').onSub (fun s => { s with continuations := rest }))

/-! Completion (R281, R282). -/

/-- A 16-byte completion record (Table 10-5). -/
def recordBytes (tag seq status flags : Nat) : List Byte := leBytes 8 tag ++ leBytes 4 seq ++ leBytes 2 status ++ leBytes 2 (flags + 1)

/-- A context that the commit makes DONE gives its record: 2 DEBUGGED, 4 RAN, 8 CONTINUED. -/
def finishContext (x : Nat) (w : Work) : Work :=
  let h := w.hw
  let arm := h.on F.CTX_STATE_ARMATURE x
  let isCont := h.on F.CTX_STATE_CONTINUATION x
  let q := h.get F.CTX_QUEUE_QUEUE x
  let seq := h.rd .CTX_SEQ x
  let tag := h.rd .CTX_TAG x
  let status := h.get F.CTX_ENERGY_STATUS x
  let g := h.get F.CTX_QUEUE_GRAPH x
  let continued := h.on F.GRAPH_FLAGS_CONT g && !isCont
  let flags := flag (h.on F.CTX_STATE_DEBUGGED x) * 2 + 4 + flag continued * 8
  let w := if continued then w.onHw (fun h => h.onSub (fun s => { s with continuations :=
      s.continuations ++ [{ armature := arm, queue := q, seq := seq, tag := tag, graph := g, hoop := h.get F.CTX_STATE_HOOP x }] })) else w
  if arm then w.store Area.block (h.rd .ARM_COMPBASE q + 16 * (seq % 256)) (recordBytes tag seq status flags)
  else if isCont then w
  else w.onHw (fun h => h.onSub (fun s => { s with taken := s.taken.map (fun t =>
    if t.ctx == some x then { t with due := true, status := status, flags := flags } else t) }))

/-- Entries without a context become due at the first commit after their take; a failed one with HALT_ON_FAIL stops its queue. -/
def Hw.dueEntries (h : Hw) : Hw :=
  let new := h.submit.taken.filter (fun t => t.ctx.isNone && !t.due && t.cancels.isNone)
  let h := new.foldl (fun h t => if t.halts then h.setSqState t.queue 3 else h) h
  h.onSub (fun s => { s with taken := s.taken.map (fun t => if t.ctx.isNone && t.cancels.isNone then { t with due := true } else t) })

/-- The due records of a queue are written in entry order, up to the first that is not due; SQ_DONE advances past each. -/
def publishQueue (q : Nat) : Nat → Work → Work
  | 0, w => w
  | fuel + 1, w =>
    match w.hw.submit.taken.find? (fun t => t.queue == q) with
    | none => w
    | some t =>
      if !t.due then w
      else
        let w := w.store Area.block (w.hw.sqRecordAddr q t.seq) (recordBytes t.tag t.seq t.status t.flags)
        publishQueue q fuel (w.onHw (fun h => (h.inc F.SQ_DONE_COUNT 1 q).onSub (fun s => { s with taken := s.taken.erase t })))

/-- The records of a commit: those of queues in queue and entry order, then those of continuations into the places of their entries. -/
def publishRecords (conts : List Nat) (w : Work) : Work :=
  let w := w.onHw (fun h => h.dueEntries)
  let qs := ((w.hw.submit.taken.map (·.queue)).eraseDups).mergeSort
  let w := qs.foldl (fun w q => publishQueue q (w.hw.submit.taken.length + 1) w) w
  conts.foldl (fun w x =>
    let h := w.hw
    let flags := flag (h.on F.CTX_STATE_DEBUGGED x) * 2 + 4
    w.store Area.block (h.sqRecordAddr (h.get F.CTX_QUEUE_QUEUE x) (h.rd .CTX_SEQ x))
      (recordBytes (h.rd .CTX_TAG x) (h.rd .CTX_SEQ x) (h.get F.CTX_ENERGY_STATUS x) flags)) w

end Sys2Proof.Machine
end

