-- ==== Sys2Proof/Machine/Tambour.lean ====
section
/-! DEFINITION. Tambours: loading, release and stop, the boundaries, the activity monitor and the scrubber (R231 to R257). The logic of an
image is not modelled: what it delivers comes with the commands. Tambour 17 is the gather tambour, n below it the core tambour of physical core n. -/

namespace Sys2Proof.Machine

/-- The number of the gather tambour (CK_RSTTB). -/
def gatherTambour : Nat := 17

/-- The gather tambour's register of the layout of a core tambour's. -/
def gtReg : Reg → Reg
  | .TB_CTRL => .GT_CTRL
  | .TB_STATUS => .GT_STATUS
  | .TB_IMAGE => .GT_IMAGE
  | .TB_ID => .GT_ID
  | .TB_ACT => .GT_ACT
  | .TB_ACTMAX => .GT_ACTMAX
  | .TB_TOGGLES => .GT_TOGGLES
  | .TB_CORR => .GT_CORR
  | .TB_FN => .GT_FN
  | r => r

namespace Hw

/-- A field of a tambour's registers and its instance. -/
def tField (t : Nat) (f : Fld) : Fld × Nat := if t == gatherTambour then ({ f with reg := gtReg f.reg }, 0) else (f, t)

def tGet (h : Hw) (t : Nat) (f : Fld) : Nat := h.get (tField t f).1 (tField t f).2

def tOn (h : Hw) (t : Nat) (f : Fld) : Bool := h.tGet t f == 1

def tPut (h : Hw) (t : Nat) (f : Fld) (v : Nat) : Hw := h.put (tField t f).1 v (tField t f).2

/-- A function entry's field. -/
def tFn (h : Hw) (t : Nat) (f : Fld) (n : Nat) : Nat :=
  if t == gatherTambour then h.get { f with reg := .GT_FN } n else h.get f (sub t 16 n)

def tam (h : Hw) (t : Nat) : Tambour := Tab.getD h.tams t {}

def onTam (h : Hw) (t : Nat) (f : Tambour → Tambour) : Hw := { h with tams := Tab.modify h.tams {} t f }

/-- UNIT of a tambour (Table 13-9). -/
def tUnit (t : Nat) : Nat := if t == gatherTambour then 0x95 else 0xD3 + t

/-- A tambour as a source of a raise: it belongs to the run in progress where the run has used it. -/
def tSrc (h : Hw) (t : Nat) : Src :=
  let r := tField t F.TB_STATUS_REASON
  let used := h.run.on && (h.tam t).used == some h.runNumber
  { unit := tUnit t, inRun := used, reason := some r, context := if used && t != gatherTambour then (h.segOf t).1 else 0xFFFF,
    hoop := if used && t != gatherTambour then (h.segOf t).2 else 0 }

def tRefuse (h : Hw) (t code : Nat) : Hw := h.refuse code (tField t F.TB_STATUS_REASON).1 (tField t F.TB_STATUS_REASON).2 (tUnit t)

/-- A tambour of this build. -/
def tExists (h : Hw) (t : Nat) : Bool := t < h.physCores || (t == gatherTambour && h.build.gatherCells != 0)

/-- Cells of a tambour. -/
def tCells (h : Hw) (t : Nat) : Nat := if t == gatherTambour then h.build.gatherCells else h.build.tambourCells

/-- States of TB_STATUS.STATE. -/
def tEmpty : Nat := 0
def tLoading : Nat := 1
def tLoaded : Nat := 2
def tReleasing : Nat := 3
def tRunning : Nat := 4
def tHeld : Nat := 5
def tStopping : Nat := 6
def tClearing : Nat := 7

def tState (h : Hw) (t : Nat) : Nat := h.tGet t F.TB_STATUS_STATE

def setTState (h : Hw) (t s : Nat) : Hw := h.tPut t F.TB_STATUS_STATE s

/-- The divisor d of FCLK. -/
def tDiv (h : Hw) (t : Nat) : Nat := 8 * 2 ^ h.tGet t F.TB_ID_FDIV

/-- Tick of an FCLK cycle counted from the first that begins at or after now. -/
def fclk (h : Hw) (t n : Nat) : Nat := (ceilDiv h.ticks (h.tDiv t) + n) * h.tDiv t

/-- Clearing begins (R250): at root/8, after the start of FCLK where it was stopped. -/
def startClearing (h : Hw) (t : Nat) : Hw :=
  let wait := if h.tState t == tLoading then 4 * 44 else 0
  let bytes := h.tCells t * 28
  let h := (List.range 16).foldl (fun h n => if t == gatherTambour then h.wr .GT_FN n 0 else h.wr .TB_FN (sub t 16 n) 0) h
  let h := h.wr (if t == gatherTambour then .GT_ID else .TB_ID) (if t == gatherTambour then 0 else t) 0
  let due := h.ticks + wait + ceilDiv bytes 512 * 8
  (h.setTState t tClearing).onTam t (fun _ => { clearDue := some due })

end Hw

/-! Images (R245, R246, R257). -/

namespace Tim

def target (b : List Byte) : Nat := leAt 8 1 b
def cls (b : List Byte) : Nat := leAt 9 1 b
def hoop (b : List Byte) : Nat := leAt 10 2 b
def fdiv (b : List Byte) : Nat := leAt 12 1 b
def cells (b : List Byte) : Nat := leAt 16 4 b
def cfgLen (b : List Byte) : Nat := leAt 20 4 b
def ramLen (b : List Byte) : Nat := leAt 24 4 b
def actDecl (b : List Byte) : Nat := leAt 28 4 b
def constMap (b : List Byte) : Nat := leAt 32 32 b

/-- Bytes of the image, signature included. -/
def size (b : List Byte) : Nat := 256 + cfgLen b + ramLen b + 96

/-- The function entries keep Table 9-5. -/
def fnsOk (b : List Byte) : Bool :=
  (List.range 16).all (fun f =>
    let lat := leAt (80 + 8 * f) 2 b
    let fl := leAt (82 + 8 * f) 1 b
    fl < 8 && (sliceBytes (83 + 8 * f) 5 b).all (· == 0#8) && (if bit 1 fl then 1 ≤ lat && lat ≤ 512 else lat == 0))

/-- CFG_TB_FORMAT: the header keeps Table 9-4. -/
def formatOk (t : Nat) (b : List Byte) : Bool :=
  leAt 0 4 b == 0x54420002 && leAt 4 2 b == 2 && target b == flag (t == gatherTambour) && cls b ≤ 1 &&
  (if cls b == 0 then hoop b < 4096 else hoop b == 0) && (fdiv b == 8 || fdiv b == 16 || fdiv b == 32) &&
  (sliceBytes 13 3 b).all (· == 0#8) && cfgLen b == cells b * 12 && ramLen b == 16384 * ((List.range 256).filter (fun i => bit i (constMap b))).length &&
  constMap b < 2 ^ (cells b / 1024) && (sliceBytes 64 16 b).all (· == 0#8) && fnsOk b && (sliceBytes 208 48 b).all (· == 0#8)

end Tim

namespace Hw

/-- The checks of TB_CTRL.ENABLE in the order of Table 9-10: 0 or the first failing code. -/
def tCheck (h : Hw) (m : Mem) (t : Nat) : Nat :=
  let addr := h.tGet t F.TB_IMAGE_ADDR * 64
  let b := h.physBytes m 0 addr 256
  if h.tState t != tEmpty then Rc.CFG_TB_STATE
  else if (h.physLoc addr 256).isNone || !Tim.formatOk t b || (h.physLoc addr (Tim.size b)).isNone then Rc.CFG_TB_FORMAT
  else if Tim.cells b != h.tCells t || h.tCells t == 0 then Rc.CFG_TB_PARAMS
  else if (if Tim.cls b == 0 then h.build.hoops ≤ Tim.hoop b || (Tab.getD h.keys (Tim.hoop b) {}).tpub.isEmpty
      else h.get F.SC_STATE_STATE != 0 && h.opKey 1 == 0) then Rc.CFG_TB_HOOP
  else if h.tGet t F.TB_ACT_BUDGET < Tim.actDecl b then Rc.CFG_TB_BUDGET
  else 0

/-- The signature of an image (R245, Table 14-6). -/
def tSigned (h : Hw) (b : List Byte) : Bool :=
  let body := b.take (b.length - 96)
  let sig := b.drop (b.length - 96)
  if Tim.cls b == 1 then h.get F.SC_STATE_STATE == 0 || Config.signedUnder (h.opKey 1) body sig
  else Config.ecdsaOk (Tab.getD h.keys (Tim.hoop b) {}).tpub (Config.sha384 body) sig

/-- A write of TB_CTRL or GT_CTRL. -/
def writeTbCtrl (h : Hw) (m : Mem) (t v : Nat) : Hw :=
  let st := h.tState t
  let on := h.tOn t F.TB_CTRL_ENABLE
  if !h.tExists t then h
  else
    let h :=
      if !on && bit 0 v then
        let code := h.tCheck m t
        if code != 0 then h.tRefuse t code
        else
          let addr := h.tGet t F.TB_IMAGE_ADDR * 64
          let b := h.physBytes m 0 addr (Tim.size (h.physBytes m 0 addr 256))
          let due := h.after (ceilDiv b.length 16 + 49500)
          let h := ((h.tPut t F.TB_CTRL_ENABLE 1).setTState t tLoading).tPut t F.TB_STATUS_UNCORR 0
          let h := (h.tPut t F.TB_TOGGLES_COUNT 0).tPut t F.TB_CORR_COUNT 0
          h.onTam t (fun _ => { image := b, signed := h.tSigned b, loadDue := some due })
      else if on && !bit 0 v then
        let h := h.tPut t F.TB_CTRL_ENABLE 0
        if st == tLoading || st == tLoaded then h.startClearing t else h
      else h
    let h := if bit 1 v then (if (st == tLoaded || st == tHeld) && !(st == tHeld && h.tOn t F.TB_STATUS_UNCORR) then h.tPut t F.TB_CTRL_RELEASE 1
      else h.tRefuse t Rc.CFG_CONFLICT) else h
    if bit 2 v then (if st == tRunning || st == tHeld then h.tPut t F.TB_CTRL_STOP 1 else h.tRefuse t Rc.CFG_CONFLICT) else h

/-- A write of TB_IMAGE: refused outside EMPTY. `hi` is the high word. -/
def writeTbImage (h : Hw) (t : Nat) (hi : Bool) (v : Nat) : Hw :=
  let r := (tField t F.TB_IMAGE_ADDR).1.reg
  let i := (tField t F.TB_IMAGE_ADDR).2
  if h.tState t != tEmpty then h.tRefuse t Rc.CFG_CONFLICT
  else h.wr r i (if hi then putBits 32 32 v (h.rd r i) else putBits 0 32 (v / 64 * 64) (h.rd r i))

/-- A write of TB_ACT. -/
def writeTbAct (h : Hw) (t v : Nat) : Hw :=
  if h.tGet t F.TB_ACT_CEILING < v % 65536 then h.tRefuse t Rc.CFG_RANGE else h.tPut t F.TB_ACT_BUDGET (v % 65536)

/-- TAMBOUR_LOAD_DONE: LOADED where the signature verifies, else cleared. -/
def tLoadDone (h : Hw) (t : Nat) : Hw :=
  match (h.tam t).loadDue with
  | none => h
  | some due =>
    let k := h.tam t
    let b := k.image
    let h := h.elapse due
    if !k.signed then ((h.tPut t F.TB_CTRL_ENABLE 0).startClearing t).tRefuse t Rc.CFG_TB_SIGNATURE
    else
      let h := (h.setTState t tLoaded).onTam t (fun k => { image := k.image.take (k.image.length - 96) })
      let id := Tim.hoop b + Tim.cls b * 4096 + (Nat.log2 (Tim.fdiv b) - 3) * 8192
      let h := h.wr (if t == gatherTambour then .GT_ID else .TB_ID) (if t == gatherTambour then 0 else t) id
      (List.range 16).foldl (fun h f =>
        let v := leAt (80 + 8 * f) 2 b % 1024 + leAt (82 + 8 * f) 1 b % 8 * 1024
        if t == gatherTambour then h.wr .GT_FN f v else h.wr .TB_FN (sub t 16 f) v) h

/-- TAMBOUR_CLEAR_DONE. -/
def tClearDone (h : Hw) (t : Nat) : Hw :=
  match (h.tam t).clearDue with
  | none => h
  | some due => ((h.elapse due).setTState t tEmpty).onTam t (fun _ => {})

/-! Run starts and sequences (R247 to R249). -/

/-- What a tambour does at a run start. -/
def tRunStart (h : Hw) (t : Nat) : Hw :=
  let st := h.tState t
  let fresh (h : Hw) (seq : Bool) : Hw := h.onTam t (fun k =>
    { image := k.image, frame := k.frame, popFrom := h.fclk t 48, nextMove := h.fclk t 48, seqDue := if seq then some (h.fclk t 48) else none })
  if (st == tRunning || st == tHeld) && (h.tOn t F.TB_CTRL_STOP || !h.tOn t F.TB_CTRL_ENABLE) then
    fresh ((h.setTState t tStopping).tPut t F.TB_CTRL_STOP 0) true
  else if (st == tLoaded || (st == tHeld && !h.tOn t F.TB_STATUS_UNCORR)) && h.tOn t F.TB_CTRL_RELEASE then
    fresh (((h.setTState t tReleasing).tPut t F.TB_CTRL_RELEASE 0).tPut t F.TB_ACTMAX_MAX 0) true
  else if st == tReleasing || st == tRunning || st == tStopping then fresh h true
  else h

/-- TAMBOUR_SEQUENCE_END: FCLK cycle 48 of a sequence of Table 9-7. -/
def tSequenceEnd (h : Hw) (t : Nat) : Hw :=
  match (h.tam t).seqDue with
  | none => h
  | some due =>
    let h := (h.elapse due).onTam t (fun k => { k with seqDue := none })
    if h.tState t == tReleasing then h.setTState t tRunning
    else if h.tState t == tStopping then (if h.tOn t F.TB_CTRL_ENABLE then h.setTState t tLoaded else h.startClearing t)
    else h

/-- A tambour reset: CLEARING at once, with the abort of a run that it serves (R394, Table 15-3). -/
def tReset (h : Hw) (t : Nat) : Hw :=
  if !h.tExists t || h.tState t == tEmpty || h.tState t == tClearing then h
  else
    let src := { h.tSrc t with unit := 0xE7 }
    let h := if src.inRun then h.raise Rc.PWR_UNIT_RESET src else h
    (((h.tPut t F.TB_CTRL_ENABLE 0).tPut t F.TB_CTRL_RELEASE 0).tPut t F.TB_CTRL_STOP 0).startClearing t

/-! The core boundary (R236 to R239). -/

/-- A core tambour's function is FIXED, and its latency. -/
def tFixed (h : Hw) (t f : Nat) : Bool := h.tFn t F.TB_FN_FIXED f == 1

def tLatency (h : Hw) (t f : Nat) : Nat := h.tFn t F.TB_FN_LATENCY f

/-- Root ticks of a chunk time: d/8 cycles. -/
def chunkTime (h : Hw) (t : Nat) : Nat := h.tDiv t / 8 * 4

/-- The tambour has been used in this run. -/
def tUse (h : Hw) (t : Nat) : Hw := h.onTam t (fun k => { k with used := some h.runNumber })

/-- TAMBOUR_INPUT_POP of a core: the chunk at T0's front goes to the logic; a FIXED function then owes an output. The gather tambour takes
the payload at the front of its L_IN buffer. -/
def tInputPop (h : Hw) (t : Nat) : Hw :=
  let k := h.tam t
  let h' := h.elapse (max k.popFrom k.nextMove)
  if h.ab.on || h.tState t != tRunning then h
  else if t == gatherTambour then
    match k.lin with
    | [] => h
    | _ :: rest => (h'.onTam t (fun k => { k with lin := rest, nextMove := h'.ticks + 2 * h'.chunkTime t })).tUse t
  else match h.queue t 8 with
    | [] => h
    | x :: rest =>
      if k.owed.length ≥ 512 then h
      else
        let f := x.fmt
        let h := (h'.setQueue t 8 rest).tUse t
        h.onTam t (fun k => { k with
          nextMove := h.ticks + h.chunkTime t,
          owed := if h.tFixed t f then k.owed ++ [{ due := h.cycleTick + 4 * h.tLatency t f }] else k.owed })

end Hw

/-! Outputs. -/

/-- A pooled row of a bag is complete: it is written as the bag's row (R194, R242). -/
def poolDone (core b bag : Nat) (row : List Byte) (w : Work) : Work :=
  match (w.hw.slotOrder core b).find? (fun p => p.2.gather.pooling.contains bag) with
  | none => w
  | some (s, x) =>
    let p := slotGpb w core x
    let vals := (List.range (Gpb.elems p)).map (fun i => leAt (4 * i) 4 row)
    let w := writeBag core x.desc bag vals w
    w.onHw (fun h => h.onSlot core b s (fun x => { x with gather := { x.gather with
      pooling := x.gather.pooling.filter (· != bag),
      nonfinite := if nonFinite vals then Tab.insert x.gather.nonfinite bag 1 else x.gather.nonfinite } }))

/-- An output that is due leaves the release buffer: to T1 where it has a place, or into the row of its bag. -/
def pushOwed (t : Nat) (o : Owed) (x : Chunk) (w : Work) : Work :=
  let w := w.onHw (fun h => h.onTam t (fun k => { k with owed := k.owed.drop 1, early := k.early.drop 1 }))
  if t == gatherTambour then
    let row := (w.hw.tam t).row ++ x.bytes
    if o.last then poolDone (o.tag % 32) (o.tag / 32 % 8) (o.tag / 256) row (w.onHw (fun h => h.onTam t (fun k => { k with row := [] })))
    else w.onHw (fun h => h.onTam t (fun k => { k with row := row }))
  else w.onHw (fun h => h.push t 9 x)

/-- TAMBOUR_OUTPUT_DUE: the oldest output owed is pushed in its due cycle, waits for a place of T1, or is late (R238, R242). -/
def outputDue (t : Nat) (w : Work) : Work :=
  if w.hw.ab.on then w
  else match (w.hw.tam t).owed with
    | [] => w
    | o :: _ =>
      let w := w.onHw (fun h => h.elapse o.due)
      match (w.hw.tam t).early with
      | [] => w.onHw (fun h => (h.onTam t (fun k => { k with owed := k.owed.drop 1 })).raise Rc.TBR_LATE (h.tSrc t))
      | (_, x) :: _ => if t == gatherTambour || w.hw.queueRoom t 9 then pushOwed t o x w else w

/-- TAMBOUR_OUTPUT_DELIVER: the logic offers a chunk, or a payload on L_OUT. A chunk of a FIXED function is held until due; one that nothing
owes, or that names another bag than the one owed, is discarded with TBR_PROTOCOL; a FREE function's goes to T1 where there is a place. `tag` is
core + 32 × bobbin + 256 × bag on G_OUT, and port + 32 × lane + 128 × slot + 4,096 × stream on L_OUT. -/
def outputDeliver (t : Nat) (lout : Bool) (tag kind : Nat) (data : List Byte) (w : Work) : Work :=
  let h := w.hw
  let k := h.tam t
  let x : Chunk := { kind := kind, bytes := data }
  let free := (List.range 16).any (fun f => h.tFn t F.TB_FN_DEFINED f == 1 && !h.tFixed t f)
  if h.tState t != Hw.tRunning || h.ab.on then w
  else if lout then
    if t != gatherTambour then w
    else w.onHw (fun h => (h.onTam t (fun k => { k with lout := k.lout ++
      [{ port := tag % 32, lane := tag / 32 % 4, slot := tag / 128 % 32, typ := 1, stream := tag / 4096, len := data.length, data := sliceBytes 0 512 data }] })).tUse t)
  else match k.owed[k.early.length]? with
    | some o =>
      if o.tag != tag && t == gatherTambour then w.onHw (fun h => h.raise Rc.TBR_PROTOCOL (h.tSrc t))
      else w.onHw (fun h => h.onTam t (fun k => { k with early := k.early ++ [(tag, x)] }))
    | none =>
      if free && t != gatherTambour then (if h.queueRoom t 9 then w.onHw (fun h => h.push t 9 x) else w)
      else w.onHw (fun h => h.raise Rc.TBR_PROTOCOL (h.tSrc t))

/-! The gather boundary (R241 to R244). -/

/-- The row that enters G_IN next: ascending core, then bobbin. -/
def nextPoolRow (rows : List PoolRow) : Option PoolRow :=
  rows.foldl (fun a r => match a with
    | none => some r
    | some b => if r.core < b.core || (r.core == b.core && r.bobbin < b.bobbin) then some r else a) none

/-- GATHER_POOL_INPUT: the next served row enters G_IN; after a bag's last row its pooled row becomes due. -/
def Hw.poolInput (h : Hw) : Hw :=
  let t := gatherTambour
  match nextPoolRow h.poolRows with
  | none => h
  | some r =>
    let k := h.tam t
    let n := ceilDiv r.row.length 256
    if h.tState t != Hw.tRunning || h.ab.on || k.owed.length + n > 512 then h
    else
      let h := h.elapse (max k.popFrom k.nextMove)
      let ct := h.chunkTime t
      let lastIn := h.cycleTick + ct * (n - 1)
      let tag := r.core + 32 * r.bobbin + 256 * r.bag
      let owe := if r.last then (List.range n).map (fun i =>
        ({ due := lastIn + 4 * h.tLatency t 0 + ct * i, tag := tag, last := i + 1 == n } : Owed)) else []
      let o := match (h.slotOrder r.core r.bobbin).find? (fun p => p.2.gather.pooling.contains r.bag) with
        | some p => p.2.owner
        | none => 0xFFFF
      let h := h.onTam t (fun k => { k with nextMove := h.ticks + ct * n, owed := k.owed ++ owe })
      let h := { h with poolRows := h.poolRows.erase r, energy := { h.energy with gatherChunks := Tab.modify h.energy.gatherChunks 0 o (· + n) } }
      h.tUse t

/-- GATHER_SLOT_DEADLINE: in cycle 0 of a beat, the payload of a KIND GATHER transmit entry of the next plan beat must be in the L_OUT
buffer; it becomes the slot, or the slot is sent empty with TBR_SLOT_LATE (R244). -/
def Hw.slotDeadline (h : Hw) (m : Mem) (port lane slot : Nat) : Hw :=
  let t := gatherTambour
  if !h.planned || h.ab.on || port ≥ h.build.linkports || lane ≥ 4 || slot ≥ 19 then h
  else
    let e := h.slotAt m false (h.planBeat + 1) port lane slot
    if e.kind != 3 then h
    else match (h.tam t).lout.find? (fun d => d.port == port && d.lane == lane && d.slot == slot) with
      | some d =>
        let d := { d with stream := e.stream, hoop := h.get F.GT_ID_HOOP }
        { h.onTam t (fun k => { k with lout := k.lout.filter (fun x => !(x.port == port && x.lane == lane && x.slot == slot)) }) with
          txSlots := h.txSlots ++ [d] }
      | none => h.raise Rc.TBR_SLOT_LATE { h.tSrc t with inRun := true }

/-- A received payload of KIND GATHER enters the L_IN buffer in the beat after its plan beat (R244). -/
def Hw.gatherIngress (h : Hw) (d : SlotData) : Hw :=
  let t := gatherTambour
  if h.tState t != Hw.tRunning then h.raise Rc.TBR_NOT_READY { h.tSrc t with inRun := true, hoop := d.hoop }
  else if (h.tam t).lin.length ≥ 64 then h.raise Rc.TBR_INGRESS_FULL { h.tSrc t with inRun := true, hoop := d.hoop }
  else (h.onTam t (fun k => { k with lin := k.lin ++ [d] })).tUse t

/-! The monitor and the scrubber (R251 to R254). -/

/-- The tambour is HELD: a run that has used it aborts. -/
def Hw.tHold (h : Hw) (t code : Nat) : Hw :=
  ((h.setTState t Hw.tHeld).onTam t (fun k => { k with owed := [], early := [], row := [] })).raise code (h.tSrc t)

/-- ACTIVITY_WINDOW_END: the window's count in units of 1,024 changes. -/
def Hw.windowEnd (h : Hw) (t count : Nat) : Hw :=
  if h.tState t != Hw.tRunning then h
  else
    let f := Hw.tField t F.TB_TOGGLES_COUNT
    let h := h.inc f.1 count f.2
    let h := h.tPut t F.TB_ACTMAX_MAX (max (h.tGet t F.TB_ACTMAX_MAX) (min count 65535))
    let h :=
      if t == gatherTambour then
        let cs := h.energy.gatherChunks
        let total := cs.foldl (fun a p => a + p.2) 0
        let h := if total == 0 then h.weigh Hw.overheadEntry 9 count
          else (splitEnergy (count * h.get F.EN_CAL_FJ 9) cs).foldl (fun h p => h.weighIn p.1 0 p.2) h
        { h with energy := { h.energy with gatherChunks := [] } }
      else h.weigh (h.segOf t).1 9 count
    if h.tGet t F.TB_ACT_BUDGET < count then (h.tPut t F.TB_STATUS_ACTIVITY 1).tHold t Rc.TBR_ACTIVITY_BUDGET else h

/-- CONFIG_SCRUB_FRAME: the next frame is clean, corrected or uncorrectable (0, 1, 2). -/
def Hw.scrubFrame (h : Hw) (t outcome : Nat) : Hw :=
  let st := h.tState t
  if st == Hw.tEmpty || st == Hw.tLoading || st == Hw.tClearing then h
  else
    let frames := h.tCells t * 12 / 64
    let h := h.onTam t (fun k => { k with frame := (k.frame + 1) % max 1 frames })
    let f := Hw.tField t F.TB_CORR_COUNT
    let h := if outcome == 1 then h.inc f.1 1 f.2 else h
    if outcome == 0 || st != Hw.tRunning then h
    else ((h.tPut t F.TB_STATUS_UPSET 1).tPut t F.TB_STATUS_UNCORR (flag (outcome == 2))).tHold t Rc.TBR_CONFIG_UPSET

end Sys2Proof.Machine
end

