-- ==== Sys2Proof/Machine/Link.lean ====
section
/-! DEFINITION. The link unit: ports, lanes, frames, slot checks, abort notices, slot 19, discovery and client ingress (R287 to R316, R349, R350). -/

namespace Sys2Proof.Machine

/-! Fragment classes (Table 11-8). -/

def clsHello : Nat := 0
def clsTime : Nat := 1
def clsDict : Nat := 2
def clsCpoll : Nat := 3
def clsCpollReply : Nat := 4
def clsCp : Nat := 5
def clsEpoch : Nat := 6

/-- The classes in transmit order. -/
def clsOrder : List Nat := [clsTime, clsHello, clsDict, clsEpoch, clsCpoll, clsCpollReply, clsCp]

/-- Port states (Table 11-9). -/
def lpOff : Nat := 0
def lpTrain : Nat := 1
def lpMeasure : Nat := 2
def lpStandby : Nat := 3
def lpScheduled : Nat := 4

namespace Hw

def lp (h : Hw) (p : Nat) : LinkPort := Tab.getD h.link.ports p {}

def onLink (h : Hw) (f : LinkUnit → LinkUnit) : Hw := { h with link := f h.link }

def onLp (h : Hw) (p : Nat) (f : LinkPort → LinkPort) : Hw := h.onLink (fun k => { k with ports := Tab.modify k.ports {} p f })

def onLane (h : Hw) (p l : Nat) (f : LaneRx → LaneRx) : Hw := h.onLp p (fun k => { k with lanes := k.lanes.modify l f })

def lane (h : Hw) (p l : Nat) : LaneRx := (h.lp p).lanes.getD l {}

def lpState (h : Hw) (p : Nat) : Nat := h.get F.LK_P_STATUS_STATE p

def setLpState (h : Hw) (p s : Nat) : Hw := h.put F.LK_P_STATUS_STATE s p

/-- A port that carries slot 19: STANDBY or SCHEDULED. -/
def lpLive (h : Hw) (p : Nat) : Bool := h.lpState p == lpStandby || h.lpState p == lpScheduled

/-- A link port as a source of a raise. -/
def lpSrc (p : Nat) (inRun : Bool) : Src := { unit := 0x70 + p, inRun := inRun, reason := some (F.LK_P_STATUS_REASON, p) }

def lpRefuse (h : Hw) (p code : Nat) : Hw := h.refuse code F.LK_P_STATUS_REASON p (0x70 + p)
def lkRefuse (h : Hw) (code : Nat) : Hw := h.refuse code F.LK_STATUS_REASON 0 0x82

/-- LOCK of a physical lane. -/
def setLock (h : Hw) (p l : Nat) (v : Bool) : Hw := h.put F.LK_P_STATUS_LOCK (putBits l 1 (flag v) (h.get F.LK_P_STATUS_LOCK p)) p

/-- The port is bound to a UCIe adapter: physical lane 4 is unused, and R305 to R307 do not apply (R312). -/
def ucie (h : Hw) (p : Nat) : Bool := h.on F.LK_P_CTRL_UCIE p

def physLanes (h : Hw) (p : Nat) : List Nat := List.range (if h.ucie p then 4 else 5)

/-! Lanes and the spare (R288, R306). -/

/-- The logical lane of a physical lane beside a spare. -/
def logicalLane (h : Hw) (p spare l : Nat) : Option Nat :=
  if h.ucie p then (if l < 4 then some l else none)
  else if l == spare || 5 ≤ l then none else some (if spare < l then l - 1 else l)

/-- The spare lane of the receive side for a frame of a beat. -/
def rxSpareAt (h : Hw) (p beat : Nat) : Nat :=
  match (h.lp p).rxSwitch with
  | some (l, es, _) => if es ≤ beat then l else (h.lp p).rxSpare
  | none => (h.lp p).rxSpare

/-! Egress (R300). -/

/-- A fragment or couch entry is dropped and counted. -/
def mgmtDrop (h : Hw) : Hw := h.inc F.LK_MGMT_DROP_VALUE

/-- TIME and EPOCH have 4 KiB of a port's 32 KiB queue, the other classes the rest. A fragment takes its header and data bytes. -/
def enqueue (h : Hw) (p : Nat) (f : Fragment) : Hw :=
  let timed (c : Nat) : Bool := c == clsTime || c == clsEpoch
  let held := (((h.lp p).egress.filter (fun x => timed x.cls == timed f.cls)).map (fun x => 16 + x.data.length)).foldl (· + ·) 0
  if p ≥ h.build.linkports || clsEpoch < f.cls || (if timed f.cls then 4096 else 28672) < held + 16 + f.data.length then h.mgmtDrop
  else h.onLp p (fun k => { k with egress := k.egress ++ [f] })

/-- Ports that carry slot 19. -/
def livePorts (h : Hw) : List Nat := (List.range h.build.linkports).filter h.lpLive

/-- A flooded fragment goes out on every live port but one (R301). -/
def floodOn (h : Hw) (except : Option Nat) (f : Fragment) : Hw :=
  (h.livePorts.filter (fun p => some p != except)).foldl (fun h p => h.enqueue p f) h

/-- A fragment leaves on its route, one hop, or is dropped (R302). The block itself as destination answers none. -/
def routeOn (h : Hw) (f : Fragment) : Option Hw :=
  match h.routeTo f.dst with
  | none => some ((h.setFlag F.LK_STATUS_NOROUTE).mgmtDrop.raise Rc.FAB_NO_ROUTE { unit := 0x82, reason := some (F.LK_STATUS_REASON, 0) })
  | some (some p) => some (h.enqueue p f)
  | some none => none

/-- A flooded fragment has been seen. -/
def noteSeen (h : Hw) (f : Fragment) : Hw := h.onLink (fun k => { k with seen := ((f.src, f.msgId, f.off) :: k.seen).take 256 })

/-- The fragments of a message. -/
def split (dst src cls bcast ttl msgId : Nat) (data : List Byte) : List Fragment :=
  let n := max 1 (ceilDiv data.length 336)
  (List.range n).map (fun i =>
    { dst := dst, src := src, cls := cls, flags := bcast + flag (i == 0) * 2 + flag (i + 1 == n) * 4, ttl := ttl, msgId := msgId, off := 336 * i,
      data := (data.drop (336 * i)).take 336 })

/-- The next message number. -/
def nextMsg (h : Hw) : Hw := h.onLink (fun k => { k with msgId := (k.msgId + 1) % 65536 })

/-- A message of this block to a fabric address; a message to itself reaches its own processors. -/
def sendTo (h : Hw) (dst cls : Nat) (data : List Byte) : Hw :=
  let fs := split dst (h.get F.LK_ADDR_ADDR) cls 0 255 h.link.msgId data
  (fs.foldl (fun h f => (h.routeOn f).getD h) h).nextMsg |> fun g =>
    if h.routeTo dst == some none then g.onLink (fun k => { k with inbox := k.inbox ++ [{ cls := cls, src := h.get F.LK_ADDR_ADDR, data := data }] }) else g

/-- A message of this block to every block. -/
def sendAll (h : Hw) (cls : Nat) (data : List Byte) : Hw :=
  let fs := split 0 (h.get F.LK_ADDR_ADDR) cls 1 255 h.link.msgId data
  (fs.foldl (fun h f => (h.noteSeen f).floodOn none f) h).nextMsg

/-! TIME and EPOCH messages (R40, R41, R299). -/

/-- A stretch command that is valid: target and effective beat. -/
def takeStretch (h : Hw) (target f : Nat) : Hw :=
  if f < h.time.beat then h.raise Rc.TIM_STRETCH_LATE tmSrc
  else { (h.put F.TM_STRETCH_TARGET target).put F.TM_STRETCH_PENDING 1 with time := { h.time with stretchAt := f } }

/-- A TIME message at its destination. -/
def timeMessage (h : Hw) (data : List Byte) : Hw :=
  let st := leAt 4 2 data
  if data.length != 24 || leAt 0 1 data != 1 || 256 < st then h.mgmtDrop else h.takeStretch st (leAt 8 8 data)

/-- The time master sends a stretch command, effective 64 beats after this one, and applies it itself. -/
def sendStretch (h : Hw) (target : Nat) : Hw :=
  let f := h.time.beat + 64
  (h.sendAll clsTime (leBytes 4 1 ++ leBytes 4 target ++ leBytes 8 f ++ leBytes 8 h.time.beat)).takeStretch target f

/-- The time master's Keeper floods an EPOCH message for the image it has armed. -/
def sendEpoch (h : Hw) (m : Mem) (base : Nat) : Hw :=
  h.sendAll clsEpoch (leBytes 8 (Img.epoch m base) ++ leBytes 8 (Img.startBeat m base) ++ leBytes 2 (Img.master m base) ++ leBytes 2 (Img.deputy m base) ++
    leBytes 4 0 ++ leBytes 8 h.time.beat)

/-! Discovery (R308, R309). -/

/-- The order of candidates: priority, serial, distance, port. -/
def candLess (a b : Nat × Nat × Nat × Nat) : Bool :=
  a.1 < b.1 || (a.1 == b.1 && (a.2.1 < b.2.1 || (a.2.1 == b.2.1 && (a.2.2.1 < b.2.2.1 || (a.2.2.1 == b.2.2.1 && a.2.2.2 < b.2.2.2)))))

/-- The best candidate the block knows. -/
def bestCand (h : Hw) : Nat × Nat × Nat × Nat :=
  h.link.ports.foldl (fun a p => match p.2.neighbour with
    | some n => let c := (n.bestPrio, n.bestSerial, min 255 (n.bestDist + 1), p.1); if candLess c a then c else a
    | none => a) (h.mgmt.priority, h.rd .GL_SERIAL 0, 0, 31)

/-- LK_ELECT shows the best candidate; a change starts its 1,024 beats anew. -/
def elect (h : Hw) : Hw :=
  let c := h.bestCand
  let w := c.1 % 256 + c.2.2.1 * 2 ^ 8 + c.2.2.2 * 2 ^ 16
  if w == h.rd .LK_ELECT 0 % 2 ^ 21 && c.2.1 == h.rd .LK_ELECT_SERIAL 0 then h
  else ((h.wr .LK_ELECT 0 w).wr .LK_ELECT_SERIAL 0 c.2.1).onLink (fun k => { k with electAt := h.time.beat })

/-- The body of a HELLO on a port (Table 11-11). -/
def helloBody (h : Hw) (p : Nat) : List Byte :=
  let c := h.bestCand
  leBytes 8 (h.rd .GL_SERIAL 0) ++ leBytes 8 (h.rd .GL_PARAMS 0) ++ leBytes 2 (h.get F.LK_ADDR_ADDR) ++
    leBytes 1 (h.get F.LK_ADDR_ASSIGNED + 2 * h.tmState) ++ leBytes 1 p ++ leBytes 1 h.mgmt.priority ++ leBytes 1 c.1 ++ leBytes 1 c.2.2.1 ++ leBytes 1 0 ++
    leBytes 8 c.2.1 ++ leBytes 8 (h.rd .TM_EPOCH 0) ++ leBytes 8 0

/-- HELLO_SEND: with DISCOVER set, one HELLO on every live port, 16 beats after the last. -/
def helloSend (h : Hw) : Hw :=
  let due := match h.link.helloAt with
    | some b => b + 16 ≤ h.time.beat
    | none => true
  if !h.on F.LK_CTRL_DISCOVER || !due then h
  else
    let h := h.elect
    let h := h.livePorts.foldl (fun h p =>
      ((split 0 (h.get F.LK_ADDR_ADDR) clsHello 0 1 h.link.msgId (h.helloBody p)).foldl (fun h f => h.enqueue p f) h).nextMsg) h
    h.onLink (fun k => { k with helloAt := some h.time.beat })

/-- A neighbour's HELLO on a port. -/
def helloReceive (h : Hw) (p : Nat) (d : List Byte) : Hw :=
  let n : Neighbour :=
    { serial := leAt 0 8 d, addr := leAt 16 2 d, flags := leAt 18 1 d, port := leAt 19 1 d, bestPrio := leAt 21 1 d, bestDist := leAt 22 1 d,
      bestSerial := leAt 24 8 d, heard := h.time.beat }
  if d.length != 48 then h.mgmtDrop
  else
    let h := h.onLp p (fun k => { k with neighbour := some n, downAddr := none, suspectAt := none })
    let h := h.wr .LK_P_NEIGH p n.serial
    (h.wr .LK_P_NADDR p (n.addr + n.port % 32 * 2 ^ 16 + n.flags % 2 * 2 ^ 21 + 2 ^ 22)).elect

/-- NEIGHBOUR_EXPIRY: 64 beats without a HELLO clear the record. -/
def neighbourExpiry (h : Hw) (p : Nat) : Hw :=
  match (h.lp p).neighbour with
  | none => h
  | some n =>
    if h.time.beat < n.heard + 64 then h
    else (((h.onLp p (fun k => { k with neighbour := none })).wr .LK_P_NEIGH p 0).wr .LK_P_NADDR p 0).elect

/-- ELECTION_STABLE. -/
def electionStable (h : Hw) : Hw :=
  let h := h.elect
  if h.link.electAt + 1024 ≤ h.time.beat then h.put F.LK_ELECT_STABLE 1 else h

/-! Port registers (R303, R310, R312, R313, R316). -/

/-- A write of LK_Pp_CTRL. -/
def writeLpCtrl (h : Hw) (p v : Nat) : Hw :=
  let on := h.on F.LK_P_CTRL_ENABLE p
  let u := flag (bit 1 v)
  if u != h.get F.LK_P_CTRL_UCIE p && (on || !h.on F.LK_P_CTRL_UCIE_CAP p) then h.lpRefuse p Rc.CFG_LK_UCIE
  else
    let h := h.put F.LK_P_CTRL_UCIE u p
    if !on && bit 0 v then
      if !h.on F.LK_CTRL_ENABLE then h.lpRefuse p Rc.CFG_LK_DEPENDS
      else
        let h := ((h.put F.LK_P_CTRL_ENABLE 1 p).setLpState p lpTrain).put F.LK_P_STATUS_DEGRADED 0 p
        let sp := h.get F.LK_P_LANEMAP_SPARE p
        (h.put F.LK_P_LANEMAP_SPARE_OK 1 p).onLp p (fun k => { egress := k.egress, neighbour := k.neighbour, rxSpare := sp, txSpare := sp, lastHeard := h.time.beat })
    else if on && !bit 0 v then
      let h := ((h.put F.LK_P_CTRL_ENABLE 0 p).setLpState p lpOff).put F.LK_P_STATUS_LOCK 0 p
      { (h.put F.LK_P_LANEMAP_PENDING 0 p).onLp p (fun k => { k with lanes := List.replicate 5 {}, egress := [], rxSwitch := none, txSwitch := none }) with
        switchWhole := Tab.erase h.switchWhole p }
    else h

/-- A write of LK_Pp_LANEMAP. -/
def writeLanemap (h : Hw) (p v : Nat) : Hw :=
  let s := v % 8
  if 4 < s then h.lpRefuse p Rc.CFG_RANGE
  else if h.on F.LK_P_CTRL_ENABLE p && s != h.get F.LK_P_LANEMAP_SPARE p then h.lpRefuse p Rc.CFG_CONFLICT
  else h.put F.LK_P_LANEMAP_SPARE s p

/-- A write of LK_GRT (index below 256) or LK_MRT. -/
def writeRoute (h : Hw) (i v : Nat) : Hw :=
  let w := v % 32 + flag (bit 7 v) * 128
  if h.build.linkports ≤ v % 32 then h.lkRefuse Rc.CFG_LK_ROUTE
  else if h.hasPlan then { h with routeNext := Tab.insert h.routeNext i w }
  else if i < 256 then h.wr .LK_GRT i w else h.wr .LK_MRT (i - 256) w

/-- Route writes take effect at a run start. -/
def applyRoutes (h : Hw) : Hw :=
  { h.routeNext.foldl (fun h p => if p.1 < 256 then h.wr .LK_GRT p.1 p.2 else h.wr .LK_MRT (p.1 - 256) p.2) h with routeNext := [] }

/-- A write of LK_ADDR. -/
def writeLkAddr (h : Hw) (v : Nat) : Hw := if h.hasPlan then h.lkRefuse Rc.CFG_LK_ADDR else h.wr .LK_ADDR 0 (v % 2 ^ 17)

/-- A binding's word can be in force with ENABLE set. -/
def clientOk (h : Hw) (c v : Nat) : Bool :=
  let q := h.get F.LK_CLIENT_QUEUE_QUEUE c
  let scratch := match h.physLoc (h.rd .SQ_BASE q) (64 * h.sqSize q) with
    | some (.scratch _) => true
    | _ => false
  h.on F.SQ_CTRL_ENABLE q && scratch && bits 12 5 v < h.build.linkports &&
    (List.range 64).all (fun k => k == c || !h.on F.LK_CLIENT_ENABLE k || h.rd .LK_CLIENT k % 2 ^ 17 != v % 2 ^ 17)

/-- A write of LK_CLIENTc +0. -/
def writeClient (h : Hw) (c v : Nat) : Hw :=
  let w := v % 2 ^ 17 + flag (bit 31 v) * 2 ^ 31
  if bit 31 v && !h.clientOk c v then h.lkRefuse Rc.CFG_LK_CLIENT
  else
    let fresh := bit 31 v && !h.on F.LK_CLIENT_ENABLE c
    let h := h.wr .LK_CLIENT c w
    if fresh then h.wr .LK_CLIENT_TAIL c (h.rd .SQ_HEAD (h.get F.LK_CLIENT_QUEUE_QUEUE c)) else h

/-! Training (R303, R304). -/

/-- The occasion of Table 11-9 that ends TRAIN. -/
def trainDone (h : Hw) (p : Nat) : Hw :=
  if h.lpState p == lpTrain && ((h.lp p).lanes.filter (fun l => 4 ≤ l.good && h.time.beat ≤ l.last + 1)).length ≥ 4 then
    (h.setLpState p lpMeasure).onLp p (fun k => { k with measureStart := h.time.beat, lanes := k.lanes.map (fun l => { l with sum := 0, count := 0 }) })
  else h

/-- The delays of lanes, as integers over a common denominator: sum × N ÷ count. -/
def laneDelays (ls : List LaneRx) : List Int × Nat :=
  let ls := ls.filter (fun l => 0 < l.count)
  let n := ls.foldl (fun a l => a * l.count) 1
  (ls.map (fun l => l.sum * (n / l.count : Nat)), n)

/-- Every value within 4 quarter cycles of the mean; the values are 2N times the delay. -/
def within (xs : List Int) (n : Nat) : Bool :=
  let total := xs.foldl (· + ·) 0
  xs.all (fun x => ((xs.length : Int) * x - total).natAbs ≤ 8 * n * xs.length)

/-- MEASURE_END: the port delay, and STANDBY; or measurement restarts from TRAIN. At least 4 lanes must lie within one cycle of the delay;
a fifth that does not is not kept. -/
def measureEnd (h : Hw) (p : Nat) : Hw :=
  if h.lpState p != lpMeasure || h.time.beat < (h.lp p).measureStart + 256 then h
  else
    let d := laneDelays (h.lp p).lanes
    let sets := d.1 :: (List.range d.1.length).map (fun i => d.1.eraseIdx i)
    match sets.find? (fun xs => 4 ≤ xs.length && within xs d.2) with
    | none => (h.setLpState p lpTrain).onLp p (fun k => { k with lanes := k.lanes.map (fun l => { l with good := 0 }) })
    | some xs =>
      let total := xs.foldl (· + ·) 0
      let den : Int := 2 * d.2 * xs.length
      let q := total / den
      let r := 2 * (total % den)
      let up := if den < r then true else if r < den then false else Config.freeBit h.draws
      ((if r == den then h.draw else h).wr .LK_P_DELAY p (encSigned 24 (if up then q + 1 else q))).setLpState p lpStandby

/-- LINK_DOWN_TIMEOUT: four beats in a row without a valid header on any lane. -/
def linkDown (h : Hw) (p : Nat) : Hw :=
  let st := h.lpState p
  if st < lpMeasure || h.time.beat < (h.lp p).lastHeard + 4 then h
  else
    let h := ((h.setLpState p lpTrain).put F.LK_P_STATUS_LOCK 0 p).onLp p (fun k => { k with lanes := k.lanes.map (fun l => { l with good := 0 }) })
    let addr := (h.lp p).neighbour.map (·.addr)
    if st == lpScheduled then ((h.onLp p (fun k => { k with downAddr := addr, suspectAt := none })).setFlag F.LK_P_STATUS_DOWN p).raise Rc.FAB_LINK_DOWN (lpSrc p false) else h

/-- The port's delay lies within 2 cycles of the active pricking's entry. -/
def delayNear (h : Hw) (m : Mem) (p : Nat) : Bool := Img.used m h.imgBase p && delayOk h m h.imgBase p

/-- At a run start STANDBY ports that the pricking uses become SCHEDULED; at a switch-over those it does not use fall back (R303). -/
def portSchedule (h : Hw) (m : Mem) (switch : Bool) : Hw :=
  (List.range h.build.linkports).foldl (fun h p =>
    let st := h.lpState p
    if st == lpStandby && h.delayNear m p then h.setLpState p lpScheduled
    else if switch && st == lpScheduled && !Img.used m h.imgBase p then h.setLpState p lpStandby
    else h) h

/-! Lane failure (R305 to R307). -/

/-- The receiver may declare a lane failed. -/
def laneFails (h : Hw) (p l : Nat) : Bool :=
  let k := h.lane p l
  let other := (h.physLanes p).any (fun i => i != l && bit i (h.get F.LK_P_STATUS_LOCK p))
  (2 ≤ k.misses && other) || 4 ≤ (k.fails.filter (fun b => h.time.beat < b + 64)).length

/-- LANE_FAILURE: FAB_LANE_FAILED, and a switch-over where the spare is free; else the port is degraded. -/
def laneFailure (h : Hw) (m : Mem) (p l : Nat) : Hw :=
  if h.lpState p == lpOff || h.ucie p || 5 ≤ l || (h.lane p l).failed || !h.laneFails p l then h
  else
    let h := (h.onLane p l (fun k => { k with failed := true })).setFlag F.LK_P_STATUS_LANE_FAIL p
    let h := h.raise Rc.FAB_LANE_FAILED (lpSrc p false)
    let spare := h.rxSpareAt p h.time.beat == l
    if !h.on F.LK_P_LANEMAP_SPARE_OK p || h.on F.LK_P_LANEMAP_PENDING p then
      (h.put F.LK_P_STATUS_DEGRADED 1 p).raise Rc.FAB_PORT_DEGRADED (lpSrc p false)
    else if spare then h.put F.LK_P_LANEMAP_SPARE_OK 0 p
    else
      let d := (h.portDelay m p).1
      let es := h.time.beat + d + 4
      let whole := es + d + 1
      let h := ((h.put F.LK_P_LANEMAP_SPARE_OK 0 p).put F.LK_P_LANEMAP_PENDING 1 p).put F.LK_P_LANEMAP_WHOLE whole p
      let h := { h.onLp p (fun k => { k with rxSwitch := some (l, es, whole) }) with switchWhole := Tab.insert h.switchWhole p whole }
      if h.ab.on && !h.ab.abandoned && !h.ab.noReplay then h.put F.FT_REPLAY_BEAT (max (h.get F.FT_REPLAY_BEAT) whole) else h

/-- LANE_SWITCH_EFFECTIVE: from E_s the sender carries its logical lanes off the failed lane, and both ends name it the spare. -/
def laneSwitch (h : Hw) (p : Nat) : Hw :=
  let h := match (h.lp p).txSwitch with
    | some (l, es) =>
      if es ≤ h.time.beat then ((h.onLp p (fun k => { k with txSpare := l, txSwitch := none })).put F.LK_P_LANEMAP_SPARE l p).put F.LK_P_LANEMAP_SPARE_OK 0 p else h
    | none => h
  match (h.lp p).rxSwitch with
  | some (l, es, _) => if es ≤ h.time.beat then h.put F.LK_P_LANEMAP_SPARE l p else h
  | none => h

/-- The port is whole: the receive side's switch-over has ended. -/
def switchDone (h : Hw) : Hw :=
  h.switchWhole.foldl (fun h p => if h.time.beat < p.2 then h else
    { (h.put F.LK_P_LANEMAP_PENDING 0 p.1).onLp p.1 (fun k => match k.rxSwitch with
        | some (l, _, _) => { k with rxSpare := l, rxSwitch := none }
        | none => k) with switchWhole := Tab.erase h.switchWhole p.1 }) h

/-! Abort notices (R349, R350, R352). -/

/-- The notice that the block sends (Table 13-4). -/
def noticeBytes (h : Hw) : List Byte :=
  leBytes 2 h.ab.origin ++ leBytes 1 h.run.attempt ++ leBytes 1 0 ++ leBytes 4 h.run.stepId ++ leBytes 8 h.ab.f ++ leBytes 8 (h.get F.FT_REPLAY_BEAT) ++
    leBytes 2 h.ab.code ++ leBytes 6 0

/-- A notice is read. -/
def readNotice (h : Hw) (n : List Byte) : Hw :=
  let step := leAt 4 4 n
  let fb := leAt 8 8 n
  let replay := leAt 16 8 n
  let code := leAt 24 2 n
  let same := step == h.run.stepId
  if h.ab.on && same && (fb == h.ab.f || fb == h.run.f) then
    let h := { h with ab := { h.ab with maxAttempt := max h.ab.maxAttempt (leAt 2 1 n) } }
    if h.get F.FT_REPLAY_BEAT < replay && !h.ab.abandoned && !h.ab.noReplay then
      { h.put F.FT_REPLAY_BEAT replay with ab := { h.ab with origin := leAt 0 2 n, code := code } }
    else h
  else if !h.ab.on && h.run.on && 0 < h.run.attempt && same && fb == h.ab.f && h.run.f < replay then
    let h := h.beginAbort code { unit := 0x98, inRun := true }
    if h.ab.abandoned then h else h.put F.FT_REPLAY_BEAT (max (h.get F.FT_REPLAY_BEAT) replay)
  else if h.run.on && fb < h.run.f && !(same && fb == h.ab.f) then
    (h.setFlag F.FT_STATUS_LATE).logFault
      { beat := h.time.beat, code := code, unit := 0x98, attempt := 0xFF, stepId := 0, context := 0xFFFF, hoop := 0,
        origin := leAt 0 2 n, response := 4, detail := 0 }
  else h

/-! Receive checks (R294 to R296, R360). -/

/-- One past the last beat of the run in progress; in abort, of the abort. -/
def runEnd (h : Hw) : Nat :=
  if !h.ab.on then h.run.f + h.run.len else if h.ab.abandoned then h.ab.endBeat else if h.get F.FT_REPLAY_BEAT != 0 then h.get F.FT_REPLAY_BEAT else 2 ^ 64

/-- The run in progress covers a beat. -/
def runCovers (h : Hw) (b : Nat) : Bool := h.hasPlan && h.run.member && h.run.on && h.run.f ≤ b && b < h.runEnd

/-- A stream of a lost block. -/
def lostStream (h : Hw) (s : Nat) : Bool := bit (s % 32) (Tab.getD h.link.lost (s / 32) 0)

/-- The receive entry for a beat of the run; a lost stream's is EMPTY. -/
def rxEntry (h : Hw) (m : Mem) (b p l s : Nat) : SlotEntry :=
  let e := h.slotAt m true (h.run.plan + (b - h.run.f)) p l s
  if h.lostStream e.stream then { e with kind := 0 } else e

def countUncorr (h : Hw) (p : Nat) : Hw := h.inc F.LK_P_UNCORR_COUNT 1 p
def countMiss (h : Hw) (p : Nat) : Hw := h.inc F.LK_P_MISS_COUNT 1 p

end Hw

/-- A payload at a CLIENT entry (R313). -/
def clientIngress (p : Nat) (d : SlotData) (w : Work) : Work :=
  let h := w.hw
  let n := d.len / 64
  let drop (w : Work) : Work := w.onHw (fun h => h.inc F.LK_CLIENT_DROP_VALUE)
  match (List.range 64).find? (fun c => h.on F.LK_CLIENT_ENABLE c && h.get F.LK_CLIENT_STREAM c == d.stream && h.get F.LK_CLIENT_PORT c == p) with
  | none => drop w
  | some c =>
    let q := h.get F.LK_CLIENT_QUEUE_QUEUE c
    let tail := h.rd .LK_CLIENT_TAIL c
    if d.len % 64 != 0 || h.queueHoop q != some d.hoop || h.sqSize q < (tail + n + 2 ^ 32 - h.rd .SQ_DONE q) % 2 ^ 32 then drop w
    else
      let put (pa : Nat) (bs : List Byte) (w : Work) : Work := match w.hw.physLoc pa bs.length with
        | some l => farStore w d.hoop l bs
        | none => w
      let w := Work.each (List.range n) (fun i => put (h.sqEntryAddr q (tail + i)) (sliceBytes (64 * i) 64 d.data)) w
      let w := put (h.rd .SQ_TAILADDR q) (leBytes 4 (tail + n)) w
      w.onHw (fun h => h.wr .LK_CLIENT_TAIL c ((tail + n) % 2 ^ 32))

/-- The first failing row of Table 11-4 among rows 1 to 7; 0: none. -/
def slotRow (h : Hw) (e : SlotEntry) (epoch : Nat) (missed : Bool) (r : RawSlot) : Nat :=
  if missed then 1
  else if r.bad then 2
  else if r.slot.typ == 2 then 3
  else if r.slot.typ == 0 then 4
  else if e.kind == 0 then 5
  else if epoch != h.rd .TM_EPOCH 0 % 256 then 6
  else if r.slot.stream != e.stream then 7
  else 0

/-- The code of a row. -/
def slotCode (row : Nat) : Nat :=
  if row == 2 || row == 3 then Rc.DIN_LINK_UNCORRECTABLE else if row == 6 then Rc.TIM_EPOCH_MISMATCH else Rc.FAB_SLOT_MISS

/-- A slot of a logical lane for a beat of the run. -/
def checkSlot (p l s b epoch : Nat) (missed : Bool) (r : RawSlot) (w : Work) : Work :=
  let h := w.hw
  let e := h.rxEntry w.mem b p l s
  let d := r.slot
  let row := slotRow h e epoch missed r
  let uncorr := row == 2 || row == 3
  if e.kind == 0 then
    (if uncorr then w.onHw (·.countUncorr p) else if row == 1 || row == 4 then w else w.onHw (·.countMiss p))
  else if e.kind == 5 then
    (if row == 0 then clientIngress p d w else if row == 1 || row == 4 then w
     else w.onHw (fun h => (applyIf uncorr (·.countUncorr p) h).inc F.LK_CLIENT_DROP_VALUE))
  else
    let kept : SlotData :=
      if row == 0 then { d with port := p, lane := l, slot := s, kind := e.kind, unit := e.unit, sub := e.sub, forBeat := b }
      else { port := p, lane := l, slot := s, typ := if uncorr then 2 else 0, stream := e.stream, kind := e.kind, unit := e.unit, sub := e.sub, forBeat := b }
    w.onHw (fun h =>
      let h := { h with rxSlots := h.rxSlots ++ [kept] }
      let h := if row == 0 then h else if uncorr then h.countUncorr p else h.countMiss p
      let notice := row == 3 && d.len == 32 && !r.firstBad
      let h := if row == 0 || h.ab.on then h else h.raise (slotCode row) { Hw.lpSrc p true with hoop := d.hoop % 4096 }
      if notice || (row == 2 && d.typ == 2 && d.len == 32 && !r.firstBad) then h.readNotice d.data else h)

/-- A frame, or its absence, for a plan beat: checked now where the run covers the beat, held where the run has not begun. -/
def presentFrame (f : HeldFrame) (w : Work) : Work :=
  if w.hw.runCovers f.forBeat then
    Work.each (List.range 19) (fun s w =>
      let d : SlotData := { port := f.port, lane := f.lane, slot := s }
      checkSlot f.port f.lane s f.forBeat f.epoch f.missed (f.slots.getD s { bad := true, firstBad := true, slot := d }) w) w
  else if w.hw.time.beat < f.forBeat then w.onHw (fun h => h.onLink (fun k => { k with held := k.held ++ [f] }))
  else w

/-- At a run start the frames held for its first beats are checked. -/
def presentHeld (w : Work) : Work :=
  let fs := w.hw.link.held
  Work.each fs presentFrame (w.onHw (fun h => h.onLink (fun k => { k with held := [] })))

/-- A USED port that is not SCHEDULED misses every slot of the present beat that it should carry (R303). -/
def unscheduledMiss (w : Work) : Work :=
  let h := w.hw
  if !h.planned then w
  else
    let ps := (List.range h.build.linkports).filter (fun p => Img.used w.mem h.imgBase p && h.lpState p != lpScheduled)
    Work.each ps (fun p w => Work.each (List.range 4) (fun l => presentFrame { port := p, lane := l, forBeat := w.hw.time.beat, epoch := 0, missed := true, slots := [] }) w) w

/-- Row 8 of Table 11-4, on the slots of the plan beat that ends: the sink core's bound run has another hoop. They are not delivered. -/
def Hw.sinkHoops (h : Hw) (b : Nat) : Hw :=
  if h.ab.on then h
  else
    let wrong (d : SlotData) : Bool :=
      d.forBeat == b && d.typ == 1 && (d.kind == 1 || d.kind == 3) &&
        (let s := (h.core (h.physOf d.unit)).seq
         !s.bound || s.runHoop != some d.hoop)
    match h.rxSlots.find? wrong with
    | none => h
    | some d =>
      { h.raise Rc.SEC_HOOP_VIOLATION { Hw.lpSrc d.port true with hoop := d.hoop } with
        rxSlots := h.rxSlots.map (fun x => if wrong x then { x with typ := 0 } else x) }

/-! Frames (R289 to R294). -/

/-- The tag CRC of R292. -/
def crc16 (bs : List Byte) : Nat :=
  bs.foldl (fun c b => (List.range 8).foldl (fun c i => if bit 15 c != bit (7 - i) b.toNat then Nat.xor (c * 2 % 65536) 0x1021 else c * 2 % 65536) c) 0xFFFF

/-- A received slot: tag and payload, and what its check bytes say: bits 2:0 codewords corrected, bit 3 one uncorrectable, bit 4 the first
uncorrectable. -/
def rawSlot (s : Nat) (bs : List Byte) (fault : Nat) : RawSlot :=
  let typ := leAt 0 2 bs / 4096
  let len := leAt 2 2 bs % 1024
  let tagOk := crc16 (bs.take 6) == leAt 6 2 bs && typ ≤ 2 && (typ != 1 || 0 < len) && len ≤ 512
  { bad := !tagOk || bit 3 fault, firstBad := !tagOk || bit 4 fault,
    slot := { port := 0, lane := 0, slot := s, typ := if tagOk then typ else 0, stream := leAt 0 2 bs % 4096, hoop := leAt 4 2 bs % 4096, len := len,
              data := sliceBytes 8 512 bs } }

namespace Hw

/-- The local boundary tick of a beat: of the last 64, else at nominal length from the present. -/
def boundaryOf (h : Hw) (b : Nat) : Int :=
  match h.link.boundaries.find? (fun p => p.1 == b) with
  | some p => p.2
  | none => (h.time.beatStart : Int) - 1024 * ((h.time.beat : Int) - b)

/-- The beat in whose receive window a tick falls: the plan beat is the one after (R38, R294). -/
def windowBeat (h : Hw) (m : Mem) (p tick : Nat) : Option Nat :=
  let off : Int := 4 * Img.rxPhase m h.imgBase p
  let near (start : Int) : Bool := ((tick : Int) - (start + off)).natAbs ≤ 48
  if near h.time.beatStart then some (h.time.beat + 1)
  else if near (h.time.beatStart + h.beatTicks) then some (h.time.beat + 2)
  else if 0 < h.time.beat && near (h.boundaryOf (h.time.beat - 1)) then some h.time.beat
  else none

/-- A valid header on a physical lane: lock, echo, measurement, a switch request, and the end of training. -/
def takeHeader (h : Hw) (p l tick : Nat) (hd : List Byte) : Hw :=
  let beat := leAt 8 8 hd
  let own : Int := (tick : Int) - h.boundaryOf beat
  let fl := leAt 6 2 hd
  let now := h.time.beat
  let h := (h.setLock p l true).onLp p (fun k => { k with lastHeard := now })
  let measuring := h.lpState p == lpMeasure
  let h := h.onLane p l (fun k => { k with
    last := now, misses := 0, good := if k.last == now && 0 < k.good then k.good else if k.last + 1 == now then k.good + 1 else 1,
    echoBeat := beat % 2 ^ 32, echoQc := own,
    sum := if measuring then k.sum + signed 32 (leAt 20 4 hd) + own else k.sum, count := if measuring then k.count + 1 else k.count })
  let h := if bit 1 fl && (h.lp p).txSwitch.isNone && !(h.ucie p) && bits 2 3 fl < 5 && bits 2 3 fl != (h.lp p).txSpare then
      let lo := leAt 24 2 hd
      let es := now + (lo + 65536 - now % 65536) % 65536
      h.onLp p (fun k => { k with txSwitch := some (bits 2 3 fl, if es < now + 32768 then es else now) })
    else h
  h.trainDone p

end Hw

/-- FRAME_MISS: a receive window of a physical lane closes without a frame (R38, R305). -/
def frameMiss (p l : Nat) (w : Work) : Work :=
  let h := w.hw
  if h.build.linkports ≤ p || !(h.physLanes p).contains l || h.lpState p == lpOff then w
  else
    let w := w.onHw (fun h => (h.setLock p l false).onLane p l (fun k => { k with misses := k.misses + 1, good := 0 }))
    if h.lpState p != lpScheduled then w
    else match h.logicalLane p (h.rxSpareAt p h.time.beat) l with
      | none => w
      | some k => presentFrame { port := p, lane := k, forBeat := h.time.beat + 1, epoch := 0, missed := true, slots := [] } w

/-- FRAME_RECEIVE: a frame on a physical lane, its start at a root tick. `slots` are slots 0 to 19 as tag and payload, `faults` what their check
bytes say (`rawSlot`). An empty header is one that cannot be corrected. -/
def frameReceive (p l tick : Nat) (header : List Byte) (slots : List (List Byte)) (faults : List Nat) (w : Work) : Work :=
  let h := w.hw
  if h.build.linkports ≤ p || !(h.physLanes p).contains l || h.lpState p == lpOff then w
  else if header.isEmpty || 1 < leAt 0 1 header then frameMiss p l w
  else
    let w := w.onHw (fun h => (h.elapse tick).takeHeader p l tick header)
    let corr := faults.foldl (fun a f => a + f % 8) 0
    let w := w.onHw (fun h => if corr == 0 then h else h.inc F.LK_P_CORR_COUNT corr p)
    let bad19 := (slots[19]?).isSome && bit 3 (faults.getD 19 0)
    let w := if bad19 then w.onHw (·.countUncorr p) else w
    if h.lpState p != lpScheduled || leAt 0 1 header != 0 then w
    else match w.hw.logicalLane p (w.hw.rxSpareAt p (leAt 8 8 header)) l with
      | none => w
      | some k =>
        let rs := (List.range 19).map (fun s => rawSlot s (slots.getD s []) (faults.getD s 0))
        let bads := (rs.filter (·.bad)).length
        let w := if bads == 0 then w else w.onHw (fun h => h.onLane p l (fun x => { x with
          fails := (x.fails.filter (fun b => h.time.beat < b + 64)) ++ List.replicate bads h.time.beat }))
        let f (b : Nat) (missed : Bool) : HeldFrame := { port := p, lane := k, forBeat := b, epoch := leAt 1 1 header, missed := missed, slots := rs }
        match w.hw.windowBeat w.mem p tick with
        | none => presentFrame (f (h.time.beat + 1) true) w
        | some b => presentFrame (f b (w.hw.lane p l).failed) w

/-! Transmission (R289, R293, R296, R297, R300, R349). -/

namespace Hw

/-- The slots that the present beat sends, EMPTY ones left out. -/
def slotsToSend (h : Hw) (m : Mem) : List SlotData :=
  if !h.planned then []
  else
    let ps := (List.range h.build.linkports).filter (fun p => h.lpState p == lpScheduled)
    let at' (xs : List SlotData) (p l s : Nat) : Option SlotData := xs.find? (fun d => d.port == p && d.lane == l && d.slot == s)
    ps.flatMap (fun p => (List.range 4).flatMap (fun l => (List.range 19).filterMap (fun s =>
      let e := h.slotAt m false h.planBeat p l s
      let here (d : SlotData) : SlotData := { d with port := p, lane := l, slot := s, kind := 0, unit := 0, sub := 0, forBeat := 0 }
      if e.kind == 1 || e.kind == 3 then
        (if h.ab.on then some { port := p, lane := l, slot := s, typ := 2, stream := e.stream, len := 32, data := sliceBytes 0 512 h.noticeBytes }
         else (at' h.txSlots p l s).map here)
      else if e.kind == 2 && !h.lostStream e.stream then
        match at' h.rxMoving e.unit e.sub e.srcSlot with
        | none => none
        | some d => if d.typ == 1 then some (here d) else if d.typ == 2 then some (here { d with len := 0, data := sliceBytes 0 512 [] }) else none
      else none)))

/-- A frame's header without its check bytes (Table 11-2). -/
def headerBytes (h : Hw) (p l : Nat) : List Byte :=
  let st := h.lpState p
  let train := st < lpStandby
  let k := h.lane p l
  let sw := (h.lp p).rxSwitch
  let logical := (h.logicalLane p (h.lp p).txSpare l).getD 7
  leBytes 1 (flag train) ++ leBytes 1 (if train then 0 else h.rd .TM_EPOCH 0 % 256) ++ leBytes 2 (h.get F.LK_ADDR_ADDR) ++ leBytes 1 p ++ leBytes 1 (l + 8 * logical) ++
    leBytes 2 (h.get F.LK_ADDR_ASSIGNED + (match sw with | some (x, _, _) => 2 + 4 * x | none => 0) + flag (st == lpScheduled) * 32) ++
    leBytes 8 h.time.beat ++ leBytes 4 k.echoBeat ++ leBytes 4 (encSigned 32 k.echoQc) ++ leBytes 2 (match sw with | some (_, es, _) => es | none => 0)

/-- The frames of the beat that ends, on every lane of every port in service: the couch entries and fragments leave their queues. -/
def sendFrames (h : Hw) : Hw :=
  let ps := (List.range h.build.linkports).filter (fun p => h.lpState p != lpOff)
  ps.foldl (fun h p =>
    let k := h.lp p
    let live := h.lpLive p
    let q := Tab.getD h.couchOut p []
    let due := if live then (q.filter (fun e => e.frame ≤ h.time.beat)).take 32 else []
    let frags := if live then ((clsOrder.flatMap (fun c => k.egress.filter (fun f => f.cls == c))).take 4) else []
    let frames := (h.physLanes p).map (fun l =>
      let n := h.logicalLane p k.txSpare l
      ({ port := p, lane := l, header := h.headerBytes p l,
         slots := match n with | some i => h.link.txNow.filter (fun d => d.port == p && d.lane == i) | none => [],
         couch := match n with | some i => (due.drop (8 * i)).take 8 | none => [],
         fragment := match n with | some i => frags[i]? | none => none } : TxFrame))
    let left := q.filter (fun e => !due.contains e)
    let h := h.onLp p (fun k => { k with egress := k.egress.filter (fun f => !frags.contains f) })
    { h.onLink (fun u => { u with txFrames := u.txFrames ++ frames }) with couchOut := Tab.put h.couchOut [] p left }) (h.onLink (fun u => { u with txFrames := [] }))

/-! Couch entries (R297, Table 11-6). -/

/-- COUCH_ENTRY_RECEIVE: an entry without VALID is none; TTL falls by 1 at each block on the way, and one that reaches 0 is dropped. -/
def couchReceive (h : Hw) (p : Nat) (bs : List Byte) : Hw :=
  let w := leAt 12 4 bs
  let ttl := bits 25 7 w
  let e : CouchReq :=
    { dest := leAt 0 2 bs, obj := leAt 2 2 bs % 16384, value := leAt 4 4 bs, mark := leAt 8 4 bs, stream := bits 0 12 w, hoop := bits 12 12 w,
      fbeat := leAt 16 4 bs, ttl := ttl - 1 }
  if h.build.linkports ≤ p || !h.lpLive p || bs.length != 20 || !bit 24 w then h
  else if h.routeTo e.dest == some none then h.couchArrive e
  else if ttl ≤ 1 then h.mgmtDrop
  else h.couchSend e

end Hw

/-! Client polls (R314). -/

/-- A poll on a port from a fabric address. -/
def clientPoll (port source queue count index : Nat) (w : Work) : Work :=
  let h := w.hw
  let bound := (List.range 64).any (fun c => h.on F.LK_CLIENT_ENABLE c && h.get F.LK_CLIENT_PORT c == port && h.get F.LK_CLIENT_QUEUE_QUEUE c == queue)
  if !bound || count == 0 || 16 < count then w.onHw (fun h => h.inc F.LK_CLIENT_DROP_VALUE)
  else
    let recs := (List.range count).flatMap (fun i => h.physBytes w.mem ((h.queueHoop queue).getD 0) (h.sqRecordAddr queue (index + i)) 16)
    w.onHw (fun h => h.sendTo source clsCpollReply (leBytes 4 (h.rd .SQ_DONE queue) ++ leBytes 4 0 ++ recs))

/-! Fragments (R299 to R302). -/

/-- A fragment's bytes: header and data. None: no fragment, or one that breaks Table 11-7. -/
def parseFragment (bs : List Byte) : Option Fragment :=
  let n := leAt 10 2 bs
  if n == 0 || 336 < n || bs.length < 16 + n || leAt 6 1 bs == 0 then none
  else some { dst := leAt 0 2 bs, src := leAt 2 2 bs, cls := leAt 4 1 bs, flags := leAt 5 1 bs, ttl := leAt 6 1 bs, msgId := leAt 8 2 bs, off := leAt 12 4 bs,
              data := (bs.drop 16).take n }

/-- A complete message reaches the unit that serves its class. -/
def deliverMessage (port src cls : Nat) (data : List Byte) (w : Work) : Work :=
  if cls == clsTime then w.onHw (·.timeMessage data)
  else if cls == clsEpoch && data.length != 32 then w.onHw (·.mgmtDrop)
  else if cls == clsCpoll then
    (if data.length == 8 then clientPoll port src (leAt 0 2 data) (leAt 2 2 data) (leAt 4 4 data) w else w.onHw (fun h => h.inc F.LK_CLIENT_DROP_VALUE))
  else w.onHw (fun h => h.onLink (fun k => { k with inbox := k.inbox ++ [{ cls := cls, src := src, data := data }] }))

/-- The parts of a message from its start, as far as they join. -/
def joinParts (parts : Tab (List Byte)) : List Byte :=
  parts.foldl (fun a p => if p.1 ≤ a.length then a.take p.1 ++ p.2 else a) []

/-- A fragment at its destination (R300). -/
def reassemble (port : Nat) (f : Fragment) (w : Work) : Work :=
  let first := bit 1 f.flags
  let last := bit 2 f.flags
  if first && last && f.off == 0 then deliverMessage port f.src f.cls f.data w
  else
    let rs := w.hw.link.reasm
    let here (x : Partial) : Bool := x.src == f.src && x.msgId == f.msgId
    let old := rs.find? here
    if 65536 < f.off + f.data.length || (old.isNone && 16 ≤ rs.length) then w.onHw (·.mgmtDrop)
    else
      let x : Partial := old.getD { src := f.src, msgId := f.msgId, cls := f.cls, port := port, since := w.hw.time.beat }
      let x := { x with parts := Tab.insert x.parts f.off f.data, total := if last then some (f.off + f.data.length) else x.total }
      let rest := rs.filter (fun y => !here y)
      let whole := joinParts x.parts
      if x.total == some whole.length then
        deliverMessage port x.src x.cls whole (w.onHw (fun h => h.onLink (fun k => { k with reasm := rest })))
      else w.onHw (fun h => h.onLink (fun k => { k with reasm := rest ++ [x] }))

/-- REASSEMBLY_TIMEOUT: messages incomplete after 4,096 beats are dropped. -/
def Hw.reassemblyTimeout (h : Hw) : Hw := h.onLink (fun k => { k with reasm := k.reasm.filter (fun x => h.time.beat < x.since + 4096) })

/-- FRAGMENT_RECEIVE: a fragment in slot 19 of a live port: 16 bytes of header and its data. -/
def fragmentReceive (port : Nat) (bs : List Byte) (w : Work) : Work :=
  let h := w.hw
  if h.build.linkports ≤ port || !h.lpLive port || (sliceBytes 0 16 bs).all (· == 0#8) then w
  else match parseFragment bs with
    | none => w.onHw (·.mgmtDrop)
    | some f =>
      let bcast := bit 0 f.flags
      let flooded := f.cls == clsTime || f.cls == clsEpoch || bcast
      if clsEpoch < f.cls then w.onHw (·.mgmtDrop)
      else if f.cls == clsHello then w.onHw (·.helloReceive port f.data)
      else if !h.on F.LK_ADDR_ASSIGNED && !(bcast && f.ttl == 1) then w.onHw (·.mgmtDrop)
      else if flooded then
        if h.link.seen.contains (f.src, f.msgId, f.off) then w
        else
          let w := w.onHw (·.noteSeen f)
          let w := if 1 < f.ttl then w.onHw (fun h => h.floodOn (some port) { f with ttl := f.ttl - 1 }) else w
          reassemble port f w
      else if h.routeTo f.dst == some none then reassemble port f w
      else if f.ttl ≤ 1 then w.onHw (·.mgmtDrop)
      else w.onHw (fun h => (h.routeOn { f with ttl := f.ttl - 1 }).getD h)

/-- EPOCH_NOTICE: the Keeper takes the oldest EPOCH message and compares it with its own armed image. -/
def Hw.epochNotice (h : Hw) (m : Mem) : Hw :=
  match h.link.inbox.find? (fun x => x.cls == clsEpoch) with
  | none => h
  | some x =>
    let base := h.get F.TM_PRK_SHADOW_BASE * 4096
    let ok := h.on F.TM_EPOCH_CTRL_ARM && Img.epoch m base == leAt 0 8 x.data && Img.startBeat m base == leAt 8 8 x.data && Img.master m base == leAt 16 2 x.data
    h.onLink (fun k => { k with inbox := k.inbox.erase x, epochConfirmed := some ok })

end Sys2Proof.Machine
end

