-- ==== Sys2Proof/Machine/Commit.lean ====
section
/-! DEFINITION. Step ends, commits, aborts, replays, null commits, run starts, the switch-over, and the spare core (R51, R52, R56, R144, R149,
R156, R160, R161, R198, R267, R339 to R364). -/

namespace Sys2Proof.Machine

namespace Hw

/-! The fault unit's registers. -/

def ftRefuse (h : Hw) (code : Nat) : Hw := h.refuse code F.FT_STATUS_REASON 0 0x98

/-- A write of FT_CTRL (R364, R404). -/
def writeFtCtrl (h : Hw) (v : Nat) : Hw :=
  if bits 1 3 v == 0 then h.ftRefuse Rc.CFG_RANGE
  else
    let on := h.on F.FT_CTRL_ENABLE
    let h := (h.put F.FT_CTRL_REPLAY_MAX (bits 1 3 v)).put F.FT_CTRL_AUTO_SPARE (bits 4 1 v)
    if !on && bit 0 v && !h.on F.SY_CTRL_ENABLE then h.ftRefuse Rc.CFG_FT_DEPENDS else h.put F.FT_CTRL_ENABLE (bits 0 1 v)

/-- FT_SPARE.STANDBY: the spare's units are enabled, and it is not substituted (R358). -/
def spareStandby (h : Hw) : Bool :=
  let s := h.build.cores
  h.build.spareCore == 1 && !h.on F.FT_SPARE_ACTIVE && h.on F.CR_SEQ_CTRL_ENABLE s && h.on F.CR_ARR_CTRL_ENABLE s && h.on F.CR_DRN_CTRL_ENABLE s &&
    h.on F.CR_MAC_CTRL_ENABLE s && h.on F.BB_CTRL_ENABLE s && h.on F.CR_MM_CTRL_ENABLE s

/-- A write of FT_SPARE. -/
def writeFtSpare (h : Hw) (v : Nat) : Hw :=
  let n := v % 16
  if bit 4 v && (h.build.cores ≤ n || !h.spareStandby) then h.ftRefuse Rc.CFG_FT_SPARE
  else
    let h := if h.on F.FT_SPARE_REQUEST && !bit 4 v then h else h.put F.FT_SPARE_LOGICAL n
    if bit 4 v then h.put F.FT_SPARE_REQUEST 1 else h

/-- A fault-log entry's bytes (Table 13-7). -/
def entryBytes (e : FaultEntry) : List Byte :=
  leBytes 8 e.beat ++ leBytes 2 e.code ++ leBytes 1 e.unit ++ leBytes 1 e.attempt ++ leBytes 4 e.stepId ++ leBytes 2 e.context ++ leBytes 2 (e.hoop % 4096) ++
    leBytes 2 e.origin ++ leBytes 1 e.response ++ leBytes 1 0 ++ leBytes 8 e.detail

/-- A write of FT_LOG_POP removes the oldest entry; an entry that the Keeper removes is one that it stores. -/
def popFault (h : Hw) (a : Agent) : Hw :=
  match h.faultLog with
  | [] => h
  | e :: rest =>
    { h with faultLog := rest, mgmt := if a == .keeper then { h.mgmt with faults := h.mgmt.faults ++ [e] } else h.mgmt }

/-! Core reset and admission (R362, R394). -/

/-- A core's CLEAN shows that its scrub and its zeroing have both ended. -/
def showClean (h : Hw) : Hw := h.put F.FT_SVC_CLEAN (Nat.land h.scrubbed h.zeroed)

def noteScrubbed (h : Hw) (c : Nat) : Hw := { h with scrubbed := Nat.lor h.scrubbed (2 ^ c) }.showClean
def noteZeroed (h : Hw) (c : Nat) : Hw := { h with zeroed := Nat.lor h.zeroed (2 ^ c) }.showClean

/-- ADMITTED and CLEAN of a core are cleared. -/
def unadmit (h : Hw) (c : Nat) : Hw :=
  let drop (x : Nat) : Nat := if bit c x then x - 2 ^ c else x
  ({ h with scrubbed := drop h.scrubbed, zeroed := drop h.zeroed, admitNext := drop h.admitNext }.showClean).put F.FT_SVC_ADMITTED (drop (h.get F.FT_SVC_ADMITTED))

def admitted (h : Hw) (c : Nat) : Bool := bit c (h.get F.FT_SVC_ADMITTED)

/-- Registers that a core reset returns to their reset values, with the instances each core has (Table 15-3). -/
def coreRegs : List (Reg × Nat) :=
  [(.CR_SEQ_CTRL, 1), (.CR_SEQ_STATUS, 1), (.CR_SEQ_RING_BASE, 1), (.CR_SEQ_RING_SIZE, 1), (.CR_SEQ_RING_TAIL, 1), (.CR_SEQ_RING_HEAD, 1),
   (.CR_SEQ_RING_CHEAD, 1), (.CR_SEQ_BANK, 1), (.CR_SEQ_BANK0_POS, 1), (.CR_SEQ_BANK1_POS, 1), (.CR_SEQ_HALT, 1), (.CR_SEQ_ISSUED, 1),
   (.CR_SEQ_SLACKMIN, 1), (.CR_SEQ_CT, 8), (.CR_SEQ_CM, 4), (.CR_SEQ_S, 16), (.CR_MAC_CTRL, 1), (.CR_MAC_STATUS, 1), (.CR_MAC_FAULT, 1),
   (.CR_MAC_RTM, 1), (.CR_MAC_RTN, 1), (.CR_MAC_RTK, 1), (.CR_MAC_RTB, 1), (.CR_ARR_CTRL, 1), (.CR_ARR_STATUS, 1), (.CR_ARR_SPARE, 1),
   (.CR_ARR_DUMMY, 1), (.CR_ARR_FAULT, 1), (.CR_ARR_TREE, 1), (.CR_ARR_PASSES, 1), (.CR_ARR_STOPMAX, 1), (.CR_DRN_CTRL, 1), (.CR_DRN_STATUS, 1),
   (.CR_DRN_CLIPS, 1), (.CR_DRN_NONFIN, 1), (.CR_DRN_SAT, 1), (.BB_CTRL, 1), (.BB_STATUS, 1), (.BB_FAULT, 1), (.BB_GRANT, 1), (.BB_LAPSED, 1),
   (.BB_GSKIP, 1), (.BB_GOVF, 1), (.BB_DESC, 8), (.BB_ATOMS, 8), (.BB_UNITS, 8), (.BB_DISCARD, 8)]

/-- Those registers of a core at their reset values. -/
def clearCoreRegs (h : Hw) (c : Nat) : Hw :=
  { h with ctl := h.ctl.filter (fun p => !(coreRegs.any (fun r => p.1 % 512 == r.1.ctorIdx && p.1 / 512 / r.2 == c))) }

/-- A core reset: a stop with its shadow lines discarded; the units of Table 15-3 return to their reset state; a run that the core is bound
to aborts with PWR_UNIT_RESET. -/
def resetCore (h : Hw) (c : Nat) (hold : Bool) : Hw :=
  if h.physCores ≤ c then h
  else
    let bound := (h.core c).seq.bound
    let h := if bound then h.raise Rc.PWR_UNIT_RESET { h.coreSrc c 0xA0 none with unit := 0xE7, inRun := true } else h
    let h := (h.unadmit c).clearCoreRegs c
    let h := h.onCore c (fun k => { inReset := hold, debugHalt := k.debugHalt })
    { h with txns := h.txns.map (fun (t : PortTxn) => if t.core == c then { t with alloc := false } else t), poolRows := h.poolRows.filter (fun r => r.core != c) }

/-- A write of DP_COVERn with its admission (R321, R362, R380). -/
def writeCover (h : Hw) (n v : Nat) : Hw :=
  let c := if n < h.build.cores then h.physOf n else n
  let h := h.wr .DP_COVER c v
  if h.admitted c || h.physCores ≤ c then h
  else if !bit c (h.get F.FT_SVC_CLEAN) then h.refuse Rc.CFG_FT_UNCLEAN F.FT_STATUS_REASON 0 0x93
  else if h.d3Entered then h.refuse Rc.SEC_DEBUG_STATE F.FT_STATUS_REASON 0 0x93
  else { h with admitNext := Nat.lor h.admitNext (2 ^ c) }

/-- At a run start cores in waiting are admitted with the current epoch's stamp, and a core that is not admitted is held in reset. -/
def settleAdmissions (h : Hw) : Hw :=
  let h := (List.range h.physCores).foldl (fun h c =>
    if bit c h.admitNext then ((h.wr .FT_STAMP c (h.rd .TM_EPOCH 0)).put F.FT_SVC_ADMITTED (Nat.lor (h.get F.FT_SVC_ADMITTED) (2 ^ c))).onCore c
        (fun k => { k with inReset := false })
    else if h.admitted c || (h.core c).inReset then h
    else h.resetCore c true) h
  { h with admitNext := 0 }

/-! The last cycle of a run (R144, R149, R156, R198, R267). -/

/-- The instruction at HEAD belongs to the run that ends. -/
def unissued (h : Hw) (m : Mem) (c : Nat) : Bool :=
  let s := h.seq c
  match h.publishedWord m c (h.head c) with
  | none => false
  | some w =>
    if s.bound then !isNewstep w || h.binding c
    else isNewstep w && ifld w 16 0 8 == h.rd .TM_EPOCH 0 % 256 && s.boundRun < h.runNumber && h.ctxState (ifld w 8 0 14) != 0

/-- An issued operation is in flight. -/
def inFlight (h : Hw) (c : Nat) : Bool :=
  let k := h.core c
  !k.drn.isEmpty || !k.vec.isEmpty || k.mac.isSome || !k.arr.passes.isEmpty

/-- A data queue or a descriptor queue holds an entry. -/
def queueLeft (h : Hw) (c : Nat) : Bool :=
  (h.core c).queues.any (fun q => q.1 < 0x10 && !q.2.isEmpty) || (h.core c).descs.any (fun q => !q.2.isEmpty)

/-- The checks of one core. -/
def stepEndCore (h : Hw) (m : Mem) (c : Nat) : Hw :=
  if h.get F.CR_SEQ_STATUS_STATE c != 1 then h
  else if h.unissued m c || (h.seq c).bound && h.inFlight c then
    (h.setFlag F.CR_SEQ_STATUS_LATE c).raise Rc.TIM_LATE_ISSUE { h.coreSrc c 0xA0 (some F.CR_SEQ_STATUS_REASON) with inRun := true }
  else if !(h.seq c).bound then h
  else if !(h.seq c).loops.isEmpty then h.haltAt c 0 Rc.PRG_LOOP_NEST
  else if h.queueLeft c then h.haltAt c 0 Rc.PRG_QUEUE_MISMATCH
  else match h.bobbinLeft c with
    | some (b, s) => h.bbFault c b s 0 0 Rc.RES_BOBBIN_STEP_END
    | none => h

/-- STEP_END_CHECK. -/
def stepEnd (h : Hw) (m : Mem) : Hw :=
  if !h.run.on || h.ab.on || h.run.reserve || h.time.beat + 1 != h.run.f + h.run.len then h
  else
    let h := h.elapse h.lastCycle
    let h := (h.cores.map (·.1)).foldl (fun h c => h.stepEndCore m c) h
    if h.couchPending.isEmpty then h else (h.setFlag F.SY_USTATUS_ORPHAN).raise Rc.SYN_COUCH_ORPHAN h.sySrc

/-! The abort (R344, R161, R358). -/

/-- Banks to hold the block of a position and the block that follows it. -/
def holdBlocks (h : Hw) (c p : Nat) : Hw :=
  let one (h : Hw) (k pos n : Nat) : Hw :=
    if h.bankPos c k == pos && (h.bankValid c k || (Tab.find? (h.seq c).loadDue k).isSome) then h else h.startLoad c k pos true (h.after n)
  one (one h (bankOf p) (blockStart p) 154) (1 - bankOf p) ((blockStart p + 1024) % 2 ^ 32) 309

/-- A core's sequencer at an abort: queues, loops, checkpoint, HEAD, and the reload of both banks (R161). -/
def abortSeq (h : Hw) (c : Nat) : Hw :=
  if h.get F.CR_SEQ_STATUS_STATE c == 0 || (!(h.seq c).bound && h.get F.CR_SEQ_STATUS_STATE c == 2) then h
  else
    let cp := (h.seq c).checkpoint
    let chead := h.get F.CR_SEQ_RING_CHEAD_POS c
    let h := h.emptyQueues c
    let h := (List.range 16).foldl (fun h i => h.wr .CR_SEQ_S (sub c 16 i) (cp.s.getD i 0)) h
    let h := (List.range 8).foldl (fun h i => h.wr .CR_SEQ_CT (sub c 8 i) (cp.ct.getD i 0)) h
    let h := h.onSeq c (fun s => { s with
      loops := [], sldPending := [], sel := cp.sel, cm := cp.cm, skip := .none, bound := false, boundRun := h.runNumber - 1, seg := none, runHoop := none,
      copies := [], bindPos := none, lastBank := none, restart := h.get F.CR_SEQ_STATUS_STATE c == 2 })
    let h := h.put F.CR_SEQ_RING_HEAD_POS chead c
    let k := bankOf chead
    (h.startLoad c k (blockStart chead) true (h.after 154)).startLoad c (1 - k) ((blockStart chead + 1024) % 2 ^ 32) true (h.after 309)

/-- A core's units at an abort. -/
def abortCore (h : Hw) (c : Nat) : Hw :=
  let h := h.abortSeq c
  let a := h.arr c
  let h := if a.passes.isEmpty && a.loads.isEmpty then h else h.stopArray c true true
  h.abortBobbins c

/-- A substitution is due at this abort (R358). -/
def spareDecision (h : Hw) : Hw :=
  if !h.spareStandby then h
  else if h.on F.FT_SPARE_REQUEST then { h with spare := { h.spare with pendingFor := some (h.get F.FT_SPARE_LOGICAL) } }
  else if h.on F.FT_CTRL_AUTO_SPARE && 2 ≤ h.ab.coreFaults then { h with spare := { h.spare with pendingFor := h.ab.coreFault } }
  else h

/-- What the units discard and restore in the abort cycle (Table 13-3). -/
def settleAbort (h : Hw) : Hw :=
  if !h.ab.fresh then h
  else
    let h := { h with ab := { h.ab with fresh := false } }
    let h := (h.cores.map (·.1)).foldl abortCore h
    let h := ((h.syncAbort.dropPending).energyAbort).spareDecision
    { h with poolRows := [], combineSent := [], txSlots := [] }

/-- ABORT_FLUSH: once the passes have ended, SEALED lines become EMPTY (R345). -/
def abortFlush (h : Hw) (c : Nat) : Hw :=
  if !h.ab.on || (h.arr c).passes.any (·.started.isSome) then h else h.flushSealed c

/-- REPLAY_READY: the passes in flight have ended and the lines are flushed; the replay starts no earlier than the next beat boundary
(R348, R350). -/
def replayReady (h : Hw) : Hw :=
  if !h.ab.on || h.on F.FT_STATUS_READY then h
  else
    let beats := ceilDiv (h.ab.readyTick - h.time.beatStart) h.beatTicks
    let h := h.elapse h.ab.readyTick
    let h := (h.cores.map (·.1)).foldl (fun h c =>
      ((((h.onArr c (fun a => { a with passes := if a.discard then [] else a.passes })).arrStopped c).flushSealed c).quietBobbins c true)) h
    let h := h.put F.FT_STATUS_READY 1
    if h.ab.abandoned || h.ab.noReplay then h else h.put F.FT_REPLAY_BEAT (max (h.get F.FT_REPLAY_BEAT) (h.time.beat + beats))

end Hw

/-! Commits (R16, R343, R356). -/

/-- The contexts of segments, and of the abandoned run's segments that were not issued, count as completed; those whose last segment has
completed become DONE. `status`: the code that a context with STATUS 0 takes. -/
def completeSegments (segs : List Nat) (status : Nat) (w : Work) : Work :=
  let h := w.hw
  let h := segs.foldl (fun h x => h.onSub (fun s => { s with segs := tally s.segs x })) h
  let h := if status == 0 then h else segs.eraseDups.foldl (fun h x =>
    if h.get F.CTX_ENERGY_STATUS x == 0 && h.ctxState x != 0 then h.put F.CTX_ENERGY_STATUS status x else h) h
  let done := segs.eraseDups.filter (fun x => h.get F.DP_CTXPROG_SEGS_TOTAL x ≤ Tab.getD h.submit.segs x 0 &&
    (h.ctxState x == 2 || (status != 0 && h.ctxState x == 1)))
  let h := done.foldl (fun h x =>
    let h := (h.setCtxState x 3).onEnergy (fun e => { e with
      ended := Tab.insert e.ended x h.time.beat, commitPeriod := Tab.insert e.commitPeriod x (h.time.beat / 64) })
    if (Tab.find? h.debugged x).isSome then { h.put F.CTX_STATE_DEBUGGED 1 x with debugged := Tab.erase h.debugged x } else h) h
  { w with hw := h }

/-- Contexts that a commit makes DONE. -/
def newlyDone (h : Hw) : List Nat := (h.ctxNext.filter (fun p => p.2 == 3)).map (·.1)

/-- CHEAD, and the checkpoint of the scalar state (R160). -/
def Hw.checkpointCore (h : Hw) (c : Nat) : Hw :=
  if !(h.seq c).bound then h
  else
    let h := ((h.seq c).sldPending).foldl (fun h x => h.setS c x.1 x.2.1) h
    let cp : Checkpoint :=
      { s := (List.range 16).map (fun i => h.sReg c i), ct := (List.range 8).map (fun i => h.ctReg c i), sel := (h.seq c).sel, cm := (h.seq c).cm }
    (h.put F.CR_SEQ_RING_CHEAD_POS (h.head c) c).onSeq c (fun s => { s with
      checkpoint := cp, sldPending := [], bound := false, bindPos := none, seg := none, runHoop := none, segs := [] })

/-- What both kinds of commit do at their end: records, then held hoop, window and key writes. -/
def finishCommit (w : Work) : Work :=
  let w := w.onHw (fun h =>
    let h := (h.cores.map (·.1)).foldl (fun h c => h.commitBobbins c) h
    let h := h.energyCommit
    { (h.put F.FT_STATUS_STATE 0).wr .FT_ATTEMPT 0 0 with combineSent := [], run := { h.run with attempt := 0 } })
  let done := newlyDone w.hw
  let conts := done.filter (fun x => w.hw.on F.CTX_STATE_CONTINUATION x && !w.hw.on F.CTX_STATE_ARMATURE x)
  (publishRecords conts (done.foldl (fun w x => finishContext x w) w)).onHw (·.applyHoops)

/-- The commit of a fault-free run (Table 13-2). -/
def commitRun (w : Work) : Work :=
  let segs := w.hw.cores.flatMap (fun p => if p.2.seq.bound then p.2.seq.segs else [])
  let w := completeSegments segs 0 w
  let w := w.onHw (fun h => (h.swapRegions.applyCt).rebase)
  let w := w.onHw (fun h => (h.cores.map (·.1)).foldl Hw.checkpointCore h)
  finishCommit w

/-- A run that has not aborted is cut at the switch-over: its units end as at an abort, at once, and the banks keep what they hold (R357). -/
def Hw.cutRun (h : Hw) : Hw :=
  let banks (r h : Hw) (c : Nat) : Hw :=
    let h := [Reg.CR_SEQ_BANK, .CR_SEQ_BANK0_POS, .CR_SEQ_BANK1_POS].foldl (fun h x => h.wr x c (r.rd x c)) h
    h.onSeq c (fun s => { s with bank0 := (r.seq c).bank0, bank1 := (r.seq c).bank1, loadDue := (r.seq c).loadDue, badPos := (r.seq c).badPos })
  let h := if h.ab.on then h else (h.cores.map (·.1)).foldl (banks h) { h with ab := { h.ab with fresh := true } }.settleAbort
  (h.cores.map (·.1)).foldl (fun h c => (((h.onArr c (fun a => { a with passes := [] })).arrStopped c).flushSealed c).quietBobbins c true) h

/-- The contexts of a core's segments from a position up to the next NEWSTEP SEG, and the position of that SEG. The first word is the run's
own NEWSTEP SEG. -/
def scanRun (w : Work) (c : Nat) : Nat → Nat → Bool → List Nat → List Nat × Nat × Bool
  | 0, p, _, acc => (acc.reverse, p, false)
  | fuel + 1, p, first, acc =>
    match w.hw.publishedWord w.mem c p with
    | none => (acc.reverse, p, false)
    | some iw =>
      if Hw.isNewstep iw && !first then (acc.reverse, p, true)
      else scanRun w c fuel ((p + 1) % 2 ^ 32) false (if iop iw == 1 then ifld iw 8 0 14 :: acc else acc)

/-- A null commit's sequencer: on to the next NEWSTEP SEG; the answer holds the contexts of the abandoned segments (R356). -/
def nullCore (w : Work) (c : Nat) : Work × List Nat :=
  let h := w.hw
  let chead := h.get F.CR_SEQ_RING_CHEAD_POS c
  let own := match h.publishedWord w.mem c chead with
    | some iw => Hw.isNewstep iw && ifld iw 16 0 8 == h.rd .TM_EPOCH 0 % 256 && (h.seq c).boundRun < h.runNumber
    | none => false
  if !h.on F.CR_SEQ_CTRL_ENABLE c || !own then (w, [])
  else
    let r := scanRun w c (h.ringSize c / 32) chead true []
    let p := r.2.1
    let h := (h.put F.CR_SEQ_RING_HEAD_POS p c).put F.CR_SEQ_RING_CHEAD_POS p c
    let h := h.onSeq c (fun s => { s with boundRun := h.runNumber, skip := if r.2.2 then .none else .toNewstep, segs := [], lastBank := none })
    (w.onHw (fun _ => h.holdBlocks c p), r.1)

/-- A null commit (R356), with the code that its contexts take; `all`: every RUNNING context takes it and becomes DONE (R357). -/
def nullCommitWith (code : Nat) (all : Bool) (w : Work) : Work :=
  let r := (w.hw.cores.map (·.1)).foldl (fun (r : Work × List Nat) c => let x := nullCore r.1 c; (x.1, r.2 ++ x.2)) (w, [])
  let w := completeSegments r.2 code r.1
  let w := if !all then w else w.onHw (fun h =>
    let run := (h.listed .CTX_STATE).filter (fun x => h.ctxState x == 2)
    run.foldl (fun h x => ((h.put F.CTX_ENERGY_STATUS code x).setCtxState x 3).onEnergy (fun e => { e with
      ended := Tab.insert e.ended x h.time.beat, commitPeriod := Tab.insert e.commitPeriod x (h.time.beat / 64) })) h)
  let w := w.onHw (fun h => ((h.dropPending.applyCt).syncAbort).rebase)
  let w := finishCommit w
  w.onHw (fun h => { (h.put F.FT_REPLAY_BEAT 0) with ab := { f := h.ab.f } })

/-! Beats (R183, R244, R294, R410). -/

/-- Lanes in service: four of each port that is not OFF. -/
def Hw.activeLanes (h : Hw) : Nat := 4 * ((List.range h.build.linkports).filter (fun p => h.lpState p != lpOff)).length

/-- The first cycle of a beat: received slots move on, the slots to send are fixed, grants are loaded, and the beat's weights are counted. -/
def beginBeat (w : Work) : Work :=
  let w := w.onHw (fun h => { h with
    rxMoving := h.rxSlots.filter (fun d => d.forBeat + 1 == h.time.beat), rxSlots := h.rxSlots.filter (fun d => h.time.beat ≤ d.forBeat) })
  let w := w.onHw (fun h => if h.ab.on then h else (h.rxMoving.filter (fun d => d.kind == 4 && d.typ == 1)).foldl (fun h d => h.gatherIngress d) h)
  let w := w.onHwMem (fun m h => { (h.onLink (fun k => { k with txNow := h.slotsToSend m })) with txSlots := [] })
  let w := w.onHwMem (fun m h => (List.range h.physCores).foldl (fun h c => h.loadGrants m c) h)
  unscheduledMiss (w.onHwMem (fun m h => h.energyBeat m h.activeLanes))

/-! Run starts (R51, R52, R360, R362). -/

/-- What every run start does, replays included. -/
def runStart (w : Work) : Work :=
  let w := w.onHwMem (fun m h =>
    let h := (h.applyRoutes.settleAdmissions).portSchedule m false
    let h := (h.listed .FT_LOST).foldl (fun h n => h.onLink (fun k => { k with lost := Tab.put k.lost 0 n (h.rd .FT_LOST n) }))
      (h.onLink (fun k => { k with lost := [] }))
    (List.range h.physCores ++ [gatherTambour]).foldl (fun h t => h.tRunStart t) h)
  beginBeat (presentHeld w)

/-- A step entry's run begins in this beat, in its first cycle. -/
def startRun (k plan len : Nat) (reserve : Bool) (w : Work) : Work :=
  let h := w.hw
  let base := h.imgBase
  let settle := h.run.settleFault
  let w := w.onHw (fun h => { h with
    runNumber := if reserve then h.runNumber else h.runNumber + 1,
    run := { h.run with
      on := true, k := k, f := h.time.beat, len := len, plan := plan, stepId := Img.stepId w.mem base k, reserve := reserve,
      mirrored := bit 2 (Img.stepFlags w.mem base k), attempt := 0, faulted := false, settleFault := none, startTick := h.time.beatStart } })
  let w := runStart w
  match settle with
  | none => w
  | some (code, unit) => w.onHw (fun h => h.beginAbort code { unit := unit, inRun := true })

/-- The next run of the plan from a step entry on: RESERVE entries absorb the lag (R52). -/
def startNext : Nat → Nat → Work → Work
  | 0, _, w => w
  | fuel + 1, k, w =>
    let h := w.hw
    let base := h.imgBase
    let k := k % max 1 (Img.steps w.mem base)
    let len := Img.stepLen w.mem base k
    let t0 := Img.stepStart w.mem base k
    if !bit 0 (Img.stepFlags w.mem base k) then startRun k t0 len false w
    else
      let lag := h.get F.TM_LAG_LAG
      if lag < len then startRun k (t0 + lag) (len - lag) true (w.onHw (fun h => h.put F.TM_LAG_LAG 0))
      else if lag == len then startNext fuel (k + 1) (w.onHw (fun h => h.put F.TM_LAG_LAG 0))
      else startNext fuel (k + 1) (w.onHw (fun h => (h.put F.TM_LAG_LAG (lag - len)).raise Rc.TIM_RESERVE_EXHAUSTED { tmSrc with inRun := false }))

/-- Steps of the plan passed over at most in one run start. -/
def nextFuel (w : Work) : Nat := Img.steps w.mem w.hw.imgBase + w.hw.get F.TM_LAG_LAG + 2

/-- The run that follows the present one starts. -/
def startFollowing (w : Work) : Work := startNext (nextFuel w) (w.hw.run.k + 1) (w.onHw (fun h => { h with run := { h.run with on := false } }))

/-! What is due in the first cycle of a beat. -/

namespace Hw

/-- The armed image's START_BEAT has come (R55, R56). -/
def switchDueNow (h : Hw) (m : Mem) : Bool :=
  h.on F.TM_EPOCH_CTRL_ARM && Img.startBeat m (h.get F.TM_PRK_SHADOW_BASE * 4096) ≤ h.time.beat

/-- The run has ended without a fault. -/
def commitDueNow (h : Hw) : Bool := h.run.on && !h.ab.on && h.run.f + h.run.len ≤ h.time.beat

/-- The abandoned step's null commit is due (R355). -/
def nullDueNow (h : Hw) : Bool := h.run.on && h.ab.on && h.ab.abandoned && h.ab.endBeat ≤ h.time.beat

/-- The replay start has come, and the block is ready. -/
def replayDueNow (h : Hw) : Bool :=
  h.run.on && h.ab.on && !h.ab.abandoned && !h.ab.noReplay && h.on F.FT_STATUS_READY && h.get F.FT_REPLAY_BEAT != 0 && h.get F.FT_REPLAY_BEAT ≤ h.time.beat

end Hw

/-- STEP_COMMIT: the commit, then the next run's first cycle. -/
def stepCommit (w : Work) : Work := if w.hw.commitDueNow && !w.hw.switchDueNow w.mem then startFollowing (commitRun w) else w

/-- NULL_COMMIT at the end of an abandoned step (R355): the lag grows by the beats beyond the step's length. -/
def nullCommit (w : Work) : Work :=
  if !w.hw.nullDueNow || w.hw.switchDueNow w.mem then w
  else
    let late := w.hw.ab.endBeat - (w.hw.run.f + w.hw.run.len)
    startFollowing ((nullCommitWith (w.hw.get F.FT_ATTEMPT_CODE) false w).onHw (fun h => h.put F.TM_LAG_LAG (h.get F.TM_LAG_LAG + late)))

/-- REPLAY_RUN_START: the aborted run starts again at f′ as a further attempt; FAB_SLOT_MISS in a MIRRORED step raises no number
(R350, R355). -/
def replayStart (w : Work) : Work :=
  if !w.hw.replayDueNow || w.hw.switchDueNow w.mem then w
  else
    let ab := w.hw.ab
    let w := w.onHw (fun h =>
      let n := h.time.beat
      let att := if h.run.mirrored && ab.code == Rc.FAB_SLOT_MISS then ab.maxAttempt else ab.maxAttempt + 1
      let h := h.put F.TM_LAG_LAG (h.get F.TM_LAG_LAG + (n - h.run.f))
      let h := (h.put F.FT_STATUS_STATE 0).put F.FT_ATTEMPT_ATTEMPT att
      { (h.put F.FT_ATTEMPT_CODE 0).put F.FT_REPLAY_BEAT 0 with
        ab := { f := ab.f, coreFault := ab.coreFault, coreFaults := ab.coreFaults },
        run := { h.run with f := n, attempt := att, faulted := false, startTick := h.time.beatStart } })
    runStart w

/-- EPOCH_SWITCHOVER (R56, Table 2-6): what ends the old epoch, the new tables, roles and addresses, and the first run. -/
def switchover (w : Work) : Work :=
  if !w.hw.switchDueNow w.mem then w
  else
    let h := w.hw
    let w := if h.commitDueNow then commitRun w
      else if h.run.on then nullCommitWith (if h.get F.FT_ATTEMPT_CODE == 0 then Rc.TIM_RESERVE_EXHAUSTED else h.get F.FT_ATTEMPT_CODE) true (w.onHw Hw.cutRun)
      else w
    let base := h.get F.TM_PRK_SHADOW_BASE * 4096
    let w := w.onHwMem (fun m h =>
      let epoch := Img.epoch m base
      let member := h.tmInService
      let h := ((h.put F.TM_PRK_ACTIVE_BASE (base / 4096)).put F.TM_PRK_SHADOW_BASE 0).put F.TM_EPOCH_CTRL_ARM 0
      let h := ((h.wr .TM_EPOCH 0 epoch).put F.TM_LAG_LAG 0).setFlag F.TM_EPOCH_CTRL_SWITCHED
      let h := ((h.takeRole m base).put F.FT_WAVE_W (h.get F.FT_WAVE_SHADOW)).clearReg .FT_LOST
      let h := (h.applyCal).wr .LK_ADDR 0 (Img.self m base + 2 ^ 16)
      let h := (List.range h.physCores).foldl (fun h c => if h.admitted c then h.wr .FT_STAMP c epoch else h) h
      let h := { h with run := { member := member, epochStart := h.time.beat }, procs := { h.procs with lostBlocks := [], suspects := [] } }
      h.portSchedule m true)
    if w.hw.run.member then startNext (nextFuel w) 0 w else beginBeat w

/-! The spare core (R359). -/

/-- SPARE_SUBSTITUTION: once the passes of the core have ended, its memory, ring registers and settings are copied to the spare, which takes
its place. -/
def spareSubstitution (w : Work) : Work :=
  match w.hw.spare.pendingFor with
  | none => w
  | some n =>
    if !w.hw.ab.on || (w.hw.arr n).passes.any (·.started.isSome) || !w.hw.spareStandby then w
    else
      let s := w.hw.build.cores
      let w := w.write (.copy (Area.matrix n) (Area.matrix s))
      w.onHw (fun h =>
        let h := h.elapse (h.after 4096)
        let bad := (h.badWords.filter (fun p => p.1 / 2 ^ 32 == n)).map (fun p => p.1 % 2 ^ 32)
        let h := { h with badWords := bad.foldl (fun t x => Tab.insert t (wordKey s x) 1) (h.badWords.filter (fun p => p.1 / 2 ^ 32 != s)) }
        let same (h : Hw) (r : Reg) : Hw := h.wr r s (h.rd r n)
        let h := [Reg.CR_SEQ_RING_BASE, .CR_SEQ_RING_SIZE, .CR_SEQ_RING_TAIL, .CR_SEQ_RING_HEAD, .CR_SEQ_RING_CHEAD, .CR_DRN_CTRL, .BB_CTRL,
          .CR_MAC_CTRL, .DP_COVER].foldl same h
        let q := h.seq n
        let cp := q.checkpoint
        let h := (List.range 16).foldl (fun h i => h.wr .CR_SEQ_S (Hw.sub s 16 i) (cp.s.getD i 0)) h
        let h := (List.range 8).foldl (fun h i => h.wr .CR_SEQ_CT (Hw.sub s 8 i) (cp.ct.getD i 0)) h
        let h := h.onSeq s (fun _ => { checkpoint := cp, sel := cp.sel, cm := cp.cm, boundRun := q.boundRun })
        let p := h.head s
        let h := (h.startLoad s (Hw.bankOf p) (Hw.blockStart p) true (h.after 154)).startLoad s (1 - Hw.bankOf p) ((Hw.blockStart p + 1024) % 2 ^ 32) true (h.after 154)
        let h := h.put F.CR_SEQ_STATUS_STATE 1 s
        let h := ((h.put F.FT_SPARE_ACTIVE 1).put F.FT_SPARE_REPLACES n).put F.FT_SPARE_REQUEST 0
        { (h.setFlag F.FT_STATUS_SPARED).resetCore n true with spare := {} })

end Sys2Proof.Machine
end

