-- ==== Sys2Proof/Machine/Processors.lean ====
section
/-! DEFINITION. The control processors: boot, restart, progress, lead, and the messages between Keepers (R317 to R333, R335). Firmware is
outside the model; what the spec makes it do comes with commands, or is done here where the spec fixes it. -/

namespace Sys2Proof.Machine

namespace Hw

def onProcs (h : Hw) (f : Processors → Processors) : Hw := { h with procs := f h.procs }

/-- A processor: the Keeper or the Dispatcher. -/
def proc (h : Hw) (keeper : Bool) : Processor := if keeper then h.procs.keeper else h.procs.dispatcher

def onProc (h : Hw) (keeper : Bool) (f : Processor → Processor) : Hw :=
  h.onProcs (fun p => if keeper then { p with keeper := f p.keeper } else { p with dispatcher := f p.dispatcher })

def dpRefuse (h : Hw) (code : Nat) : Hw := h.refuse code F.DP_STATUS_REASON 0 0x93

/-- Root ticks of a PCLK cycle. -/
def pclkTicks (h : Hw) : Nat := if h.clocks.pclk then 4 else 44

/-- Time passes to a tick: in ACLK cycles, or counted by the plinth while ACLK is stopped (R24). -/
def passTo (h : Hw) (t : Nat) : Hw := if h.clocks.aclk then h.elapse t else h.plinthCount (ceilDiv (t - h.ticks) 44)

def held (h : Hw) (keeper : Bool) : Bool := if keeper then h.on F.DP_STATUS_HELD_K else h.on F.DP_STATUS_HELD_D

/-- A processor runs its firmware: its image is locked, it is enabled, not held, and its last restart's zeroing has ended. -/
def runs (h : Hw) (keeper : Bool) : Bool :=
  let p := h.proc keeper
  p.locked && p.running && !h.held keeper && (match p.startDue with | some t => t ≤ h.ticks | none => true)

/-! Boot (R319, R320, R377, R392). -/

def bootPhase (h : Hw) : Nat := h.get F.PL_BOOT_PHASE
def setPhase (h : Hw) (p : Nat) : Hw := h.put F.PL_BOOT_PHASE p

/-- The directory of Table 12-3 can be used. -/
def directoryOk (d : List Byte) : Bool := leAt 0 4 d == 0x4B440002 && 1 ≤ leAt 4 4 d && leAt 4 4 d ≤ 7 && 64 ≤ d.length

/-- BOOT_START: the boot ROM starts after PORZ once the fuses are sensed, and in phase ROM reads SFDP and the directory. In RETIRED it stops. -/
def bootStart (h : Hw) (sfdp : Bool) (directory : List Byte) : Hw :=
  let start := h.get F.PL_BOOT_CAUSE == 0 && !h.power.porzLow && !h.power.sleeping
  let h := match h.power.bootDue with
    | some t => if start then { (h.passTo t).setPhase 1 with power := { h.power with bootDue := none } } else h
    | none => h
  if h.bootPhase != 1 then h
  else if h.get F.SC_STATE_STATE == 3 || !sfdp || !directoryOk directory then h.setPhase 7
  else h.setPhase 2

/-- The signature of an image verifies under the key of the security state (Table 14-6). -/
def imageSigned (h : Hw) (img : List Byte) (len : Nat) : Bool :=
  knauloSigned (if h.get F.SC_STATE_STATE == 0 then 0 else 1) (img.take (64 + len)) (sliceBytes (64 + len) 96 img)

/-- An image passes every check of Table 12-4, its rollback and its signature. -/
def imageOk (h : Hw) (role : Nat) (img : List Byte) : Bool :=
  let len := leAt 16 4 img
  leAt 0 4 img == 0x464D0002 && leAt 4 2 img == 2 && leAt 6 2 img == 0 && leAt 8 1 img == role && leAt 9 3 img == 0 &&
    (if role == 0 then h.build.rollbackKeeper else h.build.rollbackDispatcher) ≤ leAt 12 4 img &&
    len % 64 == 0 && len ≤ 262144 && leAt 20 4 img < len && (sliceBytes 26 38 img).all (· == 0#8) && 64 + len + 96 ≤ img.length &&
    h.imageSigned img len

/-- A verified image in a processor's instruction memory, locked. A memory that is locked already keeps its contents (R317). -/
def lockImage (h : Hw) (keeper : Bool) (img : List Byte) : Hw :=
  h.onProc keeper (fun p => if p.locked then p else
    { p with code := (img.drop 64).take (leAt 16 4 img), locked := true, fwMajor := leAt 24 1 img, fwMinor := leAt 25 1 img, entry := leAt 20 4 img })

/-- BOOT_IMAGE_LOAD: copy A, then copy B of the role of the present phase; both rejected, the boot ends in FAILED. -/
def bootImageLoad (h : Hw) (role : Nat) (copyA copyB : List Byte) : Hw :=
  let ready := if role == 0 then h.bootPhase == 2 else role == 1 && (h.bootPhase == 3 || h.bootPhase == 4)
  if !ready then h
  else
    let h := if role == 1 then h.setPhase 4 else h
    let bad (h : Hw) : Hw := h.raise Rc.FWR_IMAGE_INVALID { unit := 0x94 }
    let take (h : Hw) (img : List Byte) : Hw :=
      let h := h.lockImage (role == 0) img
      if role == 0 then (h.setPhase 3).onProc true (fun p => { p with running := true, kicked := h.time.beat }) else h
    if h.imageOk role copyA then take h copyA
    else
      let h := bad h
      if h.imageOk role copyB then take h copyB
      else ((bad h).setPhase 7).onProc true (fun p => { p with running := false })

/-! Restart (R325, R327 to R329). -/

/-- A processor restarts: its data memory is zeroed and it starts at ENTRY; a fourth restart within 1,048,576 beats holds it. A Keeper
restart ends the sessions. -/
def restart (h : Hw) (keeper : Bool) : Hw :=
  let now := h.time.beat
  let recent := (h.proc keeper).restarts.filter (fun b => now < b + 1048576)
  let h := if keeper then { h with mgmt := { h.mgmt with sessions := [] } } else h
  let due := h.ticks + (if keeper then 8192 else 16384) * h.pclkTicks
  let h := h.onProc keeper (fun p => { p with restarts := now :: recent, kicked := now, startDue := some due, accessFault := false })
  if 3 ≤ recent.length then
    (h.setFlag (if keeper then F.DP_STATUS_HELD_K else F.DP_STATUS_HELD_D)).raise Rc.FWR_RESTART_STORM
      { unit := if keeper then 0x94 else 0x93, reason := some (F.DP_STATUS_REASON, 0) }
  else h

/-- D_RESTART: a held Dispatcher is released (R329). -/
def restartDispatcher (h : Hw) : Hw :=
  if h.held false then ((h.put F.DP_STATUS_HELD_D 0).onProc false (fun p => { p with restarts := [] })).restart false else h.restart false

/-- A restart for want of progress. -/
def stall (h : Hw) (keeper : Bool) : Hw :=
  ((h.setFlag F.DP_STATUS_STALL).raise Rc.FWR_PROGRESS_STALL { unit := if keeper then 0x94 else 0x93, reason := some (F.DP_STATUS_REASON, 0) }).restart keeper

/-- Takes have stalled: the ready list holds a queue, a context is FREE, and DP_TAKES has not changed for TAKE_BEATS beats. -/
def takeStall (h : Hw) : Bool :=
  !h.submit.ready.isEmpty && (List.range 16384).any h.ctxFree && h.procs.takesSeen == h.rd .DP_TAKES 0 &&
    h.procs.takesBeat + h.get F.DP_WDOG2_TAKE_BEATS ≤ h.time.beat

/-- WATCHDOG_EXPIRY: a processor's period has ended without a kick, or takes have stalled. -/
def watchdogExpiry (h : Hw) (keeper : Bool) : Hw :=
  let p := h.proc keeper
  let period := if keeper then h.get F.DP_WDOG_K_BEATS else h.get F.DP_WDOG_D_BEATS
  if !p.running || h.held keeper then h
  else if p.kicked + period ≤ h.time.beat || (!keeper && h.takeStall) then h.stall keeper
  else h

/-- A write of DP_KICK: each processor writes its own bit (Table 12-2). -/
def writeKick (h : Hw) (a : Agent) (v : Nat) : Hw :=
  if (bit 0 v && a == .keeper) || (bit 1 v && a == .dispatcher) then h.dpRefuse Rc.SEC_HOOP_VIOLATION
  else
    let kick (h : Hw) (keeper : Bool) : Hw := h.onProc keeper (fun p => { p with kicked := h.time.beat })
    let h := if bit 0 v then kick h false else h
    if bit 1 v then kick h true else h

/-- The progress monitor notes a change of DP_TAKES. -/
def noteTakes (h : Hw) : Hw :=
  if h.procs.takesSeen == h.rd .DP_TAKES 0 then h
  else h.onProcs (fun p => { p with takesSeen := h.rd .DP_TAKES 0, takesBeat := h.time.beat })

/-! Lead (R322). -/

/-- The lead monitor in a beat: exhaustion is raised in the first beat that has reached DP_COVERn (R322, R340). -/
def leadCheck (h : Hw) : Hw :=
  (List.range h.physCores).foldl (fun h c =>
    if !h.on F.CR_SEQ_CTRL_ENABLE c then h
    else
      let cover := h.rd .DP_COVER c
      let src : Src := { unit := 0x93, inRun := true, reason := some (F.DP_STATUS_REASON, 0) }
      let h := if cover < h.time.beat + h.get F.DP_LEAD_MIN then (h.setFlag F.DP_STATUS_LEADLOW).raise Rc.FWR_LEAD_LOW src else h
      if h.time.beat < cover then h.onProcs (fun p => { p with leadOut := p.leadOut.filter (· != c) })
      else if h.procs.leadOut.contains c then h
      else (h.onProcs (fun p => { p with leadOut := p.leadOut ++ [c] })).raise Rc.FWR_LEAD_EXHAUSTED src) h

/-! Registers (R338, R404). -/

/-- A write of DP_CTRL. -/
def writeDpCtrl (h : Hw) (v : Nat) : Hw :=
  let h :=
    if bit 0 v && !h.on F.DP_CTRL_D_ENABLE then
      if (h.proc false).locked then
        let h := (h.put F.DP_CTRL_D_ENABLE 1).onProc false (fun p => { p with running := true, kicked := h.time.beat })
        if h.bootPhase == 4 then h.setPhase 5 else h
      else h.dpRefuse Rc.CFG_DP_IMAGE
    else if bit 0 v then h
    else (h.put F.DP_CTRL_D_ENABLE 0).onProc false (fun p => { p with running := false })
  let h := if bit 1 v then h.restartDispatcher else h
  if bit 2 v then h.restart true else h

/-- A write of DP_WDOG, DP_WDOG2 or DP_LEAD. -/
def writeWdog (h : Hw) (v : Nat) : Hw :=
  if bits 0 16 v < 64 || bits 16 16 v < 64 then h.dpRefuse Rc.CFG_RANGE else h.wr .DP_WDOG 0 v

def writeLead (h : Hw) (v : Nat) : Hw := if bits 0 16 v < 5157 then h.dpRefuse Rc.CFG_RANGE else h.wr .DP_LEAD 0 (bits 0 16 v)

/-- A write of MB_n_CTRL: its other fields change only while ENABLE is 0. -/
def writeMbCtrl (h : Hw) (n v : Nat) : Hw :=
  let old := h.rd .MB_CTRL n
  let new := Nat.land v 0xFFF0003
  if bit 0 old then
    (if bit 0 new && new != old then h.dpRefuse Rc.CFG_MB_ENTRY
     else if !bit 0 new && new != old - 1 then h.dpRefuse Rc.CFG_MB_ENTRY
     else h.wr .MB_CTRL n new)
  else if bit 0 new && h.build.hoops ≤ bits 16 12 new then (h.wr .MB_CTRL n (new - 1)).dpRefuse Rc.CFG_MB_ENTRY
  else h.wr .MB_CTRL n new

/-! Messages between Keepers (R333, R335, R399). -/

/-- A CP message: its header and body. -/
def cpMessage (typ : Nat) (body : List Byte) : List Byte := leBytes 2 typ ++ leBytes 2 body.length ++ leBytes 4 0 ++ body

/-- A CP message that has come in is taken off the processors' inbox. -/
def takeMessage (h : Hw) (typ : Nat) (src : Option Nat) : Hw :=
  match h.link.inbox.find? (fun x => x.cls == clsCp && leAt 0 2 x.data == typ && (match src with | some s => x.src == s | none => true)) with
  | some x => h.onLink (fun k => { k with inbox := k.inbox.erase x })
  | none => h

def isMaster (h : Hw) : Bool := h.tmState == tmMaster

/-- The largest WANT that the master's Keeper has received in the last 256 beats, in PW_STRETCH.FABRIC. -/
def fabricWant (h : Hw) : Hw :=
  let ws := h.procs.wants.filter (fun w => h.time.beat < w.2.2 + 256)
  (h.onProcs (fun p => { p with wants := ws })).put F.PW_STRETCH_FABRIC (ws.foldl (fun a w => max a w.2.1) 0)

/-- WANT: a block's wanted stretch reaches the master's Keeper. -/
def wantReceive (h : Hw) (source amount : Nat) : Hw :=
  let h := h.takeMessage 1 (some source)
  if !h.isMaster || 256 < amount then h
  else (h.onProcs (fun p => { p with wants := p.wants ++ [(source, amount, h.time.beat)] })).fabricWant

/-- A Keeper marks a lost block's streams (R335): the stream-owner table of the active pricking names them. -/
def markLost (h : Hw) (m : Mem) (addr : Nat) : Hw :=
  if !h.hasPlan then h
  else (Img.owners m h.imgBase).foldl (fun h o =>
    if o.1 == addr && o.2 < 4096 then h.wr .FT_LOST (o.2 / 32) (Nat.lor (h.rd .FT_LOST (o.2 / 32)) (2 ^ (o.2 % 32))) else h) h

/-- LOST. -/
def lostReceive (h : Hw) (m : Mem) (addr : Nat) : Hw := (h.takeMessage 3 none).markLost m addr

/-- The master's Keeper floods LOST. -/
def floodLost (h : Hw) (addr : Nat) : Hw := h.sendAll clsCp (cpMessage 3 (leBytes 2 addr ++ leBytes 2 0 ++ leBytes 4 0))

/-- LOST_SUSPECT: the master's Keeper declares a block lost that none of its own ports hears either. -/
def suspectReceive (h : Hw) (m : Mem) (source addr : Nat) : Hw :=
  let h := h.takeMessage 2 (some source)
  if !h.isMaster then h
  else
    let h := h.onProcs (fun p => { p with suspects := (p.suspects.filter (fun x => !(x.1 == source && x.2.1 == addr))) ++ [(source, addr, h.time.beat)] })
    let heard := h.link.ports.any (fun p => match p.2.neighbour with | some n => n.addr == addr && h.time.beat < n.heard + 64 | none => false)
    if heard || h.procs.lostBlocks.any (fun x => x.1 == addr) then h
    else ((h.floodLost addr).onProcs (fun p => { p with lostBlocks := p.lostBlocks ++ [(addr, h.time.beat)] })).markLost m addr

/-- The fabric address of the time master that this block's Keeper sends to. -/
def masterAddr (h : Hw) (m : Mem) : Nat := Img.master m h.imgBase

/-- What a running Keeper sends in a beat: WANT once a telemetry period, LOST_SUSPECT for a neighbour that is gone, and on the master
LOST again every 1,024 beats. -/
def keeperBeat (h : Hw) (m : Mem) : Hw :=
  if !h.runs true || !h.on F.LK_ADDR_ASSIGNED || !h.hasPlan then h
  else
    let h := if h.time.beat % 64 != 0 then h
      else if h.isMaster then h.fabricWant
      else h.sendTo (h.masterAddr m) clsCp (cpMessage 1 (leBytes 2 (h.get F.PW_STRETCH_WANT) ++ leBytes 2 0))
    let h := h.link.ports.foldl (fun h p =>
      match p.2.downAddr, p.2.neighbour with
      | some a, none =>
        let due := match p.2.suspectAt with | some b => b + 256 ≤ h.time.beat | none => true
        if !due then h
        else (h.sendTo (if h.isMaster then h.get F.LK_ADDR_ADDR else h.masterAddr m) clsCp (cpMessage 2 (leBytes 2 a ++ leBytes 2 p.1 ++ leBytes 4 0))).onLp p.1
          (fun k => { k with suspectAt := some h.time.beat })
      | _, _ => h) h
    if !h.isMaster then h
    else h.procs.lostBlocks.foldl (fun h x =>
      if x.2 + 1024 ≤ h.time.beat then
        (h.floodLost x.1).onProcs (fun p => { p with lostBlocks := p.lostBlocks.map (fun y => if y.1 == x.1 then (y.1, h.time.beat) else y) })
      else h) h

end Hw

end Sys2Proof.Machine
end

