-- ==== Sys2Proof/Machine/Power.lean ====
section
/-! DEFINITION. Clocks, resets, power states, ramps, the plinth and the governor (R388 to R402, R406, R445 to R447). -/

namespace Sys2Proof.Machine

namespace Hw

def ckRefuse (h : Hw) (code : Nat) : Hw := h.refuse code F.CK_PLL_REASON 0 0xE7
def pwRefuse (h : Hw) (code : Nat) : Hw := h.refuse code F.PW_STATUS_REASON 0 0x96
def pwSrc : Src := { unit := 0x96, reason := some (F.PW_STATUS_REASON, 0) }

def onPower (h : Hw) (f : Power → Power) : Hw := { h with power := f h.power }
def onClocks (h : Hw) (f : Clocks → Clocks) : Hw := { h with clocks := f h.clocks }

/-! Clocks (R388 to R391). -/

/-- A domain runs from the root. -/
def onRoot (h : Hw) : Bool := h.clocks.aclk || h.clocks.pclk || h.clocks.mclk || h.clocks.switches.any (fun s => s.2.2)

/-- A write of CK_PLL. -/
def writePll (h : Hw) (v : Nat) : Hw :=
  if h.onRoot then h.ckRefuse Rc.CFG_CK_SWITCH
  else if bit 0 v then
    if h.on F.CK_PLL_START then h
    else (h.put F.CK_PLL_START 1).onClocks (fun k => { k with lockDue := some (h.ticks + 44 * 16384) })
  else ((h.put F.CK_PLL_START 0).put F.CK_PLL_LOCKED 0).onClocks (fun k => { k with lockDue := none })

/-- PLL_LOCKED: the 16,384th REFCLK cycle after START. -/
def pllLocked (h : Hw) : Hw :=
  match h.clocks.lockDue with
  | none => h
  | some t => ((h.passTo t).put F.CK_PLL_LOCKED 1).onClocks (fun k => { k with lockDue := none })

/-- The first alignment mark at or after a tick (R389). -/
def markAt (t : Nat) : Nat := ceilDiv t 352 * 352

/-- The tick of the first cycle on the new source of a switch that begins now (R390). -/
def switchTick (h : Hw) : Nat := markAt (h.ticks + 704) + 352

/-- A write of CK_DOM: the domains whose bit changes are named by it. -/
def writeDom (h : Hw) (v : Nat) : Hw :=
  let old := h.rd .CK_DOM 0
  let named := (List.range 3).filter (fun d => bit d v != bit d old)
  if named.any (fun d => bit d v) && !h.on F.CK_PLL_LOCKED then h.ckRefuse Rc.CFG_CK_UNLOCKED
  else if named.any (fun d => bit (4 + d) old) then h.ckRefuse Rc.CFG_CK_SWITCH
  else named.foldl (fun h d =>
    let w := putBits d 1 (flag (bit d v)) (putBits (4 + d) 1 1 (h.rd .CK_DOM 0))
    (h.wr .CK_DOM 0 w).onClocks (fun k => { k with switches := Tab.insert k.switches d (h.switchTick, bit d v) })) h

/-- DOMAIN_SWITCH_DONE: the domain's first cycle on its new source. -/
def switchEnd (h : Hw) (d : Nat) : Hw :=
  match Tab.find? h.clocks.switches d with
  | none => h
  | some (t, root) =>
    let h := h.passTo t
    let h := h.wr .CK_DOM 0 (putBits (4 + d) 1 0 (h.rd .CK_DOM 0))
    h.onClocks (fun k =>
      let k := { k with switches := Tab.erase k.switches d }
      if d == 0 then { k with aclk := root } else if d == 1 then { k with pclk := root } else { k with mclk := root })

/-- A write of CK_MON: the output is low from the next mark, and the new setting starts at the mark after it. -/
def writeMon (h : Hw) (v : Nat) : Hw :=
  if 7 < bits 0 4 v || 17 < bits 4 5 v || bits 16 16 v == 0 then h.ckRefuse Rc.CFG_RANGE
  else
    let new := Nat.land v 0xFFFF01FF
    (h.wr .CK_MON 0 new).onClocks (fun k => { k with mon := new, monDue := some (markAt (h.ticks + 1) + 352) })

/-! Resets (Table 15-3). -/

/-- Registers that the plinth holds: kept through a warm reset and SLEEP. -/
def plinthRegs : List Reg :=
  [.PL_WAKE_BEAT, .PL_WAKE, .PL_FRAME, .PL_FRAME_PATTERN, .PL_FRAME_MASK, .PL_THERM, .PL_TSEN, .PL_BOOT, .EN_CHAIN, .EN_COUNTER, .EN_LASTHASH]

/-- Registers whose values stand in fuses. -/
def fuseRegs : List Reg := [.SC_STATE, .SC_OPKEY, .SC_DEVPUB]

/-- The block with only these registers, its build, its clock and its fuses kept. -/
def bare (h : Hw) (regs : List Reg) : Hw :=
  let t := h.ticks - h.time.beatStart
  { build := h.build, integ := h.integ, ticks := h.ticks, draws := h.draws,
    ctl := h.ctl.filter (fun p => regs.any (fun r => r.ctorIdx == p.1 % 512)), mgmt := { certificate := h.mgmt.certificate },
    time := { beat := h.time.beat + t / 1024, plinthTicks := t % 1024, beatStart := h.ticks - t % 1024 } }

/-- The debug level that a reset brings into force: D3 in MANUFACTURE, else D0 (R381, R383). -/
def resetLevel (h : Hw) : Hw := h.wr .SC_DEBUG 0 (if h.get F.SC_STATE_STATE == 0 then 3 else 0)

/-- Everything that a warm reset resets (R393): the plinth's fabric time, comparators, chain state and fuses stay, and so does a locked
instruction memory (R317). -/
def warmReset (h : Hw) (cause : Nat) : Hw :=
  let lock (p : Processor) : Processor := { code := p.code, locked := p.locked, fwMajor := p.fwMajor, fwMinor := p.fwMinor, entry := p.entry }
  let p := h.power
  let due := if p.warmzLow then none else some (h.ticks + 1024 * 44)
  let n := h.bare (plinthRegs ++ fuseRegs)
  let n := { n with
    power := { bootDue := due, warmzLow := p.warmzLow, porzLow := p.porzLow, powerGood := p.powerGood, thermal := p.thermal },
    procs := { dispatcher := lock h.procs.dispatcher, keeper := lock h.procs.keeper },
    energy := { chainStart := h.energy.chainStart }, tap := h.tap }
  ((n.put F.PL_BOOT_PHASE 0).put F.PL_BOOT_CAUSE cause).resetLevel

/-- SLEEP: only the plinth keeps its state: fabric time, comparators, chain state, key slots and TPUB; a level D3 stays (R383). -/
def enterSleep (h : Hw) (tripped : Bool) : Hw :=
  let keepLevel := h.get F.SC_DEBUG_LEVEL == 3
  let n := h.bare (plinthRegs ++ fuseRegs ++ (if keepLevel then [.SC_DEBUG, .SC_DEBUG_END] else []))
  let n := { n with
    power := { bootDue := none, sleeping := true, tripped := tripped, warmzLow := h.power.warmzLow, powerGood := h.power.powerGood, thermal := h.power.thermal },
    keys := h.keys, energy := { chainStart := h.energy.chainStart }, tap := h.tap }
  let n := if tripped then n.put F.PL_BOOT_CAUSE 4 else n
  if keepLevel then n else n.wr .SC_DEBUG 0 0

/-- PORZ low: everything is reset; the fuses are sensed again. -/
def powerOnReset (h : Hw) (low : Bool) : Hw :=
  let state := if h.on F.SC_STATE_PENDING then h.get F.SC_STATE_NEXT else h.get F.SC_STATE_STATE
  let n : Hw := { build := h.build, integ := h.integ, draws := h.draws, ctl := h.ctl.filter (fun p => fuseRegs.any (fun r => r.ctorIdx == p.1 % 512)) }
  let n := ((n.wr .SC_STATE 0 (state * 5)).resetLevel).wr .EN_CHAIN 0 (Config.trng n.draws).toNat
  { n.draw with mgmt := { certificate := h.mgmt.certificate }, power := { porzLow := low, bootDue := if low then none else some (1024 * 44) } }

/-- PORZ: its fall resets the block, its rise starts the sensing of the fuses. -/
def porz (h : Hw) (level : Bool) : Hw :=
  if !level then h.powerOnReset true
  else if h.power.porzLow then h.onPower (fun p => { p with porzLow := false, bootDue := some (h.ticks + 1024 * 44) })
  else h

/-! Ramps (R395). -/

/-- Numbers of a ramp: credits of a unit step u, and k. -/
def unitCredits (a unitMa : Nat) : Nat := ceilDiv unitMa (max 1 a)

def rampK (slew swing a unitMa : Nat) : Nat :=
  let a := max 1 a
  let room := swing * 1000 / a + 1 - unitCredits a unitMa
  min (slew * 232727 / (1000 * a)) (room / 86)

def stepMa (h : Hw) : Nat := h.get F.PW_CAL_STEP_MA
def unitMa (h : Hw) : Nat := h.get F.PW_CAL_UNIT_MA
def uCredits (h : Hw) : Nat := unitCredits h.stepMa h.unitMa

/-- k of the limits in force. -/
def kNow (h : Hw) : Nat := rampK (h.get F.PW_SLEW_VALUE) (h.get F.PW_SWING_VALUE) h.stepMa h.unitMa

/-- k′ of a ramp-down of N step-equivalents. -/
def kDown (h : Hw) (n : Nat) : Nat := max 1 (min h.kNow (n / max 1 (ceilDiv (h.get F.PW_DOWN_VALUE * 1000000) 232727)))

/-- k is 0, or a unit step exceeds one beat's slew (CFG_PW_RAMP). -/
def rampBad (slew swing a unitMa : Nat) : Bool := rampK slew swing a unitMa == 0 || slew * 232727 < unitMa * 1000

def level (h : Hw) (c : Nat) : Nat := h.get F.CR_ARR_DUMMY_LEVEL c

/-- The level that the governor sets outside ramps and long Idle runs. -/
def levelGoal (h : Hw) : Nat := if h.on F.PW_CTRL_ENABLE then h.get F.PW_DUMMY_VALUE else 0

/-- Units that still run, in descending number: 2 × 32 + n link ports, 32 + n memory ports, n core gates; gates first. -/
def openGates (h : Hw) : List Nat := ((List.range h.physCores).filter (fun c => !bit c h.power.gatesClosed)).reverse
def openPorts (h : Hw) : List Nat := ((List.range h.build.memports).filter (fun p => !bit p h.power.portsStopped)).reverse
def openLinks (h : Hw) : List Nat := ((List.range h.build.linkports).filter (fun p => !bit p h.power.linksStopped)).reverse
def closedGates (h : Hw) : List Nat := ((List.range h.physCores).filter (fun c => bit c h.power.gatesClosed)).reverse

/-- A ramp stops the units that are on its way. -/
def stopUnit (h : Hw) (goal : RampGoal) : Option Hw :=
  let shut (h : Hw) : Option Hw := match h.openGates with
    | c :: _ => some (h.onPower (fun p => { p with gatesClosed := p.gatesClosed + 2 ^ c }))
    | [] => none
  let deep (h : Hw) : Option Hw := match h.openPorts, h.openLinks with
    | p :: _, _ => some (h.onPower (fun k => { k with portsStopped := k.portsStopped + 2 ^ p }))
    | [], p :: _ => some (h.onPower (fun k => { k with linksStopped := k.linksStopped + 2 ^ p }))
    | [], [] => none
  match goal with
  | .park => shut h
  | .sleep => deep h
  | .warm => (shut h).or (deep h)
  | .trip => (shut h).or (deep h)
  | .run => match h.closedGates with
    | c :: _ => some (h.onPower (fun p => { p with gatesClosed := p.gatesClosed - 2 ^ c }))
    | [] => none

/-- The core with the highest level, lowest number first, of those that satisfy a test. -/
def highest (h : Hw) (ok : Nat → Bool) : Option Nat :=
  (List.range h.physCores).foldl (fun b c =>
    if !ok c then b else match b with
      | none => some c
      | some x => if h.level x < h.level c then some c else b) none

/-- One dummy step of a ramp, where one is due: down to 0, or up to the goal once every gate is open. -/
def rampDummy (h : Hw) (goal : RampGoal) : Option Hw :=
  if goal == .run then
    if !h.closedGates.isEmpty then none
    else (h.highest (fun c => h.level c < h.levelGoal)).map (fun c => h.put F.CR_ARR_DUMMY_LEVEL (h.level c + 1) c)
  else (h.highest (fun c => 0 < h.level c)).map (fun c => h.put F.CR_ARR_DUMMY_LEVEL (h.level c - 1) c)

/-- Dummy steps, one credit each, while they are due. -/
def spend (f : Hw → Option Hw) : Nat → Hw → Nat × Hw
  | 0, h => (0, h)
  | n + 1, h => match f h with
    | some h' => spend f n h'
    | none => (n + 1, h)

/-- Start a ramp. -/
def startRamp (h : Hw) (goal : RampGoal) (cause : Nat) : Hw :=
  let levels := (List.range h.physCores).foldl (fun a c => a + h.level c) 0
  let units := match goal with
    | .park => h.openGates.length
    | .sleep => h.openPorts.length + h.openLinks.length
    | _ => h.openGates.length + h.openPorts.length + h.openLinks.length
  let k := if goal == .run then h.kNow else h.kDown (levels + h.uCredits * units)
  (h.put F.PW_STATE_BUSY 1).onPower (fun p => { p with ramp := some { goal := goal, credits := 0, kPrime := k, cause := cause }, credits := 0 })

/-- A beat of a ramp. -/
def rampBeat (h : Hw) (r : Ramp) : Hw :=
  let s := spend (fun h => h.rampDummy r.goal) (r.credits + r.kPrime) h
  let h := s.2
  let put (n : Nat) (h : Hw) : Hw := h.onPower (fun p => { p with ramp := some { r with credits := n } })
  if (h.rampDummy r.goal).isSome || s.1 < h.uCredits then put s.1 h
  else match h.stopUnit r.goal with
    | some h' => put (s.1 - h.uCredits) h'
    | none => put s.1 h

/-- No step of a ramp is left. -/
def rampDone (h : Hw) (r : Ramp) : Bool := (h.rampDummy r.goal).isNone && (h.stopUnit r.goal).isNone

/-- RAMP_END: the last step has been made, or ACLK is stopped and no current is drawn. -/
def rampEnd (h : Hw) : Hw :=
  match h.power.ramp with
  | none => h
  | some r =>
    if !(h.rampDone r || !h.clocks.aclk) then h
    else
      let h := (h.put F.PW_STATE_BUSY 0).onPower (fun p => { p with ramp := none, credits := 0 })
      match r.goal with
      | .park => h.put F.PW_STATE_STATE 2
      | .run => h.put F.PW_STATE_STATE (flag (h.get F.TM_STRETCH_CURRENT != 0))
      | .sleep => h.enterSleep false
      | .trip => h.enterSleep true
      | .warm => h.warmReset r.cause

/-! Dummy levels in service (R22, R396). -/

/-- Beats, this one among them, until the end of the Idle run that a core is in; looked ahead as far as restoring can take. -/
def idleLeft (h : Hw) (m : Mem) (n : Nat) : Nat :=
  ((List.range 1152).takeWhile (fun i => h.tagAt m (h.planBeat + i) n == 0)).length

/-- A core is in an Idle run longer than 64 beats: the beats left of it. -/
def longIdle (h : Hw) (m : Mem) (c : Nat) : Option Nat :=
  match h.logicalOf c with
  | none => none
  | some n =>
    if !h.planned || h.tagAt m h.planBeat n != 0 then none
    else
      let down := ((List.range 65).takeWhile (fun i => i < h.planBeat && h.tagAt m (h.planBeat - 1 - i) n == 0)).length
      let left := h.idleLeft m n
      if 64 < left + down then some left else none

/-- Every core can be back at the goal by the end of its run: the steps due by a beat fit into the credits up to it. -/
def restorable (h : Hw) (k : Nat) (runs : List (Nat × Nat)) : Bool :=
  runs.all (fun r => (runs.filter (fun q => q.2 ≤ r.2)).foldl (fun a q => a + (h.levelGoal - h.level q.1)) 0 ≤ k * (r.2 - 1))

/-- One step of the levels outside a ramp. -/
def levelStep (k : Nat) (runs : List (Nat × Nat)) (h : Hw) : Option Hw :=
  let inRun (c : Nat) : Bool := runs.any (fun r => r.1 == c)
  let up (c : Nat) : Hw := h.put F.CR_ARR_DUMMY_LEVEL (h.level c + 1) c
  let dn (c : Nat) : Hw := h.put F.CR_ARR_DUMMY_LEVEL (h.level c - 1) c
  match h.highest (fun c => !inRun c && h.level c != h.levelGoal) with
  | some c => some (if h.level c < h.levelGoal then up c else dn c)
  | none =>
    if !h.restorable k runs then
      let first := (runs.filter (fun r => h.level r.1 < h.levelGoal)).foldl (fun (b : Option (Nat × Nat)) r => match b with
        | none => some r
        | some x => if r.2 < x.2 then some r else b) none
      first.map (fun r => up r.1)
    else match h.highest (fun c => inRun c && 0 < h.level c) with
      | none => none
      | some c => if (dn c).restorable k runs then some (dn c) else none

/-- A beat of the governor's dummy levels: a ramp's steps, or the steps of R396. -/
def levelBeat (h : Hw) (m : Mem) : Hw :=
  match h.power.ramp with
  | some r => h.rampBeat r
  | none =>
    if h.get F.PW_STATE_STATE == 2 then h
    else
      let runs := (List.range h.physCores).filterMap (fun c => (h.longIdle m c).map (fun n => (c, n)))
      let k := h.kNow
      let k' := if runs.isEmpty then k else min k (max (h.kDown (runs.length * h.levelGoal)) (if h.restorable k runs then 0 else k))
      let s := spend (levelStep k runs) (h.power.credits + k') h
      s.2.onPower (fun p => { p with credits := if (levelStep k runs s.2).isNone then 0 else s.1 })

/-! Power requests (Table 15-5). -/

/-- A write of PW_REQ. -/
def writePwReq (h : Hw) (v : Nat) : Hw :=
  let st := h.get F.PW_STATE_STATE
  let rest (t : Nat) : Bool := !h.tExists t || h.tState t == tEmpty || h.tState t == tLoaded
  match bits 0 2 v with
  | 3 => h.pwRefuse Rc.CFG_RANGE
  | r =>
    if h.on F.PW_STATE_BUSY then h.pwRefuse Rc.CFG_PW_STATE
    else if r == 0 && st == 2 then h.startRamp .run 0
    else if r == 1 && st < 2 && (List.range h.physCores).all (fun c => !h.on F.CR_SEQ_CTRL_ENABLE c && rest c) then h.startRamp .park 0
    else if r == 2 && st == 2 && rest gatherTambour then h.startRamp .sleep 0
    else h.pwRefuse Rc.CFG_PW_STATE

/-- A warm reset is asked for: the ramp-down, then the reset; from SLEEP the core rail is asked for. -/
def askWarm (h : Hw) (cause : Nat) : Hw :=
  if h.power.sleeping then
    let n := h.warmReset cause
    n.onPower (fun p => { p with bootDue := none, sleeping := true, waking := true })
  else match h.power.ramp with
    | some r => if r.goal == .warm || r.goal == .trip then h else h.startRamp .warm cause
    | none => h.startRamp .warm cause

/-- WARMZ. -/
def warmz (h : Hw) (level : Bool) : Hw :=
  if h.power.porzLow || level == !h.power.warmzLow then h
  else if !level then (h.onPower (fun p => { p with warmzLow := true })).askWarm 1
  else
    let h := h.onPower (fun p => { p with warmzLow := false })
    if h.bootPhase == 0 && h.get F.PL_BOOT_CAUSE != 0 && !h.power.sleeping && h.power.ramp.isNone then
      h.onPower (fun p => { p with bootDue := some (h.ticks + 1024 * 44) })
    else h

/-- WARM_RESET_BOOT_START. -/
def warmBootStart (h : Hw) : Hw :=
  match h.power.bootDue with
  | none => h
  | some t => if h.get F.PL_BOOT_CAUSE == 0 then h else ((h.passTo t).setPhase 1).onPower (fun p => { p with bootDue := none })

/-- RAIL_FAULT: the power-good input of an enabled rail falls outside SLEEP. -/
def railFault (h : Hw) (rail : Nat) : Hw :=
  if 8 ≤ rail || h.power.sleeping || h.power.porzLow || !h.on F.EN_RAIL_EN rail then h
  else ((h.onPower (fun p => { p with powerGood := if bit rail p.powerGood then p.powerGood - 2 ^ rail else p.powerGood })).raise Rc.PWR_RAIL_FAULT pwSrc).warmReset 3

/-- A write of CK_RST: cores, then WARM. -/
def writeRst (h : Hw) (v : Nat) : Hw :=
  let h := ((List.range 17).filter (fun c => bit c v)).foldl (fun h c => h.resetCore c false) h
  if bit 17 v then (h.put F.CK_RST_WARM 1).askWarm 2 else h

/-- A write of CK_RSTTB. -/
def writeRstTb (h : Hw) (v : Nat) : Hw := ((List.range 18).filter (fun t => bit t v)).foldl (fun h t => h.tReset t) h

/-! Wake events (R397, Table 15-5). -/

/-- A comparator wakes the block: its source is named, and the plinth asks for the core rail. -/
def wake (h : Hw) (waker : Nat) : Hw :=
  if h.power.waking then h
  else ((h.put F.PL_BOOT_CAUSE 5).put F.PL_BOOT_WAKER waker).onPower (fun p => { p with waking := true })

def canWake (h : Hw) : Bool := h.power.sleeping && !h.power.tripped

/-- WAKE_BEAT: the plinth's count reaches BEAT. -/
def wakeBeat (h : Hw) (i : Nat) : Hw :=
  if 8 ≤ i || !h.canWake || !h.on F.PL_WAKE_EN i || h.on F.PL_WAKE_FIRED i then h
  else
    let b := h.rd .PL_WAKE_BEAT i
    let h := if h.time.beat < b then h.plinthCount (ceilDiv ((b - h.time.beat) * 1024 - h.time.plinthTicks) 44) else h
    (h.setFlag F.PL_WAKE_FIRED i).wake i

/-- PATTERN and MASK of a frame comparator, 16 bytes. -/
def framePattern (h : Hw) (r : Reg) (i : Nat) : List Byte := (List.range 4).flatMap (fun k => leBytes 4 (h.rd r (i * 4 + k)))

/-- WAKE_FRAME_MATCH: a frame at the management port matches under MASK. -/
def wakeFrame (h : Hw) (i : Nat) (frame : List Byte) : Hw :=
  let off := h.get F.PL_FRAME_OFFSET i
  let x := (frame.drop off).take 16
  let ok := x.length == 16 && (List.range 16).all (fun k =>
    let mask := ((h.framePattern .PL_FRAME_MASK i).getD k 0#8)
    x.getD k 0#8 &&& mask == (h.framePattern .PL_FRAME_PATTERN i).getD k 0#8 &&& mask)
  if 4 ≤ i || !h.canWake || !h.on F.PL_FRAME_EN i || !ok then h else (h.setFlag F.PL_FRAME_FIRED i).wake (8 + i)

/-- The enabled sensors' readings. -/
def readings (h : Hw) : List (Nat × Nat) :=
  ((List.range 64).filter (fun n => bit n (h.rd .PL_TSEN 0))).map (fun n => (n, h.power.thermal.getD n 0))

/-- WAKE_THERMAL: an enabled sensor reads at or above WAKE. -/
def wakeThermal (h : Hw) : Hw :=
  if !h.canWake || !h.readings.any (fun r => h.get F.PL_THERM_WAKE ≤ r.2) then h else h.wake 12

/-- CORE_RAIL_POWER_GOOD: 1,000 REFCLK cycles after it the boot ROM runs; while WARMZ is low the boot waits for its rise. -/
def railGood (h : Hw) : Hw :=
  if !h.power.waking then h
  else
    let h := (h.plinthCount 1000).onPower (fun p => { p with waking := false, sleeping := false, tripped := false })
    if h.power.warmzLow then h else h.setPhase 1

/-! The governor (R398 to R402). -/

/-- PW_STATE shows STRETCH while S is above 0. -/
def showStretch (h : Hw) : Hw :=
  if h.get F.PW_STATE_STATE == 2 then h else h.put F.PW_STATE_STATE (flag (h.get F.TM_STRETCH_CURRENT != 0))

/-- The hottest enabled sensor: reading and number. -/
def hottest (h : Hw) : Nat × Nat := h.readings.foldl (fun b r => if b.1 < r.2 then (r.2, r.1) else b) (0, 0)

/-- PW_STRETCH.WANT (R399, R400). -/
def governorWant (h : Hw) : Nat :=
  if !h.on F.PW_CTRL_ENABLE then 0
  else if h.on F.PW_STATUS_THROTTLE then 256
  else
    let thermal := min 256 (16 * (h.hottest.1 - h.get F.PW_TWARN_VALUE))
    min 256 (max (h.get F.PW_SMIN_VALUE) (max thermal h.power.limitTerm))

/-- THERMAL_SAMPLE (R447, R400, R401). -/
def thermalSample (h : Hw) (sensors : List Nat) : Hw :=
  let h := h.onPower (fun p => { p with thermal := (List.range 64).map (fun n => sensors.getD n 0 % 256) })
  if h.power.sleeping || h.power.porzLow then h
  else
    let hot := h.hottest
    let h := (h.put F.PW_TMAX_HOTTEST hot.1).put F.PW_TMAX_SENSOR hot.2
    if !h.on F.PW_CTRL_ENABLE then h
    else
      let any (t : Nat) : Bool := h.readings.any (fun r => t ≤ r.2)
      let emerg := h.get F.PW_TEMERG_VALUE
      let tripping := match h.power.ramp with | some r => r.goal == .trip | none => false
      if any (h.get F.PW_TTRIP_VALUE) && !tripping then (h.raise Rc.PWR_THERMAL_TRIP pwSrc).startRamp .trip 4
      else if any emerg && !h.on F.PW_STATUS_THROTTLE then
        let h := ((h.setFlag F.PW_STATUS_EMERG).raise Rc.PWR_THERMAL_EMERGENCY pwSrc).put F.PW_STATUS_THROTTLE 1
        (h.cores.map (·.1)).foldl (fun h c => h.stopArray c false false) h
      else if h.on F.PW_STATUS_THROTTLE && !any (emerg - 5) then h.put F.PW_STATUS_THROTTLE 0
      else h

/-- PWR_LIMIT on a complete sample. -/
def limitCheck (h : Hw) (volts amps : List Nat) : Hw :=
  let rails := h.railsOn
  let total := rails.foldl (fun a r => a + amps.getD r 0) 0
  let coreRails := rails.filter (fun r => h.get F.EN_RAIL_CLASS r == 0)
  let bad := rails.any (fun r => h.get F.PW_IMAX_VALUE * 1000 < amps.getD r 0) ||
    coreRails.any (fun r => volts.getD r 0 * 100 < h.get F.PW_VMIN_VALUE * 98 || h.get F.PW_VMAX_VALUE * 102 < volts.getD r 0 * 100) ||
    (match h.power.lastMa with
      | some x => h.get F.PW_SWING_VALUE * 1000 < max (total - x) (x - total)
      | none => false)
  let h := h.onPower (fun p => { p with lastMa := some total })
  if bad && h.on F.PW_CTRL_ENABLE then
    ((h.setFlag F.PW_STATUS_LIMIT).raise Rc.PWR_LIMIT pwSrc).onPower (fun p => { p with limitTerm := min 256 (p.limitTerm + 32) })
  else h

/-- TELEMETRY_SAMPLE: a complete sample within its deadline, beat 16 of the next period. -/
def telemetrySample (h : Hw) (volts amps : List Nat) : Hw :=
  if h.on F.EN_CTRL_ENABLE && !h.energy.asked then h else (h.limitCheck volts amps).energySample volts amps

/-- TELEMETRY_DEADLINE: a sample missing by beat 16 of the next period. -/
def telemetryDeadline (h : Hw) : Hw :=
  if !h.energy.asked || h.time.beat % 64 < 16 then h
  else
    let h := h.energyMissing
    if 2 ≤ h.energy.missing && h.on F.PW_CTRL_ENABLE then (h.setFlag F.PW_STATUS_TELE).raise Rc.PWR_TELEMETRY_LOST pwSrc else h

/-- The limit registers, in Table 15-7's order of offsets. -/
def limitRegs : List Reg := [.PW_SLEW, .PW_SWING, .PW_DOWN, .PW_IMAX, .PW_VMIN, .PW_VMAX, .PW_TEMERG, .PW_TTRIP, .PW_TWARN, .PW_SMIN, .PW_DUMMY]

/-- A limit's VALUE as it will be: held, or in force. -/
def limitNewest (h : Hw) (r : Reg) : Nat := Tab.getD h.power.limitNext r.ctorIdx (h.rd r 0 % 65536)

/-- A write of a limit register (R19, R395, R398). -/
def writeLimit (h : Hw) (r : Reg) (v : Nat) : Hw :=
  let x := v % 65536
  let bound := h.rd r 0 / 65536
  let ok := match r with
    | .PW_DOWN => bound ≤ x
    | .PW_VMIN => bound ≤ x
    | .PW_SMIN => bound ≤ x
    | .PW_TWARN => x ≤ h.limitNewest .PW_TEMERG
    | _ => x ≤ bound
  let slew := if r == .PW_SLEW then x else h.limitNewest .PW_SLEW
  let swing := if r == .PW_SWING then x else h.limitNewest .PW_SWING
  if !ok then h.pwRefuse Rc.CFG_RANGE
  else if rampBad slew swing h.stepMa h.unitMa then h.pwRefuse Rc.CFG_PW_RAMP
  else h.onPower (fun p => { p with limitNext := Tab.insert p.limitNext r.ctorIdx x })

/-- Accepted limits take effect at a beat boundary. -/
def applyLimits (h : Hw) : Hw :=
  let h' := limitRegs.foldl (fun g r => match Tab.find? h.power.limitNext r.ctorIdx with
    | some x => g.wr r 0 (g.rd r 0 / 65536 * 65536 + x)
    | none => g) h
  h'.onPower (fun p => { p with limitNext := [] })

/-- A write of PW_CTRL (R406). -/
def writePwCtrl (h : Hw) (v : Nat) : Hw :=
  if bit 0 v && !h.on F.PW_CTRL_ENABLE then
    if rampBad (h.get F.PW_SLEW_VALUE) (h.get F.PW_SWING_VALUE) h.stepMa h.unitMa then h.pwRefuse Rc.CFG_PW_RAMP
    else if !(h.on F.CK_PLL_LOCKED && h.on F.CK_DOM_ACLK_RUN) then h.pwRefuse Rc.CFG_PW_DEPENDS
    else h.put F.PW_CTRL_ENABLE 1
  else h.put F.PW_CTRL_ENABLE (flag (bit 0 v))

/-- A write of PW_CAL, PW_STRETCH or PW_VREQ. -/
def writePwCal (h : Hw) (v : Nat) : Hw := if bits 0 16 v == 0 || bits 16 16 v == 0 then h.pwRefuse Rc.CFG_RANGE else h.wr .PW_CAL 0 v

def writePwStretch (h : Hw) (v : Nat) : Hw := if 256 < bits 16 9 v then h.pwRefuse Rc.CFG_RANGE else h.put F.PW_STRETCH_FABRIC (bits 16 9 v)

def writeVreq (h : Hw) (v : Nat) : Hw :=
  let x := bits 0 12 v
  if x < h.get F.PW_VMIN_VALUE || h.get F.PW_VMAX_VALUE < x then h.pwRefuse Rc.CFG_RANGE
  else (h.put F.PW_VREQ_MV x).put F.PW_VREQ_MOVING (flag (x != h.power.requestMv))

/-- The regulator request moves by at most 5 mV, and the limit term falls by 1, in each telemetry period. -/
def governorPeriod (h : Hw) : Hw :=
  if h.time.beat % 64 != 0 then h
  else
    let x := h.get F.PW_VREQ_MV
    let r := h.power.requestMv
    let r' := if r < x then min x (r + 5) else max x (r - 5)
    (h.onPower (fun p => { p with requestMv := r', limitTerm := p.limitTerm - 1 })).put F.PW_VREQ_MOVING (flag (r' != x))

/-- The governor's work at the start of a beat: limits in force, levels, WANT, and on the time master the stretch of the fabric. -/
def governorBeat (h : Hw) (m : Mem) : Hw :=
  let h := ((h.applyLimits).governorPeriod).showStretch
  let h := h.levelBeat m
  let want := h.governorWant
  let h := h.put F.PW_STRETCH_WANT want
  let fabric := max want (h.get F.PW_STRETCH_FABRIC)
  if h.isMaster && h.on F.PW_CTRL_ENABLE && fabric != h.get F.TM_STRETCH_TARGET && !h.on F.TM_STRETCH_PENDING then h.sendStretch fabric else h

end Hw

end Sys2Proof.Machine
end

