-- ==== Sys2Proof/Machine/Control.lean ====
section
/-! DEFINITION. Control space: where a register lies, what a read returns and what a write does (R6 to R8, R317, R318, R390, R403, R404,
Tables 0-4 and 12-2). -/

namespace Sys2Proof.Machine

/-! Where a register lies. -/

/-- Split an offset by strides and counts, outermost first: the index of each dimension, and what is left. -/
def splitDims : List (Nat × Nat) → Nat → Option (List Nat × Nat)
  | [], off => some ([], off)
  | (stride, count) :: t, off =>
    if off / stride < count then (splitDims t (off % stride)).map (fun p => (off / stride :: p.1, p.2)) else none

/-- The index of an instance among all of its register. -/
def flatIndex : List (Nat × Nat) → List Nat → Nat → Nat
  | (_, count) :: t, k :: ks, a => flatIndex t ks (a * count + k)
  | _, _, a => a

/-- A word of control space: the register, its instance, the outermost index, and whether it is the high word. -/
structure Place where
  reg : Reg
  idx : Nat
  outer : Nat
  hi : Bool

/-- The instance of a register that holds an offset. -/
def placeIn (r : Reg) (off : Nat) : Option Place :=
  let d := r.desc
  if off < d.base then none
  else match splitDims d.dims (off - d.base) with
    | some (ks, 0) => some { reg := r, idx := flatIndex d.dims ks 0, outer := ks.headD 0, hi := false }
    | some (ks, 4) => if d.size == 8 then some { reg := r, idx := flatIndex d.dims ks 0, outer := ks.headD 0, hi := true } else none
    | _ => none

/-- The register word at an offset. -/
def placeOf (off : Nat) : Option Place := Reg.all.findSome? (fun r => placeIn r off)

/-- The debug port as the source of a refusal. -/
def debugSrc : Src := { unit := 0xE9, refusal := true }

namespace Hw

/-- The build has the instance (R3). -/
def built (h : Hw) (p : Place) : Bool :=
  let d := p.reg.desc
  match d.scope with
  | 1 => p.outer < h.physCores
  | 2 => p.outer < h.build.memports
  | 3 => p.outer < h.build.linkports
  | 4 => p.outer < h.build.hoops
  | _ => d.unit != 0x95 || h.build.gatherCells != 0

/-- Offsets whose registers run on PCLK or the plinth clock: everything that Table 15-1 does not put on ACLK. -/
def onPclk (off : Nat) : Bool :=
  off < 0x300000 || (0x500000 ≤ off && off < 0x800000) || (0xC70000 ≤ off && off < 0xC70010) || 0x2600000 ≤ off

/-- The domain of an offset runs (R390, Table 15-4). -/
def served (h : Hw) (off : Nat) : Bool := !h.power.porzLow && !h.power.sleeping && (onPclk off || h.clocks.aclk)

end Hw

/-! What a register shows. -/

namespace Hw

/-- Depths of four queue ends as bytes. -/
def depthWord (h : Hw) (c : Nat) (qs : List Nat) : Nat :=
  leNat (qs.map (fun q => BitVec.ofNat 8 (h.queue c q).length))

/-- The value of a register that shows what the block holds elsewhere; the stored value of every other one. -/
def shown (h : Hw) (m : Mem) (r : Reg) (i : Nat) : Nat :=
  match r with
  | .TM_NOW => h.time.beat
  | .CR_ARR_STATUS =>
    let a := h.arr i
    let busy := a.passes.any (·.started.isSome) || a.loads.any (fun l => l.started.any (fun t => h.ticks < t + 4 * (h.build.arrayRows + 2))) || a.treeDue.isSome
    putBits 0 2 (flag busy + 2 * flag (h.arrStop i)) (h.rd r i)
  | .CR_DRN_STATUS => putBits 0 1 (flag (!(h.core i).drn.isEmpty)) (h.rd r i)
  | .CR_MAC_DQ => ([0, 1, 3, 4].zip [0, 4, 8, 12]).foldl (fun a p => a + (h.descQueue i p.1).length * 2 ^ p.2) 0
  | .CR_SEQ_QD0 => h.depthWord i [2, 3, 4, 5]
  | .CR_SEQ_QD1 => h.depthWord i [6, 7, 8, 9]
  | .CR_SEQ_QD2 => h.depthWord i [0x18, 0x19, 0x1A, 0x1B]
  | .CR_SEQ_QD3 => h.depthWord i [0x1C, 0x1D, 0x1E, 0x1F]
  | .CR_SEQ_BANK => putBits F.CR_SEQ_BANK_WIN0.lo 2 (if h.on F.CR_SEQ_CTRL_ENABLE i then flag (h.inWindow i 0) + 2 * flag (h.inWindow i 1) else 0)
      (putBits 0 2 (((h.seq i).bankReq.map (·.2)).getD 0) (h.rd r i))
  | .CR_SEQ_CM =>
    let k := (h.seq (i / 4)).cm.getD (i % 4) {}
    flag (h.cmResult (i / 4) (i % 4)) + 2 * flag k.en + 4 * k.cond
  | .CR_SEQ_LOOP => match (h.seq (i / 6)).loops[i % 6]? with
    | some l => l.count % 2 ^ 24 + 2 ^ 31 + l.index % 2 ^ 24 * 2 ^ 32
    | none => 0
  | .BB_SLOTS => h.slotsWord (i / 8) (i % 8)
  | .MP_ERR_ENTRY => match h.errLog with
    | e :: _ => leAt (4 * i) 4 (leBytes 1 e.unit ++ leBytes 1 e.symbols ++ leBytes 1 e.agent ++ leBytes 1 0 ++ leBytes 4 e.whereAt ++ leBytes 8 e.beat)
    | [] => 0
  | .SQ_HOOP => match h.queueHoop i with
    | some n => n + 4096
    | none => 0
  | .FT_LOG_ENTRY => match h.faultLog with
    | e :: _ => leAt (4 * i) 4 (entryBytes e)
    | [] => 0
  | .FT_LOG_STATUS => putBits F.FT_LOG_STATUS_COUNT.lo F.FT_LOG_STATUS_COUNT.w h.faultLog.length (h.rd r i)
  | .FT_SPARE => putBits F.FT_SPARE_STANDBY.lo F.FT_SPARE_STANDBY.w (flag h.spareStandby) (h.rd r i)
  | .HP_CTRL =>
    let k := Tab.getD h.keys i {}
    h.rd r i % 4 + flag k.key.isSome * 4 + flag (!k.tpub.isEmpty) * 8 + flag (h.hoopPending i) * 16
  | .HP_WIN_VBASE => h.windowWord r
  | .HP_WIN_PBASE => h.windowWord r
  | .HP_WIN_SIZE => h.windowWord r
  | .HP_WIN_ATTR => h.windowWord r
  | .HP_KEYSTAT => putBits 0 1 (flag (!h.keySweep.isEmpty)) (h.rd r i)
  | .DG_MM => m.le (Area.matrix (i / 16384)) (i % 16384 * 4) 4
  | .EN_CTX_COMM => h.accTotal (h.get F.EN_CSEL_CONTEXT) true
  | .EN_CTX_OPEN => h.accTotal (h.get F.EN_CSEL_CONTEXT) false
  | _ => h.rd r i

/-- A word of the mailboxes' data. -/
def isMailbox (off : Nat) : Bool := 0x700000 ≤ off && off < 0x708000

/-- A word of control space as it stands, with no side effect (R429): 0 where nothing is mapped or the domain is stopped. -/
def sampleWord (h : Hw) (m : Mem) (off : Nat) : Nat :=
  if off % 4 != 0 || !h.served off then 0
  else if isMailbox off then m.le Area.mailbox (off - 0x700000) 4
  else match placeOf off with
    | none => 0
    | some p => if !h.built p then 0 else
      let v := h.shown m p.reg p.idx % 2 ^ 64
      if p.hi then v / 2 ^ 32 else v % 2 ^ 32

/-- The phase as a read of TM_NOW captures it: PHASE, and HOLD from the second cycle of phase 255 on (R24, R25). -/
def phaseWord (h : Hw) : Nat := h.phase + flag (256 ≤ h.cycle) * 256

/-- A read by an agent (R8, R25): the low word of a 64-bit register captures the high word; a read of TM_NOW captures the phase. The value
is noted. -/
def ctlRead (h : Hw) (m : Mem) (a : Agent) (off : Nat) : Hw :=
  let note (h : Hw) (v : Nat) : Hw := { h with readBack := Tab.put h.readBack 0 a.index v }
  match placeOf off with
  | none => note h (h.sampleWord m off)
  | some p =>
    if !h.served off || !h.built p || p.reg.desc.size != 8 then note h (h.sampleWord m off)
    else if p.hi then note h (Tab.getD h.holding a.index 0)
    else
      let v := h.shown m p.reg p.idx % 2 ^ 64
      let h := { h with holding := Tab.put h.holding 0 a.index (v / 2 ^ 32) }
      let h := if p.reg == .TM_NOW then h.wr .TM_NOW_PHASE 0 h.phaseWord else h
      note h (v % 2 ^ 32)

end Hw

/-! Accesses of processors and the host to hoop addresses (R317, R367, R449). -/

/-- An access outside a run: the bytes read, or none where it is refused or meets an uncorrectable word of scratch (R204, R215). -/
def hoopAccess (unit hoop va : Nat) (write : Bool) (data : List Byte) (w : Work) : Option (List Byte) × Work :=
  if data.isEmpty then (some [], w)
  else match w.hw.resolve { hoop := hoop, write := write, bobbin := false } va data.length with
    | .error e => (none, (w.raise e { unit := unit, refusal := true, hoop := hoop }).onHw (fun h => h.noteViolation hoop va e))
    | .ok (l, _) =>
      let bad := match l with
        | .scratch o => (if write then Hw.partWords o data.length else [(o, data.length)]).findSome? (fun p => w.hw.badScratch p.1 p.2)
        | .port _ _ => none
      match bad with
      | some wh => (none, w.onHw (fun h => (h.uncorrectable 0x40 (flag write) wh).raise Rc.DIN_UNCORRECTABLE { unit := unit, hoop := hoop }))
      | none => if write then (some [], farStore w hoop l data) else (some (farRead w.hw w.mem hoop l data.length), w)

/-- DG_APER_DATA: four bytes at DG_APER_ADDR in the hoop of DG_APER_HOOP, at levels D2 and D3 (Table 14-7). -/
def apertureWord (write : Bool) (v : Nat) (w : Work) : Option Nat × Work :=
  if w.hw.get F.SC_DEBUG_LEVEL < 2 then (none, w.raise Rc.SEC_DEBUG_ACCESS { unit := 0xE9, refusal := true })
  else
    let r := hoopAccess 0xE9 (w.hw.rd .DG_APER_HOOP 0) (w.hw.rd .DG_APER_ADDR 0) write (if write then leBytes 4 v else List.replicate 4 0#8) w
    (r.1.map leNat, r.2)

/-! Writes. -/

/-- The SET_DURING_CLEAR bit of a register that has one (R403). -/
def sdcBit (r : Reg) : Option Nat := match r with
  | .TM_STATUS => some 5
  | .TM_EPOCH_CTRL => some 3
  | .CR_ARR_STATUS => some 4
  | .CR_ARR_TREE => some 15
  | .CR_DRN_STATUS => some 4
  | .CR_MAC_STATUS => some 3
  | .CR_SEQ_STATUS => some 4
  | .BB_STATUS => some 1
  | .CR_MM_STATUS => some 2
  | .MP_BM_STATUS => some 2
  | .MP_ERR_STATUS => some 8
  | .MP_STATUS => some 11
  | .TB_STATUS => some 6
  | .GT_STATUS => some 6
  | .SY_STATUS => some 3
  | .SY_USTATUS => some 1
  | .SQ_STATUS => some 3
  | .LK_STATUS => some 1
  | .LK_P_STATUS => some 11
  | .DP_STATUS => some 4
  | .FT_STATUS => some 5
  | .HP_STATUS => some 1
  | .PL_WAKE => some 2
  | .PL_FRAME => some 2
  | .PW_STATUS => some 4
  | .EN_STATUS => some 1
  | .EN_SIGN => some 17
  | .MG_SNAPCTRL => some 2
  | _ => none

namespace Hw

/-- The REASON field of the unit that a register belongs to: the last reason code raised or refused there. -/
def unitReason (p : Place) : Option (Fld × Nat) :=
  let at' := p.reg.desc.base % 0x100000
  match p.reg.desc.unit with
  | 0x00 => if p.reg.desc.scope == 1 then some (F.CR_MM_STATUS_REASON, p.outer) else none
  | 0x40 => some (F.MP_BM_STATUS_REASON, 0)
  | 0x50 => some (F.MP_STATUS_REASON, p.outer)
  | 0x60 => some (F.MP_BM_STATUS_REASON, 0)
  | 0x70 => some (F.LK_P_STATUS_REASON, p.outer)
  | 0x82 => some (F.LK_STATUS_REASON, 0)
  | 0x90 => some (F.TM_STATUS_REASON, 0)
  | 0x91 => some (F.SY_USTATUS_REASON, 0)
  | 0x93 => some (F.DP_STATUS_REASON, 0)
  | 0x95 => some (F.GT_STATUS_REASON, 0)
  | 0x96 => some (F.PW_STATUS_REASON, 0)
  | 0x97 => if p.reg == .SQ_CTRL || p.reg == .SQ_BASE || p.reg == .SQ_TAILADDR || p.reg == .SQ_COMPBASE then some (F.SQ_STATUS_REASON, p.idx)
    else some (F.SQ_CTX_STATUS_REASON, 0)
  | 0x98 => some (F.FT_STATUS_REASON, 0)
  | 0xA0 => if at' < 0x2000 then some (F.CR_SEQ_STATUS_REASON, p.outer) else some (F.CR_MAC_STATUS_REASON, p.outer)
  | 0xB1 => if at' < 0x2100 then some (F.CR_ARR_STATUS_REASON, p.outer) else some (F.CR_DRN_STATUS_REASON, p.outer)
  | 0xC2 => some (F.BB_STATUS_REASON, p.outer)
  | 0xD3 => some (F.TB_STATUS_REASON, p.outer)
  | 0xE4 => if p.reg == .HP_CTRL || p.reg == .HP_CORES || p.reg == .HP_SYNC || p.reg == .HP_QUEUE then some (F.HP_STATUS_REASON, p.idx) else none
  | 0xE6 => some (F.EN_STATUS_REASON, 0)
  | 0xE7 => some (F.CK_PLL_REASON, 0)
  | 0xE8 => some (F.MG_SNAPCTRL_REASON, 0)
  | _ => none

/-- The fault-log UNIT of a register's unit. -/
def unitCode (p : Place) : Nat := if 1 ≤ p.reg.desc.scope && p.reg.desc.scope ≤ 3 then p.reg.desc.unit + p.outer else p.reg.desc.unit

/-- An agent may write a register (Table 12-2); the debug port and the attach port are held to their own rules before (R378, R449). -/
def mayWrite (a : Agent) (r : Reg) : Bool :=
  match a with
  | .keeper => r.desc.writer != 1
  | .dispatcher => r.desc.writer != 0 || r == .SQ_CTRL
  | .debug => r.desc.writer != 1
  | .host => false

/-! What the debug port may access (R378). -/


/-- The registers of a sequencer, of the macro unit and of the bobbins of a core. -/
def coreDebugReg (r : Reg) : Bool := r.desc.unit == 0xA0 || r.desc.unit == 0xC2

/-- A register word that D1 lets the debug port read: it belongs to the permitted hoop (Table 14-7). -/
def ofHoop (h : Hw) (p : Place) : Bool :=
  let hoop := h.get F.SC_DEBUG_HOOP
  match p.reg with
  | .HP_CTRL => p.idx == hoop
  | .HP_CORES => p.idx == hoop
  | .HP_SYNC => p.idx == hoop
  | .HP_QUEUE => p.idx == hoop
  | .HP_STATUS => p.idx == hoop
  | .HP_VIOLADDR => p.idx == hoop
  | .HP_KEYCNT => p.idx == hoop
  | .HP_WIN_VBASE => h.get F.HP_WSEL_HOOP == hoop
  | .HP_WIN_PBASE => h.get F.HP_WSEL_HOOP == hoop
  | .HP_WIN_SIZE => h.get F.HP_WSEL_HOOP == hoop
  | .HP_WIN_ATTR => h.get F.HP_WSEL_HOOP == hoop
  | .SY_VALUE => h.objHoop p.idx == some hoop
  | .SY_COMMITTED => h.objHoop p.idx == some hoop
  | .SY_WMARK => h.objHoop p.idx == some hoop
  | .SY_STATUS => h.objHoop p.idx == some hoop
  | .SQ_CTRL => h.queueHoop p.idx == some hoop
  | .SQ_STATUS => h.queueHoop p.idx == some hoop
  | .SQ_BASE => h.queueHoop p.idx == some hoop
  | .SQ_TAILADDR => h.queueHoop p.idx == some hoop
  | .SQ_COMPBASE => h.queueHoop p.idx == some hoop
  | .SQ_HEAD => h.queueHoop p.idx == some hoop
  | .SQ_DONE => h.queueHoop p.idx == some hoop
  | .SQ_TAILSEEN => h.queueHoop p.idx == some hoop
  | .SQ_HOOP => h.queueHoop p.idx == some hoop
  | .CTX_STATE => h.get F.CTX_STATE_HOOP p.idx == hoop
  | .CTX_QUEUE => h.get F.CTX_STATE_HOOP p.idx == hoop
  | .CTX_TAG => h.get F.CTX_STATE_HOOP p.idx == hoop
  | .CTX_SEQ => h.get F.CTX_STATE_HOOP p.idx == hoop
  | .CTX_ENERGY => h.get F.CTX_STATE_HOOP p.idx == hoop
  | .CTX_GEN => h.get F.CTX_STATE_HOOP p.idx == hoop
  | .FT_LOG_ENTRY => match h.faultLog with
    | e :: _ => e.hoop == hoop
    | [] => false
  | r => coreDebugReg r && p.reg.desc.scope == 1 && (h.seq p.outer).bound && (h.seq p.outer).runHoop == some hoop

/-- Words that D2 adds (Table 14-7): the halt, the aperture, sync objects, and the memory of a core halted in a run of the hoop. -/
def atD2 (h : Hw) (p : Place) : Bool :=
  let hoop := h.get F.SC_DEBUG_HOOP
  match p.reg with
  | .DG_HALT => true
  | .DG_APER_HOOP => true
  | .DG_APER_ADDR => true
  | .DG_APER_DATA => true
  | .SY_VALUE => h.objHoop p.idx == some hoop
  | .DG_MM => (h.core p.outer).debugHalt && (h.seq p.outer).bound && (h.seq p.outer).runHoop == some hoop
  | _ => false

/-- An access of the debug port that the level in force allows (Table 14-7). D3 writes what the Keeper may write (R318). -/
def mayDebug (h : Hw) (write : Bool) (p : Option Place) : Bool :=
  match h.get F.SC_DEBUG_LEVEL, p with
  | 0, _ => false
  | 3, some p => !write || mayWrite .keeper p.reg || p.reg == .SY_VALUE
  | 3, none => true
  | _, none => false
  | 1, some p => !write && h.ofHoop p
  | _, some p => if write then h.atD2 p && p.reg != .DG_MM else h.ofHoop p || h.atD2 p

/-- A word of a register after a plain write: bits of RW fields take the value, W1C bits of 1 clear, and hardware's set of a W1C bit outweighs a clear
in the same cycle (Table 0-4, R403). -/
def writtenWord (old rw w1c v hwSet : Nat) : Nat :=
  let w (x : Nat) : Word := BitVec.ofNat 32 x
  (((w old &&& ~~~(w rw)) ||| (w v &&& w rw)) &&& ~~~(w v &&& w w1c) ||| (w hwSet &&& w w1c)).toNat

/-- The plain write of a word (Table 0-4, R403): RW fields take the value, W1C bits clear but for those that hardware sets in this cycle. -/
def plainWrite (h : Hw) (p : Place) (v hwSet : Nat) : Hw :=
  let d := p.reg.desc
  let sh := if p.hi then 32 else 0
  let old := h.rd p.reg p.idx
  let half (x : Nat) : Nat := bits sh 32 x
  let rw := half (if 2 ≤ h.get F.SC_STATE_STATE then d.rw else Nat.lor d.rw d.rwl)
  let w1c := half d.w1c
  let sets := Nat.land hwSet w1c
  let clears := Nat.land v w1c
  let n := writtenWord (half old) rw w1c v hwSet
  let h := h.wr p.reg p.idx (putBits sh 32 n old)
  match sdcBit p.reg with
  | some b => if p.hi || Nat.land (Nat.land sets clears) (0xFFFFFFFF - 2 ^ b) == 0 then h else h.wr p.reg p.idx (putBits b 1 1 (h.rd p.reg p.idx))
  | none => h

/-- A 64-bit register's value with one of its words replaced. -/
def composed (h : Hw) (p : Place) (v : Nat) : Nat :=
  if p.reg.desc.size == 8 then putBits (if p.hi then 32 else 0) 32 v (h.rd p.reg p.idx) else v

/-! Management registers (R429, R431). -/

def mgRefuse (h : Hw) (code : Nat) : Hw := h.refuse code F.MG_SNAPCTRL_REASON 0 0xE8

/-- A write of MG_SNAPCTRL. -/
def writeSnapCtrl (h : Hw) (m : Mem) (v hwSet : Nat) : Hw :=
  let n := bits 8 8 v
  let list := h.rd .MG_SNAPLIST 0
  let bad := (List.range n).any (fun i => let x := m.le Area.block (list + 4 * i) 4; x % 4 != 0 || 2 ^ 28 ≤ x)
  let plain (h : Hw) : Hw := h.plainWrite { reg := .MG_SNAPCTRL, idx := 0, outer := 0, hi := false } v hwSet
  if !bit 0 v then plain h
  else if h.on F.MG_SNAPCTRL_GO then h.mgRefuse Rc.CFG_CONFLICT
  else if n == 0 || 128 < n || bad || h.scratchSize < list + 4 * n then h.mgRefuse Rc.CFG_RANGE
  else { (plain h).put F.MG_SNAPCTRL_GO 1 with mgmt := { h.mgmt with snapBeat := h.time.beat } }

/-- A write of MG_SNAPLIST, MG_SNAPBUF or EN_SIGNBUF: a multiple of 64. -/
def writeAligned (h : Hw) (p : Place) (v : Nat) (refuse : Hw → Hw) : Hw :=
  if !p.hi && v % 64 != 0 then refuse h else h.plainWrite p v 0

/-- A write of MG_MFP_CTRL or MG_MFP_ETYPE. -/
def writeMfp (h : Hw) (p : Place) (v : Nat) : Hw :=
  if h.on F.MG_MFP_CTRL_ENABLE && (p.reg != .MG_MFP_CTRL || bit 0 v) then h.mgRefuse Rc.CFG_CONFLICT
  else if p.reg == .MG_MFP_ETYPE then (if bits 0 16 v < 0x600 then h.mgRefuse Rc.CFG_RANGE else h.plainWrite p v 0)
  else if bits 16 8 v == 0 || (bit 0 v && bits 8 8 v != 0xFF && bits 16 8 v ≤ bits 8 8 v) then h.mgRefuse Rc.CFG_RANGE
  else h.plainWrite p v 0

/-- A write of TM_EPOCH_CTRL: the time master's Keeper floods an EPOCH message when it arms an image (R299), and the first image armed in
service ends the boot (Table 12-5). An uncorrectable word of the image is logged (R59); `unreadable`: the header's first word is one. -/
def armWrite (h : Hw) (m : Mem) (unreadable : Bool) (v : Nat) : Hw :=
  let was := h.on F.TM_EPOCH_CTRL_ARM
  let base := h.get F.TM_PRK_SHADOW_BASE * 4096
  let bad := if !bit 0 v || was then none else if unreadable then some (blockWhere base) else h.badScratchIn base (max 128 (Img.offset m base 6))
  let h := match bad with
    | some wh => h.uncorrectable 0x40 0 wh
    | none => h
  let h := h.writeEpochCtrl m bad.isSome v
  if was || !h.on F.TM_EPOCH_CTRL_ARM then h
  else
    let h := if h.isMaster then h.sendEpoch m (h.get F.TM_PRK_SHADOW_BASE * 4096) else h
    if h.bootPhase == 5 && h.tmInService then h.setPhase 6 else h

/-- A write that the register takes: the special ones by their own rules, every other as a plain write. -/
def regWrite (a : Agent) (p : Place) (v hwSet : Nat) (w : Work) : Work :=
  let i := p.idx
  let on (f : Hw → Hw) : Work := w.onHw f
  let off4 (n : Nat) : Nat := p.reg.desc.base % n / 4 + flag p.hi
  match p.reg with
  | .TM_CTRL => on (·.writeTmCtrl v)
  | .TM_TRIM => on (·.writeTmTrim v)
  | .TM_PRK_SHADOW => on (·.writePrkShadow v)
  | .TM_EPOCH_CTRL => w.onHwMem (fun m h => h.armWrite m false v)
  | .CR_ARR_CTRL => on (·.writeArrCtrl i v)
  | .CR_ARR_SPARE => on (·.writeArrSpare i v)
  | .CR_ARR_TREE => on (·.writeArrTree i v)
  | .CR_DRN_CTRL => on (·.writeDrnCtrl i v)
  | .CR_MAC_CTRL => on (·.writeMacCtrl i v)
  | .CR_SEQ_CTRL => on (·.writeSeqCtrl i v)
  | .CR_SEQ_RING_BASE => on (fun h => h.writeRing F.CR_SEQ_RING_BASE_BASE i v)
  | .CR_SEQ_RING_SIZE => on (fun h => h.writeRing F.CR_SEQ_RING_SIZE_LOG2 i v)
  | .CR_SEQ_RING_TAIL => on (·.publish i v)
  | .CR_SEQ_BANK => on (fun h => h.writeBank i v)
  | .BB_CTRL => on (·.writeBbCtrl i v)
  | .CR_MM_CTRL => writeMmCtrl i v w
  | .MP_BM_CTRL => writeBmCtrl v w
  | .MP_ERR_POP => on (·.popError)
  | .MP_CT_BUF0 => on (fun h => h.writeCt i (off4 0x20) v)
  | .MP_CT_BUF1 => on (fun h => h.writeCt i (off4 0x20) v)
  | .MP_CT_SIZE => on (fun h => h.writeCt i (off4 0x20) v)
  | .MP_CT_FLAGS => on (fun h => h.writeCt i (off4 0x20) v)
  | .MP_CT_GEN => on (fun h => h.writeCt i (off4 0x20) v)
  | .MP_CT_RSVD => on (fun h => h.writeCt i (off4 0x20) v)
  | .TB_CTRL => w.onHwMem (fun m h => h.writeTbCtrl m i v)
  | .GT_CTRL => w.onHwMem (fun m h => h.writeTbCtrl m gatherTambour v)
  | .TB_IMAGE => on (fun h => h.writeTbImage i p.hi v)
  | .GT_IMAGE => on (fun h => h.writeTbImage gatherTambour p.hi v)
  | .TB_ACT => on (fun h => h.writeTbAct i v)
  | .GT_ACT => on (fun h => h.writeTbAct gatherTambour v)
  | .SY_VALUE => on (fun h => h.handSet a i v)
  | .SY_CTRL => on (·.writeSyCtrl v)
  | .SQ_CTRL => on (fun h => h.writeSqCtrl a i v)
  | .SQ_BASE => on (fun h => h.writeSqAddr p.reg i (h.composed p v))
  | .SQ_TAILADDR => on (fun h => h.writeSqAddr p.reg i (h.composed p v))
  | .SQ_COMPBASE => on (fun h => h.writeSqAddr p.reg i (h.composed p v))
  | .GRAPH_BUF0 => on (fun h => h.writeGraph i (off4 0x20) v)
  | .GRAPH_BUF1 => on (fun h => h.writeGraph i (off4 0x20) v)
  | .GRAPH_LENGTH => on (fun h => h.writeGraph i (off4 0x20) v)
  | .GRAPH_FLAGS => on (fun h => h.writeGraph i (off4 0x20) v)
  | .GRAPH_GEN => on (fun h => h.writeGraph i (off4 0x20) v)
  | .GRAPH_USE => on (fun h => h.writeGraph i (off4 0x20) v)
  | .ARM_CFG => on (fun h => h.writeArm i (off4 0x20) v)
  | .ARM_STEP => on (fun h => h.writeArm i (off4 0x20) v)
  | .ARM_TAGBASE => on (fun h => h.writeArm i (off4 0x20) v)
  | .ARM_COMPBASE => on (fun h => h.writeArm i (off4 0x20) v)
  | .SQ_READY_POP => on (·.readyPop)
  | .CTX_STATE => on (fun h => h.writeCtx i (off4 0x20) v)
  | .CTX_QUEUE => on (fun h => h.writeCtx i (off4 0x20) v)
  | .CTX_TAG => on (fun h => h.writeCtx i (off4 0x20) v)
  | .CTX_SEQ => on (fun h => h.writeCtx i (off4 0x20) v)
  | .CTX_ENERGY => on (fun h => h.writeCtx i (off4 0x20) v)
  | .CTX_GEN => on (fun h => h.writeCtx i (off4 0x20) v)
  | .CTX_CMD => on (fun h => h.writeCtxCmd a i v)
  | .LK_ADDR => on (·.writeLkAddr v)
  | .LK_GRT => on (fun h => h.writeRoute i v)
  | .LK_MRT => on (fun h => h.writeRoute (256 + i) v)
  | .LK_CLIENT => on (fun h => h.writeClient i v)
  | .LK_P_CTRL => on (fun h => h.writeLpCtrl i v)
  | .LK_P_LANEMAP => on (fun h => h.writeLanemap i v)
  | .DP_CTRL => on (·.writeDpCtrl v)
  | .DP_WDOG => on (·.writeWdog v)
  | .DP_KICK => on (fun h => h.writeKick a v)
  | .DP_LEAD => on (·.writeLead v)
  | .DP_COVER => on (fun h => h.writeCover i (h.composed p v))
  | .DP_TAKE => w.onHwMem (fun m h => h.dispatchTake m v)
  | .MB_CTRL => on (fun h => h.writeMbCtrl i v)
  | .FT_CTRL => on (·.writeFtCtrl v)
  | .FT_SPARE => on (·.writeFtSpare v)
  | .FT_LOG_POP => on (·.popFault a)
  | .HP_CTRL => on (fun h => h.writeHpCtrl i v)
  | .HP_CORES => on (fun h => h.writeHpRange i 1 v)
  | .HP_SYNC => on (fun h => h.writeHpRange i 2 v)
  | .HP_QUEUE => on (fun h => h.writeHpRange i 3 v)
  | .HP_WIN_APPLY => on (·.applyWindow)
  | .HP_KEYCMD => w.onHwMem (fun m h => h.writeKeyCmd m v)
  | .HP_KEYBLOB => on (fun h => h.writeKeyBlob (h.composed p v))
  | .SC_CMDGO => w.onHwMem (fun m h => h.lifecycle m)
  | .DG_HALT => on (·.writeDgHalt v)
  | .DG_APER_HOOP => on (fun h => if a == .debug && h.get F.SC_DEBUG_LEVEL != 3 then h else h.plainWrite p v hwSet)
  | .DG_APER_DATA => (apertureWord true v w).2
  | .CK_PLL => on (·.writePll v)
  | .CK_DOM => on (·.writeDom v)
  | .CK_MON => on (·.writeMon v)
  | .CK_RST => on (·.writeRst v)
  | .CK_RSTTB => on (·.writeRstTb v)
  | .PW_CTRL => on (·.writePwCtrl v)
  | .PW_REQ => on (·.writePwReq v)
  | .PW_SLEW => on (fun h => h.writeLimit p.reg v)
  | .PW_SWING => on (fun h => h.writeLimit p.reg v)
  | .PW_DOWN => on (fun h => h.writeLimit p.reg v)
  | .PW_IMAX => on (fun h => h.writeLimit p.reg v)
  | .PW_VMIN => on (fun h => h.writeLimit p.reg v)
  | .PW_VMAX => on (fun h => h.writeLimit p.reg v)
  | .PW_TEMERG => on (fun h => h.writeLimit p.reg v)
  | .PW_TTRIP => on (fun h => h.writeLimit p.reg v)
  | .PW_TWARN => on (fun h => h.writeLimit p.reg v)
  | .PW_SMIN => on (fun h => h.writeLimit p.reg v)
  | .PW_DUMMY => on (fun h => h.writeLimit p.reg v)
  | .PW_CAL => on (·.writePwCal v)
  | .PW_STRETCH => on (·.writePwStretch v)
  | .PW_VREQ => on (·.writeVreq v)
  | .EN_CTRL => on (·.writeEnCtrl v)
  | .EN_CAL => on (fun h => h.writeCal i v)
  | .EN_CAL_ID => on (fun h => h.writeCal 16 v)
  | .EN_SIGN => on (·.writeEnSign v)
  | .EN_SIGNBUF => on (fun h => h.writeAligned p v (·.enRefuse Rc.CFG_RANGE))
  | .MG_SNAPCTRL => w.onHwMem (fun m h => h.writeSnapCtrl m v hwSet)
  | .MG_SNAPLIST => on (fun h => h.writeAligned p v (·.mgRefuse Rc.CFG_RANGE))
  | .MG_SNAPBUF => on (fun h => h.writeAligned p v (·.mgRefuse Rc.CFG_RANGE))
  | .MG_MFP_CTRL => on (fun h => h.writeMfp p v)
  | .MG_MFP_ETYPE => on (fun h => h.writeMfp p v)
  | _ => on (fun h => h.plainWrite p v hwSet)

/-- A word of a mailbox's data is stored; the mailbox writes HOOP of the request's header itself (Table 12-7). -/
def mailboxStore (off v : Nat) (w : Work) : Work :=
  let x := off - 0x700000
  let n := x / 4096
  let v := if x % 4096 == 8 then bits 0 16 v + w.hw.get F.MB_CTRL_HOOP n * 65536 else v
  w.store Area.mailbox x (leBytes 4 v)

/-- A control-space write by an agent; `hwSet` names the W1C flags of the word that hardware sets in the same cycle (R403). -/
def ctlWrite (a : Agent) (off v hwSet : Nat) (w : Work) : Work :=
  let h := w.hw
  let v := v % 2 ^ 32
  if off % 4 != 0 || !h.served off then w
  else if a == .debug && !h.mayDebug true (placeOf off) then w.raise Rc.SEC_DEBUG_ACCESS debugSrc
  else if isMailbox off then mailboxStore off v w
  else match placeOf off with
    | none => w
    | some p =>
      if !h.built p then w
      else if !mayWrite a p.reg then
        w.raise Rc.SEC_HOOP_VIOLATION { unit := unitCode p, refusal := true, reason := unitReason p }
      else regWrite a p v hwSet w

/-- What a write of a register instance by its name passes before it takes effect: the instance exists and its domain runs, and the agent may write
it (R3, R7, R318, R390). -/
def guarded (a : Agent) (r : Reg) (i : Nat) (f : Work → Work) (w : Work) : Work :=
  let p : Place := { reg := r, idx := i, outer := i, hi := false }
  if !w.hw.served r.desc.base || r.desc.dims.foldl (fun n d => n * d.2) 1 ≤ i || !w.hw.built p then w
  else if a == .debug && !w.hw.mayDebug true (some p) then w.raise Rc.SEC_DEBUG_ACCESS debugSrc
  else if !mayWrite a r then w.raise Rc.SEC_HOOP_VIOLATION { unit := unitCode p, refusal := true, reason := unitReason p }
  else f w

/-- A write of a register instance by its name: its low word. -/
def writeNamed (a : Agent) (r : Reg) (i v : Nat) (w : Work) : Work :=
  guarded a r i (regWrite a { reg := r, idx := i, outer := i, hi := false } (v % 2 ^ 32) 0) w

end Hw

end Sys2Proof.Machine
end

