-- ==== Sys2Proof/Machine/Mgmt.lean ====
section
/-! DEFINITION. The object dictionary, its sessions, the snapshot unit and the mailboxes' requests (R425 to R435, R330 to R332, R283). -/

namespace Sys2Proof.Machine

/-! The snapshot unit (R429). -/

/-- SNAPSHOT_CAPTURE: in a beat after the one of GO every listed word is sampled in one cycle and written to MG_SNAPBUF. -/
def snapshotCapture (w : Work) : Work :=
  let h := w.hw
  if !h.on F.MG_SNAPCTRL_GO || h.time.beat ≤ h.mgmt.snapBeat then w
  else
    let n := h.get F.MG_SNAPCTRL_COUNT
    let words := (List.range n).flatMap (fun i => leBytes 4 (h.sampleWord w.mem (w.mem.le Area.block (h.rd .MG_SNAPLIST 0 + 4 * i) 4)))
    let w := w.store Area.block (h.rd .MG_SNAPBUF 0) words
    w.onHw (fun h => ((h.wr .MG_SNAPBEAT 0 h.time.beat).put F.MG_SNAPCTRL_GO 0).setFlag F.MG_SNAPCTRL_DONE)

/-! The dictionary (Table 17-7). -/

/-- What an entry maps to. -/
inductive DictSrc where
  | field (f : Fld) (i : Nat)
  | fwMajor | fwMinor | certificate | mac | sessionsOpen | discarded | powerRequest | warmReset | selector | selValid | selKeyed
  | keyBlob | account | faultCount | faultIndex | faultEntry | priority
  deriving DecidableEq, Repr

/-- An entry: type code of Table 17-1, most bytes, access code (0 RO, 1 RW, 2 WO, 3 RWL, 4 CONST), tenants' reach (0 none, 1 as the access
code, 2 read only), and what it maps to. -/
structure DictEntry where
  typ : Nat
  size : Nat
  access : Nat
  tenant : Nat
  src : DictSrc
  deriving DecidableEq, Repr

namespace Dict

/-- A scalar entry of n bytes that maps to a field. -/
def fld (typ size access tenant : Nat) (f : Fld) (i : Nat := 0) : DictEntry := { typ := typ, size := size, access := access, tenant := tenant, src := .field f i }

def firm (typ size access tenant : Nat) (src : DictSrc) : DictEntry := { typ := typ, size := size, access := access, tenant := tenant, src := src }

/-- The limits, PW_SLEW to PW_DUMMY. -/
def limits : List Fld :=
  [F.PW_SLEW_VALUE, F.PW_SWING_VALUE, F.PW_DOWN_VALUE, F.PW_IMAX_VALUE, F.PW_VMIN_VALUE, F.PW_VMAX_VALUE, F.PW_TEMERG_VALUE,
   F.PW_TTRIP_VALUE, F.PW_TWARN_VALUE, F.PW_SMIN_VALUE, F.PW_DUMMY_VALUE]

/-- The entries of an index, by subindex. -/
def subs (h : Hw) (idx : Nat) : List (Nat × DictEntry) :=
  if 0x3010 ≤ idx && idx < 0x3010 + h.build.linkports then
    let p := idx - 0x3010
    [(1, fld 2 1 0 0 F.LK_P_STATUS_STATE p), (2, fld 4 4 0 0 ⟨.LK_P_DELAY, 0, 32⟩ p), (3, fld 5 8 0 0 F.LK_P_MISS_COUNT p)]
  else if 0x3200 ≤ idx && idx < 0x3300 then [(0, fld 2 1 1 0 ⟨.LK_GRT, 0, 8⟩ (idx - 0x3200))]
  else if 0x4300 ≤ idx && idx < 0x4300 + h.physCores then
    let n := idx - 0x4300
    [(1, fld 1 1 0 0 ⟨.FT_SVC, F.FT_SVC_ADMITTED.lo + n, 1⟩), (2, fld 1 1 0 0 ⟨.FT_SVC, F.FT_SVC_CLEAN.lo + n, 1⟩)]
  else match idx with
    | 0x1000 => [(0, fld 4 4 4 1 ⟨.GL_ID, 0, 32⟩)]
    | 0x1001 => [(0, fld 5 8 4 1 F.GL_SERIAL_SERIAL)]
    | 0x1002 => [(0, fld 5 8 4 1 ⟨.GL_PARAMS, 0, 64⟩)]
    | 0x1003 => [(1, firm 2 1 0 1 .fwMajor), (2, firm 2 1 0 1 .fwMinor)]
    | 0x1004 => [(0, firm 0xA 4096 3 2 .certificate)]
    | 0x1010 => [(1, fld 3 2 1 0 F.MG_MFP_ETYPE_TYPE), (2, fld 2 1 1 0 F.MG_MFP_CTRL_NODE_ID), (3, fld 2 1 1 0 F.MG_MFP_CTRL_NODE_COUNT),
                 (4, firm 0xA 6 0 0 .mac)]
    | 0x1011 => [(0, firm 2 1 0 0 .sessionsOpen), (1, firm 4 4 0 0 .discarded)]
    | 0x2000 => [(0, fld 2 1 0 0 F.PW_STATE_STATE)]
    | 0x2001 => [(0, firm 2 1 2 0 .powerRequest)]
    | 0x2002 => [(0, firm 1 1 2 0 .warmReset)]
    | 0x2010 => (List.range 11).map (fun k => (k + 1, fld 3 2 1 0 (limits.getD k F.PW_SLEW_VALUE)))
    | 0x2020 => [(0, fld 2 1 0 0 F.PW_TMAX_HOTTEST)]
    | 0x3000 => [(0, fld 3 2 0 1 F.LK_ADDR_ADDR)]
    | 0x4000 => [(0, fld 2 1 1 0 F.MP_BM_CTRL_SCRATCH_UNITS)]
    | 0x4100 => [(1, fld 3 2 0 0 F.MP_WC_READ), (2, fld 3 2 0 0 F.MP_WC_WRITE)]
    | 0x5000 => [(0, fld 2 1 0 1 F.SC_STATE_STATE)]
    | 0x5001 => [(0, fld 2 1 0 0 F.SC_DEBUG_LEVEL)]
    | 0x5010 => [(0, firm 3 2 1 1 .selector)]
    | 0x5011 => [(1, firm 1 1 0 1 .selValid), (2, firm 1 1 0 1 .selKeyed)]
    | 0x5020 => [(0, firm 0xA 384 2 1 .keyBlob)]
    | 0x6000 => [(0, fld 5 8 0 0 F.EN_MEASURED_UJ)]
    | 0x6001 => [(0, fld 5 8 0 0 F.EN_OVERHEAD_UJ)]
    | 0x6002 => [(0, fld 5 8 0 0 F.EN_REPLAY_UJ)]
    | 0x6010 => [(0, firm 5 8 0 1 .account)]
    | 0x6020 => [(0, fld 4 4 3 0 F.EN_CAL_ID_ID)]
    | 0x6021 => (List.range 16).map (fun k => (k + 1, fld 4 4 3 0 F.EN_CAL_FJ k))
    | 0x7000 => [(0, firm 4 4 0 0 .faultCount)]
    | 0x7001 => [(0, firm 4 4 1 0 .faultIndex)]
    | 0x7002 => [(0, firm 0xA 32 0 0 .faultEntry)]
    | 0x7010 => [(0, fld 4 4 0 0 ⟨.PL_BOOT, 0, 32⟩)]
    | 0x8000 => [(0, fld 9 8 0 1 ⟨.TM_NOW, 0, 64⟩)]
    | 0x8001 => [(0, fld 5 8 0 1 ⟨.TM_EPOCH, 0, 64⟩)]
    | 0x8002 => [(0, fld 2 1 0 0 F.TM_STATUS_STATE)]
    | 0x8010 => [(0, firm 2 1 1 0 .priority)]
    | 0x8020 => [(0, fld 3 2 0 0 F.TM_STRETCH_CURRENT)]
    | _ => []

/-- Results of Table 17-6. -/
def ok : Nat := 0
def noObject : Nat := 1
def noSub : Nat := 2
def access : Nat := 3
def badType : Nat := 4
def refused : Nat := 5
def notDone : Nat := 6
def tooBig : Nat := 7

/-- Who asks: the operator, or a tenant of a hoop; the hoop selector and the fault read index of the session. -/
structure Principal where
  tenant : Bool
  hoop : Nat
  selector : Nat := 0
  faultIndex : Nat := 0
  deriving DecidableEq, Repr

/-- The hoop that the selected entries mean. -/
def Principal.selected (p : Principal) : Nat := if p.tenant then p.hoop else p.selector

/-- The entry at an index and subindex, or the result that says why not. -/
def find (h : Hw) (idx sub : Nat) : Except Nat DictEntry :=
  match subs h idx with
  | [] => .error noObject
  | es => match es.find? (fun e => e.1 == sub) with
    | some e => .ok e.2
    | none => .error noSub

/-- The block's MAC address (R431). -/
def macBytes (h : Hw) : List Byte := 2#8 :: (leBytes 5 h.build.serial).reverse

/-- The value of an entry as bytes. -/
def value (h : Hw) (m : Mem) (p : Principal) (e : DictEntry) : List Byte :=
  match e.src with
  | .field f i => leBytes e.size (bits f.lo f.w (h.shown m f.reg i))
  | .fwMajor => leBytes 1 h.procs.keeper.fwMajor
  | .fwMinor => leBytes 1 h.procs.keeper.fwMinor
  | .certificate => h.mgmt.certificate
  | .mac => macBytes h
  | .sessionsOpen => leBytes 1 (h.mgmt.sessions.filter (fun (s : Nat × Session) => s.2.opening.isNone)).length
  | .discarded => leBytes 4 h.mgmt.discarded
  | .selector => leBytes 2 p.selected
  | .selValid => leBytes 1 (bits 0 1 (h.shown m .HP_CTRL p.selected))
  | .selKeyed => leBytes 1 (bits 2 1 (h.shown m .HP_CTRL p.selected))
  | .account => leBytes 8 (h.rd .EN_ACCT p.selected)
  | .faultCount => leBytes 4 h.mgmt.faults.length
  | .faultIndex => leBytes 4 p.faultIndex
  | .faultEntry => match h.mgmt.faults[p.faultIndex]? with
    | some x => Hw.entryBytes x
    | none => []
  | .priority => leBytes 1 h.mgmt.priority
  | _ => []

/-- Control-space words that a read of an entry captures. -/
def words (e : DictEntry) : Nat :=
  match e.src with
  | .field f _ => f.reg.desc.size / 4
  | .selValid => 1
  | .selKeyed => 1
  | .account => 2
  | _ => 0

/-- Zeros up to a multiple of 4. -/
def pad (bs : List Byte) : List Byte := bs ++ List.replicate ((4 - bs.length % 4) % 4) 0#8

/-- A response item (Table 17-5). -/
def item (idx sub result typ reason total : Nat) (data : List Byte) : List Byte :=
  leBytes 2 idx ++ leBytes 1 sub ++ leBytes 1 result ++ leBytes 1 typ ++ leBytes 1 0 ++ leBytes 2 reason ++ leBytes 2 total ++
    leBytes 2 data.length ++ pad data

/-! Reads (R426, R427, R430, R435). -/

/-- One read item: index, subindex, OFFSET and MAXLEN. Its result and the words it captures. -/
def readItem (h : Hw) (m : Mem) (p : Principal) (idx sub off maxlen : Nat) : List Byte × Nat :=
  match find h idx sub with
  | .error r => (item idx sub r 0 0 0 [], 0)
  | .ok e =>
    if e.access == 2 || (p.tenant && e.tenant == 0) then (item idx sub access e.typ 0 0 [], 0)
    else if e.typ != 0xA && off != 0 then (item idx sub badType e.typ 0 0 [], 0)
    else
      let v := value h m p e
      if v.length < off then (item idx sub badType e.typ 0 v.length [], 0)
      else
        let d := v.drop off
        (item idx sub ok e.typ 0 v.length (if maxlen == 0 then d else d.take maxlen), words e)

/-- The items of a READ in order, up to 128 captured words and a body limit. -/
def readItems (h : Hw) (m : Mem) (p : Principal) (limit : Nat) : Nat → List Byte → Nat → List Byte → Bool → List Byte
  | 0, _, _, out, _ => out
  | n + 1, body, used, out, full =>
    let idx := leAt 0 2 body
    let sub := leAt 2 1 body
    let r := readItem h m p idx sub (leAt 4 2 body) (leAt 6 2 body)
    let rest := 12 * n
    if full || 128 < used + r.2 || limit < out.length + r.1.length + rest then
      readItems h m p limit n (body.drop 8) used (out ++ item idx sub tooBig 0 0 0 []) true
    else readItems h m p limit n (body.drop 8) (used + r.2) (out ++ r.1) false

/-! Writes (R427, R434, R435). -/

/-- A write item. -/
structure WriteItem where
  idx : Nat
  sub : Nat
  typ : Nat
  off : Nat
  data : List Byte
  deriving DecidableEq, Repr

/-- The items of a WRITE request; none where the body ends early. -/
def parseWrites : Nat → List Byte → Option (List WriteItem)
  | 0, _ => some []
  | n + 1, b =>
    let len := leAt 4 2 b
    let next := 8 + (len + 3) / 4 * 4
    if b.length < next then none
    else (parseWrites n (b.drop next)).map (fun t =>
      { idx := leAt 0 2 b, sub := leAt 2 1 b, typ := leAt 3 1 b, off := leAt 6 2 b, data := (b.drop 8).take len } :: t)

/-- The checks of an item before any write: 0, or its result. -/
def checkWrite (h : Hw) (m : Mem) (p : Principal) (x : WriteItem) : Nat :=
  match find h x.idx x.sub with
  | .error r => r
  | .ok e =>
    let locked := e.access == 3 && 2 ≤ h.get F.SC_STATE_STATE
    if e.access == 0 || e.access == 4 || locked || (p.tenant && (e.tenant != 1 || e.src == .selector)) then access
    else if x.typ != e.typ then badType
    else if e.typ == 0xA then
      let now := (value h m p e).length
      if e.size < x.off + x.data.length || (x.off != 0 && x.off != now) then badType else ok
    else if x.off != 0 || x.data.length != e.size || (e.typ == 1 && 1 < leNat x.data) then badType
    else ok

/-- Refusals logged so far. -/
def refusals (h : Hw) : Nat := h.get F.FT_LOG_STATUS_WRAPS + h.faultLog.length

/-- The code of a refusal that a write has just met; 0: none. -/
def metRefusal (before : Nat) (h : Hw) : Nat :=
  if refusals h == before then 0
  else match h.faultLog.getLast? with
    | some e => if e.response == 0 then e.code else 0
    | none => 0

/-- The Keeper's write of a field (R427). -/
def writeField (f : Fld) (i v : Nat) (w : Work) : Work :=
  let d := f.reg.desc
  let old := w.hw.rd f.reg i
  let plain := Nat.land old (Nat.lor d.rw d.rwl)
  let x := putBits f.lo f.w v plain
  let p : Place := { reg := f.reg, idx := i, outer := i, hi := false }
  let w1 := if !w.hw.served d.base || !w.hw.built p then w else Hw.regWrite .keeper p (x % 2 ^ 32) 0 w
  if d.size == 8 then Hw.regWrite .keeper { p with hi := true } (x / 2 ^ 32) 0 w1 else w1

/-- One write: the code of its refusal (0: written), the principal and the block after it. -/
def writeOne (p : Principal) (x : WriteItem) (w : Work) : Nat × Principal × Work :=
  match find w.hw x.idx x.sub with
  | .error _ => (0, p, w)
  | .ok e =>
    let v := leNat x.data
    let n := refusals w.hw
    let done (w : Work) : Nat × Principal × Work := (metRefusal n w.hw, p, w)
    match e.src with
    | .field f i => if 2 ^ f.w ≤ v then (Rc.CFG_RANGE, p, w) else done (writeField f i v w)
    | .certificate => (0, p, w.onHw (fun h => { h with mgmt := { h.mgmt with certificate := if x.off == 0 then x.data else h.mgmt.certificate ++ x.data } }))
    | .powerRequest => if 4 ≤ v then (Rc.CFG_RANGE, p, w) else done (Hw.writeNamed .keeper .PW_REQ 0 v w)
    | .warmReset => if v == 1 then done (Hw.writeNamed .keeper .CK_RST 0 (2 ^ 17) w) else (0, p, w)
    | .selector => if w.hw.build.hoops ≤ v then (Rc.CFG_RANGE, p, w) else (0, { p with selector := v }, w)
    | .faultIndex => (0, { p with faultIndex := v }, w)
    | .priority => (0, p, w.onHw (fun h => { h with mgmt := { h.mgmt with priority := v } }))
    | .keyBlob =>
      let w := w.store Area.block (w.hw.rd .HP_KEYBLOB 0) (sliceBytes 0 384 x.data)
      let w := Hw.writeNamed .keeper .HP_KEYCMD 0 (1 + p.selected * 65536) w
      let met := metRefusal n w.hw
      (if met != 0 then met else w.hw.get F.HP_KEYSTAT_REASON, p, w)
    | _ => (0, p, w)

/-- The writes of a request in order, up to the first refusal. -/
def writeAll : List WriteItem → Bool → Principal → List Byte → Work → List Byte × Principal × Work
  | [], _, p, out, w => (out, p, w)
  | x :: t, stopped, p, out, w =>
    let typ := match find w.hw x.idx x.sub with | .ok e => e.typ | .error _ => 0
    if stopped then writeAll t true p (out ++ item x.idx x.sub notDone typ 0 0 []) w
    else
      let r := writeOne p x w
      let total := match find w.hw x.idx x.sub with | .ok e => (value r.2.2.hw r.2.2.mem r.2.1 e).length | .error _ => 0
      writeAll t (r.1 != 0) r.2.1 (out ++ item x.idx x.sub (if r.1 == 0 then ok else refused) typ r.1 total []) r.2.2

/-- The body of a WRITE's response, and what it has done. -/
def writeRequest (p : Principal) (xs : List WriteItem) (w : Work) : List Byte × Principal × Work :=
  match xs.findIdx? (fun x => checkWrite w.hw w.mem p x != 0) with
  | some k =>
    let items := (List.range xs.length).flatMap (fun i => match xs[i]? with
      | some x =>
        let typ := match find w.hw x.idx x.sub with | .ok e => e.typ | .error _ => 0
        item x.idx x.sub (if i == k then checkWrite w.hw w.mem p x else notDone) typ 0 0 []
      | none => [])
    (items, p, w)
  | none => writeAll xs false p [] w

/-- A request body is answered: the response body, or none where the request is malformed. `limit` is the largest response body. -/
def serve (p : Principal) (body : List Byte) (limit : Nat) (w : Work) : Option (List Byte × Principal × Work) :=
  let op := leAt 0 1 body
  let count := leAt 1 1 body
  let head := leBytes 1 op ++ leBytes 1 count ++ leBytes 2 0 ++ leBytes 8 w.hw.time.beat
  if body.length < 4 || count == 0 || 32 < count then none
  else if op == 1 then
    if body.length < 4 + 8 * count then none
    else
      let out := readItems w.hw w.mem p (limit - 12) count (body.drop 4) 0 [] false
      some (head ++ out, p, w.onHw (fun h => h.wr .MG_SNAPBEAT 0 h.time.beat))
  else if op == 2 then (parseWrites count (body.drop 4)).map (fun xs => let r := writeRequest p xs w; (head ++ r.1, r.2.1, r.2.2))
  else none

end Dict

/-! Sessions (R431 to R433). -/

namespace Hw

def onMgmt (h : Hw) (f : Mgmt → Mgmt) : Hw := { h with mgmt := f h.mgmt }

def mgMagic : Nat := 0x4D47

/-- The SRC of a message that came through the frame port. -/
def framePort : Nat := 65536

/-- A message that the Keeper takes leaves the inbox; the answer: where it came from. -/
def takeMgmt (h : Hw) (msg : List Byte) : Hw × Option Nat :=
  match h.link.inbox.find? (fun x => x.cls == clsDict && x.data.take msg.length == msg) with
  | some x => (h.onLink (fun k => { k with inbox := k.inbox.erase x }), some x.src)
  | none => (h, none)

/-- A message of the block. -/
def mgMessage (kind session seq : Nat) (body : List Byte) : List Byte :=
  leBytes 2 mgMagic ++ leBytes 1 2 ++ leBytes 1 kind ++ leBytes 2 session ++ leBytes 2 body.length ++ leBytes 8 seq ++ body

/-- Answer with a message: on the link it came from, or at the frame port. -/
def answer (h : Hw) (dest : Option Nat) (msg : List Byte) : Hw :=
  let h := h.onMgmt (fun g => { g with reply := msg })
  match dest with
  | some a =>
    if a == framePort then h
    else if h.on F.LK_ADDR_ASSIGNED then h.sendTo a clsDict msg
    else (h.livePorts.foldl (fun h p => (split 0 0 clsDict 1 1 h.link.msgId msg).foldl (fun h f => h.enqueue p f) h) h).nextMsg
  | none => h

/-- The header of a message is that of a kind, and its body is whole. -/
def headOk (kind : Nat) (msg : List Byte) : Bool :=
  leAt 0 2 msg == mgMagic && leAt 2 1 msg == 2 && leAt 3 1 msg == kind && 16 + leAt 6 2 msg ≤ msg.length && msg.length ≤ 1500

def msgBody (msg : List Byte) : List Byte := (msg.drop 16).take (leAt 6 2 msg)

/-- A hash as bytes. -/
def hashBytes (x : BitVec 384) : List Byte := leBytes 48 x.toNat

def reject (h : Hw) (dest : Option Nat) (session reason : Nat) : Hw := h.answer dest (mgMessage 7 session 0 (leBytes 1 reason))

/-- The dictionary is served: the block is awake and the Keeper runs (R425). -/
def dictServed (h : Hw) : Bool := !h.power.sleeping && !h.power.porzLow && h.runs true

/-- MGMT_FRAME_RECEIVE: a frame for this block is a message for the Keeper; every other one is counted. -/
def frameAccept (h : Hw) (frame : List Byte) : Hw :=
  let dst := frame.take 6
  let etype := leNat (((frame.drop 12).take 2).reverse)
  if !h.dictServed || !h.on F.MG_MFP_CTRL_ENABLE then h
  else if etype != h.get F.MG_MFP_ETYPE_TYPE || frame.length < 14 || !(dst == Dict.macBytes h || dst == List.replicate 6 0xFF#8) then
    h.inc F.MG_MFP_DROP_COUNT
  else h.onLink (fun k => { k with inbox := k.inbox ++ [{ cls := clsDict, src := framePort, data := frame.drop 14 }] })

/-- OPEN: a session begins, or the answer is REJECT. -/
def mgOpen (h : Hw) (msg : List Byte) : Hw :=
  let t := h.takeMgmt msg
  let h := t.1
  let b := msgBody msg
  if !h.dictServed || !headOk 1 msg then h
  else if b.length != 161 || 1 < leAt 0 1 b || leAt 1 1 b != 0 || leAt 4 4 b != 0 || leAt 8 8 b != h.build.serial || leAt 4 2 msg != 0 then h.reject t.2 0 1
  else if 8 ≤ h.mgmt.sessions.length then h.reject t.2 0 2
  else
    let n := h.mgmt.nextSession
    let nonce := (List.range 6).flatMap (fun k => leBytes 8 (Config.trng (h.draws + 1 + k)).toNat)
    let part := sliceBytes 0 97 (Config.ephemeralPub h.draws) ++ nonce
    let sig := if h.get F.SC_STATE_STATE == 0 then List.replicate 96 0#8 else sliceBytes 0 96 (Config.deviceSign (Config.sha384 (b ++ part)))
    let s : Session :=
      { opening := some (b, part ++ sig), tenant := leAt 0 1 b == 1, hoop := leAt 2 2 b,
        secret := hashBytes (Config.ecdh h.draws (sliceBytes 16 97 b)), salt := (b.drop 113).take 48 ++ nonce, lastBeat := h.time.beat }
    let h := (h.draw 7).onMgmt (fun g => { g with sessions := Tab.insert g.sessions n s, nextSession := n % 65535 + 1 })
    h.answer t.2 (mgMessage 2 n 0 (part ++ sig))

/-- The principal has proved itself (R432). -/
def confirmOk (h : Hw) (s : Session) (hash : BitVec 384) (b : List Byte) : Bool :=
  let sig := sliceBytes 0 96 b
  let free := h.get F.SC_STATE_STATE == 0
  if s.tenant then
    let tpub := (Tab.getD h.keys s.hoop {}).tpub
    s.hoop < h.build.hoops && h.on F.HP_CTRL_VALID s.hoop && !tpub.isEmpty && (free || Config.ecdsaOk tpub hash sig)
  else
    let pub := sliceBytes 96 97 b
    free || ((Config.sha384 pub).toNat == h.opKey 2 && Config.ecdsaOk pub hash sig)

/-- CONFIRM: the keys are derived, or the session ends with REJECT. -/
def mgConfirm (h : Hw) (msg : List Byte) : Hw :=
  let t := h.takeMgmt msg
  let h := t.1
  let n := leAt 4 2 msg
  if !h.dictServed || !headOk 3 msg then h
  else match Tab.find? h.mgmt.sessions n with
    | none => h.reject t.2 n 1
    | some s => match s.opening with
      | none => h.reject t.2 n 1
      | some (o, a) =>
        if h.confirmOk s (Config.sha384 (o ++ a)) (msgBody msg) then
          let info := "FRV2-MGMT".toList.map (fun c => BitVec.ofNat 8 c.toNat) ++ leBytes 2 n
          let keys := Config.hkdf (BitVec.ofNat 384 (leNat s.secret)) s.salt info 96
          let s := { s with opening := none, stationKey := sliceBytes 0 48 keys, blockKey := sliceBytes 48 48 keys, secret := [], salt := [], lastBeat := h.time.beat }
          h.onMgmt (fun g => { g with sessions := Tab.insert g.sessions n s })
        else (h.onMgmt (fun g => { g with sessions := Tab.erase g.sessions n })).reject t.2 n 1

/-- A message of a confirmed session with a right TAG. -/
def authentic (h : Hw) (kind : Nat) (msg : List Byte) : Option Session :=
  match Tab.find? h.mgmt.sessions (leAt 4 2 msg) with
  | some s =>
    let n := 16 + leAt 6 2 msg
    if s.opening.isNone && headOk kind msg && (msg.drop n).take 48 == hashBytes (Config.hmac384 s.stationKey (msg.take n)) then some s else none
  | none => none

/-- A message is discarded and counted (entry 1011h sub 01h). -/
def discardMsg (h : Hw) : Hw := h.onMgmt (fun g => { g with discarded := (g.discarded + 1) % 2 ^ 32 })

/-- CLOSE. -/
def mgClose (h : Hw) (msg : List Byte) : Hw :=
  let h := (h.takeMgmt msg).1
  if !h.dictServed then h
  else if (h.authentic 6 msg).isSome then h.onMgmt (fun g => { g with sessions := Tab.erase g.sessions (leAt 4 2 msg) })
  else h.discardMsg

/-- REQUEST_REPEAT: the last REQUEST again is answered with the stored RESPONSE. -/
def mgRepeat (h : Hw) (msg : List Byte) : Hw :=
  let t := h.takeMgmt msg
  let h := t.1
  if !h.dictServed then h
  else match h.authentic 4 msg with
    | none => h.discardMsg
    | some s => if leAt 8 8 msg == s.lastSeq && s.lastSeq != 0 then h.answer t.2 s.lastResponse else h.discardMsg

/-- SESSION_TIMEOUT: sessions without an accepted REQUEST for 2^27 beats end. -/
def sessionTimeout (h : Hw) : Hw :=
  h.onMgmt (fun g => { g with sessions := g.sessions.filter (fun (s : Nat × Session) => h.time.beat < s.2.lastBeat + 2 ^ 27) })

end Hw

/-- A REQUEST whose OP is the command's: executed when its SEQ is the next, answered and remembered. -/
def mgRequest (op : Nat) (msg : List Byte) (w : Work) : Work :=
  let t := w.hw.takeMgmt msg
  let w := w.onHw (fun _ => t.1)
  let n := leAt 4 2 msg
  let seq := leAt 8 8 msg
  if !w.hw.dictServed then w
  else match w.hw.authentic 4 msg with
    | none => w.onHw (·.discardMsg)
    | some s =>
      if seq == s.lastSeq && s.lastSeq != 0 then w.onHw (fun h => h.answer t.2 s.lastResponse)
      else if seq != s.lastSeq + 1 || leAt 16 1 msg != op then w.onHw (·.discardMsg)
      else match Dict.serve { tenant := s.tenant, hoop := s.hoop, selector := s.selector, faultIndex := s.faultIndex } (Hw.msgBody msg) 1436 w with
        | none => w.onHw (·.discardMsg)
        | some (body, p, w) =>
          let m := Hw.mgMessage 5 n seq body
          let m := m ++ Hw.hashBytes (Config.hmac384 s.blockKey m)
          w.onHw (fun h =>
            let s := { s with lastSeq := seq, lastResponse := m, lastBeat := h.time.beat, selector := p.selector, faultIndex := p.faultIndex }
            let h := if (Tab.find? h.mgmt.sessions n).isNone then h else h.onMgmt (fun g => { g with sessions := Tab.insert g.sessions n s })
            h.answer t.2 m)

/-! Mailboxes (R330 to R332). -/

namespace Mb

/-- A mailbox's request and reply, 2,048 bytes each. -/
def requestAt (n : Nat) : Nat := n * 4096
def replyAt (n : Nat) : Nat := n * 4096 + 2048

/-- The reply: its body first, its header last. -/
def reply (n status : Nat) (body : List Byte) (w : Work) : Work :=
  let h := w.hw
  let p := h.proc (h.on F.MB_CTRL_TARGET n)
  let a := requestAt n
  let w' := w.store Area.mailbox (replyAt n + 16) body
  w'.store Area.mailbox (replyAt n)
    (leBytes 1 p.fwMajor ++ leBytes 1 p.fwMinor ++ leBytes 2 (w.mem.le Area.mailbox (a + 2) 2) ++ leBytes 2 body.length ++
      leBytes 2 (w.mem.le Area.mailbox (a + 6) 2) ++ leBytes 2 status ++ leBytes 2 (h.get F.MB_CTRL_HOOP n) ++ leBytes 4 0)

/-- The types that a target serves (Table 12-8). -/
def types (keeper : Bool) : List Nat := if keeper then [1, 2, 3] else [0x101, 0x102]

/-- Fail the request with a code. -/
def fail (n code : Nat) (w : Work) : Work :=
  reply n code [] (w.raise code { unit := if w.hw.on F.MB_CTRL_TARGET n then 0x94 else 0x93 })

/-- A new request of a mailbox in service: `serve` gives STATUS, body and block for one of the row's type. -/
def handle (typ n : Nat) (serve : List Byte → Work → Nat × List Byte × Work) (w : Work) : Work :=
  let h := w.hw
  let a := requestAt n
  let get (o k : Nat) : Nat := w.mem.le Area.mailbox (a + o) k
  let keeper := h.on F.MB_CTRL_TARGET n
  let p := h.proc keeper
  let t := get 2 2
  if 8 ≤ n || !h.runs keeper || !h.on F.MB_CTRL_ENABLE n || get 6 2 == w.mem.le Area.mailbox (replyAt n + 6) 2 then w
  else if get 0 1 != p.fwMajor || p.fwMinor < get 1 1 then fail n Rc.FWR_MB_VERSION w
  else if !(types keeper).contains t then fail n Rc.FWR_MB_TYPE w
  else if t != typ then w
  else
    let r := serve (w.mem.read Area.mailbox (a + 16) (min 2032 (get 4 2))) w
    if r.1 == Rc.FWR_MB_TYPE then fail n Rc.FWR_MB_TYPE r.2.2 else reply n r.1 r.2.1 r.2.2

/-- Who a mailbox acts for (R426). -/
def principal (h : Hw) (n : Nat) : Dict.Principal :=
  let hoop := h.get F.MB_CTRL_HOOP n
  { tenant := hoop != 0, hoop := hoop, selector := hoop }

/-- TYPE 0001h and 0002h: the dictionary. OP must agree with TYPE. -/
def dict (op n : Nat) (w : Work) : Work :=
  handle op n (fun body w =>
    if leAt 0 1 body != op then (Rc.FWR_MB_TYPE, [], w)
    else match Dict.serve (principal w.hw n) body 2032 w with
      | some (b, _, w) => (0, b, w)
      | none => (Rc.FWR_MB_TYPE, [], w)) w

/-- TYPE 0003h: the Keeper reclaims the queues of the mailbox's hoop (R283). -/
def reclaim (n : Nat) (w : Work) : Work :=
  handle 3 n (fun _ w =>
    let hoop := w.hw.get F.MB_CTRL_HOOP n
    let qs := (w.hw.listed .SQ_CTRL).filter (fun q => w.hw.on F.SQ_CTRL_ENABLE q && w.hw.queueHoop q == some hoop)
    (0, [], w.onHw (fun h => qs.foldl (fun h q => h.writeSqCtrl .keeper q (h.get F.SQ_CTRL_LOG2 q * 256)) h))) w

/-- A queue that the mailbox's hoop may name. -/
def ownQueue (h : Hw) (n q : Nat) : Bool := q < 4096 && h.queueHoop q == some (h.get F.MB_CTRL_HOOP n)

/-- TYPE 0101h: restart of a STOPPED queue (R274). -/
def queueRestart (n : Nat) (w : Work) : Work :=
  handle 0x101 n (fun body w =>
    let q := leAt 0 2 body
    if ownQueue w.hw n q then (0, [], w.onHw (fun h => h.writeSqCtrl .dispatcher q 2)) else (Rc.SEC_HOOP_VIOLATION, [], w)) w

/-- TYPE 0102h: SQ_HEAD, SQ_DONE and STATE. -/
def queueStatus (n : Nat) (w : Work) : Work :=
  handle 0x102 n (fun body w =>
    let q := leAt 0 2 body
    if ownQueue w.hw n q then (0, leBytes 4 (w.hw.rd .SQ_HEAD q) ++ leBytes 4 (w.hw.rd .SQ_DONE q) ++ leBytes 4 (w.hw.sqState q), w)
    else (Rc.SEC_HOOP_VIOLATION, [], w)) w

end Mb

end Sys2Proof.Machine
end

