-- ==== Sys2Proof/Machine/Outside.lean ====
section
/-! DEFINITION. What comes from outside: the test access port's permits and accesses (R378 to R385), the attach port (R370, R449, R450), the
processors' apertures (R317) and reads of control space (R8). -/

namespace Sys2Proof.Machine

/-! Reads. -/

/-- A read of control space by an agent, its value noted; a read of DG_APER_DATA reads through the aperture. -/
def busRead (a : Agent) (off : Nat) (w : Work) : Work :=
  if a == .debug && !w.hw.mayDebug false (placeOf off) then w.raise Rc.SEC_DEBUG_ACCESS debugSrc
  else if off == (Reg.desc .DG_APER_DATA).base && w.hw.served off then
    let r := apertureWord false 0 w
    r.2.onHw (fun h => { h with readBack := Tab.put h.readBack 0 a.index (r.1.getD 0) })
  else w.onHwMem (fun m h => h.ctlRead m a off)

/-! Permits (R379, R380). -/

namespace Hw

/-- Scrubbing of accumulator memory, as at ENABLE (R84): every line EMPTY. -/
def scrubArray (h : Hw) (c : Nat) : Hw :=
  (h.put F.CR_ARR_STATUS_SCRUB 1 c).onArr c (fun _ => { scrubDue := some (h.after (h.build.accTiles * h.build.arrayRows)) })

/-- A TENANT image is in a tambour. -/
def tenantImage (h : Hw) (t : Nat) : Bool := h.tExists t && h.tState t != tEmpty && h.tState t != tClearing && !h.tOn t F.TB_ID_OPERATOR

end Hw

/-- Entry into D3 by permit erases what tenants left (R380). -/
def d3Erase (w : Work) : Work :=
  let cs := List.range w.hw.physCores
  let w := w.onHw (fun h => (h.eraseAllKeys).startInval)
  let w := Work.each cs mmZero w
  w.onHw (fun h => (cs ++ [gatherTambour]).foldl (fun h t => if h.tenantImage t then h.startClearing t else h) (cs.foldl Hw.scrubArray h))

/-- The end of a permit's verification: at most 99,000 cycles after Update-DR. -/
def permitVerified (w : Work) : Work :=
  match w.hw.tap.permit with
  | none => w
  | some p =>
    let w := w.onHw (fun h => { h.put F.SC_DEBUG_BUSY 0 with tap := { h.tap with permit := none } })
    if !w.hw.permitOk p then w.onHw (fun h => (h.scRefuse Rc.SEC_PERMIT_INVALID).freshNonce)
    else
      let level := leAt 4 1 p
      let w := w.onHw (fun h => (h.setLevel level (leAt 6 2 p % 4096) (leAt 24 8 p)).freshNonce)
      if level == 3 then d3Erase w else w

/-! Debug accesses (R378, R385). -/

/-- The result that the next Capture-DR of DBG_ACCESS returns. -/
def tapResult (status data : Nat) (h : Hw) : Hw := { h with tap := { h.tap with status := status, data := data } }

/-- A debug-port access to control space: refused where the level does not allow it (R378). -/
def debugAccess (write : Bool) (off v : Nat) (w : Work) : Work :=
  if !w.hw.mayDebug write (placeOf off) then (w.raise Rc.SEC_DEBUG_ACCESS debugSrc).onHw (tapResult 2 0)
  else if write then (Hw.ctlWrite .debug off v 0 w).onHw (tapResult 0 0)
  else (busRead .debug off w).onHw (fun h => tapResult 0 (Tab.getD h.readBack (Agent.index .debug) 0) h)

/-- DBG_ACCESS through the test access port: BYPASS is selected where it is not served (R384, R385). -/
def dbgAccess (write : Bool) (off v : Nat) (w : Work) : Work :=
  let dr := w.hw.tap.status + w.hw.tap.data * 2 ^ 31
  let w := w.onHw (fun h => h.tapSelect 0x12 dr)
  if w.hw.tap.ir == 0x12 then debugAccess write (off % 2 ^ 28) v w else w

/-! The attach port (R370, R449, R450). -/

/-- The response of the target side. -/
def attachAnswer (r : Option (List Byte)) (w : Work) : Work :=
  w.onHw (fun h => { h with procs := { h.procs with attachResponse := some (r.isNone, r.getD []) } })

/-- Words of a byte string. -/
def bytesToWords : List Byte → List Nat
  | a :: b :: c :: d :: t => leNat [a, b, c, d] :: bytesToWords t
  | [] => []
  | l => [leNat l]

/-- Bytes of the mailboxes' data, when the mailbox's hoop is the port's (R331). A write leaves the HOOP field of the request to the mailbox. -/
def attachMailbox (write : Bool) (off : Nat) (data : List Byte) (w : Work) : Option (List Byte) × Work :=
  let x := off - 0x700000
  let n := x / 4096
  if w.hw.get F.MB_CTRL_HOOP n != w.hw.get F.HP_ATTACH_HOOP then (none, w.raise Rc.SEC_HOOP_VIOLATION { unit := 0xE5, refusal := true })
  else if !write then (some (w.mem.read Area.mailbox x data.length), w)
  else
    let w := w.store Area.mailbox x data
    let at10 := n * 4096 + 10
    (some [], if x < at10 + 2 && at10 < x + data.length then w.store Area.mailbox at10 (leBytes 2 (w.hw.get F.MB_CTRL_HOOP n)) else w)

/-- Control space through the attach port: mailbox data, and reads of GL_ID, GL_SERIAL and GL_PARAMS. -/
def attachControl (write : Bool) (off : Nat) (data : List Byte) (w : Work) : Option (List Byte) × Work :=
  let h := w.hw
  let words := ceilDiv data.length 4
  let gl (i : Nat) : Bool := match placeOf (off + 4 * i) with
    | some p => p.reg == .GL_ID || p.reg == .GL_SERIAL || p.reg == .GL_PARAMS
    | none => false
  if Hw.isMailbox off && off / 4096 == (off + data.length - 1) / 4096 then attachMailbox write off data w
  else if !write && off % 4 == 0 && !data.isEmpty && (List.range words).all gl then
    let vals := (List.range words).map (fun i => h.sampleWord w.mem (off + 4 * i))
    (some ((vals.flatMap (leBytes 4)).take data.length), w)
  else (none, w)

/-- A request of the host bridge at the target side: a hoop address, or control space where bit 63 of ADDR is set. A read carries as many bytes
as it asks for. -/
def attachTarget (write : Bool) (addr : Nat) (data : List Byte) (w : Work) : Work :=
  let h := w.hw
  let addr := addr % 2 ^ 64
  if !h.clocks.aclk || h.power.porzLow || h.power.sleeping then w
  else if !h.on F.HP_ATTACH_VALID then attachAnswer none (w.raise Rc.SEC_HOOP_VIOLATION { unit := 0xE5, refusal := true })
  else
    let r := if bit 63 addr then attachControl write (addr % 2 ^ 28) data w else hoopAccess 0xE5 (h.get F.HP_ATTACH_HOOP) addr write data w
    attachAnswer r.1 r.2

/-- The host bridge's response to a processor: ERR is an access fault of the processor (R450). -/
def attachInitiator (keeper err : Bool) (data : List Byte) (h : Hw) : Hw :=
  let h := { h with procs := { h.procs with initiatorResponse := some (err, if err then [] else data) } }
  h.onProc keeper (fun p => { p with accessFault := err })

/-- A processor's access through one of its apertures (R317, R367). -/
def processorAperture (dispatcher write : Bool) (hoop addr : Nat) (data : List Byte) (w : Work) : Work :=
  let r := hoopAccess (if dispatcher then 0x93 else 0x94) (hoop % 4096) (addr % 2 ^ 64) write data w
  r.2.onHw (fun h => { h with procs := { h.procs with apertureResponse := some (r.1.isNone, r.1.getD []) } })

end Sys2Proof.Machine
end

