-- ==== Sys2Proof/Machine/Beat.lean ====
section
/-! DEFINITION. The beat boundary and the passing of time (R24, R22, R289, R399, R407). -/

namespace Sys2Proof.Machine

/-- An event that falls due in the first cycle of a beat is made before anything later (R16, R43, R55, R350, R355): the switch-over, the commit, the
null commit or the replay start that no command has made yet. -/
def overdue (w : Work) : Work :=
  if w.hw.switchDueNow w.mem then switchover w
  else if w.hw.commitDueNow then stepCommit w
  else if w.hw.nullDueNow then nullCommit w
  else if w.hw.replayDueNow then replayStart w
  else w

namespace Hw

/-- The first cycle of the present beat has an event of its own to come. -/
def eventDue (h : Hw) (m : Mem) : Bool := h.switchDueNow m || h.commitDueNow || h.nullDueNow || h.replayDueNow

/-- The last cycle of a beat: step-end checks, outcomes that the end of a beat decides (R17), increments due, and the frames of the beat (R289). -/
def endBeat (h : Hw) (m : Mem) : Hw :=
  let h := (h.judgeBanks.settleAllReads.stepEnd m).settleAbort
  let h := ((h.settleCancels).settleContexts).settleIncs
  let h := (h.sinkHoops h.time.beat).sendFrames
  if h.ab.on && h.ab.readyTick ≤ h.time.beatStart + h.beatTicks then h.replayReady else h

/-- The next beat begins: the count, the boundary's tick for the frames that echo it, lane switch-overs, monitors and the governor. -/
def nextBeat (h : Hw) (m : Mem) : Hw :=
  let h := h.advanceBeat
  let h := h.onLink (fun k => { k with boundaries := ((h.time.beat, h.time.beatStart) :: k.boundaries).take 64 })
  let h := ((h.switchDone).noteTakes).leadCheck
  let h := (h.cores.map (·.1)).foldl (fun h c => h.event c 0x06 1) h
  let h := ((h.levelExpiry).telemetryRequest).governorBeat m
  h.keeperBeat m

end Hw

/-- BEAT_BOUNDARY: while ACLK runs, the beat ends and phase 0 of the next begins (R24). -/
def beatBoundary (w : Work) : Work :=
  if !w.hw.clocks.aclk then w
  else
    let w := overdue w
    let w := w.onHwMem (fun m h => (h.endBeat m).nextBeat m)
    if w.hw.eventDue w.mem then w else beginBeat w

/-- PLINTH_BEAT_COUNT: REFCLK cycles while ACLK is stopped; accepted limits come into force with a beat (R19). -/
def plinthBeats (cycles : Nat) (h : Hw) : Hw :=
  let b := h.time.beat
  let h := h.plinthCount cycles
  if b < h.time.beat then h.applyLimits else h

/-- One cycle passes and no command comes: an ACLK cycle within the beat, or a REFCLK cycle while ACLK is stopped (log entry 1). -/
def idleCycle (h : Hw) : Hw :=
  if h.clocks.aclk then h.elapse (max h.ticks (min (h.ticks + 4) (h.time.beatStart + h.beatTicks))) else plinthBeats 1 h

end Sys2Proof.Machine
end

