-- ==== Sys2Proof/Machine/State.lean ====
section
/-! DEFINITION. The machine's state, the state after reset, and the reasons for which a command stops. -/

namespace Sys2Proof.Machine

/-- The block: its hardware, its byte memories, and the commands that wait. -/
structure State where
  /-- Commands that wait, first in first out. -/
  pending : List Instr := []
  /-- The byte memories (block memory, matrix memories, port memory). -/
  mem : Mem := []
  /-- Registers and everything else the spec holds outside the byte memories. -/
  hw : Hw := {}
  deriving DecidableEq, Repr

/-- The block after a power-on reset: every register at its reset value, nothing listed in memory, no command waiting (R386, R393). -/
def State.reset : State := {}

/-- Reasons for which the machine stops with a fault: none. A block has no exception of its own, and every error that the spec describes is a reason
code, a flag or an answer in the state. -/
inductive Fault where
  deriving DecidableEq, Repr

/-- Reasons for which a command has no meaning. -/
inductive Refusal where
  /-- Raised by an arm of `exec` for a command whose meaning is not written. Safe: the machine stops. -/
  | notModelled (mnemonic : String)
  deriving DecidableEq, Repr

end Sys2Proof.Machine
end

