-- ==== Sys2Proof/Machine/Run.lean ====
section
/-! DEFINITION. How a meaning's effect becomes the next state: the abort cycle's effects are made, the cores' units move on where the command can
let them, and the writes to the byte memories are applied. -/

namespace Sys2Proof.Machine

/-- The working form of a state. -/
def State.work (s : State) : Work := ⟨s.hw, s.mem, []⟩

/-- What falls due by itself once a command has had its effect: reload requests whose cycle has come are judged (R140), reads of uncorrectable
words that have completed raise their fault (R82), increments whose cycle has come are applied (R262), and the effects of an abort cycle on the
units are made (Table 13-3). -/
def Hw.settled (h : Hw) : Hw := h.judgeBanks.settleAllReads.settleIncs.settleAbort

/-- The state that an effect leaves: what falls due is made, the writes are applied to memory, and the commands that wait are not touched. -/
def State.after (s : State) (w : Work) : State := { s with hw := w.hw.settled, mem := w.writes.foldl MemWrite.apply s.mem }

/-- A command that no unit of a core waits for completes with an effect. -/
def State.answers (f : Work → Work) (s : State) : Host.Outcome State Fault Refusal := .next (s.after (f s.work))

/-- A command that lets the cores' units move on completes with an effect, and the units move as far as they can. -/
def State.moves (f : Work → Work) (s : State) : Host.Outcome State Fault Refusal := .next (s.after (pump ((f s.work).onHw Hw.settleAbort)))

/-! Where a command acts: nothing happens in a unit that the build has not got, nor in the ACLK domain while ACLK is stopped (R3, R390). -/

/-- A command of the ACLK domain. -/
def clocked (f : Work → Work) (w : Work) : Work := if w.hw.clocks.aclk then f w else w

/-- A command of a physical core. -/
def atCore (c : Nat) (f : Work → Work) (w : Work) : Work := if w.hw.clocks.aclk && c < w.hw.physCores then f w else w

/-- A command of a link port. -/
def atLink (p : Nat) (f : Work → Work) (w : Work) : Work := if w.hw.clocks.aclk && p < w.hw.build.linkports then f w else w

/-- A command of a memory port. -/
def atPort (p : Nat) (f : Work → Work) (w : Work) : Work := if w.hw.clocks.aclk && p < w.hw.build.memports then f w else w

/-- A command of a tambour. -/
def atTambour (t : Nat) (f : Work → Work) (w : Work) : Work := if w.hw.clocks.aclk && w.hw.tExists t then f w else w

/-- A command that the firmware of a processor carries out: the Keeper's, else the Dispatcher's. It waits for nothing while the processor does not run. -/
def byFirmware (keeper : Bool) (f : Work → Work) (w : Work) : Work := if w.hw.runs keeper && w.hw.clocks.aclk then f w else w

/-- A register word with a field set. -/
def withFld (f : Fld) (v x : Nat) : Nat := putBits f.lo f.w v x

/-- The block with no command waiting: a cycle passes, and the units move as far as they can. -/
def State.idle (s : State) : State := s.after (pump (s.work.onHw idleCycle))

end Sys2Proof.Machine
end

