-- ==== Sys2Proof/Machine/ArrayCommands.lean ====
section
/-! DEFINITION. The matrix array (R60 to R85). -/

namespace Sys2Proof.Machine

/-- PASS (R63). Issue of a direct PASS. -/
def execPass (core : Nat) (word : InstrWord) (s : State) : Host.Outcome State Fault Refusal :=
  s.moves (atCore core (issueWord core (withOp word 0x21)))

/-- LOAD (R65). Issue of a LOAD. -/
def execLoad (core : Nat) (word : InstrWord) (s : State) : Host.Outcome State Fault Refusal :=
  s.moves (atCore core (issueWord core (withOp word 0x20)))

/-- LOAD_START (R66). The oldest held load starts. -/
def execLoadStart (core : Nat) (s : State) : Host.Outcome State Fault Refusal :=
  s.moves (atCore core (fun w => w.onHwMem (fun m h => h.loadStart m core)))

/-- PASS_FEED_START (R73). The oldest held pass begins to feed. -/
def execPassFeedStart (core : Nat) (s : State) : Host.Outcome State Fault Refusal :=
  s.moves (atCore core (fun w => w.onHwMem (fun m h => h.feedStart m core)))

/-- PASS_COMMIT (R74). The oldest fed pass's shadow lines are committed. -/
def execPassCommit (core : Nat) (s : State) : Host.Outcome State Fault Refusal := s.moves (atCore core (fun w => w.onHw (·.passCommit core)))

/-- ARRAY_CHECK_FAULT (R82). A check of the array or a read of its operands fails at a row and a column. -/
def execArrayCheckFault (core : Nat) (kind : Nat) (row : Nat) (col : Nat) (s : State) : Host.Outcome State Fault Refusal :=
  s.moves (atCore core (fun w => w.onHw (·.arrayFault core kind row col)))

/-- ARRAY_ENABLE (R84). A write of CR_ARR_CTRL that sets ENABLE. -/
def execArrayEnable (agent : Agent) (core : Nat) (value : Word) (s : State) : Host.Outcome State Fault Refusal :=
  s.answers (Hw.writeNamed agent .CR_ARR_CTRL core (withFld F.CR_ARR_CTRL_ENABLE 1 value.toNat))

/-- ARRAY_SCRUB_DONE (R84). The scrub ends. -/
def execArrayScrubDone (core : Nat) (s : State) : Host.Outcome State Fault Refusal :=
  s.answers (atCore core (fun w => w.onHw (fun h => if (h.arr core).scrubDue.isSome then (h.scrubDone core).noteScrubbed core else h)))

/-- ARRAY_DISABLE (R84). A write of CR_ARR_CTRL that clears ENABLE. -/
def execArrayDisable (agent : Agent) (core : Nat) (value : Word) (s : State) : Host.Outcome State Fault Refusal :=
  s.answers (Hw.writeNamed agent .CR_ARR_CTRL core (withFld F.CR_ARR_CTRL_ENABLE 0 value.toNat))

/-- ARR_SPARE_WRITE (R78). A write of CR_ARR_SPARE. -/
def execArrSpareWrite (agent : Agent) (core : Nat) (value : Word) (s : State) : Host.Outcome State Fault Refusal :=
  s.answers (Hw.writeNamed agent .CR_ARR_SPARE core value.toNat)

/-- TREE_ROW_TEST (R80). A write of CR_ARR_TREE with START and OP 00b. -/
def execTreeRowTest (agent : Agent) (core : Nat) (value : Word) (s : State) : Host.Outcome State Fault Refusal :=
  s.answers (Hw.writeNamed agent .CR_ARR_TREE core (withFld F.CR_ARR_TREE_START 1 (withFld F.CR_ARR_TREE_OP 0 value.toNat)))

/-- TREE_ALL_ROWS_TEST (R80). A write of CR_ARR_TREE with START and OP 01b. -/
def execTreeAllRowsTest (agent : Agent) (core : Nat) (value : Word) (s : State) : Host.Outcome State Fault Refusal :=
  s.answers (Hw.writeNamed agent .CR_ARR_TREE core (withFld F.CR_ARR_TREE_START 1 (withFld F.CR_ARR_TREE_OP 1 value.toNat)))

/-- TREE_MAPPING_VERIFY (R80). A write of CR_ARR_TREE with START and OP 10b. -/
def execTreeMappingVerify (agent : Agent) (core : Nat) (value : Word) (s : State) : Host.Outcome State Fault Refusal :=
  s.answers (Hw.writeNamed agent .CR_ARR_TREE core (withFld F.CR_ARR_TREE_START 1 (withFld F.CR_ARR_TREE_OP 2 value.toNat)))

/-- TREE_OPERATION_DONE (R79). The tree-mode operation ends; `ok`: the outputs agreed. -/
def execTreeOperationDone (core : Nat) (ok : Bool) (s : State) : Host.Outcome State Fault Refusal :=
  s.answers (atCore core (fun w => w.onHw (·.treeDone core ok)))

end Sys2Proof.Machine
end

