-- ==== Sys2Proof/Machine/BobbinCommands.lean ====
section
/-! DEFINITION. Bobbins (R171 to R204). -/

namespace Sys2Proof.Machine

/-- BBARM (R177). Issue of a BBARM. -/
def execBbarm (core : Nat) (word : InstrWord) (s : State) : Host.Outcome State Fault Refusal :=
  s.moves (atCore core (issueWord core (withOp word 0x18)))

/-- BBCAN (R181). Issue of a BBCAN. -/
def execBbcan (core : Nat) (word : InstrWord) (s : State) : Host.Outcome State Fault Refusal :=
  s.moves (atCore core (issueWord core (withOp word 0x19)))

/-- DESCRIPTOR_ACTIVATE (R178). The next ARMED slot of a bobbin becomes ACTIVE. -/
def execDescriptorActivate (core : Nat) (bobbin : Nat) (s : State) : Host.Outcome State Fault Refusal :=
  s.moves (atCore core (fun w => w.onHw (fun h => h.activateNow core bobbin)))

/-- BOBBIN_TRANSFER_START (R184). The regulator starts a transfer; `symbols`: wrong symbols in what its near side reads. -/
def execBobbinTransferStart (core : Nat) (symbols : Nat) (s : State) : Host.Outcome State Fault Refusal :=
  s.moves (atCore core (transferStart core symbols))

/-- DESCRIPTOR_END (R178). A CLOSING descriptor ends. -/
def execDescriptorEnd (core : Nat) (bobbin : Nat) (s : State) : Host.Outcome State Fault Refusal := s.moves (atCore core (descriptorEnd core bobbin))

/-- SLOT_TRANSMIT_MOVE (R186). A payload moves to a transmit slot. -/
def execSlotTransmitMove (core : Nat) (s : State) : Host.Outcome State Fault Refusal := s.moves (atCore core (transmitMove core))

/-- SLOT_RECEIVE_MOVE (R187). A received slot moves to a descriptor. -/
def execSlotReceiveMove (core : Nat) (s : State) : Host.Outcome State Fault Refusal := s.moves (atCore core (receiveMove core))

/-- BOBBIN_ENABLE (R200). A write of BB_CTRL with ENABLE. -/
def execBobbinEnable (agent : Agent) (core : Nat) (value : Word) (s : State) : Host.Outcome State Fault Refusal :=
  s.answers (Hw.writeNamed agent .BB_CTRL core (withFld F.BB_CTRL_ENABLE 1 value.toNat))

/-- BOBBIN_DISABLE (R181). A write of BB_CTRL that clears ENABLE. -/
def execBobbinDisable (agent : Agent) (core : Nat) (value : Word) (s : State) : Host.Outcome State Fault Refusal :=
  s.answers (Hw.writeNamed agent .BB_CTRL core (withFld F.BB_CTRL_ENABLE 0 value.toNat))

end Sys2Proof.Machine
end

