-- ==== Sys2Proof/Machine/ClockCommands.lean ====
section
/-! DEFINITION. Clocks and resets (R388 to R394). -/

namespace Sys2Proof.Machine

/-- PLL_START (R388). A write of CK_PLL with START. -/
def execPllStart (agent : Agent) (s : State) : Host.Outcome State Fault Refusal := s.answers (Hw.writeNamed agent .CK_PLL 0 1)

/-- PLL_STOP (R388). A write of CK_PLL that clears START. -/
def execPllStop (agent : Agent) (s : State) : Host.Outcome State Fault Refusal := s.answers (Hw.writeNamed agent .CK_PLL 0 0)

/-- PLL_LOCKED (R388). The 16,384th REFCLK cycle after START. -/
def execPllLocked (s : State) : Host.Outcome State Fault Refusal := s.answers (fun w => w.onHw (·.pllLocked))

/-- ACLK_SWITCH (R390). A write of CK_DOM.ACLK_RUN, its other fields as they stand. -/
def execAclkSwitch (agent : Agent) (run : Bool) (s : State) : Host.Outcome State Fault Refusal :=
  s.answers (fun w => Hw.writeNamed agent .CK_DOM 0 (withFld F.CK_DOM_ACLK_RUN (flag run) (w.hw.rd .CK_DOM 0)) w)

/-- PCLK_SWITCH (R390). A write of CK_DOM.PCLK_ROOT, its other fields as they stand. -/
def execPclkSwitch (agent : Agent) (root : Bool) (s : State) : Host.Outcome State Fault Refusal :=
  s.answers (fun w => Hw.writeNamed agent .CK_DOM 0 (withFld F.CK_DOM_PCLK_ROOT (flag root) (w.hw.rd .CK_DOM 0)) w)

/-- MCLK_SWITCH (R390). A write of CK_DOM.MCLK_ROOT, its other fields as they stand. -/
def execMclkSwitch (agent : Agent) (root : Bool) (s : State) : Host.Outcome State Fault Refusal :=
  s.answers (fun w => Hw.writeNamed agent .CK_DOM 0 (withFld F.CK_DOM_MCLK_ROOT (flag root) (w.hw.rd .CK_DOM 0)) w)

/-- DOMAIN_SWITCH_DONE (R390). A domain's first cycle on its new source: 0 ACLK, 1 PCLK, 2 MCLK. -/
def execDomainSwitchDone (domain : Nat) (s : State) : Host.Outcome State Fault Refusal := s.answers (fun w => w.onHw (fun h => h.switchEnd domain))

/-- CLOCK_MONITOR_WRITE (R391). A write of CK_MON. -/
def execClockMonitorWrite (agent : Agent) (value : Word) (s : State) : Host.Outcome State Fault Refusal :=
  s.answers (Hw.writeNamed agent .CK_MON 0 value.toNat)

/-- PORZ (R392). The PORZ pin. -/
def execPorz (level : Bool) (s : State) : Host.Outcome State Fault Refusal := s.answers (fun w => w.onHw (fun h => h.porz level))

/-- WARMZ (R393). The WARMZ pin. -/
def execWarmz (level : Bool) (s : State) : Host.Outcome State Fault Refusal := s.answers (fun w => w.onHw (fun h => h.warmz level))

/-- WARM_RESET_REQUEST (R393). A write of CK_RST with WARM. -/
def execWarmResetRequest (agent : Agent) (s : State) : Host.Outcome State Fault Refusal :=
  s.answers (Hw.writeNamed agent .CK_RST 0 (withFld F.CK_RST_WARM 1 0))

/-- WARM_RESET_BOOT_START (R393). The boot ROM starts after a warm reset. -/
def execWarmResetBootStart (s : State) : Host.Outcome State Fault Refusal := s.answers (fun w => w.onHw (·.warmBootStart))

/-- CORE_RESET (R394). A write of CK_RST.CORE. -/
def execCoreReset (agent : Agent) (value : Word) (s : State) : Host.Outcome State Fault Refusal :=
  s.answers (Hw.writeNamed agent .CK_RST 0 (withFld F.CK_RST_WARM 0 value.toNat))

/-- TAMBOUR_RESET (R394). A write of CK_RSTTB. -/
def execTambourReset (agent : Agent) (value : Word) (s : State) : Host.Outcome State Fault Refusal :=
  s.answers (Hw.writeNamed agent .CK_RSTTB 0 value.toNat)

end Sys2Proof.Machine
end

