-- ==== Sys2Proof/Machine/ControlCommands.lean ====
section
/-! DEFINITION. Plain accesses of control space (R6 to R8, R25, R403, R404). -/

namespace Sys2Proof.Machine

/-- REGISTER_WRITE (R6). Any control-space write by its offset; `hwSet` names the flags of the word that hardware sets in the same cycle (R403). -/
def execRegisterWrite (agent : Agent) (offset : Nat) (value : Word) (hwSet : Word) (s : State) : Host.Outcome State Fault Refusal :=
  s.answers (Hw.ctlWrite agent (offset % 2 ^ 28) value.toNat hwSet.toNat)

/-- COUNTER_LOW_WORD_READ (R8). A control-space read: the low word of a 64-bit register captures the high word for the reading agent. -/
def execCounterLowWordRead (agent : Agent) (offset : Nat) (s : State) : Host.Outcome State Fault Refusal :=
  s.answers (busRead agent (offset % 2 ^ 28))

/-- TM_NOW_READ (R25). The low word of TM_NOW, with the high word and the phase captured. -/
def execTmNowRead (agent : Agent) (s : State) : Host.Outcome State Fault Refusal := s.answers (busRead agent (Reg.desc .TM_NOW).base)

end Sys2Proof.Machine
end

