-- ==== Sys2Proof/Machine/DebugCommands.lean ====
section
/-! DEFINITION. Debug, the test access port and the attach port (R378 to R385, R449, R450). -/

namespace Sys2Proof.Machine

/-- DBG_PERMIT (R379). A permit is shifted in, and its verification starts. -/
def execDbgPermit (permit : List Byte) (s : State) : Host.Outcome State Fault Refusal :=
  s.answers (fun w => w.onHw (fun h => if h.tapServes 0x10 then h.startPermit permit else h.tapSelect 0x10 0))

/-- PERMIT_VERIFIED (R379). The verification of the permit ends. -/
def execPermitVerified (s : State) : Host.Outcome State Fault Refusal := s.answers permitVerified

/-- DEBUG_LEVEL_EXPIRY (R381). The first beat above NOT_AFTER. -/
def execDebugLevelExpiry (s : State) : Host.Outcome State Fault Refusal := s.answers (fun w => w.onHw (·.levelExpiry))

/-- DEBUG_HALT (R382). A write of DG_HALT with HALT. -/
def execDebugHalt (agent : Agent) (s : State) : Host.Outcome State Fault Refusal :=
  s.answers (Hw.writeNamed agent .DG_HALT 0 (withFld F.DG_HALT_HALT 1 0))

/-- DEBUG_RESUME (R382). A write of DG_HALT with RESUME. -/
def execDebugResume (agent : Agent) (s : State) : Host.Outcome State Fault Refusal :=
  s.answers (Hw.writeNamed agent .DG_HALT 0 (withFld F.DG_HALT_RESUME 1 0))

/-- DBG_ACCESS (R385). A DBG_ACCESS scan: a control-space read or write. -/
def execDbgAccess (write : Bool) (offset : Nat) (value : Word) (s : State) : Host.Outcome State Fault Refusal :=
  s.answers (dbgAccess write offset value.toNat)

/-- DEBUG_APERTURE_ACCESS (R367). A debug-port access of DG_APER_DATA. -/
def execDebugApertureAccess (write : Bool) (value : Word) (s : State) : Host.Outcome State Fault Refusal :=
  s.answers (debugAccess write (Reg.desc .DG_APER_DATA).base value.toNat)

/-- DBG_NONCE (R379). The data register captures SC_NONCE. -/
def execDbgNonce (s : State) : Host.Outcome State Fault Refusal := s.answers (fun w => w.onHw (fun h => h.tapSelect 0x11 (h.rd .SC_NONCE 0)))

/-- IDCODE (R384). The data register captures the identification code. -/
def execIdcode (s : State) : Host.Outcome State Fault Refusal := s.answers (fun w => w.onHw (fun h => h.tapSelect 0x01 h.idcode))

/-- BYPASS (R384). The one-bit bypass register is selected. -/
def execBypass (s : State) : Host.Outcome State Fault Refusal := s.answers (fun w => w.onHw (fun h => h.tapSelect 0xFF 0))

/-- SAMPLE_PRELOAD (R384). The boundary-scan register captures the pins and takes what is shifted in. -/
def execSamplePreload (pins : Nat) (preload : Nat) (s : State) : Host.Outcome State Fault Refusal :=
  s.answers (fun w => w.onHw (fun h => h.tapBoundary 0x02 pins preload))

/-- EXTEST (R384). The boundary-scan register drives its outputs. -/
def execExtest (pins : Nat) (s : State) : Host.Outcome State Fault Refusal :=
  s.answers (fun w => w.onHw (fun h => h.tapBoundary 0x03 pins h.tap.boundary))

/-- BOOT_STATUS (R384). The data register captures PL_BOOT. -/
def execBootStatus (s : State) : Host.Outcome State Fault Refusal := s.answers (fun w => w.onHw (fun h => h.tapSelect 0x13 (h.rd .PL_BOOT 0)))

/-- DBG_LEVEL (R384). The data register captures SC_DEBUG. -/
def execDbgLevel (s : State) : Host.Outcome State Fault Refusal := s.answers (fun w => w.onHw (fun h => h.tapSelect 0x14 (h.rd .SC_DEBUG 0)))

/-- ATTACH_TARGET_REQUEST (R449). A request of the host bridge. A read carries as many bytes as it asks for. -/
def execAttachTargetRequest (write : Bool) (addr : Nat) (data : List Byte) (s : State) : Host.Outcome State Fault Refusal :=
  s.answers (attachTarget write addr data)

/-- ATTACH_INITIATOR_RESPONSE (R450). The host bridge answers a processor's access. -/
def execAttachInitiatorResponse (keeper : Bool) (err : Bool) (data : List Byte) (s : State) : Host.Outcome State Fault Refusal :=
  s.answers (clocked (fun w => w.onHw (attachInitiator keeper err data)))

end Sys2Proof.Machine
end

