-- ==== Sys2Proof/Machine/DrainCommands.lean ====
section
/-! DEFINITION. The drain unit and the vector unit (R93 to R108, R165 to R169). -/

namespace Sys2Proof.Machine

/-- DRAIN (R165). Issue of a DRAIN. -/
def execDrain (core : Nat) (word : InstrWord) (s : State) : Host.Outcome State Fault Refusal :=
  s.moves (atCore core (issueWord core (withOp word 0x22)))

/-- DRAIN_RESUME (R72). Room in the destination queue: the drain unit and what waits behind it move on. -/
def execDrainResume (core : Nat) (s : State) : Host.Outcome State Fault Refusal := s.moves (atCore core id)

/-- CVT (R166). Issue of a CVT. -/
def execCvt (core : Nat) (word : InstrWord) (s : State) : Host.Outcome State Fault Refusal :=
  s.moves (atCore core (issueWord core (withOp word 0x23)))

/-- DRAIN_UNIT_ENABLE (R107). A write of CR_DRN_CTRL with ENABLE. -/
def execDrainUnitEnable (agent : Agent) (core : Nat) (value : Word) (s : State) : Host.Outcome State Fault Refusal :=
  s.answers (Hw.writeNamed agent .CR_DRN_CTRL core (withFld F.CR_DRN_CTRL_ENABLE 1 value.toNat))

/-- VOPT (R169). Issue of a VOPT. -/
def execVopt (core : Nat) (word : InstrWord) (s : State) : Host.Outcome State Fault Refusal :=
  s.moves (atCore core (issueWord core (withOp word 0x33)))

/-- VOP (R167). Issue of a VOP. -/
def execVop (core : Nat) (word : InstrWord) (s : State) : Host.Outcome State Fault Refusal :=
  s.moves (atCore core (issueWord core (withOp word 0x30)))

/-- VLD (R168). Issue of a VLD. -/
def execVld (core : Nat) (word : InstrWord) (s : State) : Host.Outcome State Fault Refusal :=
  s.moves (atCore core (issueWord core (withOp word 0x31)))

/-- VST (R168). Issue of a VST. -/
def execVst (core : Nat) (word : InstrWord) (s : State) : Host.Outcome State Fault Refusal :=
  s.moves (atCore core (issueWord core (withOp word 0x32)))

end Sys2Proof.Machine
end

