-- ==== Sys2Proof/Machine/EnergyCommands.lean ====
section
/-! DEFINITION. Energy metering and samplers (R407 to R424). -/

namespace Sys2Proof.Machine

/-- APPORTIONMENT (R414). The energy of the period before is split. -/
def execApportionment (s : State) : Host.Outcome State Fault Refusal := s.answers (clocked (fun w => w.onHw (·.apportion)))

/-- ENERGY_UNIT_ENABLE (R424). A write of EN_CTRL with ENABLE. -/
def execEnergyUnitEnable (agent : Agent) (value : Word) (s : State) : Host.Outcome State Fault Refusal :=
  s.answers (Hw.writeNamed agent .EN_CTRL 0 (withFld F.EN_CTRL_ENABLE 1 value.toNat))

/-- CALIBRATION_WRITE (R415). A write of EN_CALe (index below 16) or EN_CAL_ID. -/
def execCalibrationWrite (agent : Agent) (index : Nat) (value : Word) (s : State) : Host.Outcome State Fault Refusal :=
  s.answers (Hw.writeNamed agent (if index < 16 then .EN_CAL else .EN_CAL_ID) (if index < 16 then index else 0) value.toNat)

/-- SAMPLER_SIGN (R418). A write of EN_SIGN with GO. -/
def execSamplerSign (agent : Agent) (value : Word) (s : State) : Host.Outcome State Fault Refusal :=
  s.answers (Hw.writeNamed agent .EN_SIGN 0 (withFld F.EN_SIGN_GO 1 value.toNat))

/-- SAMPLER_SIGN_DONE (R418). The signed record is written. -/
def execSamplerSignDone (s : State) : Host.Outcome State Fault Refusal := s.answers (clocked signDone)

end Sys2Proof.Machine
end

