-- ==== Sys2Proof/Machine/FaultCommands.lean ====
section
/-! DEFINITION. Commit, abort, replay, spares and the fault log (R339 to R364). -/

namespace Sys2Proof.Machine

/-- STEP_COMMIT (R343). The end of a run without a fault, and the next run's start. -/
def execStepCommit (s : State) : Host.Outcome State Fault Refusal := s.moves (clocked stepCommit)

/-- ABORT_FLUSH (R345). The aborted run's passes have ended: SEALED lines are discarded. -/
def execAbortFlush (core : Nat) (s : State) : Host.Outcome State Fault Refusal := s.answers (atCore core (fun w => w.onHw (·.abortFlush core)))

/-- REPLAY_READY (R348). The block is ready for the replay. -/
def execReplayReady (s : State) : Host.Outcome State Fault Refusal := s.answers (clocked (fun w => w.onHw (·.replayReady)))

/-- REPLAY_RUN_START (R350). The replay starts at f′. -/
def execReplayRunStart (s : State) : Host.Outcome State Fault Refusal := s.moves (clocked replayStart)

/-- NULL_COMMIT (R356). The end of an abandoned step. -/
def execNullCommit (s : State) : Host.Outcome State Fault Refusal := s.moves (clocked nullCommit)

/-- SPARE_SUBSTITUTION (R359). The spare core takes a faulty core's place. -/
def execSpareSubstitution (s : State) : Host.Outcome State Fault Refusal := s.answers (clocked spareSubstitution)

/-- SPARE_REQUEST (R358). A write of FT_SPARE with REQUEST. -/
def execSpareRequest (agent : Agent) (value : Word) (s : State) : Host.Outcome State Fault Refusal :=
  s.answers (Hw.writeNamed agent .FT_SPARE 0 (withFld F.FT_SPARE_REQUEST 1 value.toNat))

/-- FAULT_UNIT_ENABLE (R364). A write of FT_CTRL with ENABLE. -/
def execFaultUnitEnable (agent : Agent) (value : Word) (s : State) : Host.Outcome State Fault Refusal :=
  s.answers (Hw.writeNamed agent .FT_CTRL 0 (withFld F.FT_CTRL_ENABLE 1 value.toNat))

/-- FAULT_LOG_POP (R363). A write of FT_LOG_POP. -/
def execFaultLogPop (agent : Agent) (s : State) : Host.Outcome State Fault Refusal := s.answers (Hw.writeNamed agent .FT_LOG_POP 0 0)

/-- LOST_STREAMS_WRITE (R360). A write of FT_LOSTn. -/
def execLostStreamsWrite (agent : Agent) (n : Nat) (value : Word) (s : State) : Host.Outcome State Fault Refusal :=
  s.answers (Hw.writeNamed agent .FT_LOST n value.toNat)

end Sys2Proof.Machine
end

