-- ==== Sys2Proof/Machine/HoopCommands.lean ====
section
/-! DEFINITION. Hoops, keys and the lifecycle (R365 to R377, R387). -/

namespace Sys2Proof.Machine

/-- HOOP_OPEN (R387). A write of HP_CTRL with VALID. -/
def execHoopOpen (agent : Agent) (hoop : Nat) (value : Word) (s : State) : Host.Outcome State Fault Refusal :=
  s.answers (Hw.writeNamed agent .HP_CTRL hoop (withFld F.HP_CTRL_VALID 1 value.toNat))

/-- HOOP_CLOSE (R373). A write of HP_CTRL that clears VALID. -/
def execHoopClose (agent : Agent) (hoop : Nat) (value : Word) (s : State) : Host.Outcome State Fault Refusal :=
  s.answers (Hw.writeNamed agent .HP_CTRL hoop (withFld F.HP_CTRL_VALID 0 value.toNat))

/-- HOOP_RANGE_WRITE (R369). A write of HP_CORES (1), HP_SYNC (2) or HP_QUEUE (3). -/
def execHoopRangeWrite (agent : Agent) (hoop : Nat) (which : Nat) (value : Word) (s : State) : Host.Outcome State Fault Refusal :=
  s.answers (fun w => if which == 1 || which == 2 || which == 3 then Hw.writeNamed agent (Hw.hoopReg which) hoop value.toNat w else w)

/-- WINDOW_APPLY (R368). A write of HP_WIN_APPLY. -/
def execWindowApply (agent : Agent) (s : State) : Host.Outcome State Fault Refusal := s.answers (Hw.writeNamed agent .HP_WIN_APPLY 0 0)

/-- KEY_INSTALL (R371). A write of HP_KEYCMD with OP INSTALL. -/
def execKeyInstall (agent : Agent) (hoop : Nat) (s : State) : Host.Outcome State Fault Refusal :=
  s.answers (Hw.writeNamed agent .HP_KEYCMD 0 (withFld F.HP_KEYCMD_OP 1 (withFld F.HP_KEYCMD_HOOP hoop 0)))

/-- KEY_ERASE (R372). A write of HP_KEYCMD with OP ERASE. -/
def execKeyErase (agent : Agent) (hoop : Nat) (s : State) : Host.Outcome State Fault Refusal :=
  s.answers (Hw.writeNamed agent .HP_KEYCMD 0 (withFld F.HP_KEYCMD_OP 2 (withFld F.HP_KEYCMD_HOOP hoop 0)))

/-- KEY_SWEEP_DONE (R372). The sweep of a hoop's stale lines ends. -/
def execKeySweepDone (hoop : Nat) (s : State) : Host.Outcome State Fault Refusal :=
  s.answers (clocked (fun w => w.onHw (fun h => h.keySweepDone hoop)))

/-- LIFECYCLE_COMMAND (R376). A write of SC_CMDGO. -/
def execLifecycleCommand (agent : Agent) (s : State) : Host.Outcome State Fault Refusal := s.answers (Hw.writeNamed agent .SC_CMDGO 0 0)

end Sys2Proof.Machine
end

