-- ==== Sys2Proof/Machine/LinkCommands.lean ====
section
/-! DEFINITION. Links and the fabric (R287 to R316). -/

namespace Sys2Proof.Machine

/-- FRAME_RECEIVE (R294). A frame starts on a lane at a root tick: its header, its slots, and the faults of each. -/
def execFrameReceive (port : Nat) (lane : Nat) (tick : Nat) (header : List Byte) (slots : List (List Byte)) (faults : List Nat) (s : State) : Host.Outcome State Fault Refusal :=
  s.moves (atLink port (frameReceive port lane tick header slots faults))

/-- FRAME_MISS (R38). No frame starts in a lane's receive window. -/
def execFrameMiss (port : Nat) (lane : Nat) (s : State) : Host.Outcome State Fault Refusal := s.moves (atLink port (frameMiss port lane))

/-- COUCH_ENTRY_RECEIVE (R297). A couch entry of slot 19. -/
def execCouchEntryReceive (port : Nat) (entry : List Byte) (s : State) : Host.Outcome State Fault Refusal :=
  s.answers (atLink port (fun w => w.onHw (fun h => h.couchReceive port entry)))

/-- FRAGMENT_RECEIVE (R300). A fragment of slot 19. -/
def execFragmentReceive (port : Nat) (fragment : List Byte) (s : State) : Host.Outcome State Fault Refusal :=
  s.answers (atLink port (fragmentReceive port fragment))

/-- REASSEMBLY_TIMEOUT (R300). Messages incomplete after 4,096 beats are dropped. -/
def execReassemblyTimeout (s : State) : Host.Outcome State Fault Refusal := s.answers (clocked (fun w => w.onHw (·.reassemblyTimeout)))

/-- EPOCH_NOTICE (R299). The Keeper takes the next EPOCH message. -/
def execEpochNotice (s : State) : Host.Outcome State Fault Refusal := s.answers (byFirmware true (fun w => w.onHwMem (fun m h => h.epochNotice m)))

/-- HELLO_SEND (R308). A HELLO on every port in service. -/
def execHelloSend (s : State) : Host.Outcome State Fault Refusal := s.answers (clocked (fun w => w.onHw (·.helloSend)))

/-- NEIGHBOUR_EXPIRY (R308). 64 beats without a HELLO on a port. -/
def execNeighbourExpiry (port : Nat) (s : State) : Host.Outcome State Fault Refusal :=
  s.answers (atLink port (fun w => w.onHw (fun h => h.neighbourExpiry port)))

/-- ELECTION_STABLE (R309). The election result has stood for 1,024 beats. -/
def execElectionStable (s : State) : Host.Outcome State Fault Refusal := s.answers (clocked (fun w => w.onHw (·.electionStable)))

/-- LINK_PORT_ENABLE (R316). A write of LK_Pp_CTRL with ENABLE. -/
def execLinkPortEnable (agent : Agent) (port : Nat) (value : Word) (s : State) : Host.Outcome State Fault Refusal :=
  s.answers (Hw.writeNamed agent .LK_P_CTRL port (withFld F.LK_P_CTRL_ENABLE 1 value.toNat))

/-- LINK_PORT_DISABLE (R303). A write of LK_Pp_CTRL that clears ENABLE. -/
def execLinkPortDisable (agent : Agent) (port : Nat) (value : Word) (s : State) : Host.Outcome State Fault Refusal :=
  s.answers (Hw.writeNamed agent .LK_P_CTRL port (withFld F.LK_P_CTRL_ENABLE 0 value.toNat))

/-- MEASURE_END (R304). 256 beats of measurement have passed on a port. -/
def execMeasureEnd (port : Nat) (s : State) : Host.Outcome State Fault Refusal :=
  s.answers (atLink port (fun w => w.onHw (fun h => h.measureEnd port)))

/-- LINK_DOWN_TIMEOUT (R303). Four beats without a valid header on a port. -/
def execLinkDownTimeout (port : Nat) (s : State) : Host.Outcome State Fault Refusal :=
  s.answers (atLink port (fun w => w.onHw (fun h => h.linkDown port)))

/-- LANE_FAILURE (R305). A lane has missed its headers or failed its slots. -/
def execLaneFailure (port : Nat) (lane : Nat) (s : State) : Host.Outcome State Fault Refusal :=
  s.answers (atLink port (fun w => w.onHwMem (fun m h => h.laneFailure m port lane)))

/-- LANE_SWITCH_EFFECTIVE (R306). Beat E_s of a switch-over of lanes. -/
def execLaneSwitchEffective (port : Nat) (s : State) : Host.Outcome State Fault Refusal :=
  s.answers (atLink port (fun w => w.onHw (fun h => h.laneSwitch port)))

/-- ROUTE_TABLE_WRITE (R302). A write of LK_GRT (index below 256) or LK_MRT. -/
def execRouteTableWrite (agent : Agent) (index : Nat) (value : Word) (s : State) : Host.Outcome State Fault Refusal :=
  s.answers (Hw.writeNamed agent (if index < 256 then .LK_GRT else .LK_MRT) (if index < 256 then index else index - 256) value.toNat)

/-- FABRIC_ADDRESS_WRITE (R310). A write of LK_ADDR. -/
def execFabricAddressWrite (agent : Agent) (value : Word) (s : State) : Host.Outcome State Fault Refusal :=
  s.answers (Hw.writeNamed agent .LK_ADDR 0 value.toNat)

/-- CLIENT_BINDING_WRITE (R313). A write of LK_CLIENTc with ENABLE. -/
def execClientBindingWrite (agent : Agent) (client : Nat) (value : Word) (s : State) : Host.Outcome State Fault Refusal :=
  s.answers (Hw.writeNamed agent .LK_CLIENT client (withFld F.LK_CLIENT_ENABLE 1 value.toNat))

/-- UCIE_BIND (R312). A write of LK_Pp_CTRL with UCIE. -/
def execUcieBind (agent : Agent) (port : Nat) (value : Word) (s : State) : Host.Outcome State Fault Refusal :=
  s.answers (Hw.writeNamed agent .LK_P_CTRL port (withFld F.LK_P_CTRL_UCIE 1 value.toNat))

/-- CPOLL (R314). A client's poll: the port, the source, the queue, the number of records asked for and the first. -/
def execCpoll (port : Nat) (source : Nat) (queue : Nat) (count : Nat) (index : Nat) (s : State) : Host.Outcome State Fault Refusal :=
  s.answers (atLink port (clientPoll port source queue count index))

end Sys2Proof.Machine
end

