-- ==== Sys2Proof/Machine/MacroCommands.lean ====
section
/-! DEFINITION. Matrix macros (R109 to R136). -/

namespace Sys2Proof.Machine

/-- BIND (R109). Issue of a BIND. -/
def execBind (core : Nat) (word : InstrWord) (s : State) : Host.Outcome State Fault Refusal :=
  s.moves (atCore core (issueWord core (withOp word 0x28)))

/-- MMUL (R113). Issue of an MMUL. -/
def execMmul (core : Nat) (word : InstrWord) (s : State) : Host.Outcome State Fault Refusal :=
  s.moves (atCore core (issueWord core (withOp word 0x29)))

/-- MMUL2 (R133). Issue of an MMUL2. -/
def execMmul2 (core : Nat) (word : InstrWord) (s : State) : Host.Outcome State Fault Refusal :=
  s.moves (atCore core (issueWord core (withOp word 0x2A)))

/-- WALKER_PASS_ISSUE (R118). The walker's next generated pass. -/
def execWalkerPassIssue (core : Nat) (s : State) : Host.Outcome State Fault Refusal := s.moves (atCore core (walkerPass core))

/-- WALKER_ARM (R190). The walker arms a descriptor: 0 staging A, 1 staging B, 2 output. -/
def execWalkerArm (core : Nat) (which : Nat) (s : State) : Host.Outcome State Fault Refusal := s.moves (atCore core (walkerArm core which))

/-- MACRO_SIGNAL (R126). The macro's planned completion. -/
def execMacroSignal (core : Nat) (s : State) : Host.Outcome State Fault Refusal := s.moves (atCore core (macroSignal core))

/-- COMBINE_ROUND (R129). A SPLIT K round. -/
def execCombineRound (core : Nat) (s : State) : Host.Outcome State Fault Refusal := s.moves (atCore core (combineRound core))

/-- BAND_CONVERT (R130). A band's rows are converted. -/
def execBandConvert (core : Nat) (s : State) : Host.Outcome State Fault Refusal := s.moves (atCore core (bandConvert core))

/-- MACRO_UNIT_ENABLE (R136). A write of CR_MAC_CTRL with ENABLE. -/
def execMacroUnitEnable (agent : Agent) (core : Nat) (value : Word) (s : State) : Host.Outcome State Fault Refusal :=
  s.answers (Hw.writeNamed agent .CR_MAC_CTRL core (withFld F.CR_MAC_CTRL_ENABLE 1 value.toNat))

end Sys2Proof.Machine
end

