-- ==== Sys2Proof/Machine/MemoryCommands.lean ====
section
/-! DEFINITION. Memories, cache, ports and the commit table (R205 to R230, R441). -/

namespace Sys2Proof.Machine

/-- MATRIX_MEMORY_ENABLE (R206). A write of CR_MM_CTRL with ENABLE. -/
def execMatrixMemoryEnable (agent : Agent) (core : Nat) (value : Word) (s : State) : Host.Outcome State Fault Refusal :=
  s.answers (Hw.writeNamed agent .CR_MM_CTRL core (withFld F.CR_MM_CTRL_ENABLE 1 value.toNat))

/-- MATRIX_MEMORY_INIT_DONE (R206). The zeroing of a matrix memory ends. -/
def execMatrixMemoryInitDone (core : Nat) (s : State) : Host.Outcome State Fault Refusal :=
  s.moves (atCore core (fun w => w.onHw (fun h => if (Tab.find? h.mmInitDue core).isSome then (h.mmInitDone core).noteZeroed core else h)))

/-- BLOCK_MEMORY_ENABLE (R209). A write of MP_BM_CTRL with ENABLE. -/
def execBlockMemoryEnable (agent : Agent) (value : Word) (s : State) : Host.Outcome State Fault Refusal :=
  s.answers (Hw.writeNamed agent .MP_BM_CTRL 0 (withFld F.MP_BM_CTRL_ENABLE 1 value.toNat))

/-- BLOCK_MEMORY_INIT_DONE (R209). The zeroing of block memory ends. -/
def execBlockMemoryInitDone (s : State) : Host.Outcome State Fault Refusal := s.answers (clocked (fun w => w.onHw (·.bmInitDone)))

/-- CACHE_INVALIDATE (R212). A write of MP_BM_CTRL with INVAL. -/
def execCacheInvalidate (agent : Agent) (value : Word) (s : State) : Host.Outcome State Fault Refusal :=
  s.answers (Hw.writeNamed agent .MP_BM_CTRL 0 (withFld F.MP_BM_CTRL_INVAL 1 value.toNat))

/-- CACHE_INVALIDATE_DONE (R212). The invalidation ends. -/
def execCacheInvalidateDone (s : State) : Host.Outcome State Fault Refusal := s.answers (clocked (fun w => w.onHw (·.invalDone)))

/-- CACHE_FILL (R210). A miss's unit has arrived: it is delivered, and allocated. -/
def execCacheFill (s : State) : Host.Outcome State Fault Refusal := s.moves (clocked cacheFillStep)

/-- CORRECTED_WRITE_BACK (R214). The oldest corrected word is written back. -/
def execCorrectedWriteBack (s : State) : Host.Outcome State Fault Refusal := s.answers (clocked (fun w => w.onHw (·.writeBackWord)))

/-- SCRUB_VISIT (R216). The scrubber reads the next word of a memory; `symbols`: its wrong symbols. -/
def execScrubVisit (memory : Nat) (symbols : Nat) (s : State) : Host.Outcome State Fault Refusal := s.answers (clocked (scrubVisit memory symbols))

/-- ERROR_LOG_POP (R217). A write of MP_ERR_POP. -/
def execErrorLogPop (agent : Agent) (s : State) : Host.Outcome State Fault Refusal := s.answers (Hw.writeNamed agent .MP_ERR_POP 0 0)

/-- PORT_READ_RESPONSE (R441). A read unit comes from its controller; `symbols`: its wrong symbols. -/
def execPortReadResponse (port : Nat) (tag : Nat) (err : Bool) (symbols : Nat) (s : State) : Host.Outcome State Fault Refusal :=
  s.moves (atPort port (portRead port tag err symbols))

/-- PORT_WRITE_RESPONSE (R221). A write is acknowledged by its controller. -/
def execPortWriteResponse (port : Nat) (tag : Nat) (err : Bool) (s : State) : Host.Outcome State Fault Refusal :=
  s.moves (atPort port (portWrite port tag err))

/-- COMMIT_TABLE_ENTRY_WRITE (R226). A write of a word of a commit-table entry. -/
def execCommitTableEntryWrite (agent : Agent) (entry : Nat) (word : Nat) (value : Word) (s : State) : Host.Outcome State Fault Refusal :=
  s.answers (fun w => if entry < 4096 && word < 8 then Hw.ctlWrite agent ((Reg.desc .MP_CT_BUF0).base + 0x20 * entry + 4 * word) value.toNat 0 w else w)

end Sys2Proof.Machine
end

