-- ==== Sys2Proof/Machine/MgmtCommands.lean ====
section
/-! DEFINITION. Snapshots and the management protocol (R425 to R435). -/

namespace Sys2Proof.Machine

/-- SNAPSHOT_GO (R429). A write of MG_SNAPCTRL with GO. -/
def execSnapshotGo (agent : Agent) (value : Word) (s : State) : Host.Outcome State Fault Refusal :=
  s.answers (Hw.writeNamed agent .MG_SNAPCTRL 0 (withFld F.MG_SNAPCTRL_GO 1 value.toNat))

/-- SNAPSHOT_CAPTURE (R429). The first cycle of the beat after GO. -/
def execSnapshotCapture (s : State) : Host.Outcome State Fault Refusal := s.answers snapshotCapture

/-- MGMT_FRAME_RECEIVE (R431). A management frame arrives. -/
def execMgmtFrameReceive (frame : List Byte) (s : State) : Host.Outcome State Fault Refusal :=
  s.answers (fun w => w.onHw (fun h => h.frameAccept frame))

/-- OPEN (R432). The Keeper takes an OPEN. -/
def execMgmtOpen (msg : List Byte) (s : State) : Host.Outcome State Fault Refusal := s.answers (fun w => w.onHw (fun h => h.mgOpen msg))

/-- CONFIRM (R432). The Keeper takes a CONFIRM. -/
def execMgmtConfirm (msg : List Byte) (s : State) : Host.Outcome State Fault Refusal := s.answers (fun w => w.onHw (fun h => h.mgConfirm msg))

/-- REQUEST_READ (R430). The Keeper takes a REQUEST with OP READ. -/
def execRequestRead (msg : List Byte) (s : State) : Host.Outcome State Fault Refusal := s.answers (mgRequest 1 msg)

/-- REQUEST_WRITE (R434). The Keeper takes a REQUEST with OP WRITE. -/
def execRequestWrite (msg : List Byte) (s : State) : Host.Outcome State Fault Refusal := s.answers (mgRequest 2 msg)

/-- REQUEST_REPEAT (R433). The Keeper takes a REQUEST that repeats the last SEQ. -/
def execRequestRepeat (msg : List Byte) (s : State) : Host.Outcome State Fault Refusal := s.answers (fun w => w.onHw (fun h => h.mgRepeat msg))

/-- CLOSE (R433). The Keeper takes a CLOSE. -/
def execMgmtClose (msg : List Byte) (s : State) : Host.Outcome State Fault Refusal := s.answers (fun w => w.onHw (fun h => h.mgClose msg))

/-- SESSION_TIMEOUT (R433). Sessions without an accepted REQUEST for 2^27 beats end. -/
def execSessionTimeout (s : State) : Host.Outcome State Fault Refusal := s.answers (fun w => w.onHw (·.sessionTimeout))

end Sys2Proof.Machine
end

