-- ==== Sys2Proof/Machine/PowerCommands.lean ====
section
/-! DEFINITION. Power states, wake, the governor and its limits (R395 to R406, R445 to R447). -/

namespace Sys2Proof.Machine

/-- RAIL_FAULT (R393). A power-good input falls. -/
def execRailFault (rail : Nat) (s : State) : Host.Outcome State Fault Refusal := s.answers (fun w => w.onHw (fun h => h.railFault rail))

/-- POWER_REQUEST_RUN (R395). A write of PW_REQ with RUN. -/
def execPowerRequestRun (agent : Agent) (s : State) : Host.Outcome State Fault Refusal := s.answers (Hw.writeNamed agent .PW_REQ 0 0)

/-- POWER_REQUEST_PARK (R395). A write of PW_REQ with PARK. -/
def execPowerRequestPark (agent : Agent) (s : State) : Host.Outcome State Fault Refusal := s.answers (Hw.writeNamed agent .PW_REQ 0 1)

/-- POWER_REQUEST_SLEEP (R395). A write of PW_REQ with SLEEP. -/
def execPowerRequestSleep (agent : Agent) (s : State) : Host.Outcome State Fault Refusal := s.answers (Hw.writeNamed agent .PW_REQ 0 2)

/-- RAMP_END (R395). The ramp's last step has been made. -/
def execRampEnd (s : State) : Host.Outcome State Fault Refusal := s.answers (fun w => w.onHw (·.rampEnd))

/-- WAKE_BEAT (R397). A beat comparator fires in SLEEP. -/
def execWakeBeat (index : Nat) (s : State) : Host.Outcome State Fault Refusal := s.answers (fun w => w.onHw (fun h => h.wakeBeat index))

/-- WAKE_FRAME_MATCH (R397). A management frame reaches a frame comparator in SLEEP. -/
def execWakeFrameMatch (index : Nat) (frame : List Byte) (s : State) : Host.Outcome State Fault Refusal :=
  s.answers (fun w => w.onHw (fun h => h.wakeFrame index frame))

/-- WAKE_THERMAL (R397). The thermal comparator fires in SLEEP. -/
def execWakeThermal (s : State) : Host.Outcome State Fault Refusal := s.answers (fun w => w.onHw (·.wakeThermal))

/-- CORE_RAIL_POWER_GOOD (R446). The core rail is good on wake. -/
def execCoreRailPowerGood (s : State) : Host.Outcome State Fault Refusal := s.answers (fun w => w.onHw (·.railGood))

/-- THERMAL_SAMPLE (R447). The plinth samples the sensors, sensor 0 first. -/
def execThermalSample (sensors : List Nat) (s : State) : Host.Outcome State Fault Refusal :=
  s.answers (fun w => w.onHw (fun h => h.thermalSample sensors))

/-- GOVERNOR_ENABLE (R406). A write of PW_CTRL with ENABLE. -/
def execGovernorEnable (agent : Agent) (value : Word) (s : State) : Host.Outcome State Fault Refusal :=
  s.answers (Hw.writeNamed agent .PW_CTRL 0 (withFld F.PW_CTRL_ENABLE 1 value.toNat))

/-- LIMIT_WRITE (R19). A write of one of the limits, in the order of `Hw.limitRegs`. -/
def execLimitWrite (agent : Agent) (limit : Nat) (value : Word) (s : State) : Host.Outcome State Fault Refusal :=
  s.answers (fun w => match Hw.limitRegs[limit]? with
    | some r => Hw.writeNamed agent r 0 value.toNat w
    | none => w)

/-- TELEMETRY_SAMPLE (R445). A rail sample: voltages and currents, rail 0 first. -/
def execTelemetrySample (volts : List Nat) (amps : List Nat) (s : State) : Host.Outcome State Fault Refusal :=
  s.answers (fun w => w.onHw (fun h => h.telemetrySample volts amps))

/-- TELEMETRY_DEADLINE (R409). Beat 16 of a period whose predecessor's sample is missing. -/
def execTelemetryDeadline (s : State) : Host.Outcome State Fault Refusal := s.answers (fun w => w.onHw (·.telemetryDeadline))

end Sys2Proof.Machine
end

