-- ==== Sys2Proof/Machine/ProcessorCommands.lean ====
section
/-! DEFINITION. The control processors, their boot and their messages (R317 to R338, R392). -/

namespace Sys2Proof.Machine

/-- BOOT_START (R392). The boot ROM starts: what SFDP and the directory of the boot device read. -/
def execBootStart (sfdp : Bool) (directory : List Byte) (s : State) : Host.Outcome State Fault Refusal :=
  s.answers (fun w => w.onHw (fun h => h.bootStart sfdp directory))

/-- BOOT_IMAGE_LOAD (R320). An image is read, verified and locked: role 0 the Keeper's, 1 the Dispatcher's; its two copies. -/
def execBootImageLoad (role : Nat) (copyA : List Byte) (copyB : List Byte) (s : State) : Host.Outcome State Fault Refusal :=
  s.answers (fun w => w.onHw (fun h => h.bootImageLoad role copyA copyB))

/-- DISPATCHER_ENABLE (R338). A write of DP_CTRL with D_ENABLE. -/
def execDispatcherEnable (agent : Agent) (value : Word) (s : State) : Host.Outcome State Fault Refusal :=
  s.answers (Hw.writeNamed agent .DP_CTRL 0 (withFld F.DP_CTRL_D_ENABLE 1 value.toNat))

/-- DISPATCHER_RESTART (R325). A write of DP_CTRL with D_RESTART, D_ENABLE as it stands. -/
def execDispatcherRestart (agent : Agent) (s : State) : Host.Outcome State Fault Refusal :=
  s.answers (fun w => Hw.writeNamed agent .DP_CTRL 0 (withFld F.DP_CTRL_D_RESTART 1 (w.hw.get F.DP_CTRL_D_ENABLE)) w)

/-- KEEPER_RESTART (R325). A write of DP_CTRL with K_RESTART, D_ENABLE as it stands. -/
def execKeeperRestart (agent : Agent) (s : State) : Host.Outcome State Fault Refusal :=
  s.answers (fun w => Hw.writeNamed agent .DP_CTRL 0 (withFld F.DP_CTRL_K_RESTART 1 (w.hw.get F.DP_CTRL_D_ENABLE)) w)

/-- PROCESSOR_MEMORY_UNCORRECTABLE (R325). An uncorrectable word in a processor's own memories. -/
def execProcessorMemoryUncorrectable (keeper : Bool) (s : State) : Host.Outcome State Fault Refusal :=
  s.answers (fun w => w.onHw (fun h => h.restart keeper))

/-- KICK (R328). A write of DP_KICK. -/
def execKick (agent : Agent) (value : Word) (s : State) : Host.Outcome State Fault Refusal := s.answers (Hw.writeNamed agent .DP_KICK 0 value.toNat)

/-- WATCHDOG_EXPIRY (R328). A watchdog period, or the take-stall time, has passed. -/
def execWatchdogExpiry (keeper : Bool) (s : State) : Host.Outcome State Fault Refusal :=
  s.answers (fun w => w.onHw (fun h => h.watchdogExpiry keeper))

/-- COVER_WRITE (R362). A write of both words of DP_COVERn. -/
def execCoverWrite (agent : Agent) (core : Nat) (value : DWord) (s : State) : Host.Outcome State Fault Refusal :=
  s.answers (Hw.guarded agent .DP_COVER core (fun w => w.onHw (fun h => h.writeCover core value.toNat)))

/-- MAILBOX_ENABLE (R338). A write of MB_n_CTRL with ENABLE. -/
def execMailboxEnable (agent : Agent) (mailbox : Nat) (value : Word) (s : State) : Host.Outcome State Fault Refusal :=
  s.answers (Hw.writeNamed agent .MB_CTRL mailbox (withFld F.MB_CTRL_ENABLE 1 value.toNat))

/-- MAILBOX_DICT_READ (R330). The Keeper serves a request of TYPE 0001h. -/
def execMailboxDictRead (mailbox : Nat) (s : State) : Host.Outcome State Fault Refusal := s.answers (Mb.dict 1 mailbox)

/-- MAILBOX_DICT_WRITE (R330). The Keeper serves a request of TYPE 0002h. -/
def execMailboxDictWrite (mailbox : Nat) (s : State) : Host.Outcome State Fault Refusal := s.answers (Mb.dict 2 mailbox)

/-- COMPLETION_AREA_RECLAIM (R283). The Keeper serves a request of TYPE 0003h. -/
def execCompletionAreaReclaim (mailbox : Nat) (s : State) : Host.Outcome State Fault Refusal := s.answers (Mb.reclaim mailbox)

/-- MAILBOX_QUEUE_RESTART (R274). The Dispatcher serves a request of TYPE 0101h. -/
def execMailboxQueueRestart (mailbox : Nat) (s : State) : Host.Outcome State Fault Refusal := s.answers (Mb.queueRestart mailbox)

/-- MAILBOX_QUEUE_STATUS (R330). The Dispatcher serves a request of TYPE 0102h. -/
def execMailboxQueueStatus (mailbox : Nat) (s : State) : Host.Outcome State Fault Refusal := s.answers (Mb.queueStatus mailbox)

/-- WANT (R399). A WANT message of a block reaches the Keeper. -/
def execWant (source : Nat) (amount : Nat) (s : State) : Host.Outcome State Fault Refusal :=
  s.answers (byFirmware true (fun w => w.onHw (fun h => h.wantReceive source amount)))

/-- LOST_SUSPECT (R335). A LOST_SUSPECT message of a block reaches the Keeper. -/
def execLostSuspect (source : Nat) (addr : Nat) (s : State) : Host.Outcome State Fault Refusal :=
  s.answers (byFirmware true (fun w => w.onHwMem (fun m h => h.suspectReceive m source addr)))

/-- LOST (R335). A flooded LOST message reaches the Keeper. -/
def execLost (addr : Nat) (s : State) : Host.Outcome State Fault Refusal :=
  s.answers (byFirmware true (fun w => w.onHwMem (fun m h => h.lostReceive m addr)))

/-- APERTURE_ACCESS (R317). A processor's load or store through one of its far apertures. -/
def execApertureAccess (dispatcher : Bool) (write : Bool) (hoop : Nat) (addr : Nat) (data : List Byte) (s : State) : Host.Outcome State Fault Refusal :=
  s.answers (clocked (processorAperture dispatcher write hoop addr data))

end Sys2Proof.Machine
end

