-- ==== Sys2Proof/Machine/SequencerCommands.lean ====
section
/-! DEFINITION. The sequencer (R137 to R163, R170). -/

namespace Sys2Proof.Machine

/-- RING_TAIL_WRITE (R137). A write of CR_SEQ_RING_TAIL. -/
def execRingTailWrite (agent : Agent) (core : Nat) (value : Word) (s : State) : Host.Outcome State Fault Refusal :=
  s.answers (Hw.writeNamed agent .CR_SEQ_RING_TAIL core value.toNat)

/-- PUBLISHED_COPY_DONE (R139). Published positions have been copied into their bank. -/
def execPublishedCopyDone (core : Nat) (s : State) : Host.Outcome State Fault Refusal :=
  s.answers (atCore core (fun w => w.onHwMem (fun m h => h.copyDone m core)))

/-- BANK_RELOAD_REQUEST (R140). A write of CR_SEQ_BANK. -/
def execBankReloadRequest (agent : Agent) (core : Nat) (value : Word) (s : State) : Host.Outcome State Fault Refusal :=
  s.answers (Hw.writeNamed agent .CR_SEQ_BANK core value.toNat)

/-- BANK_LOAD_DONE (R140). A bank's load ends. -/
def execBankLoadDone (core : Nat) (bank : Nat) (s : State) : Host.Outcome State Fault Refusal :=
  s.answers (atCore core (fun w => w.onHwMem (fun m h => h.bankLoaded m core bank)))

/-- INSTRUCTION_ISSUE (R143). The instruction at HEAD. -/
def execInstructionIssue (core : Nat) (s : State) : Host.Outcome State Fault Refusal := s.moves (atCore core (issueNext core))

/-- NOP (R163). Issue of a NOP. -/
def execNop (core : Nat) (word : InstrWord) (s : State) : Host.Outcome State Fault Refusal :=
  s.moves (atCore core (issueWord core (withOp word 0x00)))

/-- SEG (R158). Issue of a SEG. -/
def execSeg (core : Nat) (word : InstrWord) (s : State) : Host.Outcome State Fault Refusal :=
  s.moves (atCore core (issueWord core (withOp word 0x01)))

/-- LOOP (R155). Issue of a LOOP. -/
def execLoop (core : Nat) (word : InstrWord) (s : State) : Host.Outcome State Fault Refusal :=
  s.moves (atCore core (issueWord core (withOp word 0x02)))

/-- SKIPC (R152). Issue of a SKIPC. -/
def execSkipc (core : Nat) (word : InstrWord) (s : State) : Host.Outcome State Fault Refusal :=
  s.moves (atCore core (issueWord core (withOp word 0x03)))

/-- SLI (R163). Issue of an SLI. -/
def execSli (core : Nat) (word : InstrWord) (s : State) : Host.Outcome State Fault Refusal :=
  s.moves (atCore core (issueWord core (withOp word 0x08)))

/-- SALU (R149). Issue of an SALU. -/
def execSalu (core : Nat) (word : InstrWord) (s : State) : Host.Outcome State Fault Refusal :=
  s.moves (atCore core (issueWord core (withOp word 0x09)))

/-- SLD (R163). Issue of an SLD. -/
def execSld (core : Nat) (word : InstrWord) (s : State) : Host.Outcome State Fault Refusal :=
  s.moves (atCore core (issueWord core (withOp word 0x0A)))

/-- SST (R163). Issue of an SST. -/
def execSst (core : Nat) (word : InstrWord) (s : State) : Host.Outcome State Fault Refusal :=
  s.moves (atCore core (issueWord core (withOp word 0x0B)))

/-- SQD (R163). Issue of an SQD. -/
def execSqd (core : Nat) (word : InstrWord) (s : State) : Host.Outcome State Fault Refusal :=
  s.moves (atCore core (issueWord core (withOp word 0x0C)))

/-- CTR_SET (R150). Issue of a CTR with OP SET. -/
def execCtrSet (core : Nat) (word : InstrWord) (s : State) : Host.Outcome State Fault Refusal :=
  s.moves (atCore core (issueWord core (withField (withOp word 0x0D) 8 4 2 0)))

/-- CTR_ADD (R150). Issue of a CTR with OP ADD. -/
def execCtrAdd (core : Nat) (word : InstrWord) (s : State) : Host.Outcome State Fault Refusal :=
  s.moves (atCore core (issueWord core (withField (withOp word 0x0D) 8 4 2 1)))

/-- CTR_SELECT (R150). Issue of a CTR with OP SELECT. -/
def execCtrSelect (core : Nat) (word : InstrWord) (s : State) : Host.Outcome State Fault Refusal :=
  s.moves (atCore core (issueWord core (withField (withOp word 0x0D) 8 4 2 2)))

/-- CMP (R151). Issue of a CMP. -/
def execCmp (core : Nat) (word : InstrWord) (s : State) : Host.Outcome State Fault Refusal :=
  s.moves (atCore core (issueWord core (withOp word 0x0E)))

/-- SEQUENCER_ENABLE (R170). A write of CR_SEQ_CTRL with ENABLE. -/
def execSequencerEnable (agent : Agent) (core : Nat) (value : Word) (s : State) : Host.Outcome State Fault Refusal :=
  s.answers (Hw.writeNamed agent .CR_SEQ_CTRL core (withFld F.CR_SEQ_CTRL_ENABLE 1 value.toNat))

/-- SEQUENCER_DISABLE (R170). A write of CR_SEQ_CTRL that clears ENABLE. -/
def execSequencerDisable (agent : Agent) (core : Nat) (value : Word) (s : State) : Host.Outcome State Fault Refusal :=
  s.answers (Hw.writeNamed agent .CR_SEQ_CTRL core (withFld F.CR_SEQ_CTRL_ENABLE 0 value.toNat))

end Sys2Proof.Machine
end

