-- ==== Sys2Proof/Machine/SubmitCommands.lean ====
section
/-! DEFINITION. Work submission (R271 to R286, R323, R334). -/

namespace Sys2Proof.Machine

/-- QUEUE_SCAN_VISIT (R272). The scanner visits the next enabled queue. -/
def execQueueScanVisit (s : State) : Host.Outcome State Fault Refusal := s.answers (clocked (fun w => w.onHw (·.scanVisit)))

/-- TAIL_READ_DONE (R272). A tail word has been read. -/
def execTailReadDone (queue : Nat) (s : State) : Host.Outcome State Fault Refusal :=
  s.answers (clocked (fun w => w.onHwMem (fun m h => h.tailRead m queue)))

/-- READY_LIST_POP (R272). A write of SQ_READY_POP. -/
def execReadyListPop (agent : Agent) (s : State) : Host.Outcome State Fault Refusal := s.answers (Hw.writeNamed agent .SQ_READY_POP 0 0)

/-- QUEUE_ENABLE (R286). A write of SQ_CTRL with ENABLE. -/
def execQueueEnable (agent : Agent) (queue : Nat) (value : Word) (s : State) : Host.Outcome State Fault Refusal :=
  s.answers (Hw.writeNamed agent .SQ_CTRL queue (withFld F.SQ_CTRL_ENABLE 1 value.toNat))

/-- QUEUE_DISABLE (R283). A write of SQ_CTRL that clears ENABLE. -/
def execQueueDisable (agent : Agent) (queue : Nat) (value : Word) (s : State) : Host.Outcome State Fault Refusal :=
  s.answers (Hw.writeNamed agent .SQ_CTRL queue (withFld F.SQ_CTRL_ENABLE 0 value.toNat))

/-- QUEUE_RESTART (R274). A write of SQ_CTRL with RESTART, its other fields as they stand. -/
def execQueueRestart (agent : Agent) (queue : Nat) (s : State) : Host.Outcome State Fault Refusal :=
  s.answers (fun w => Hw.writeNamed agent .SQ_CTRL queue (withFld F.SQ_CTRL_RESTART 1 (w.hw.rd .SQ_CTRL queue)) w)

/-- DISPATCH_TAKE (R323). A write of DP_TAKE. -/
def execDispatchTake (agent : Agent) (value : Word) (s : State) : Host.Outcome State Fault Refusal :=
  s.answers (Hw.writeNamed agent .DP_TAKE 0 value.toNat)

/-- LAUNCH (R275). The Dispatcher takes a LAUNCH entry for a free context. -/
def execLaunch (queue : Nat) (context : Nat) (s : State) : Host.Outcome State Fault Refusal := s.answers (byFirmware false (launch queue context))

/-- PATCH (R275). The Dispatcher takes a PATCH entry. -/
def execPatch (queue : Nat) (s : State) : Host.Outcome State Fault Refusal := s.answers (byFirmware false (patchEntry queue))

/-- FENCE_WAIT (R277). The Dispatcher looks at a FENCE_WAIT entry. -/
def execFenceWait (queue : Nat) (s : State) : Host.Outcome State Fault Refusal := s.answers (byFirmware false (fenceWait queue))

/-- CANCEL (R279). The Dispatcher takes a CANCEL entry. -/
def execCancel (queue : Nat) (s : State) : Host.Outcome State Fault Refusal := s.answers (byFirmware false (cancelEntry queue))

/-- QUEUE_NOP (R273). The Dispatcher takes a NOP entry. -/
def execQueueNop (queue : Nat) (s : State) : Host.Outcome State Fault Refusal := s.answers (byFirmware false (nopEntry queue))

/-- ARMATURE_LAUNCH (R280). The Dispatcher launches an armature entry's graph for a free context. -/
def execArmatureLaunch (entry : Nat) (context : Nat) (s : State) : Host.Outcome State Fault Refusal :=
  s.answers (byFirmware false (armLaunch entry context))

/-- CONTINUATION_ADMIT (R334). The Dispatcher starts a continuation in a free context. -/
def execContinuationAdmit (context : Nat) (s : State) : Host.Outcome State Fault Refusal := s.answers (byFirmware false (continuationAdmit context))

/-- CONTEXT_CMD_WRITE (R284). A write of a context's CMD. -/
def execContextCmdWrite (agent : Agent) (context : Nat) (value : Word) (s : State) : Host.Outcome State Fault Refusal :=
  s.answers (Hw.writeNamed agent .CTX_CMD context value.toNat)

/-- GRAPH_ENTRY_WRITE (R275). A write of a word of a graph entry. -/
def execGraphEntryWrite (agent : Agent) (graph : Nat) (word : Nat) (value : Word) (s : State) : Host.Outcome State Fault Refusal :=
  s.answers (fun w => if graph < 4096 && word < 8 then Hw.ctlWrite agent ((Reg.desc .GRAPH_BUF0).base + 0x20 * graph + 4 * word) value.toNat 0 w else w)

/-- ARMATURE_ENTRY_WRITE (R280). A write of a word of an armature entry. -/
def execArmatureEntryWrite (agent : Agent) (entry : Nat) (word : Nat) (value : Word) (s : State) : Host.Outcome State Fault Refusal :=
  s.answers (fun w => if entry < 256 && word < 8 then Hw.ctlWrite agent ((Reg.desc .ARM_CFG).base + 0x20 * entry + 4 * word) value.toNat 0 w else w)

end Sys2Proof.Machine
end

