-- ==== Sys2Proof/Machine/SyncCommands.lean ====
section
/-! DEFINITION. Synchronisation (R258 to R270, R452). -/

namespace Sys2Proof.Machine

/-- SYNC_WAIT (R261). Issue of a SYNC with OP WAIT. -/
def execSyncWait (core : Nat) (word : InstrWord) (s : State) : Host.Outcome State Fault Refusal :=
  s.moves (atCore core (issueWord core (withField (withOp word 0x10) 8 0 3 0)))

/-- SYNC_TAKE (R263). Issue of a SYNC with OP TAKE. -/
def execSyncTake (core : Nat) (word : InstrWord) (s : State) : Host.Outcome State Fault Refusal :=
  s.moves (atCore core (issueWord core (withField (withOp word 0x10) 8 0 3 1)))

/-- SYNC_SIGNAL (R261). Issue of a SYNC with OP SIGNAL. -/
def execSyncSignal (core : Nat) (word : InstrWord) (s : State) : Host.Outcome State Fault Refusal :=
  s.moves (atCore core (issueWord core (withField (withOp word 0x10) 8 0 3 2)))

/-- SYNC_ADD (R261). Issue of a SYNC with OP ADD. -/
def execSyncAdd (core : Nat) (word : InstrWord) (s : State) : Host.Outcome State Fault Refusal :=
  s.moves (atCore core (issueWord core (withField (withOp word 0x10) 8 0 3 3)))

/-- SYNC_COUCH (R265). Issue of a SYNC with OP COUCH. -/
def execSyncCouch (core : Nat) (word : InstrWord) (s : State) : Host.Outcome State Fault Refusal :=
  s.moves (atCore core (issueWord core (withField (withOp word 0x10) 8 0 3 4)))

/-- COUCH_ARRIVAL (R266). A couch request reaches this block's couch unit. -/
def execCouchArrival (obj : Nat) (amount : Nat) (mark : Nat) (stream : Nat) (hoop : Nat) (fbeat : Nat) (s : State) : Host.Outcome State Fault Refusal :=
  s.answers (clocked (fun w => w.onHw (fun h => h.couchArrive { dest := h.get F.LK_ADDR_ADDR, obj := obj, value := amount, mark := mark, stream := stream, hoop := hoop, fbeat := fbeat })))

/-- SYNC_HAND_SET (R270). A write of SY_VALUE. -/
def execSyncHandSet (agent : Agent) (obj : Nat) (value : Word) (s : State) : Host.Outcome State Fault Refusal :=
  s.answers (Hw.writeNamed agent .SY_VALUE obj value.toNat)

/-- SYNC_UNIT_ENABLE (R452). A write of SY_CTRL with ENABLE. -/
def execSyncUnitEnable (agent : Agent) (value : Word) (s : State) : Host.Outcome State Fault Refusal :=
  s.answers (Hw.writeNamed agent .SY_CTRL 0 (withFld F.SY_CTRL_ENABLE 1 value.toNat))

/-- SYNC_INIT_DONE (R452). The zeroing of the sync unit ends. -/
def execSyncInitDone (s : State) : Host.Outcome State Fault Refusal := s.answers (clocked (fun w => w.onHw (·.syncInitDone)))

end Sys2Proof.Machine
end

