-- ==== Sys2Proof/Machine/TambourCommands.lean ====
section
/-! DEFINITION. Tambours (R231 to R257). -/

namespace Sys2Proof.Machine

/-- TAMBOUR_ENABLE (R257). A write of TB_CTRL or GT_CTRL with ENABLE. -/
def execTambourEnable (agent : Agent) (tambour : Nat) (value : Word) (s : State) : Host.Outcome State Fault Refusal :=
  s.answers (fun w => Hw.writeNamed agent (Hw.tField tambour F.TB_CTRL_ENABLE).1.reg (Hw.tField tambour F.TB_CTRL_ENABLE).2 (withFld F.TB_CTRL_ENABLE 1 value.toNat) w)

/-- TAMBOUR_LOAD_DONE (R246). The load of an image ends. -/
def execTambourLoadDone (tambour : Nat) (s : State) : Host.Outcome State Fault Refusal :=
  s.answers (atTambour tambour (fun w => w.onHw (fun h => h.tLoadDone tambour)))

/-- TAMBOUR_DISABLE (R247). A write of TB_CTRL or GT_CTRL that clears ENABLE. -/
def execTambourDisable (agent : Agent) (tambour : Nat) (value : Word) (s : State) : Host.Outcome State Fault Refusal :=
  s.answers (fun w => Hw.writeNamed agent (Hw.tField tambour F.TB_CTRL_ENABLE).1.reg (Hw.tField tambour F.TB_CTRL_ENABLE).2 (withFld F.TB_CTRL_ENABLE 0 value.toNat) w)

/-- TAMBOUR_RELEASE (R247). A write of TB_CTRL or GT_CTRL with RELEASE, ENABLE as it stands. -/
def execTambourRelease (agent : Agent) (tambour : Nat) (s : State) : Host.Outcome State Fault Refusal :=
  s.answers (fun w => Hw.writeNamed agent (Hw.tField tambour F.TB_CTRL_ENABLE).1.reg (Hw.tField tambour F.TB_CTRL_ENABLE).2 (2 + w.hw.tGet tambour F.TB_CTRL_ENABLE) w)

/-- TAMBOUR_STOP (R247). A write of TB_CTRL or GT_CTRL with STOP, ENABLE as it stands. -/
def execTambourStop (agent : Agent) (tambour : Nat) (s : State) : Host.Outcome State Fault Refusal :=
  s.answers (fun w => Hw.writeNamed agent (Hw.tField tambour F.TB_CTRL_ENABLE).1.reg (Hw.tField tambour F.TB_CTRL_ENABLE).2 (4 + w.hw.tGet tambour F.TB_CTRL_ENABLE) w)

/-- TAMBOUR_SEQUENCE_END (R248). A sequence of Table 9-7 ends. -/
def execTambourSequenceEnd (tambour : Nat) (s : State) : Host.Outcome State Fault Refusal :=
  s.answers (atTambour tambour (fun w => w.onHw (fun h => h.tSequenceEnd tambour)))

/-- TAMBOUR_CLEAR_DONE (R250). The clearing ends. -/
def execTambourClearDone (tambour : Nat) (s : State) : Host.Outcome State Fault Refusal :=
  s.answers (atTambour tambour (fun w => w.onHw (fun h => h.tClearDone tambour)))

/-- TAMBOUR_INPUT_POP (R238). The boundary pops a chunk from T0. -/
def execTambourInputPop (core : Nat) (s : State) : Host.Outcome State Fault Refusal :=
  s.moves (atCore core (fun w => w.onHw (fun h => h.tInputPop core)))

/-- TAMBOUR_OUTPUT_DELIVER (R238). The logic delivers an output: to L_OUT, or a chunk of a kind. -/
def execTambourOutputDeliver (tambour : Nat) (lout : Bool) (tag : Nat) (kind : Nat) (data : List Byte) (s : State) : Host.Outcome State Fault Refusal :=
  s.moves (atTambour tambour (outputDeliver tambour lout tag kind data))

/-- TAMBOUR_OUTPUT_DUE (R238). The due cycle of the oldest output owed. -/
def execTambourOutputDue (core : Nat) (s : State) : Host.Outcome State Fault Refusal := s.moves (atCore core (outputDue core))

/-- ACTIVITY_WINDOW_END (R252). A 64-FCLK window ends with a count of changes. -/
def execActivityWindowEnd (tambour : Nat) (count : Nat) (s : State) : Host.Outcome State Fault Refusal :=
  s.answers (atTambour tambour (fun w => w.onHw (fun h => h.windowEnd tambour count)))

/-- CONFIG_SCRUB_FRAME (R253). The configuration scrubber reads a frame: 0 clean, 1 corrected, 2 uncorrectable. -/
def execConfigScrubFrame (tambour : Nat) (outcome : Nat) (s : State) : Host.Outcome State Fault Refusal :=
  s.answers (atTambour tambour (fun w => w.onHw (fun h => h.scrubFrame tambour outcome)))

/-- GATHER_POOL_INPUT (R242). The next served row enters G_IN. -/
def execGatherPoolInput (s : State) : Host.Outcome State Fault Refusal := s.answers (clocked (fun w => w.onHw (·.poolInput)))

/-- GATHER_SLOT_DEADLINE (R244). Cycle 0 of the beat before a GATHER transmit slot. -/
def execGatherSlotDeadline (port : Nat) (lane : Nat) (slot : Nat) (s : State) : Host.Outcome State Fault Refusal :=
  s.answers (atLink port (fun w => w.onHwMem (fun m h => h.slotDeadline m port lane slot)))

end Sys2Proof.Machine
end

