-- ==== Sys2Proof/Machine/TimeCommands.lean ====
section
/-! DEFINITION. Fabric time (R24 to R59). -/

namespace Sys2Proof.Machine

/-- BEAT_BOUNDARY (R24). The beat ends and phase 0 of the next begins. -/
def execBeatBoundary (s : State) : Host.Outcome State Fault Refusal := s.moves beatBoundary

/-- PLINTH_BEAT_COUNT (R24). REFCLK cycles pass while ACLK is stopped. -/
def execPlinthBeatCount (cycles : Nat) (s : State) : Host.Outcome State Fault Refusal := s.answers (fun w => w.onHw (plinthBeats cycles))

/-- BEAT_MARK (R29). A start of frame on a port at a root tick, its header carrying BEAT. -/
def execBeatMark (port : Nat) (tick : Nat) (frameBeat : Nat) (s : State) : Host.Outcome State Fault Refusal :=
  s.answers (atLink port (fun w => w.onHwMem (fun m h => h.linkMark m port tick frameBeat)))

/-- TREF_EDGE (R28). A rising edge of TREF at a root tick. -/
def execTrefEdge (tick : Nat) (s : State) : Host.Outcome State Fault Refusal := s.answers (clocked (fun w => w.onHw (·.trefMark tick)))

/-- SOURCE_MARK_TIMEOUT (R31). Four beats without a mark of the source in use. -/
def execSourceMarkTimeout (s : State) : Host.Outcome State Fault Refusal := s.answers (clocked (fun w => w.onHwMem (fun m h => h.markTimeout m)))

/-- HOLDOVER_EXPIRY (R33). 1,024 beats in HOLDOVER. -/
def execHoldoverExpiry (s : State) : Host.Outcome State Fault Refusal := s.answers (clocked (fun w => w.onHw (·.holdoverExpiry)))

/-- TM_ENABLE (R36). A write of TM_CTRL that sets ENABLE. -/
def execTmEnable (agent : Agent) (value : Word) (s : State) : Host.Outcome State Fault Refusal :=
  s.answers (Hw.writeNamed agent .TM_CTRL 0 (withFld F.TM_CTRL_ENABLE 1 value.toNat))

/-- TM_DISABLE (R36). A write of TM_CTRL that changes ENABLE alone, to 0. -/
def execTmDisable (agent : Agent) (s : State) : Host.Outcome State Fault Refusal :=
  s.answers (fun w => Hw.writeNamed agent .TM_CTRL 0 (withFld F.TM_CTRL_ENABLE 0 (w.hw.rd .TM_CTRL 0)) w)

/-- TRIM_STEP_LONG (R37). A write of TM_TRIM with STEP_LONG. -/
def execTrimStepLong (agent : Agent) (value : Word) (s : State) : Host.Outcome State Fault Refusal :=
  s.answers (Hw.writeNamed agent .TM_TRIM 0 (withFld F.TM_TRIM_STEP_LONG 1 value.toNat))

/-- TRIM_STEP_SHORT (R37). A write of TM_TRIM with STEP_SHORT. -/
def execTrimStepShort (agent : Agent) (value : Word) (s : State) : Host.Outcome State Fault Refusal :=
  s.answers (Hw.writeNamed agent .TM_TRIM 0 (withFld F.TM_TRIM_STEP_SHORT 1 value.toNat))

/-- PRK_SHADOW_WRITE (R55). A write of TM_PRK_SHADOW. -/
def execPrkShadowWrite (agent : Agent) (value : Word) (s : State) : Host.Outcome State Fault Refusal :=
  s.answers (Hw.writeNamed agent .TM_PRK_SHADOW 0 value.toNat)

/-- EPOCH_ARM (R55). A write of TM_EPOCH_CTRL.ARM; `unreadable`: the first word of the image is uncorrectable. -/
def execEpochArm (agent : Agent) (unreadable : Bool) (s : State) : Host.Outcome State Fault Refusal :=
  s.answers (Hw.guarded agent .TM_EPOCH_CTRL 0 (fun w => w.onHwMem (fun m h => h.armWrite m unreadable 1)))

/-- EPOCH_DISARM (R55). A write of TM_EPOCH_CTRL.DISARM. -/
def execEpochDisarm (agent : Agent) (s : State) : Host.Outcome State Fault Refusal := s.answers (Hw.writeNamed agent .TM_EPOCH_CTRL 0 2)

/-- EPOCH_SWITCHOVER (R56). The first cycle of E′. -/
def execEpochSwitchover (s : State) : Host.Outcome State Fault Refusal := s.moves (clocked switchover)

/-- SLACK_EXPIRY (R53). An instruction that has not issued within its slack. -/
def execSlackExpiry (core : Nat) (s : State) : Host.Outcome State Fault Refusal :=
  s.answers (atCore core (fun w => w.onHw (fun h => h.slackExpiry core)))

end Sys2Proof.Machine
end

