-- ==== Sys2Proof/Machine/Dispatch.lean ====
section
/-! DEFINITION. The meaning of every command, one arm a constructor. -/

namespace Sys2Proof.Machine

/-- The meaning of a command. -/
def exec (i : Instr) (s : State) : Host.Outcome State Fault Refusal :=
  match i with
  | .registerWrite agent offset value hwSet => Sys2Proof.Machine.execRegisterWrite agent offset value hwSet s
  | .counterLowWordRead agent offset => Sys2Proof.Machine.execCounterLowWordRead agent offset s
  | .tmNowRead agent => Sys2Proof.Machine.execTmNowRead agent s
  | .beatBoundary => Sys2Proof.Machine.execBeatBoundary s
  | .plinthBeatCount cycles => Sys2Proof.Machine.execPlinthBeatCount cycles s
  | .beatMark port tick frameBeat => Sys2Proof.Machine.execBeatMark port tick frameBeat s
  | .trefEdge tick => Sys2Proof.Machine.execTrefEdge tick s
  | .sourceMarkTimeout => Sys2Proof.Machine.execSourceMarkTimeout s
  | .holdoverExpiry => Sys2Proof.Machine.execHoldoverExpiry s
  | .tmEnable agent value => Sys2Proof.Machine.execTmEnable agent value s
  | .tmDisable agent => Sys2Proof.Machine.execTmDisable agent s
  | .trimStepLong agent value => Sys2Proof.Machine.execTrimStepLong agent value s
  | .trimStepShort agent value => Sys2Proof.Machine.execTrimStepShort agent value s
  | .prkShadowWrite agent value => Sys2Proof.Machine.execPrkShadowWrite agent value s
  | .epochArm agent unreadable => Sys2Proof.Machine.execEpochArm agent unreadable s
  | .epochDisarm agent => Sys2Proof.Machine.execEpochDisarm agent s
  | .epochSwitchover => Sys2Proof.Machine.execEpochSwitchover s
  | .slackExpiry core => Sys2Proof.Machine.execSlackExpiry core s
  | .stepCommit => Sys2Proof.Machine.execStepCommit s
  | .abortFlush core => Sys2Proof.Machine.execAbortFlush core s
  | .replayReady => Sys2Proof.Machine.execReplayReady s
  | .replayRunStart => Sys2Proof.Machine.execReplayRunStart s
  | .nullCommit => Sys2Proof.Machine.execNullCommit s
  | .spareSubstitution => Sys2Proof.Machine.execSpareSubstitution s
  | .spareRequest agent value => Sys2Proof.Machine.execSpareRequest agent value s
  | .faultUnitEnable agent value => Sys2Proof.Machine.execFaultUnitEnable agent value s
  | .faultLogPop agent => Sys2Proof.Machine.execFaultLogPop agent s
  | .lostStreamsWrite agent n value => Sys2Proof.Machine.execLostStreamsWrite agent n value s
  | .pass core word => Sys2Proof.Machine.execPass core word s
  | .load core word => Sys2Proof.Machine.execLoad core word s
  | .loadStart core => Sys2Proof.Machine.execLoadStart core s
  | .passFeedStart core => Sys2Proof.Machine.execPassFeedStart core s
  | .passCommit core => Sys2Proof.Machine.execPassCommit core s
  | .arrayCheckFault core kind row col => Sys2Proof.Machine.execArrayCheckFault core kind row col s
  | .arrayEnable agent core value => Sys2Proof.Machine.execArrayEnable agent core value s
  | .arrayScrubDone core => Sys2Proof.Machine.execArrayScrubDone core s
  | .arrayDisable agent core value => Sys2Proof.Machine.execArrayDisable agent core value s
  | .arrSpareWrite agent core value => Sys2Proof.Machine.execArrSpareWrite agent core value s
  | .treeRowTest agent core value => Sys2Proof.Machine.execTreeRowTest agent core value s
  | .treeAllRowsTest agent core value => Sys2Proof.Machine.execTreeAllRowsTest agent core value s
  | .treeMappingVerify agent core value => Sys2Proof.Machine.execTreeMappingVerify agent core value s
  | .treeOperationDone core ok => Sys2Proof.Machine.execTreeOperationDone core ok s
  | .drain core word => Sys2Proof.Machine.execDrain core word s
  | .drainResume core => Sys2Proof.Machine.execDrainResume core s
  | .cvt core word => Sys2Proof.Machine.execCvt core word s
  | .drainUnitEnable agent core value => Sys2Proof.Machine.execDrainUnitEnable agent core value s
  | .vopt core word => Sys2Proof.Machine.execVopt core word s
  | .bind core word => Sys2Proof.Machine.execBind core word s
  | .mmul core word => Sys2Proof.Machine.execMmul core word s
  | .mmul2 core word => Sys2Proof.Machine.execMmul2 core word s
  | .walkerPassIssue core => Sys2Proof.Machine.execWalkerPassIssue core s
  | .walkerArm core which => Sys2Proof.Machine.execWalkerArm core which s
  | .macroSignal core => Sys2Proof.Machine.execMacroSignal core s
  | .combineRound core => Sys2Proof.Machine.execCombineRound core s
  | .bandConvert core => Sys2Proof.Machine.execBandConvert core s
  | .macroUnitEnable agent core value => Sys2Proof.Machine.execMacroUnitEnable agent core value s
  | .ringTailWrite agent core value => Sys2Proof.Machine.execRingTailWrite agent core value s
  | .publishedCopyDone core => Sys2Proof.Machine.execPublishedCopyDone core s
  | .bankReloadRequest agent core value => Sys2Proof.Machine.execBankReloadRequest agent core value s
  | .bankLoadDone core bank => Sys2Proof.Machine.execBankLoadDone core bank s
  | .instructionIssue core => Sys2Proof.Machine.execInstructionIssue core s
  | .nop core word => Sys2Proof.Machine.execNop core word s
  | .seg core word => Sys2Proof.Machine.execSeg core word s
  | .loop core word => Sys2Proof.Machine.execLoop core word s
  | .skipc core word => Sys2Proof.Machine.execSkipc core word s
  | .sli core word => Sys2Proof.Machine.execSli core word s
  | .salu core word => Sys2Proof.Machine.execSalu core word s
  | .sld core word => Sys2Proof.Machine.execSld core word s
  | .sst core word => Sys2Proof.Machine.execSst core word s
  | .sqd core word => Sys2Proof.Machine.execSqd core word s
  | .ctrSet core word => Sys2Proof.Machine.execCtrSet core word s
  | .ctrAdd core word => Sys2Proof.Machine.execCtrAdd core word s
  | .ctrSelect core word => Sys2Proof.Machine.execCtrSelect core word s
  | .cmp core word => Sys2Proof.Machine.execCmp core word s
  | .syncWait core word => Sys2Proof.Machine.execSyncWait core word s
  | .syncTake core word => Sys2Proof.Machine.execSyncTake core word s
  | .syncSignal core word => Sys2Proof.Machine.execSyncSignal core word s
  | .syncAdd core word => Sys2Proof.Machine.execSyncAdd core word s
  | .syncCouch core word => Sys2Proof.Machine.execSyncCouch core word s
  | .bbarm core word => Sys2Proof.Machine.execBbarm core word s
  | .bbcan core word => Sys2Proof.Machine.execBbcan core word s
  | .vop core word => Sys2Proof.Machine.execVop core word s
  | .vld core word => Sys2Proof.Machine.execVld core word s
  | .vst core word => Sys2Proof.Machine.execVst core word s
  | .sequencerEnable agent core value => Sys2Proof.Machine.execSequencerEnable agent core value s
  | .sequencerDisable agent core value => Sys2Proof.Machine.execSequencerDisable agent core value s
  | .descriptorActivate core bobbin => Sys2Proof.Machine.execDescriptorActivate core bobbin s
  | .bobbinTransferStart core symbols => Sys2Proof.Machine.execBobbinTransferStart core symbols s
  | .descriptorEnd core bobbin => Sys2Proof.Machine.execDescriptorEnd core bobbin s
  | .slotTransmitMove core => Sys2Proof.Machine.execSlotTransmitMove core s
  | .slotReceiveMove core => Sys2Proof.Machine.execSlotReceiveMove core s
  | .bobbinEnable agent core value => Sys2Proof.Machine.execBobbinEnable agent core value s
  | .bobbinDisable agent core value => Sys2Proof.Machine.execBobbinDisable agent core value s
  | .matrixMemoryEnable agent core value => Sys2Proof.Machine.execMatrixMemoryEnable agent core value s
  | .matrixMemoryInitDone core => Sys2Proof.Machine.execMatrixMemoryInitDone core s
  | .blockMemoryEnable agent value => Sys2Proof.Machine.execBlockMemoryEnable agent value s
  | .blockMemoryInitDone => Sys2Proof.Machine.execBlockMemoryInitDone s
  | .cacheInvalidate agent value => Sys2Proof.Machine.execCacheInvalidate agent value s
  | .cacheInvalidateDone => Sys2Proof.Machine.execCacheInvalidateDone s
  | .cacheFill => Sys2Proof.Machine.execCacheFill s
  | .correctedWriteBack => Sys2Proof.Machine.execCorrectedWriteBack s
  | .scrubVisit memory symbols => Sys2Proof.Machine.execScrubVisit memory symbols s
  | .errorLogPop agent => Sys2Proof.Machine.execErrorLogPop agent s
  | .portReadResponse port tag err symbols => Sys2Proof.Machine.execPortReadResponse port tag err symbols s
  | .portWriteResponse port tag err => Sys2Proof.Machine.execPortWriteResponse port tag err s
  | .commitTableEntryWrite agent entry word value => Sys2Proof.Machine.execCommitTableEntryWrite agent entry word value s
  | .tambourEnable agent tambour value => Sys2Proof.Machine.execTambourEnable agent tambour value s
  | .tambourLoadDone tambour => Sys2Proof.Machine.execTambourLoadDone tambour s
  | .tambourDisable agent tambour value => Sys2Proof.Machine.execTambourDisable agent tambour value s
  | .tambourRelease agent tambour => Sys2Proof.Machine.execTambourRelease agent tambour s
  | .tambourStop agent tambour => Sys2Proof.Machine.execTambourStop agent tambour s
  | .tambourSequenceEnd tambour => Sys2Proof.Machine.execTambourSequenceEnd tambour s
  | .tambourClearDone tambour => Sys2Proof.Machine.execTambourClearDone tambour s
  | .tambourInputPop core => Sys2Proof.Machine.execTambourInputPop core s
  | .tambourOutputDeliver tambour lout tag kind data => Sys2Proof.Machine.execTambourOutputDeliver tambour lout tag kind data s
  | .tambourOutputDue core => Sys2Proof.Machine.execTambourOutputDue core s
  | .activityWindowEnd tambour count => Sys2Proof.Machine.execActivityWindowEnd tambour count s
  | .configScrubFrame tambour outcome => Sys2Proof.Machine.execConfigScrubFrame tambour outcome s
  | .gatherPoolInput => Sys2Proof.Machine.execGatherPoolInput s
  | .gatherSlotDeadline port lane slot => Sys2Proof.Machine.execGatherSlotDeadline port lane slot s
  | .couchArrival obj amount mark stream hoop fbeat => Sys2Proof.Machine.execCouchArrival obj amount mark stream hoop fbeat s
  | .syncHandSet agent obj value => Sys2Proof.Machine.execSyncHandSet agent obj value s
  | .syncUnitEnable agent value => Sys2Proof.Machine.execSyncUnitEnable agent value s
  | .syncInitDone => Sys2Proof.Machine.execSyncInitDone s
  | .queueScanVisit => Sys2Proof.Machine.execQueueScanVisit s
  | .tailReadDone queue => Sys2Proof.Machine.execTailReadDone queue s
  | .readyListPop agent => Sys2Proof.Machine.execReadyListPop agent s
  | .queueEnable agent queue value => Sys2Proof.Machine.execQueueEnable agent queue value s
  | .queueDisable agent queue value => Sys2Proof.Machine.execQueueDisable agent queue value s
  | .queueRestart agent queue => Sys2Proof.Machine.execQueueRestart agent queue s
  | .dispatchTake agent value => Sys2Proof.Machine.execDispatchTake agent value s
  | .launch queue context => Sys2Proof.Machine.execLaunch queue context s
  | .patch queue => Sys2Proof.Machine.execPatch queue s
  | .fenceWait queue => Sys2Proof.Machine.execFenceWait queue s
  | .cancel queue => Sys2Proof.Machine.execCancel queue s
  | .queueNop queue => Sys2Proof.Machine.execQueueNop queue s
  | .armatureLaunch entry context => Sys2Proof.Machine.execArmatureLaunch entry context s
  | .contextCmdWrite agent context value => Sys2Proof.Machine.execContextCmdWrite agent context value s
  | .graphEntryWrite agent graph word value => Sys2Proof.Machine.execGraphEntryWrite agent graph word value s
  | .armatureEntryWrite agent entry word value => Sys2Proof.Machine.execArmatureEntryWrite agent entry word value s
  | .frameReceive port lane tick header slots faults => Sys2Proof.Machine.execFrameReceive port lane tick header slots faults s
  | .frameMiss port lane => Sys2Proof.Machine.execFrameMiss port lane s
  | .couchEntryReceive port entry => Sys2Proof.Machine.execCouchEntryReceive port entry s
  | .fragmentReceive port fragment => Sys2Proof.Machine.execFragmentReceive port fragment s
  | .reassemblyTimeout => Sys2Proof.Machine.execReassemblyTimeout s
  | .epochNotice => Sys2Proof.Machine.execEpochNotice s
  | .helloSend => Sys2Proof.Machine.execHelloSend s
  | .neighbourExpiry port => Sys2Proof.Machine.execNeighbourExpiry port s
  | .electionStable => Sys2Proof.Machine.execElectionStable s
  | .linkPortEnable agent port value => Sys2Proof.Machine.execLinkPortEnable agent port value s
  | .linkPortDisable agent port value => Sys2Proof.Machine.execLinkPortDisable agent port value s
  | .measureEnd port => Sys2Proof.Machine.execMeasureEnd port s
  | .linkDownTimeout port => Sys2Proof.Machine.execLinkDownTimeout port s
  | .laneFailure port lane => Sys2Proof.Machine.execLaneFailure port lane s
  | .laneSwitchEffective port => Sys2Proof.Machine.execLaneSwitchEffective port s
  | .routeTableWrite agent index value => Sys2Proof.Machine.execRouteTableWrite agent index value s
  | .fabricAddressWrite agent value => Sys2Proof.Machine.execFabricAddressWrite agent value s
  | .clientBindingWrite agent client value => Sys2Proof.Machine.execClientBindingWrite agent client value s
  | .ucieBind agent port value => Sys2Proof.Machine.execUcieBind agent port value s
  | .cpoll port source queue count index => Sys2Proof.Machine.execCpoll port source queue count index s
  | .bootStart sfdp directory => Sys2Proof.Machine.execBootStart sfdp directory s
  | .bootImageLoad role copyA copyB => Sys2Proof.Machine.execBootImageLoad role copyA copyB s
  | .dispatcherEnable agent value => Sys2Proof.Machine.execDispatcherEnable agent value s
  | .dispatcherRestart agent => Sys2Proof.Machine.execDispatcherRestart agent s
  | .keeperRestart agent => Sys2Proof.Machine.execKeeperRestart agent s
  | .processorMemoryUncorrectable keeper => Sys2Proof.Machine.execProcessorMemoryUncorrectable keeper s
  | .kick agent value => Sys2Proof.Machine.execKick agent value s
  | .watchdogExpiry keeper => Sys2Proof.Machine.execWatchdogExpiry keeper s
  | .coverWrite agent core value => Sys2Proof.Machine.execCoverWrite agent core value s
  | .mailboxEnable agent mailbox value => Sys2Proof.Machine.execMailboxEnable agent mailbox value s
  | .mailboxDictRead mailbox => Sys2Proof.Machine.execMailboxDictRead mailbox s
  | .mailboxDictWrite mailbox => Sys2Proof.Machine.execMailboxDictWrite mailbox s
  | .completionAreaReclaim mailbox => Sys2Proof.Machine.execCompletionAreaReclaim mailbox s
  | .mailboxQueueRestart mailbox => Sys2Proof.Machine.execMailboxQueueRestart mailbox s
  | .mailboxQueueStatus mailbox => Sys2Proof.Machine.execMailboxQueueStatus mailbox s
  | .want source amount => Sys2Proof.Machine.execWant source amount s
  | .lostSuspect source addr => Sys2Proof.Machine.execLostSuspect source addr s
  | .lost addr => Sys2Proof.Machine.execLost addr s
  | .continuationAdmit context => Sys2Proof.Machine.execContinuationAdmit context s
  | .hoopOpen agent hoop value => Sys2Proof.Machine.execHoopOpen agent hoop value s
  | .hoopClose agent hoop value => Sys2Proof.Machine.execHoopClose agent hoop value s
  | .hoopRangeWrite agent hoop which value => Sys2Proof.Machine.execHoopRangeWrite agent hoop which value s
  | .windowApply agent => Sys2Proof.Machine.execWindowApply agent s
  | .keyInstall agent hoop => Sys2Proof.Machine.execKeyInstall agent hoop s
  | .keyErase agent hoop => Sys2Proof.Machine.execKeyErase agent hoop s
  | .keySweepDone hoop => Sys2Proof.Machine.execKeySweepDone hoop s
  | .lifecycleCommand agent => Sys2Proof.Machine.execLifecycleCommand agent s
  | .dbgPermit permit => Sys2Proof.Machine.execDbgPermit permit s
  | .permitVerified => Sys2Proof.Machine.execPermitVerified s
  | .debugLevelExpiry => Sys2Proof.Machine.execDebugLevelExpiry s
  | .debugHalt agent => Sys2Proof.Machine.execDebugHalt agent s
  | .debugResume agent => Sys2Proof.Machine.execDebugResume agent s
  | .dbgAccess write offset value => Sys2Proof.Machine.execDbgAccess write offset value s
  | .debugApertureAccess write value => Sys2Proof.Machine.execDebugApertureAccess write value s
  | .dbgNonce => Sys2Proof.Machine.execDbgNonce s
  | .idcode => Sys2Proof.Machine.execIdcode s
  | .bypass => Sys2Proof.Machine.execBypass s
  | .samplePreload pins preload => Sys2Proof.Machine.execSamplePreload pins preload s
  | .extest pins => Sys2Proof.Machine.execExtest pins s
  | .bootStatus => Sys2Proof.Machine.execBootStatus s
  | .dbgLevel => Sys2Proof.Machine.execDbgLevel s
  | .attachTargetRequest write addr data => Sys2Proof.Machine.execAttachTargetRequest write addr data s
  | .attachInitiatorResponse keeper err data => Sys2Proof.Machine.execAttachInitiatorResponse keeper err data s
  | .pllStart agent => Sys2Proof.Machine.execPllStart agent s
  | .pllStop agent => Sys2Proof.Machine.execPllStop agent s
  | .pllLocked => Sys2Proof.Machine.execPllLocked s
  | .aclkSwitch agent run => Sys2Proof.Machine.execAclkSwitch agent run s
  | .pclkSwitch agent root => Sys2Proof.Machine.execPclkSwitch agent root s
  | .mclkSwitch agent root => Sys2Proof.Machine.execMclkSwitch agent root s
  | .domainSwitchDone domain => Sys2Proof.Machine.execDomainSwitchDone domain s
  | .clockMonitorWrite agent value => Sys2Proof.Machine.execClockMonitorWrite agent value s
  | .porz level => Sys2Proof.Machine.execPorz level s
  | .warmz level => Sys2Proof.Machine.execWarmz level s
  | .warmResetRequest agent => Sys2Proof.Machine.execWarmResetRequest agent s
  | .coreReset agent value => Sys2Proof.Machine.execCoreReset agent value s
  | .tambourReset agent value => Sys2Proof.Machine.execTambourReset agent value s
  | .railFault rail => Sys2Proof.Machine.execRailFault rail s
  | .powerRequestRun agent => Sys2Proof.Machine.execPowerRequestRun agent s
  | .powerRequestPark agent => Sys2Proof.Machine.execPowerRequestPark agent s
  | .powerRequestSleep agent => Sys2Proof.Machine.execPowerRequestSleep agent s
  | .rampEnd => Sys2Proof.Machine.execRampEnd s
  | .wakeBeat index => Sys2Proof.Machine.execWakeBeat index s
  | .wakeFrameMatch index frame => Sys2Proof.Machine.execWakeFrameMatch index frame s
  | .wakeThermal => Sys2Proof.Machine.execWakeThermal s
  | .thermalSample sensors => Sys2Proof.Machine.execThermalSample sensors s
  | .governorEnable agent value => Sys2Proof.Machine.execGovernorEnable agent value s
  | .limitWrite agent limit value => Sys2Proof.Machine.execLimitWrite agent limit value s
  | .telemetrySample volts amps => Sys2Proof.Machine.execTelemetrySample volts amps s
  | .telemetryDeadline => Sys2Proof.Machine.execTelemetryDeadline s
  | .apportionment => Sys2Proof.Machine.execApportionment s
  | .energyUnitEnable agent value => Sys2Proof.Machine.execEnergyUnitEnable agent value s
  | .calibrationWrite agent index value => Sys2Proof.Machine.execCalibrationWrite agent index value s
  | .samplerSign agent value => Sys2Proof.Machine.execSamplerSign agent value s
  | .samplerSignDone => Sys2Proof.Machine.execSamplerSignDone s
  | .snapshotGo agent value => Sys2Proof.Machine.execSnapshotGo agent value s
  | .snapshotCapture => Sys2Proof.Machine.execSnapshotCapture s
  | .mgmtFrameReceive frame => Sys2Proof.Machine.execMgmtFrameReceive frame s
  | .mgmtOpen msg => Sys2Proof.Machine.execMgmtOpen msg s
  | .mgmtConfirm msg => Sys2Proof.Machine.execMgmtConfirm msg s
  | .requestRead msg => Sys2Proof.Machine.execRequestRead msg s
  | .requestWrite msg => Sys2Proof.Machine.execRequestWrite msg s
  | .requestRepeat msg => Sys2Proof.Machine.execRequestRepeat msg s
  | .mgmtClose msg => Sys2Proof.Machine.execMgmtClose msg s
  | .apertureAccess dispatcher write hoop addr data => Sys2Proof.Machine.execApertureAccess dispatcher write hoop addr data s
  | .sessionTimeout => Sys2Proof.Machine.execSessionTimeout s
  | .warmResetBootStart => Sys2Proof.Machine.execWarmResetBootStart s
  | .coreRailPowerGood => Sys2Proof.Machine.execCoreRailPowerGood s

end Sys2Proof.Machine
end

