-- ==== Sys2Proof/Safety.lean ====
section
/-! DEFINITION. What a safe state is, and the terms in which statements speak of commands that complete. -/

namespace Sys2Proof.Machine

/-- The invariant that every step keeps: the byte memories are in their canonical form. -/
def State.Inv (s : State) : Prop := s.mem.wf = true

/-- A register instance takes an agent's write: its domain runs, the build has it, and the agent may write it (R3, R7, R318, R378, R390). -/
abbrev Hw.Takes (h : Hw) (a : Agent) (r : Reg) (i : Nat) : Prop :=
  h.served r.desc.base = true ∧ i < r.desc.dims.foldl (fun n d => n * d.2) 1 ∧ h.built { reg := r, idx := i, outer := i, hi := false } = true ∧
    (a = .debug → h.mayDebug true (some { reg := r, idx := i, outer := i, hi := false }) = true) ∧ Hw.mayWrite a r = true

/-- The state with another hardware: what falls due by itself is made in it (R82, R140, R262, Table 13-3), and neither memory nor the commands that
wait change. -/
def State.leads (s : State) (h : Hw) : Host.Outcome State Fault Refusal := .next { s with hw := h.settled }

/-- Nothing falls due by itself. -/
abbrev Hw.Calm (h : Hw) : Prop :=
  h.ab.fresh = false ∧ h.syncIncs = [] ∧ ∀ p ∈ h.cores, p.2.seq.bankReq = none ∧ p.2.arr.badReads = []

/-- No unit of a core has anything to move. -/
abbrev Hw.Still (h : Hw) : Prop := h.ab.on = false ∧ ∀ p ∈ h.cores, p.2.drn = [] ∧ p.2.vec = [] ∧ p.2.bobbins = []

/-- Every register but those listed reads as before, and nothing outside the registers changes. -/
def Hw.Only (h h' : Hw) (ks : List (Reg × Nat)) : Prop :=
  { h' with ctl := h.ctl } = h ∧ ∀ r i, (r, i) ∉ ks → h'.rd r i = h.rd r i

end Sys2Proof.Machine
end

