-- ==== Sys2Proof/Certificates/Slice0/Obligations.lean ====
section
/-! DEFINITION. The statements for the provers: what the commands of the block do, by the numbered rules of spec/. -/

open Sys2Proof Sys2Proof.Machine

/-! The queue, the state and the shared operations. -/

/-- The command at the front of the queue is taken, and the step is its effect on the state with the rest of the queue. -/
def Obligations.StepTakesTheFrontCommand : Prop :=
  ∀ (i : Instr) (rest : List Instr) (s : State), s.pending = i :: rest → step s = exec i { s with pending := rest }

/-- With no command waiting, one cycle passes (log entry 1, the model's choice): within a beat with ACLK running, time moves on by the four root
ticks of an ACLK cycle and no further than the beat's end. Where no unit moves and nothing falls due, nothing else changes. -/
def Obligations.EmptyQueueLetsOneCyclePass : Prop :=
  ∀ s : State, s.pending = [] → s.hw.clocks.aclk = true → s.hw.ticks ≤ s.hw.time.beatStart + s.hw.beatTicks → s.hw.Calm → s.hw.Still →
    step s = .next { s with hw := { s.hw with ticks := min (s.hw.ticks + 4) (s.hw.time.beatStart + s.hw.beatTicks) } }

/-- The invariant holds after reset. -/
def Obligations.ResetMeetsTheInvariant : Prop := State.reset.Inv

/-- Every step from a state that meets the invariant leads to a state that meets it: the byte memories stay in their canonical form. -/
def Obligations.EveryStepKeepsTheInvariant : Prop := ∀ s t : State, s.Inv → step s = .next t → t.Inv

/-- Every command completes in every state, and leaves the commands that wait alone. -/
def Obligations.EveryCommandCompletes : Prop := ∀ (i : Instr) (s : State), ∃ t, exec i s = .next t ∧ t.pending = s.pending

/-- A register instance reads what was written to it within its size, a field what was put into it, a field beside it and every other instance what
they read before. -/
def Obligations.RegistersKeepWhatIsWritten : Prop :=
  (∀ (h : Hw) (r : Reg) (i v : Nat), (h.wr r i v).rd r i = v % 2 ^ (8 * r.desc.size)) ∧
  (∀ (h : Hw) (f : Fld) (v i : Nat), f.lo + f.w ≤ 8 * f.reg.desc.size → (h.put f v i).get f i = v % 2 ^ f.w) ∧
  (∀ (h : Hw) (f g : Fld) (v i : Nat), g.reg = f.reg → f.lo + f.w ≤ 8 * f.reg.desc.size → g.lo + g.w ≤ 8 * f.reg.desc.size →
    (g.lo + g.w ≤ f.lo ∨ f.lo + f.w ≤ g.lo) → (h.put f v i).get g i = h.get g i) ∧
  (∀ (h : Hw) (r r' : Reg) (i i' v : Nat), (r', i') ≠ (r, i) → (h.wr r i v).rd r' i' = h.rd r' i')

/-- Where nothing falls due, what a command leaves is its effect alone; where no unit has anything to move, none moves. -/
def Obligations.NothingDueNothingMoves : Prop :=
  (∀ h : Hw, h.Calm → h.settled = h) ∧ (∀ w : Work, w.hw.Still → pump w = w)

/-- A byte of memory reads what was last stored at it; every byte outside the bytes stored reads as before, in every area. -/
def Obligations.MemoryKeepsWhatIsStored : Prop :=
  (∀ (m : Mem) (area addr i : Nat) (bs : List Byte) (hi : i < bs.length), (m.write area addr bs).byte area (addr + i) = bs[i]) ∧
  (∀ (m : Mem) (area addr area' addr' : Nat) (bs : List Byte),
    (∀ i, i < bs.length → Mem.key area' addr' ≠ Mem.key area (addr + i)) → (m.write area addr bs).byte area' addr' = m.byte area' addr')

/-- After reset the time unit, the array, the sequencer, the bobbins, the memories, the tambours, the sync unit, the queues, the link ports, the
processors, the fault unit, the hoops, the governor and the energy unit are out of service; PL_BOOT reads phase ROM, CK_DOM the reference clocks. -/
def Obligations.ResetLeavesEveryUnitOutOfService : Prop :=
  [F.TM_CTRL_ENABLE, F.CR_ARR_CTRL_ENABLE, F.CR_DRN_CTRL_ENABLE, F.CR_MAC_CTRL_ENABLE, F.CR_SEQ_CTRL_ENABLE, F.BB_CTRL_ENABLE, F.CR_MM_CTRL_ENABLE,
    F.MP_BM_CTRL_ENABLE, F.TB_CTRL_ENABLE, F.GT_CTRL_ENABLE, F.SY_CTRL_ENABLE, F.SQ_CTRL_ENABLE, F.LK_CTRL_ENABLE, F.LK_P_CTRL_ENABLE,
    F.DP_CTRL_D_ENABLE, F.MB_CTRL_ENABLE, F.FT_CTRL_ENABLE, F.PW_CTRL_ENABLE, F.EN_CTRL_ENABLE, F.CK_PLL_START, F.CK_DOM_ACLK_RUN].all
    (fun f => State.reset.hw.get f == 0) = true ∧
  State.reset.hw.get F.PL_BOOT_PHASE = 0 ∧ State.reset.hw.tmState = tmFree ∧ State.reset.hw.time.beat = 0 ∧
  State.reset.mem = [] ∧ State.reset.pending = [] ∧ State.reset.hw.faultLog = []

/-! Control space. -/

/-- A plain write takes the value's bits of RW fields, clears the W1C bits written as 1 but for those that hardware sets in the same cycle, and keeps
every other bit. -/
def Obligations.PlainWriteByBits : Prop :=
  ∀ old rw w1c v hwSet b : Nat, b < 32 → Nat.land rw w1c = 0 →
    (Hw.writtenWord old rw w1c v hwSet).testBit b =
      if w1c.testBit b then hwSet.testBit b || (old.testBit b && !v.testBit b) else if rw.testBit b then v.testBit b else old.testBit b

/-- Registers that a write reaches by the plain rule, without a rule of their own (a selection from every unit). -/
def plainRegs : List Reg :=
  [.TM_STATUS, .CR_ARR_STATUS, .CR_ARR_DUMMY, .CR_DRN_STATUS, .CR_MAC_STATUS, .CR_SEQ_STATUS, .BB_STATUS, .CR_MM_STATUS, .MP_BM_STATUS, .MP_STATUS,
    .TB_STATUS, .SY_STATUS, .SY_USTATUS, .SQ_STATUS, .LK_STATUS, .LK_P_STATUS, .DP_STATUS, .FT_STATUS, .FT_LOST, .HP_STATUS, .HP_WSEL, .HP_WIN_VBASE,
    .HP_WIN_PBASE, .HP_WIN_SIZE, .HP_WIN_ATTR, .SC_CMD, .PL_WAKE, .PL_WAKE_BEAT, .PL_FRAME, .PW_STATUS, .EN_STATUS, .EN_RAIL, .EN_CSEL, .DP_TAKE_CTX]

/-- REGISTER_WRITE at the offset of a register with no rule of its own, by an agent that may write it, is the plain write: the register holds
`Hw.writtenWord` of its word, SET_DURING_CLEAR is set where a clear met a set of another flag, and no other register changes. A write at an offset
where nothing lies changes nothing. A write by an agent that Table 12-2 does not name for the register is refused: SEC_HOOP_VIOLATION is raised as a refusal, placed in
REASON where the unit has that field and logged with the unit's code, and the write has no other effect. -/
def Obligations.RegisterWritesFollowTheirWriters : Prop :=
  (∀ (s : State) (a : Agent) (off : Nat) (v hwSet : Word) (p : Place), off < 2 ^ 28 → off % 4 = 0 → placeOf off = some p → p.reg ∈ plainRegs →
    Hw.isMailbox off = false → s.hw.served off = true → s.hw.built p = true → Hw.mayWrite a p.reg = true →
    (a = .debug → s.hw.mayDebug true (some p) = true) →
    exec (.registerWrite a off v hwSet) s = s.leads (s.hw.plainWrite p v.toNat hwSet.toNat) ∧
    s.hw.Only (s.hw.plainWrite p v.toNat hwSet.toNat) [(p.reg, p.idx)] ∧
    (p.hi = false → sdcBit p.reg = none →
      (s.hw.plainWrite p v.toNat hwSet.toNat).rd p.reg p.idx % 2 ^ 32 =
        Hw.writtenWord (s.hw.rd p.reg p.idx % 2 ^ 32)
          (bits 0 32 (if 2 ≤ s.hw.get F.SC_STATE_STATE then p.reg.desc.rw else Nat.lor p.reg.desc.rw p.reg.desc.rwl)) (bits 0 32 p.reg.desc.w1c)
          v.toNat hwSet.toNat)) ∧
  (∀ (s : State) (a : Agent) (off : Nat) (v hwSet : Word), off < 2 ^ 28 → placeOf off = none → Hw.isMailbox off = false → a ≠ .debug →
    exec (.registerWrite a off v hwSet) s = s.leads s.hw) ∧
  (∀ (s : State) (a : Agent) (off : Nat) (v hwSet : Word) (p : Place), off < 2 ^ 28 → off % 4 = 0 → placeOf off = some p → a ≠ .debug →
      Hw.isMailbox off = false → s.hw.served off = true → s.hw.built p = true → Hw.mayWrite a p.reg = false →
      exec (.registerWrite a off v hwSet) s =
        s.leads (s.hw.raise Rc.SEC_HOOP_VIOLATION { unit := Hw.unitCode p, refusal := true, reason := Hw.unitReason p }))

/-- A read of TM_NOW at 0008h captures the high word and the phase in the same cycle; a read of TM_NOW_PHASE returns the phase so captured. -/
def Obligations.TmNowCapturesThePhase : Prop :=
  (∀ (s : State) (a : Agent), a ≠ .debug → s.hw.served 0x300008 = true →
    ∃ h', exec (.tmNowRead a) s = s.leads h' ∧ Tab.getD h'.readBack a.index 0 = s.hw.time.beat % 2 ^ 32 ∧
      Tab.getD h'.holding a.index 0 = s.hw.time.beat % 2 ^ 64 / 2 ^ 32 ∧ h'.get F.TM_NOW_PHASE_PHASE = s.hw.phase ∧
      s.hw.Only { h' with holding := s.hw.holding, readBack := s.hw.readBack } [(.TM_NOW_PHASE, 0)]) ∧
  (∀ (s : State) (a : Agent), a ≠ .debug → s.hw.served 0x300010 = true →
    ∃ h', exec (.counterLowWordRead a 0x300010) s = s.leads h' ∧
      bits 0 8 (Tab.getD h'.readBack a.index 0) = s.hw.get F.TM_NOW_PHASE_PHASE ∧ { h' with readBack := s.hw.readBack } = s.hw)

/-! Raises of reason codes. -/

/-- A refusal under a CFG code places the code in the unit's REASON and logs it with response 0, belonging to no run; it aborts nothing and changes
nothing else, while the fault log has room. -/
def Obligations.ARefusalIsLoggedAndChangesNothing : Prop :=
  ∀ (h : Hw) (code : Nat) (f : Fld) (i unit : Nat), code / 0x1000 = 1 → f.reg ≠ .LK_ADDR → h.faultLog.length < 1024 →
    h.refuse code f i unit =
      { h.put f code i with faultLog := h.faultLog ++
          [{ beat := h.time.beat, code := code, unit := unit, attempt := 0xFF, stepId := 0, context := 0xFFFF, hoop := 0,
             origin := h.get F.LK_ADDR_ADDR, response := 0, detail := 0 }] }

/-- A raise by a source that belongs to the run in progress, of a code whose response is Abort, starts the abort in that cycle: the fault is logged with
the run's attempt and step, the run is marked faulted, the block is ready T_ready cycles later, FT_ATTEMPT takes the code and the attempt, and the
step is abandoned where the attempt is the last that REPLAY_MAX allows. -/
def Obligations.ARaiseInTheRunAborts : Prop :=
  ∀ (h : Hw) (code : Nat) (src : Src), h.run.on = true → h.ab.on = false → src.inRun = true → src.refusal = false → src.halting = false → src.reason = none →
    code < 2 ^ 16 → responseOf code true false false = 2 → h.inSettle = false → h.faultLog.length < 1024 →
    let h' := h.raise code src
    h'.ab.on = true ∧ h'.ab.fresh = true ∧ h'.ab.code = code ∧ h'.ab.beat = h.time.beat ∧ h'.ab.readyTick = h.ticks + 4 * h.tReady ∧
    h'.run.faulted = true ∧ h'.run.f = h.run.f ∧ h'.get F.FT_STATUS_REASON = code ∧ h'.get F.FT_ATTEMPT_CODE = code ∧
    h'.get F.FT_STATUS_READY = 0 ∧
    (h.run.mirrored = false → (h'.get F.FT_STATUS_STATE = if h.run.attempt = h.get F.FT_CTRL_REPLAY_MAX then 2 else 1)) ∧
    (∃ e, h'.faultLog = h.faultLog ++ [e] ∧ e.code = code ∧ e.attempt = h.run.attempt ∧ e.stepId = h.run.stepId ∧ e.response = 2)

/-! Fabric time. -/

/-- The fields of TM_CTRL as a write of `v` sets them lie in their ranges on this build. -/
def tmCtrlInRange (h : Hw) (v : Nat) : Prop :=
  bits 1 3 v ≤ 2 ∧ bits 4 5 v < h.build.linkports ∧ (bits 9 5 v = 31 ∨ bits 9 5 v < h.build.linkports) ∧ bits 17 3 v ≤ 4

/-- The time unit's named writes in effect. Setting TM_CTRL.ENABLE from FREE with SOURCE 0 and depth 0 makes the unit MASTER; clearing ENABLE
alone in service returns it to FREE; the two STEP bits with MODE 10b request a trim of one cycle, long or short; TM_PRK_SHADOW takes a base while
no image is armed; ARM arms an image that passes every check of Table 2-8, and DISARM takes it back more than 1,024 beats before its start. -/
def Obligations.TimeUnitWritesTakeEffect : Prop :=
  (∀ (s : State) (a : Agent) (v : Word), s.hw.Takes a .TM_CTRL 0 → s.hw.tmState = tmFree → s.hw.on F.TM_CTRL_ENABLE = false →
    tmCtrlInRange s.hw v.toNat → bits 1 3 v.toNat = 0 → bits 14 3 v.toNat = 0 →
    exec (.tmEnable a v) s = s.leads ((s.hw.wr .TM_CTRL 0 (putBits 0 1 1 v.toNat % 2 ^ 20)).put F.TM_STATUS_STATE tmMaster)) ∧
  (∀ (s : State) (a : Agent), s.hw.Takes a .TM_CTRL 0 → (s.hw.tmState = tmLocked ∨ s.hw.tmState = tmHoldover ∨ s.hw.tmState = tmMaster) →
    s.hw.rd .TM_CTRL 0 < 2 ^ 20 →
    exec (.tmDisable a) s = s.leads ((s.hw.put F.TM_CTRL_ENABLE 0).put F.TM_STATUS_STATE tmFree)) ∧
  (∀ (s : State) (a : Agent) (v : Word), s.hw.Takes a .TM_TRIM 0 → bits 0 2 v.toNat = 2 → 1 ≤ bits 4 4 v.toNat → bits 8 4 v.toNat ≤ 7 →
    8 ≤ bits 12 4 v.toNat → bit 3 v.toNat = false →
    ∃ h', exec (.trimStepLong a v) s = s.leads h' ∧ h'.time.stepDue = 1 ∧
      s.hw.Only { h' with time := s.hw.time } [(.TM_TRIM, 0)]) ∧
  (∀ (s : State) (a : Agent) (v : Word), s.hw.Takes a .TM_TRIM 0 → bits 0 2 v.toNat = 2 → 1 ≤ bits 4 4 v.toNat → bits 8 4 v.toNat ≤ 7 →
    8 ≤ bits 12 4 v.toNat → bit 2 v.toNat = false →
    ∃ h', exec (.trimStepShort a v) s = s.leads h' ∧ h'.time.stepDue = -1 ∧
      s.hw.Only { h' with time := s.hw.time } [(.TM_TRIM, 0)]) ∧
  (∀ (s : State) (a : Agent) (v : Word), s.hw.Takes a .TM_PRK_SHADOW 0 → s.hw.on F.TM_EPOCH_CTRL_ARM = false →
    exec (.prkShadowWrite a v) s = s.leads (s.hw.put F.TM_PRK_SHADOW_BASE (bits 12 16 v.toNat))) ∧
  (∀ (s : State) (a : Agent), s.hw.Takes a .TM_EPOCH_CTRL 0 → s.hw.on F.TM_EPOCH_CTRL_ARM = false → s.hw.badWords = [] → s.hw.isMaster = false →
    s.hw.bootPhase ≠ 5 → s.hw.armCheck s.mem (s.hw.get F.TM_PRK_SHADOW_BASE * 4096) false = 0 →
    exec (.epochArm a false) s = s.leads ((s.hw.put F.TM_EPOCH_CTRL_ARM 1).put F.TM_EPOCH_CTRL_REASON 0)) ∧
  (∀ (s : State) (a : Agent), s.hw.Takes a .TM_EPOCH_CTRL 0 → s.hw.on F.TM_EPOCH_CTRL_ARM = true →
    s.hw.time.beat + 1024 < Img.startBeat s.mem (s.hw.get F.TM_PRK_SHADOW_BASE * 4096) →
    exec (.epochDisarm a) s = s.leads ((s.hw.put F.TM_EPOCH_CTRL_ARM 0).put F.TM_EPOCH_CTRL_REASON 0))

/-- While ACLK is stopped the plinth adds 44 root ticks for each REFCLK cycle, and one beat for each 1,024 ticks. -/
def Obligations.ThePlinthCountsBeats : Prop :=
  ∀ (s : State) (n : Nat), s.hw.clocks.aclk = false → s.hw.power.limitNext = [] →
    ∃ h', exec (.plinthBeatCount n) s = s.leads h' ∧ h'.ticks = s.hw.ticks + 44 * n ∧
      1024 * h'.time.beat + h'.time.plinthTicks = 1024 * s.hw.time.beat + s.hw.time.plinthTicks + 44 * n ∧ h'.time.plinthTicks < 1024 ∧
      { h' with ticks := s.hw.ticks, time := s.hw.time } = s.hw

/-- The time unit's marks and their absence. In ACQUIRE the first mark of a link source loads the beat that the frame carries, corrected by the port's
delay, and jumps the phase; a TREF edge marks the boundary of the beat tracked from frames; four silent beats in LOCKED turn to the other source
where it is usable, else to HOLDOVER; 1,024 beats in HOLDOVER raise TIM_SOURCE_LOST. -/
def Obligations.MarksDisciplineTheTimeUnit : Prop :=
  (∀ (s : State) (p tick fb : Nat), s.hw.clocks.aclk = true → p < s.hw.build.linkports → s.hw.tmState = tmAcquire → s.hw.time.acquired = false →
    s.hw.get F.TM_CTRL_SOURCE = 1 → s.hw.get F.TM_CTRL_PORT = p →
    ∃ h', exec (.beatMark p tick fb) s = s.leads h' ∧ h'.time.acquired = true ∧ h'.time.beat = fb + (s.hw.portDelay s.mem p).1 ∧
      h'.time.beatStart = tick - 4 * (s.hw.portDelay s.mem p).2 ∧ h'.time.silentPrimary = 0 ∧ { h' with time := s.hw.time } = s.hw) ∧
  (∀ (s : State) (tick b t : Nat), s.hw.clocks.aclk = true → s.hw.get F.TM_CTRL_SOURCE = 2 → s.hw.tmState = tmAcquire → s.hw.time.acquired = false →
    s.hw.time.tracked = some (b, t) →
    ∃ h', exec (.trefEdge tick) s = s.leads h' ∧ h'.time.acquired = true ∧ h'.time.beatStart = tick ∧ { h' with time := s.hw.time } = s.hw) ∧
  (∀ s : State, s.hw.clocks.aclk = true → s.hw.tmState = tmLocked → s.hw.time.onBackup = false → 4 ≤ s.hw.time.silentPrimary →
    s.hw.time.silentBackup < 4 → s.hw.get F.TM_CTRL_BACKUP_PORT ≠ 31 →
    exec .sourceMarkTimeout s = s.leads { s.hw with time := { s.hw.time with onBackup := true, errors := [] } }) ∧
  (∀ s : State, s.hw.clocks.aclk = true → s.hw.tmState = tmLocked → s.hw.time.onBackup = false → 4 ≤ s.hw.time.silentPrimary →
    4 ≤ s.hw.time.silentBackup → s.hw.isDeputy s.mem = false →
    ∃ h', exec .sourceMarkTimeout s = s.leads h' ∧ h'.get F.TM_STATUS_STATE = tmHoldover ∧ h'.time.holdBeats = 0 ∧
      s.hw.Only { h' with time := s.hw.time } [(.TM_STATUS, 0)]) ∧
  (∀ s : State, s.hw.clocks.aclk = true → s.hw.tmState = tmHoldover → 1024 ≤ s.hw.time.holdBeats → s.hw.on F.TM_STATUS_LOST = false →
    s.hw.faultLog.length < 1024 →
    ∃ h', exec .holdoverExpiry s = s.leads h' ∧ h'.on F.TM_STATUS_LOST = true ∧ h'.get F.TM_STATUS_REASON = Rc.TIM_SOURCE_LOST ∧
      (∃ e, h'.faultLog = s.hw.faultLog ++ [e] ∧ e.code = Rc.TIM_SOURCE_LOST ∧ e.response = 4) ∧
      s.hw.Only { h' with faultLog := s.hw.faultLog } [(.TM_STATUS, 0)])

/-- The events of a beat and of a run, each in the cycle in which it is due: the beat's end and the next beat's first cycle; the switch-over at the armed
image's start; the commit of a run that has ended without a fault; the replay's start at f′; the null commit of an abandoned step. Each is the
shared operation of its rule, after which the cores' units move on; a commit, a replay start or a null commit that is not due does nothing. -/
def Obligations.RunEventsHappenWhenDue : Prop :=
  (∀ s : State, s.hw.clocks.aclk = true → s.hw.eventDue s.mem = false →
    exec .beatBoundary s = .next (s.after (pump ((
      let w := s.work.onHwMem (fun m h => (h.endBeat m).nextBeat m)
      if w.hw.eventDue w.mem then w else beginBeat w).onHw Hw.settleAbort)))) ∧
  (∀ s : State, s.hw.clocks.aclk = true → s.hw.switchDueNow s.mem = true →
    exec .epochSwitchover s = .next (s.after (pump ((switchover s.work).onHw Hw.settleAbort)))) ∧
  (∀ s : State, s.hw.clocks.aclk = true → s.hw.commitDueNow = true → s.hw.switchDueNow s.mem = false →
    exec .stepCommit s = .next (s.after (pump ((startFollowing (commitRun s.work)).onHw Hw.settleAbort)))) ∧
  (∀ s : State, s.hw.clocks.aclk = true → s.hw.replayDueNow = true → s.hw.switchDueNow s.mem = false →
    exec .replayRunStart s = .next (s.after (pump ((replayStart s.work).onHw Hw.settleAbort)))) ∧
  (∀ s : State, s.hw.clocks.aclk = true → s.hw.nullDueNow = true → s.hw.switchDueNow s.mem = false →
    exec .nullCommit s = .next (s.after (pump ((startFollowing ((nullCommitWith (s.hw.get F.FT_ATTEMPT_CODE) false s.work).onHw (fun h =>
      h.put F.TM_LAG_LAG (h.get F.TM_LAG_LAG + (s.hw.ab.endBeat - (s.hw.run.f + s.hw.run.len)))))).onHw Hw.settleAbort)))) ∧
  (∀ s : State, s.hw.Still → s.hw.ab.fresh = false →
    (s.hw.commitDueNow = false → exec .stepCommit s = s.leads s.hw) ∧ (s.hw.replayDueNow = false → exec .replayRunStart s = s.leads s.hw) ∧
    (s.hw.nullDueNow = false → exec .nullCommit s = s.leads s.hw))

/-- An instruction at the head of an enabled sequencer, of the run that the core is bound to, that has not issued when its slack ends: TIM_LATE_ISSUE is
raised in that cycle, within the beat. -/
def Obligations.SlackEndsInALateIssue : Prop :=
  ∀ (s : State) (c e t : Nat), s.hw.clocks.aclk = true → c < s.hw.physCores → s.hw.slackOf c = some (e, t) → t < s.hw.time.beatStart + s.hw.beatTicks →
    (s.hw.seq c).bound = true →
    exec (.slackExpiry c) s = s.leads
      (((s.hw.elapse t).setFlag F.CR_SEQ_STATUS_LATE c).raise Rc.TIM_LATE_ISSUE ((s.hw.elapse t).setFlag F.CR_SEQ_STATUS_LATE c |>.coreSrc c 0xA0 (some F.CR_SEQ_STATUS_REASON)))

/-! The fault unit. -/

/-- Setting FT_CTRL.ENABLE runs the check of Table 13-8: with the sync unit in service it is set; without, ENABLE reads 0 and CFG_FT_DEPENDS is placed
in FT_STATUS.REASON. -/
def Obligations.FaultUnitEnableRunsItsCheck : Prop :=
  ∀ (s : State) (a : Agent) (v : Word), s.hw.Takes a .FT_CTRL 0 → s.hw.on F.FT_CTRL_ENABLE = false → bits 1 3 v.toNat ≠ 0 → s.hw.faultLog.length < 1024 →
    ∃ h', exec (.faultUnitEnable a v) s = s.leads h' ∧ h'.get F.FT_CTRL_REPLAY_MAX = bits 1 3 v.toNat ∧
      (s.hw.on F.SY_CTRL_ENABLE = true → h'.on F.FT_CTRL_ENABLE = true ∧ s.hw.Only h' [(.FT_CTRL, 0)]) ∧
      (s.hw.on F.SY_CTRL_ENABLE = false → h'.on F.FT_CTRL_ENABLE = false ∧ h'.get F.FT_STATUS_REASON = Rc.CFG_FT_DEPENDS ∧
        ∃ e, h'.faultLog = s.hw.faultLog ++ [e] ∧ e.code = Rc.CFG_FT_DEPENDS)

/-- The fault unit's other commands: FT_LOG_POP drops the oldest entry, which the Keeper stores; FT_SPARE.REQUEST is set while the spare stands by;
FT_LOSTn takes its word; SEALED lines of an aborted run are discarded once no pass is in flight; readiness is reached in the cycle T_ready after the
abort; the substitution copies the matrix memory of the faulty core to the spare core, which takes its place. -/
def Obligations.FaultUnitCommandsTakeEffect : Prop :=
  (∀ (s : State) (e : FaultEntry) (rest : List FaultEntry), s.hw.Takes .keeper .FT_LOG_POP 0 → s.hw.faultLog = e :: rest →
    exec (.faultLogPop .keeper) s = s.leads { s.hw with faultLog := rest, mgmt := { s.hw.mgmt with faults := s.hw.mgmt.faults ++ [e] } }) ∧
  (∀ (s : State) (a : Agent) (v : Word), s.hw.Takes a .FT_SPARE 0 → v.toNat % 16 < s.hw.build.cores → s.hw.spareStandby = true →
    exec (.spareRequest a v) s = s.leads ((s.hw.put F.FT_SPARE_LOGICAL (v.toNat % 16)).put F.FT_SPARE_REQUEST 1)) ∧
  (∀ (s : State) (a : Agent) (n : Nat) (v : Word), s.hw.Takes a .FT_LOST n →
    exec (.lostStreamsWrite a n v) s = s.leads (s.hw.wr .FT_LOST n v.toNat)) ∧
  (∀ (s : State) (c : Nat), s.hw.clocks.aclk = true → c < s.hw.physCores → s.hw.ab.on = true → (s.hw.arr c).passes = [] →
    exec (.abortFlush c) s = s.leads (s.hw.onArr c (fun a => { a with lines := Tab.mapAll a.lines {} (fun _ l => if l.state == 2 then {} else l) }))) ∧
  (∀ s : State, s.hw.clocks.aclk = true → s.hw.ab.on = true → s.hw.on F.FT_STATUS_READY = false → s.hw.cores = [] →
    s.hw.ab.abandoned = false → s.hw.ab.noReplay = false →
    ∃ h', exec .replayReady s = s.leads h' ∧ h'.on F.FT_STATUS_READY = true ∧ h'.ticks = max s.hw.ticks s.hw.ab.readyTick ∧
      s.hw.Only { h' with ticks := s.hw.ticks } [(.FT_STATUS, 0), (.FT_REPLAY, 0)]) ∧
  (∀ (s : State) (n : Nat), s.hw.clocks.aclk = true → s.hw.spare.pendingFor = some n → s.hw.ab.on = true → (s.hw.arr n).passes = [] →
    s.hw.spareStandby = true →
    ∃ t, exec .spareSubstitution s = .next t ∧ t.mem = MemWrite.apply s.mem (.copy (Area.matrix n) (Area.matrix s.hw.build.cores)) ∧ t.pending = s.pending)


/-! The matrix array. -/

/-- Every register but those listed reads as before, and nothing outside the registers changes but the cores' own state. -/
def onlyCores (h h' : Hw) (ks : List (Reg × Nat)) : Prop := h.Only { h' with cores := h.cores } ks

/-- The array's registers. Setting CR_ARR_CTRL.ENABLE runs the checks of Table 3-9 and starts the scrub, whose end the array waits for; clearing it stops
an idle array; CR_ARR_SPARE takes its entries with both VERIFIED bits clear while ENABLE is 0, else CFG_CONFLICT; START of CR_ARR_TREE begins a
tree-mode operation, which ends with DONE and PASS, and an agreeing operation 10b verifies the mapping. -/
def Obligations.ArrayRegistersTakeEffect : Prop :=
  (∀ (s : State) (a : Agent) (c : Nat) (v : Word), s.hw.Takes a .CR_ARR_CTRL c → s.hw.on F.CR_ARR_CTRL_ENABLE c = false → bit 1 v.toNat = false →
    s.hw.spareMapOk c = true → s.hw.spareVerified c = true →
    ∃ h', exec (.arrayEnable a c v) s = s.leads h' ∧ h'.on F.CR_ARR_CTRL_ENABLE c = true ∧ h'.on F.CR_ARR_CTRL_TREE c = false ∧
      h'.on F.CR_ARR_STATUS_SCRUB c = true ∧ h'.get F.CR_ARR_STOPMAX_MAX c = 0 ∧
      h'.arr c = { scrubDue := some (s.hw.ticks + 4 * (s.hw.build.accTiles * s.hw.build.arrayRows)) } ∧
      onlyCores s.hw h' [(.CR_ARR_CTRL, c), (.CR_ARR_STATUS, c), (.CR_ARR_STOPMAX, c)]) ∧
  (∀ (s : State) (a : Agent) (c : Nat) (v : Word), s.hw.Takes a .CR_ARR_CTRL c → s.hw.on F.CR_ARR_CTRL_ENABLE c = true →
    bit 1 v.toNat = s.hw.on F.CR_ARR_CTRL_TREE c → (s.hw.arr c).passes = [] →
    ∃ h', exec (.arrayDisable a c v) s = s.leads h' ∧ h'.on F.CR_ARR_CTRL_ENABLE c = false ∧ (h'.arr c).stopTick = none ∧ (h'.arr c).disabling = false ∧
      (h'.arr c).passes = [] ∧ (h'.arr c).lines = (s.hw.arr c).lines ∧ onlyCores s.hw h' [(.CR_ARR_CTRL, c), (.CR_ARR_STOPMAX, c)]) ∧
  (∀ (s : State) (a : Agent) (c : Nat) (v : Word), s.hw.Takes a .CR_ARR_SPARE c →
    (s.hw.on F.CR_ARR_CTRL_ENABLE c = false →
      exec (.arrSpareWrite a c v) s = s.leads (s.hw.wr .CR_ARR_SPARE c (bits 0 11 v.toNat + bits 16 11 v.toNat * 2 ^ 16))) ∧
    (s.hw.on F.CR_ARR_CTRL_ENABLE c = true →
      exec (.arrSpareWrite a c v) s = s.leads (s.hw.refuse Rc.CFG_CONFLICT F.CR_ARR_STATUS_REASON c (0xB1 + c)))) ∧
  (∀ (s : State) (a : Agent) (c : Nat) (v : Word) (op : Nat) (i : Instr),
    (op, i) ∈ [(0, Instr.treeRowTest a c v), (1, .treeAllRowsTest a c v), (2, .treeMappingVerify a c v)] →
    s.hw.Takes a .CR_ARR_TREE c → s.hw.on F.CR_ARR_CTRL_ENABLE c = false → s.hw.on F.CR_ARR_CTRL_TREE c = true → s.hw.on F.CR_ARR_TREE_START c = false →
    (op = 0 → bits 0 10 v.toNat ≤ s.hw.build.arrayRows + 1) →
    ∃ h', exec i s = s.leads h' ∧ h'.on F.CR_ARR_TREE_START c = true ∧ h'.get F.CR_ARR_TREE_OP c = op ∧
      h'.get F.CR_ARR_TREE_ROW c = bits 0 10 v.toNat ∧ h'.arr c = { s.hw.arr c with treeDue := some (s.hw.ticks + 4 * 16398) } ∧
      onlyCores s.hw h' [(.CR_ARR_TREE, c)]) ∧
  (∀ (s : State) (c t : Nat) (ok : Bool), s.hw.clocks.aclk = true → c < s.hw.physCores → (s.hw.arr c).treeDue = some t →
    ∃ h', exec (.treeOperationDone c ok) s = s.leads h' ∧ h'.on F.CR_ARR_TREE_START c = false ∧ h'.on F.CR_ARR_TREE_DONE c = true ∧
      h'.on F.CR_ARR_TREE_PASS c = ok ∧ h'.ticks = max s.hw.ticks t ∧ (h'.arr c).treeDue = none ∧
      (ok = true → s.hw.get F.CR_ARR_TREE_OP c = 2 → h'.on F.CR_ARR_SPARE_VERIFIED0 c = true ∧ h'.on F.CR_ARR_SPARE_VERIFIED1 c = true) ∧
      onlyCores s.hw { h' with ticks := s.hw.ticks } [(.CR_ARR_TREE, c), (.CR_ARR_SPARE, c)]) ∧
  (∀ (s : State) (c t : Nat), s.hw.clocks.aclk = true → c < s.hw.physCores → (s.hw.arr c).scrubDue = some t →
    ∃ h', exec (.arrayScrubDone c) s = s.leads h' ∧ h'.on F.CR_ARR_STATUS_SCRUB c = false ∧ h'.ticks = max s.hw.ticks t ∧ (h'.arr c).scrubDue = none)

/-- The array's work. A queued load that nothing holds starts when the load before it has ended and fills the standby bank with the regions' data; a
queued pass that nothing holds starts to feed when the stream before it has fed, and swaps the stationary banks where SWAP is set; the oldest pass
fed commits at the end of cycle ARRAY_ROWS + 70 + L after its start: its shadow lines replace the tile's lines, or are discarded after an abort. A check of the array that fails is
recorded where it failed first, FAULT is set, and DIN_PE_CHECK or DIN_UNCORRECTABLE is raised. -/
def Obligations.ArrayWorkMovesOn : Prop :=
  (∀ (s : State) (c : Nat) (l : ArrLoad) (rest : List ArrLoad), s.hw.clocks.aclk = true → c < s.hw.physCores → s.hw.Still → s.hw.ab.fresh = false →
    (s.hw.arr c).loads.filter (·.started.isNone) = l :: rest → s.hw.arrHeld c = false → (s.hw.arr c).standbyReady = false →
    (l.mode = 2 → l.accumulate = false) → max s.hw.ticks (s.hw.loadFree c) < s.hw.time.beatStart + s.hw.beatTicks →
    ∃ h', exec (.loadStart c) s = s.leads h' ∧ h'.ticks = max s.hw.ticks (s.hw.loadFree c) ∧
      (h'.arr c).standby = loadedBank s.mem s.hw.build c (s.hw.arr c) l ∧ (h'.arr c).standbyReady = true ∧
      (h'.arr c).loadEnd = h'.ticks + 4 * s.hw.build.arrayRows ∧
      (h'.arr c).loads = (s.hw.arr c).loads.filter (·.started.isSome) ++ { l with started := some h'.ticks } :: rest ∧
      (h'.arr c).lines = (s.hw.arr c).lines ∧ h'.ctl = s.hw.ctl) ∧
  (∀ (s : State) (c : Nat) (p : ArrPass) (rest : List ArrPass), s.hw.clocks.aclk = true → c < s.hw.physCores → s.hw.Still → s.hw.ab.fresh = false →
    (s.hw.arr c).passes.filter (·.started.isNone) = p :: rest → s.hw.passFree s.mem c p = true → (p.swap = true → (s.hw.arr c).standbyReady = true) →
    max s.hw.ticks (s.hw.feedFree c) < s.hw.time.beatStart + s.hw.beatTicks →
    ∃ h', exec (.passFeedStart c) s = s.leads h' ∧ h'.ticks = max s.hw.ticks (s.hw.feedFree c) ∧
      (h'.arr c).active = (if p.swap then (s.hw.arr c).standby else (s.hw.arr c).active) ∧
      (h'.arr c).lastFeed = some (h'.ticks, p.len) ∧
      (h'.arr c).passes = (s.hw.arr c).passes.filter (·.started.isSome) ++
        { p with started := some h'.ticks, out := passOut s.mem s.hw.build c (h'.arr c).active p, colSum := (h'.arr c).active.colSum } :: rest ∧
      (h'.arr c).lines = (s.hw.arr c).lines ∧ h'.ctl = s.hw.ctl) ∧
  (∀ (s : State) (c t : Nat) (p : ArrPass) (rest : List ArrPass), s.hw.clocks.aclk = true → c < s.hw.physCores → s.hw.Still → s.hw.ab.fresh = false →
    (s.hw.arr c).passes = p :: rest → p.started = some t → (s.hw.arr c).badReads = [] → (s.hw.arr c).stopTick = none →
    ∃ h', exec (.passCommit c) s = s.leads h' ∧ h'.ticks = max s.hw.ticks (t + 4 * (s.hw.build.arrayRows + 71 + p.len) - 1) ∧
      (h'.arr c).passes = rest ∧
      ((s.hw.arr c).discard = true → (h'.arr c).lines = (s.hw.arr c).lines ∧ h'.ctl = s.hw.ctl) ∧
      ((s.hw.arr c).discard = false → (h'.arr c).lines = ((s.hw.arr c).applyPass s.hw.build p).lines ∧
        h'.get F.CR_ARR_PASSES_COUNT c = (s.hw.get F.CR_ARR_PASSES_COUNT c + 1) % 2 ^ F.CR_ARR_PASSES_COUNT.w)) ∧
  (∀ (s : State) (c kind row col : Nat), s.hw.clocks.aclk = true → c < s.hw.physCores → s.hw.Still → s.hw.ab.fresh = false → s.hw.run.on = false →
    s.hw.faultLog.length < 1024 → kind < 8 → row < 1024 → col < 64 →
    ∃ h', exec (.arrayCheckFault c kind row col) s = s.leads h' ∧ h'.on F.CR_ARR_STATUS_FAULT c = true ∧
      h'.get F.CR_ARR_STATUS_REASON c = (if kind ≤ 3 then Rc.DIN_PE_CHECK else Rc.DIN_UNCORRECTABLE) ∧
      h'.rd .CR_ARR_FAULT c = (if s.hw.on F.CR_ARR_STATUS_FAULT c then s.hw.rd .CR_ARR_FAULT c else row + col * 2 ^ 10 + kind * 2 ^ 16) ∧
      (∃ e, h'.faultLog = s.hw.faultLog ++ [e] ∧ e.code = h'.get F.CR_ARR_STATUS_REASON c ∧ e.detail = h'.rd .CR_ARR_FAULT c ∧ e.response = 4) ∧
      s.hw.Only { h' with faultLog := s.hw.faultLog } [(.CR_ARR_STATUS, c), (.CR_ARR_FAULT, c)])

/-! The issue of instructions. -/

/-- The state of a core as an instruction of it finds it once its address, the SLD results it reads and its slack have been waited for: from then on its
holds are looked at, and it issues. -/
def issueState (s : State) (c : Nat) (iw : InstrWord) (rule : OpRule) : Work :=
  let h := s.hw
  let e := h.tickOf ((h.seq c).f + h.effStamp c iw / 256) (h.effStamp c iw % 256)
  s.work.onHw (fun h => rule.before (waitSld (h.elapse (max e (h.seq c).nextIssue)) c rule.reads))

/-- An instruction other than SEG may issue now: its core runs, a segment is open, the checks of R142 to R145 pass, and neither its slack, the beat, a hold
of Table 6-3 nor an uncorrectable word stands against it. -/
def issuesNow (s : State) (c : Nat) (iw : InstrWord) (rule : OpRule) : Prop :=
  let h := s.hw
  let q := h.seq c
  let ceff := h.effStamp c iw
  let tag := match h.logicalOf c with
    | some n => if h.planned then h.tagAt s.mem (h.run.plan + ceff / 256) n else 0
    | none => 0
  let w := issueState s c iw rule
  h.clocks.aclk = true ∧ c < h.physCores ∧ h.mayIssue c = true ∧ q.skip = .none ∧ q.seg.isSome = true ∧ reservedOk iw = true ∧
  (ifld iw 7 0 1 = 1 → (addrField (iop iw)).isSome = true) ∧ ceff < 2 ^ 28 ∧ q.lastStamp ≤ ceff ∧ (q.bound = true → ceff / 256 < h.run.len) ∧
  (opClass (iop iw) = 2 → tag = 2) ∧ (opClass (iop iw) = 1 → tag ≠ 0) ∧ rule.check (h.effAddr c iw) s.work = 0 ∧ q.f + ceff / 256 ≤ h.time.beat ∧
  w.hw.ticks ≤ h.tickOf (q.f + ceff / 256) (ceff % 256) + 4 * ifld iw 4 0 16 + 3 ∧ w.hw.beatOver = false ∧ rule.hold (h.effAddr c iw) w = false ∧
  ((addrField (iop iw)).isSome = true → w.hw.on F.CR_MM_STATUS_INIT c = false) ∧ w.hw.badSpans c (rule.extent (h.effAddr c iw)) = none ∧
  (rule.effect (h.effAddr c iw) w).hw.get F.CR_SEQ_STATUS_STATE c = 1

/-- What the issue leaves: the effect, HEAD moved on unless the effect moves it, and the counts of R143 and R144. -/
def issueLeaves (s : State) (c : Nat) (iw : InstrWord) (rule : OpRule) : Work :=
  let h := s.hw
  let ceff := h.effStamp c iw
  let w := rule.effect (h.effAddr c iw) (issueState s c iw rule)
  (if rule.jumps then w else w.onHw (fun h => Hw.moveHead 8 c (h.head c + 1) h)).onHw
    (fun g => g.issued c (h.head c) ceff (h.tickOf ((h.seq c).f + ceff / 256) (ceff % 256)) (ifld iw 4 0 16))

/-- The rows that issue an instruction other than SEG, with the word each issues and its rule. -/
def instrRows (c : Nat) (w : InstrWord) : List (Instr × InstrWord × OpRule) :=
  let op (n : Nat) := withOp w n
  let ctr (n : Nat) := withField (withOp w 0x0D) 8 4 2 n
  let syn (n : Nat) := withField (withOp w 0x10) 8 0 3 n
  [(.nop c w, op 0x00, nopRule), (.loop c w, op 0x02, loopRule c (op 0x02)), (.skipc c w, op 0x03, skipcRule c (op 0x03)),
   (.sli c w, op 0x08, sliRule c (op 0x08)), (.salu c w, op 0x09, saluRule c (op 0x09)), (.sld c w, op 0x0A, sldRule c (op 0x0A)),
   (.sst c w, op 0x0B, sstRule c (op 0x0B)), (.sqd c w, op 0x0C, sqdRule c (op 0x0C)), (.ctrSet c w, ctr 0, ctrRule c (ctr 0)),
   (.ctrAdd c w, ctr 1, ctrRule c (ctr 1)), (.ctrSelect c w, ctr 2, ctrRule c (ctr 2)), (.cmp c w, op 0x0E, cmpRule c (op 0x0E)),
   (.syncWait c w, syn 0, syncRule c (syn 0)), (.syncTake c w, syn 1, syncRule c (syn 1)), (.syncSignal c w, syn 2, syncRule c (syn 2)),
   (.syncAdd c w, syn 3, syncRule c (syn 3)), (.syncCouch c w, syn 4, syncRule c (syn 4)), (.bbarm c w, op 0x18, bbarmRule c (op 0x18)),
   (.bbcan c w, op 0x19, bbcanRule c (op 0x19)), (.load c w, op 0x20, loadRule c (op 0x20)), (.pass c w, op 0x21, passRule c (op 0x21)),
   (.drain c w, op 0x22, drainRule c (op 0x22)), (.cvt c w, op 0x23, cvtRule c (op 0x23)), (.bind c w, op 0x28, bindRule c (op 0x28)),
   (.mmul c w, op 0x29, mmulRule c false), (.mmul2 c w, op 0x2A, mmulRule c true), (.vop c w, op 0x30, vopRule c (op 0x30)),
   (.vld c w, op 0x31, vldRule c (op 0x31)), (.vst c w, op 0x32, vstRule c (op 0x32)), (.vopt c w, op 0x33, voptRule c (op 0x33))]

/-- Every instruction other than SEG that may issue now issues by the common rule: its effect happens in the cycle to which its address, the SLD results
it reads and the cycle after the last issue bring it, HEAD moves on, and the issue is counted; then the cores' units move on. -/
def Obligations.InstructionsIssueByTheCommonRule : Prop :=
  ∀ (s : State) (c : Nat) (w iw : InstrWord) (i : Instr) (rule : OpRule), (i, iw, rule) ∈ instrRows c w → issuesNow s c iw rule →
    exec i s = .next (s.after (pump ((issueLeaves s c iw rule).onHw Hw.settleAbort)))

/-- INSTRUCTION_ISSUE issues the word at HEAD, where a valid bank holds it: it is the row of that word's opcode. -/
def Obligations.TheWordAtHeadIssues : Prop :=
  ∀ (s : State) (c : Nat) (iw : InstrWord), s.hw.clocks.aclk = true → c < s.hw.physCores → s.hw.wordAtHead c = some iw →
    (s.hw.seq c).badPos.contains (s.hw.head c) = false →
    exec (.instructionIssue c) s = .next (s.after (pump ((issueWord c iw s.work).onHw Hw.settleAbort))) ∧
    (∀ (i : Instr) (n : Nat), (n, i) ∈ [(0x00, Instr.nop c iw), (0x01, .seg c iw), (0x02, .loop c iw), (0x03, .skipc c iw), (0x08, .sli c iw),
        (0x09, .salu c iw), (0x0A, .sld c iw), (0x0B, .sst c iw), (0x0C, .sqd c iw), (0x0E, .cmp c iw), (0x18, .bbarm c iw), (0x19, .bbcan c iw), (0x20, .load c iw), (0x21, .pass c iw),
        (0x22, .drain c iw), (0x23, .cvt c iw), (0x28, .bind c iw), (0x29, .mmul c iw), (0x2A, .mmul2 c iw), (0x30, .vop c iw), (0x31, .vld c iw),
        (0x32, .vst c iw), (0x33, .vopt c iw)] →
      iop iw = n → exec (.instructionIssue c) s = exec i s)

/-- A bad instruction halts its core: one that sets a reserved bit with PRG_BAD_OPERAND, one outside a segment with PRG_NO_CONTEXT, and a word at HEAD of an
opcode that Table 6-9 does not list with PRG_ILLEGAL_OPCODE. A halt outside a run sets HALT and STATE, records the position, the code, the opcode and
the loop depth in CR_SEQ_HALT, and logs the code with response 3. -/
def Obligations.ABadInstructionHaltsItsCore : Prop :=
  (∀ (s : State) (c : Nat) (w iw : InstrWord) (i : Instr) (rule : OpRule), (i, iw, rule) ∈ instrRows c w → s.hw.clocks.aclk = true → c < s.hw.physCores →
    s.hw.mayIssue c = true → (s.hw.seq c).skip = .none → s.hw.Still → s.hw.ab.fresh = false → s.hw.run.on = false →
    (reservedOk iw = false → exec i s = s.leads (s.hw.haltAt c (iop iw) Rc.PRG_BAD_OPERAND)) ∧
    (reservedOk iw = true → (ifld iw 7 0 1 = 1 → (addrField (iop iw)).isSome = true) → (s.hw.seq c).seg = none →
      exec i s = s.leads (s.hw.haltAt c (iop iw) Rc.PRG_NO_CONTEXT))) ∧
  (∀ (s : State) (c : Nat) (iw : InstrWord), s.hw.clocks.aclk = true → c < s.hw.physCores → s.hw.mayIssue c = true → (s.hw.seq c).skip = .none →
    s.hw.Still → s.hw.ab.fresh = false → s.hw.run.on = false → s.hw.wordAtHead c = some iw → (s.hw.seq c).badPos = [] → iop iw ∉ opcodes →
    exec (.instructionIssue c) s = s.leads (s.hw.haltAt c (iop iw) Rc.PRG_ILLEGAL_OPCODE)) ∧
  (∀ (h : Hw) (c op code : Nat), h.run.on = false → h.faultLog.length < 1024 → h.on F.CR_SEQ_STATUS_HALT c = false → op < 256 →
    code ∈ [Rc.PRG_BAD_OPERAND, Rc.PRG_NO_CONTEXT, Rc.PRG_ILLEGAL_OPCODE] → (h.seq c).loops.length < 256 →
    let h' := h.haltAt c op code
    h'.get F.CR_SEQ_STATUS_STATE c = 2 ∧ h'.on F.CR_SEQ_STATUS_HALT c = true ∧ h'.get F.CR_SEQ_STATUS_REASON c = code ∧
      h'.rd .CR_SEQ_HALT c = h.head c + code * 2 ^ 32 + op * 2 ^ 48 + (h.seq c).loops.length * 2 ^ 56 ∧
      (∃ e, h'.faultLog = h.faultLog ++ [e] ∧ e.code = code ∧ e.detail = h'.rd .CR_SEQ_HALT c ∧ e.response = 3) ∧
      h.Only { h' with faultLog := h.faultLog } [(.CR_SEQ_STATUS, c), (.CR_SEQ_HALT, c)])

/-- What a scalar instruction that issues leaves outside its result: HEAD one further, the issue counted, and no other register but the slack minimum,
the counters that count issues, and the banks that the prefetcher moves. -/
def issuedFrame (s : State) (c : Nat) (h' : Hw) (ks : List (Reg × Nat)) : Prop :=
  h'.head c = (s.hw.head c + 1) % 2 ^ 32 ∧ h'.get F.CR_SEQ_ISSUED_COUNT c = (s.hw.get F.CR_SEQ_ISSUED_COUNT c + 1) % 2 ^ F.CR_SEQ_ISSUED_COUNT.w ∧
  ∀ r i, (r, i) ∉ ks → ¬ (r = .CR_SEQ_CT ∧ i / 8 = c) →
    ¬ (i = c ∧ r ∈ [Reg.CR_SEQ_RING_HEAD, .CR_SEQ_ISSUED, .CR_SEQ_SLACKMIN, .CR_SEQ_BANK, .CR_SEQ_BANK0_POS, .CR_SEQ_BANK1_POS]) → h'.rd r i = s.hw.rd r i

/-- The scalar instructions, where they may issue, no loop is open and no SLD is awaited: SLI loads its immediate; SALU computes Table 6-5 of its operands as
they were; CTR sets a counter, adds to it or selects its event; CMP configures a comparator; SQD reads a queue end's depth; SLD's register is
written three cycles later with the 8 bytes at its address; NOP leaves nothing but the issue. -/
def Obligations.ScalarInstructionsWriteTheirResults : Prop :=
  ∀ (s : State) (c : Nat) (w : InstrWord), s.hw.Still → s.hw.ab.fresh = false → (s.hw.seq c).loops = [] → (s.hw.seq c).sldPending = [] →
    (issuesNow s c (withOp w 0x00) nopRule → ∃ h', exec (.nop c w) s = s.leads h' ∧ issuedFrame s c h' []) ∧
    (let iw := withOp w 0x08
     issuesNow s c iw (sliRule c iw) → ∃ h', exec (.sli c w) s = s.leads h' ∧ h'.sReg c (ifld iw 8 0 4) = ifld iw 16 0 64 ∧
       issuedFrame s c h' [(.CR_SEQ_S, Hw.sub c 16 (ifld iw 8 0 4))]) ∧
    (let iw := withOp w 0x09
     issuesNow s c iw (saluRule c iw) → ∃ h', exec (.salu c w) s = s.leads h' ∧ issuedFrame s c h' [(.CR_SEQ_S, Hw.sub c 16 (ifld iw 8 0 4))] ∧
       ∀ a b, a = s.hw.scalar c (ifld iw 8 4 5) → b = (if ifld iw 8 14 1 = 1 then ifld iw 16 0 64 else s.hw.scalar c (ifld iw 8 9 5)) →
         (ifld iw 8 16 4 = 0 → h'.sReg c (ifld iw 8 0 4) = (a + b) % 2 ^ 64) ∧
         (ifld iw 8 16 4 = 1 → h'.sReg c (ifld iw 8 0 4) = (a + 2 ^ 64 - b) % 2 ^ 64) ∧
         (ifld iw 8 16 4 = 2 → h'.sReg c (ifld iw 8 0 4) = Nat.land a b % 2 ^ 64) ∧
         (ifld iw 8 16 4 = 3 → h'.sReg c (ifld iw 8 0 4) = Nat.lor a b % 2 ^ 64) ∧
         (ifld iw 8 16 4 = 4 → h'.sReg c (ifld iw 8 0 4) = Nat.xor a b % 2 ^ 64) ∧
         (ifld iw 8 16 4 = 5 → h'.sReg c (ifld iw 8 0 4) = a * 2 ^ (b % 64) % 2 ^ 64) ∧
         (ifld iw 8 16 4 = 6 → h'.sReg c (ifld iw 8 0 4) = a / 2 ^ (b % 64) % 2 ^ 64) ∧
         (ifld iw 8 16 4 = 7 → h'.sReg c (ifld iw 8 0 4) = min a b % 2 ^ 64) ∧
         (ifld iw 8 16 4 = 8 → h'.sReg c (ifld iw 8 0 4) = max a b % 2 ^ 64) ∧
         (ifld iw 8 16 4 = 9 → h'.sReg c (ifld iw 8 0 4) = a * b % 2 ^ 64)) ∧
    (let iw := withOp w 0x0A
     issuesNow s c iw (sldRule c iw) → ∃ h', exec (.sld c w) s = s.leads h' ∧ issuedFrame s c h' [] ∧
       (h'.seq c).sldPending = [(ifld iw 8 0 4, leNat (s.mem.read (Area.matrix c) (s.hw.effAddr c iw) 8), h'.ticks + 12)]) ∧
    (let iw := withOp w 0x0C
     issuesNow s c iw (sqdRule c iw) → ∃ h', exec (.sqd c w) s = s.leads h' ∧ issuedFrame s c h' [(.CR_SEQ_S, Hw.sub c 16 (ifld iw 8 0 4))] ∧
       h'.sReg c (ifld iw 8 0 4) =
         (if ifld iw 8 9 1 = 1 then (s.hw.descQueue c (ifld iw 8 4 5)).length else (s.hw.queue c (popSide (ifld iw 8 4 5))).length) % 2 ^ 64) ∧
    (let iw := withField (withOp w 0x0D) 8 4 2 0
     issuesNow s c iw (ctrRule c iw) → (s.hw.seq c).sel.getD (ifld iw 8 0 3) 0 ≠ 1 → ∃ h', exec (.ctrSet c w) s = s.leads h' ∧ issuedFrame s c h' [] ∧
       h'.ctReg c (ifld iw 8 0 3) = ifld iw 12 0 32) ∧
    (let iw := withField (withOp w 0x0D) 8 4 2 1
     issuesNow s c iw (ctrRule c iw) → (s.hw.seq c).sel.getD (ifld iw 8 0 3) 0 ≠ 1 → ∃ h', exec (.ctrAdd c w) s = s.leads h' ∧ issuedFrame s c h' [] ∧
       h'.ctReg c (ifld iw 8 0 3) = (s.hw.ctReg c (ifld iw 8 0 3) + ifld iw 12 0 32) % 2 ^ 32) ∧
    (let iw := withField (withOp w 0x0D) 8 4 2 2
     issuesNow s c iw (ctrRule c iw) → ∃ h', exec (.ctrSelect c w) s = s.leads h' ∧ issuedFrame s c h' [] ∧
       (h'.seq c).sel = (s.hw.seq c).sel.set (ifld iw 8 0 3) (ifld iw 8 8 8)) ∧
    (let iw := withOp w 0x0E
     issuesNow s c iw (cmpRule c iw) → ∃ h', exec (.cmp c w) s = s.leads h' ∧ issuedFrame s c h' [] ∧
       (h'.seq c).cm = (s.hw.seq c).cm.set (ifld iw 8 0 2)
         { operand := ifld iw 8 2 5, qdepth := ifld iw 8 7 1 == 1, cond := ifld iw 8 8 3, en := ifld iw 8 11 1 == 1, thresh := ifld iw 16 0 64 })

/-- SST stores its register to the 8 bytes at its address, which lie in matrix memory, and no other byte of any memory changes. -/
def Obligations.SstStoresEightBytes : Prop :=
  ∀ (s : State) (c : Nat) (w : InstrWord), s.hw.Still → s.hw.ab.fresh = false → (s.hw.seq c).sldPending = [] →
    let iw := withOp w 0x0B
    issuesNow s c iw (sstRule c iw) → ∃ t, exec (.sst c w) s = .next t ∧ t.pending = s.pending ∧
      (∀ i, i < 8 → t.mem.byte (Area.matrix c) (s.hw.effAddr c iw + i) = (leBytes 8 (s.hw.sReg c (ifld iw 8 0 4))).getD i 0) ∧
      (∀ area addr, (∀ i, i < 8 → Mem.key area addr ≠ Mem.key (Area.matrix c) (s.hw.effAddr c iw + i)) → t.mem.byte area addr = s.mem.byte area addr)

/-- LOOP opens its level with the instruction after it as the first of the body; a count of 0 passes over the body. SKIPC passes over N instructions
where its comparator's result is as its SENSE bit says, and over none otherwise. -/
def Obligations.LoopsAndSkipsMoveHead : Prop :=
  ∀ (s : State) (c : Nat) (w : InstrWord), s.hw.Still → s.hw.ab.fresh = false → (s.hw.seq c).loops = [] → (s.hw.seq c).sldPending = [] →
    (let iw := withOp w 0x02
     let n := if ifld iw 8 3 1 = 1 then s.hw.sReg c (ifld iw 8 4 4) % 2 ^ 32 else ifld iw 12 0 32
     issuesNow s c iw (loopRule c iw) → ∃ h', exec (.loop c w) s = s.leads h' ∧
       (n = 0 → h'.head c = (s.hw.head c + 2 + ifld iw 8 8 10) % 2 ^ 32 ∧ (h'.seq c).loops = []) ∧
       (n ≠ 0 → h'.head c = (s.hw.head c + 1) % 2 ^ 32 ∧ (h'.seq c).loops =
         [{ first := s.hw.head c + 1, last := s.hw.head c + ifld iw 8 8 10 + 1, count := n, index := 0, dstamp := ifld iw 16 0 28,
            astride := signed 32 (ifld iw 20 0 32) }])) ∧
    (let iw := withOp w 0x03
     issuesNow s c iw (skipcRule c iw) → ∃ h', exec (.skipc c w) s = s.leads h' ∧ h'.head c =
       (if s.hw.cmResult c (ifld iw 8 0 2) = (ifld iw 8 2 1 == 1) then s.hw.head c + 1 + ifld iw 8 3 10 else s.hw.head c + 1) % 2 ^ 32)

/-- A SEG of a bound run whose context is admitted or running, of a hoop that has the core: the segment opens, the context becomes RUNNING from the next beat
where it was ADMITTED, and HEAD moves on. A NEWSTEP SEG of the present epoch and of the run's step first binds its core to the run. -/
def Obligations.SegOpensItsSegment : Prop :=
  ∀ (s : State) (c : Nat) (w : InstrWord), s.hw.Still → s.hw.ab.fresh = false → s.hw.clocks.aclk = true → c < s.hw.physCores → s.hw.mayIssue c = true →
    let iw := withOp w 0x01
    let ctx := ifld iw 8 0 14
    let hoop := s.hw.get F.CTX_STATE_HOOP ctx
    reservedOk iw = true → ifld iw 7 0 1 = 0 → (s.hw.ctxState ctx = 1 ∨ s.hw.ctxState ctx = 2) → bit ((s.hw.logicalOf c).getD 0) (s.hw.rd .HP_CORES hoop) = true →
    s.hw.ctxNext = [] → (s.hw.seq c).bankReq = none →
    (∀ e, e = s.hw.tickOf ((s.hw.seq c).f + s.hw.effStamp c iw / 256) (s.hw.effStamp c iw % 256) →
      ifld iw 8 14 1 = 0 → (s.hw.seq c).skip = .none → (s.hw.seq c).runHoop.all (· == hoop) = true →
      s.hw.effStamp c iw < 2 ^ 28 → (s.hw.seq c).lastStamp ≤ s.hw.effStamp c iw → ((s.hw.seq c).bound = true → s.hw.effStamp c iw / 256 < s.hw.run.len) →
      (s.hw.seq c).f + s.hw.effStamp c iw / 256 ≤ s.hw.time.beat → max s.hw.ticks (max e (s.hw.seq c).nextIssue) ≤ e + 4 * ifld iw 4 0 16 + 3 →
      ∃ h', exec (.seg c w) s = s.leads h' ∧ (h'.seq c).seg = some (ctx, hoop) ∧ (h'.seq c).runHoop = some hoop ∧
        (h'.seq c).segs = (s.hw.seq c).segs ++ [ctx] ∧ (h'.seq c).lastStamp = s.hw.effStamp c iw ∧
        Tab.find? h'.ctxNext ctx = (if s.hw.ctxState ctx = 1 then some 2 else none)) ∧
    (∀ e, e = s.hw.tickOf (s.hw.run.f + (ifld iw 0 0 20)) (ifld iw 0 20 8) →
      ifld iw 8 14 1 = 1 → s.hw.binding c = false → s.hw.mayBind c = true → ifld iw 16 0 8 = s.hw.get F.TM_EPOCH_EPOCH % 256 → ifld iw 12 0 32 = s.hw.run.stepId →
      ifld iw 0 0 20 < s.hw.run.len → s.hw.run.f + ifld iw 0 0 20 ≤ s.hw.time.beat →
      max s.hw.ticks (max e (s.hw.seq c).nextIssue) ≤ e + 4 * ifld iw 4 0 16 + 3 →
      ∃ h', exec (.seg c w) s = s.leads h' ∧ (h'.seq c).bound = true ∧ (h'.seq c).f = s.hw.run.f ∧ (h'.seq c).boundRun = s.hw.runNumber ∧
        (h'.seq c).seg = some (ctx, hoop) ∧ (h'.seq c).segs = [ctx] ∧ Tab.find? h'.ctxNext ctx = (if s.hw.ctxState ctx = 1 then some 2 else none))

/-! The sequencer's, the drain unit's and the macro unit's registers. -/

/-- An effect whose units then move as far as they can. -/
def movesTo (s : State) (h : Hw) : Host.Outcome State Fault Refusal := .next (s.after (pump { hw := h, mem := s.mem, writes := [] }))

/-- The sequencer's registers. A TAIL that neither goes back nor passes CHEAD by more than the ring publishes its positions, and those of a valid bank's
block are copied within 32 cycles; one that does is refused with CFG_SEQ_RING_FULL (where no substitution is in force for the core and no segment is staged for it). Setting ENABLE with the ring in block memory, aligned to its size,
and the macro unit in service puts HEAD and CHEAD at TAIL and starts both bank loads; clearing it stops issue. A reload request is judged in the
next cycle. -/
def Obligations.SequencerRegistersTakeEffect : Prop :=
  (∀ (s : State) (a : Agent) (c : Nat) (v : Word), s.hw.Takes a .CR_SEQ_RING_TAIL c → s.hw.physOf c = c → s.hw.on F.DP_STAGE_VALID c = false →
    ((s.hw.get F.CR_SEQ_RING_TAIL_POS c ≤ v.toNat ∧ v.toNat < s.hw.get F.CR_SEQ_RING_TAIL_POS c + 2 ^ 31 ∧
      s.hw.get F.CR_SEQ_RING_CHEAD_POS c ≤ s.hw.get F.CR_SEQ_RING_TAIL_POS c ∧
      v.toNat - s.hw.get F.CR_SEQ_RING_CHEAD_POS c ≤ s.hw.ringSize c / 32 ∧ s.hw.on F.CR_SEQ_BANK_VALID0 c = false ∧ s.hw.on F.CR_SEQ_BANK_VALID1 c = false) →
      ∃ h', exec (.ringTailWrite a c v) s = s.leads h' ∧ h'.get F.CR_SEQ_RING_TAIL_POS c = v.toNat ∧ (h'.seq c).copies = (s.hw.seq c).copies ∧
        onlyCores s.hw h' [(.CR_SEQ_RING_TAIL, c)]) ∧
    (∀ old b, old = s.hw.get F.CR_SEQ_RING_TAIL_POS c → b = old / 1024 * 1024 → old < v.toNat → v.toNat ≤ b + 1024 →
      s.hw.get F.CR_SEQ_RING_CHEAD_POS c ≤ old → v.toNat - s.hw.get F.CR_SEQ_RING_CHEAD_POS c ≤ s.hw.ringSize c / 32 →
      s.hw.bankValid c (old / 1024 % 2) = true → s.hw.bankPos c (old / 1024 % 2) = b →
      ∃ h', exec (.ringTailWrite a c v) s = s.leads h' ∧ h'.get F.CR_SEQ_RING_TAIL_POS c = v.toNat ∧
        (h'.seq c).copies = (s.hw.seq c).copies ++ [(old, v.toNat, s.hw.ticks + 128)]) ∧
    ((v.toNat + 2 ^ 32 - s.hw.get F.CR_SEQ_RING_TAIL_POS c) % 2 ^ 32 ≥ 2 ^ 31 ∨
      (v.toNat + 2 ^ 32 - s.hw.get F.CR_SEQ_RING_CHEAD_POS c) % 2 ^ 32 > s.hw.ringSize c / 32 →
      exec (.ringTailWrite a c v) s = s.leads (s.hw.refuse Rc.CFG_SEQ_RING_FULL F.CR_SEQ_STATUS_REASON c (0xA0 + c)))) ∧
  (∀ (s : State) (a : Agent) (c : Nat) (v : Word), s.hw.Takes a .CR_SEQ_BANK c → v.toNat % 4 ≠ 0 →
    exec (.bankReloadRequest a c v) s = s.leads (s.hw.onSeq c (fun q => { q with bankReq := some (s.hw.cycleTick + 4, v.toNat % 4) }))) ∧
  (∀ (s : State) (a : Agent) (c : Nat) (v : Word), s.hw.Takes a .CR_SEQ_CTRL c → s.hw.on F.CR_SEQ_CTRL_ENABLE c = false →
    16 ≤ s.hw.get F.CR_SEQ_RING_SIZE_LOG2 c → s.hw.get F.CR_SEQ_RING_SIZE_LOG2 c ≤ 24 →
    s.hw.get F.CR_SEQ_RING_BASE_BASE c * 4096 % 2 ^ s.hw.get F.CR_SEQ_RING_SIZE_LOG2 c = 0 →
    s.hw.get F.CR_SEQ_RING_BASE_BASE c * 4096 + 2 ^ s.hw.get F.CR_SEQ_RING_SIZE_LOG2 c ≤ s.hw.scratchSize → s.hw.on F.CR_MAC_CTRL_ENABLE c = true →
    ∃ h', exec (.sequencerEnable a c v) s = s.leads h' ∧ h'.on F.CR_SEQ_CTRL_ENABLE c = true ∧ h'.get F.CR_SEQ_STATUS_STATE c = 1 ∧
      h'.get F.CR_SEQ_RING_HEAD_POS c = s.hw.get F.CR_SEQ_RING_TAIL_POS c ∧ h'.get F.CR_SEQ_RING_CHEAD_POS c = s.hw.get F.CR_SEQ_RING_TAIL_POS c ∧
      h'.get F.CR_SEQ_SLACKMIN_MIN c = 0xFFFF ∧ h'.on F.CR_SEQ_BANK_VALID0 c = false ∧ h'.on F.CR_SEQ_BANK_VALID1 c = false ∧
      (∀ k, k < 2 → Tab.find? (h'.seq c).loadDue k = some (s.hw.ticks + 4 * 154)) ∧ (h'.seq c).bound = false) ∧
  (∀ (s : State) (a : Agent) (c : Nat) (v : Word), s.hw.Takes a .CR_SEQ_CTRL c → s.hw.on F.CR_SEQ_CTRL_ENABLE c = true →
    ∃ h', exec (.sequencerDisable a c v) s = s.leads h' ∧ h'.on F.CR_SEQ_CTRL_ENABLE c = false ∧ h'.get F.CR_SEQ_STATUS_STATE c = 0 ∧
      (h'.seq c).bound = false ∧ (h'.seq c).seg = none ∧ onlyCores s.hw h' [(.CR_SEQ_CTRL, c), (.CR_SEQ_STATUS, c)]) ∧
  (∀ (s : State) (c lo hi t : Nat) (rest : List (Nat × Nat × Nat)), s.hw.clocks.aclk = true → c < s.hw.physCores → s.hw.badWords = [] →
    (s.hw.seq c).copies = (lo, hi, t) :: rest →
    ∃ h', exec (.publishedCopyDone c) s = s.leads h' ∧ h'.ticks = max s.hw.ticks t ∧ (h'.seq c).copies = rest ∧ h'.ctl = s.hw.ctl ∧
      (∀ p, lo ≤ p → p < hi → Tab.find? (if lo / 1024 % 2 = 0 then (h'.seq c).bank0 else (h'.seq c).bank1) p =
        some (BitVec.ofNat 256 (s.mem.le Area.block (s.hw.ringAddr c p) 32)))) ∧
  (∀ (s : State) (c k t : Nat), s.hw.clocks.aclk = true → c < s.hw.physCores → k < 2 → s.hw.badWords = [] → Tab.find? (s.hw.seq c).loadDue k = some t →
    (s.hw.seq c).restart = false →
    ∃ h', exec (.bankLoadDone c k) s = s.leads h' ∧ h'.ticks = max s.hw.ticks t ∧ h'.bankValid c k = true ∧ Tab.find? (h'.seq c).loadDue k = none ∧
      (∀ p, s.hw.bankPos c k ≤ p → p < s.hw.bankPos c k + 1024 → p < s.hw.get F.CR_SEQ_RING_TAIL_POS c →
        s.hw.get F.CR_SEQ_RING_TAIL_POS c < s.hw.bankPos c k + 2 ^ 31 →
        Tab.find? (if k = 0 then (h'.seq c).bank0 else (h'.seq c).bank1) p = some (BitVec.ofNat 256 (s.mem.le Area.block (s.hw.ringAddr c p) 32))))

/-- Setting CR_DRN_CTRL.ENABLE runs the check of Table 4-8: with the row buffer inside matrix memory it is set; otherwise ENABLE reads 0 and CFG_DRN_ROWBUF is
placed in CR_DRN_STATUS.REASON. -/
def Obligations.DrainUnitEnableRunsItsCheck : Prop :=
  ∀ (s : State) (a : Agent) (c : Nat) (v : Word), s.hw.Takes a .CR_DRN_CTRL c → s.hw.on F.CR_DRN_CTRL_ENABLE c = false → s.hw.faultLog.length < 1024 →
    ∃ h', exec (.drainUnitEnable a c v) s = s.leads h' ∧
      (bits 8 8 v.toNat + bits 16 8 v.toNat ≤ 4 * s.hw.build.matmemMib →
        h'.on F.CR_DRN_CTRL_ENABLE c = true ∧ h'.get F.CR_DRN_CTRL_RB_BANK0 c = bits 8 8 v.toNat ∧ h'.get F.CR_DRN_CTRL_RB_BANKS c = bits 16 8 v.toNat ∧
        s.hw.Only h' [(.CR_DRN_CTRL, c)]) ∧
      (4 * s.hw.build.matmemMib < bits 8 8 v.toNat + bits 16 8 v.toNat →
        h'.on F.CR_DRN_CTRL_ENABLE c = false ∧ h'.get F.CR_DRN_STATUS_REASON c = Rc.CFG_DRN_ROWBUF ∧
        ∃ e, h'.faultLog = s.hw.faultLog ++ [e] ∧ e.code = Rc.CFG_DRN_ROWBUF)

/-- Setting CR_MAC_CTRL.ENABLE asks for the array and the drain unit of its core in service. DRAIN_RESUME changes nothing by itself: the drain unit
and what waits behind it move on. -/
def Obligations.MacroUnitEnableRunsItsCheck : Prop :=
  (∀ (s : State) (a : Agent) (c : Nat) (v : Word), s.hw.Takes a .CR_MAC_CTRL c → s.hw.on F.CR_MAC_CTRL_ENABLE c = false →
    (s.hw.on F.CR_ARR_CTRL_ENABLE c = true → s.hw.on F.CR_DRN_CTRL_ENABLE c = true →
      exec (.macroUnitEnable a c v) s = s.leads (s.hw.put F.CR_MAC_CTRL_ENABLE 1 c)) ∧
    (s.hw.on F.CR_ARR_CTRL_ENABLE c = false ∨ s.hw.on F.CR_DRN_CTRL_ENABLE c = false →
      exec (.macroUnitEnable a c v) s = s.leads (s.hw.refuse Rc.CFG_MAC_DEPENDS F.CR_MAC_STATUS_REASON c (0xA0 + c)))) ∧
  (∀ (s : State) (c : Nat), s.hw.clocks.aclk = true → c < s.hw.physCores → s.hw.ab.fresh = false → exec (.drainResume c) s = movesTo s s.hw)

/-! The tile walker. -/

/-- The walker of a macro in progress. It arms the next fetch of operand A or B on its bobbin when the slot is free and the staging set is no longer
read, and the next output descriptor when the output bobbin's slot is free; it issues its next pass when the operands are staged and nothing holds
the array; at the planned completion the macro ends and BUSY falls. -/
def Obligations.TheWalkerCarriesTheMacro : Prop :=
  (∀ (s : State) (c which n b slot : Nat) (m : Macro) (rest : List Nat) (p : GenPass), s.hw.clocks.aclk = true → c < s.hw.physCores → s.hw.ab.on = false →
    s.hw.ab.fresh = false → (s.hw.core c).mac = some m → which < 2 → (if which = 0 then m.fetchA else m.fetchB) = n :: rest → m.passes[n]? = some p →
    b = s.hw.get (if which = 0 then F.BB_CTRL_WALK_A else F.BB_CTRL_WALK_B) c → slot = (s.hw.bobbin c b).next → s.hw.slot c b slot = none →
    s.hw.on F.BB_CTRL_ENABLE c = true → stageOver s.hw c m p which = false → setFree s.hw c m p which = true →
    exec (.walkerArm c which) s = movesTo s
      ((s.hw.onMac c (fun m => if which = 0 then { m with fetchA := rest } else { m with fetchB := rest })).arm c b slot
        { op := 0, mask := if which = 0 ∧ Mpb.split m.mpb = 1 ∧ 1 < m.members then Mpb.coreSet m.mpb else 0, runs := some (m.fetchRuns s.hw.build p which),
          stage := some (which, n) })) ∧
  (∀ (s : State) (c b slot : Nat) (m : Macro) (runs : List (Nat × Nat)) (rest : List (List (Nat × Nat))), s.hw.clocks.aclk = true → c < s.hw.physCores →
    s.hw.ab.on = false → s.hw.ab.fresh = false → (s.hw.core c).mac = some m → m.outs = runs :: rest → b = s.hw.get F.BB_CTRL_WALK_OUT c →
    slot = (s.hw.bobbin c b).next → s.hw.slot c b slot = none → s.hw.on F.BB_CTRL_ENABLE c = true →
    exec (.walkerArm c 2) s = movesTo s
      ((s.hw.onMac c (fun m => { m with outs := rest })).arm c b slot
        { op := if Td.loc m.output = 1 then 9 else 3, qend := 3, runs := some runs, nearRuns := Td.loc m.output == 1 })) ∧
  (∀ (s : State) (c : Nat) (m : Macro) (p : GenPass), s.hw.clocks.aclk = true → c < s.hw.physCores → s.hw.ab.on = false → s.hw.ab.fresh = false →
    (s.hw.core c).mac = some m → m.passes[m.issued]? = some p → s.hw.arrHeld c = false → m.ready p = true → p.last = false →
    m.tileOf p < Mpb.accBase m.mpb + Mpb.accCount m.mpb → m.tileOf p < s.hw.build.accTiles →
    let rd := spaceBytes s.hw s.mem c (some m.hoop)
    let ap := m.arrPass s.hw.build rd p
    (m.blank p = true ∨ shiftCheck m s.hw.build rd p = 0) → ap.swap = false → s.hw.get F.CR_SEQ_STATUS_STATE c = 1 → s.hw.passOk ap = true →
    s.hw.passMeets c ap = false →
    ∃ h', exec (.walkerPassIssue c) s = movesTo s h' ∧ (h'.core c).mac = some { m with issued := m.issued + 1 } ∧
      (h'.arr c).passes = (s.hw.arr c).passes ++ [{ ap with owner := (s.hw.segOf c).1 }] ∧ h'.ctl = s.hw.ctl) ∧
  (∀ (s : State) (c : Nat) (m : Macro), s.hw.clocks.aclk = true → c < s.hw.physCores → s.hw.ab.on = false → s.hw.ab.fresh = false →
    (s.hw.core c).mac = some m → macroDone s.hw c m = true → Mpb.signal m.mpb = 0xFFFF →
    ∃ h', exec (.macroSignal c) s = movesTo s h' ∧ h'.ticks = max s.hw.ticks m.due ∧ (h'.core c).mac = none ∧ h'.on F.CR_MAC_STATUS_BUSY c = false ∧
      onlyCores s.hw { h' with ticks := s.hw.ticks } [(.CR_MAC_STATUS, c)])

/-- SPLIT K and the conversions. A round in which a core neither sends nor has a partner passes; after the last round the tile's drain is queued; a held
conversion whose band has been gathered begins. -/
def Obligations.RoundsAndConversionsMoveOn : Prop :=
  (∀ (s : State) (c : Nat) (m : Macro) (p : GenPass) (rest : List GenPass), s.hw.clocks.aclk = true → c < s.hw.physCores → s.hw.ab.on = false →
    (s.hw.core c).mac = some m → m.combine = p :: rest → s.hw.mayMove s.mem c 1 = true →
    let st := m.streamOf s.hw.build p
    (List.range (if m.mode = 2 then st.2.1 else st.2.2)).all
      (fun l => ((s.hw.arr c).line s.hw.build.arrayRows (m.tileOf p) l).state == 2) = true →
    (m.members ≤ 2 ^ m.rounds →
      exec (.combineRound c) s = .next (s.after (pump ((queueDrain c m p
        (s.work.onHw (fun h => h.onMac c (fun m => { m with combine := rest, rounds := 0 })))).onHw Hw.settleAbort)))) ∧
    (2 ^ m.rounds < m.members → m.rank % 2 ^ (m.rounds + 1) ≠ 2 ^ m.rounds → m.members ≤ m.rank + 2 ^ m.rounds → s.hw.ab.fresh = false →
      exec (.combineRound c) s = movesTo s (s.hw.onMac c (fun k => { k with rounds := m.rounds + 1 })))) ∧
  (∀ (s : State) (c : Nat) (m : Macro) (op : DrainOp) (rest : List DrainOp), s.hw.clocks.aclk = true → c < s.hw.physCores → s.hw.ab.on = false →
    s.hw.ab.fresh = false → (s.hw.core c).mac = some m → (s.hw.core c).drn = op :: rest → op.held = true → op.mid = none →
    (op.records = true → narrowFmt op.fmt = true → op.lines = 0) →
    exec (.bandConvert c) s = movesTo s (s.hw.onDrn c (fun _ => { op with held := false } :: rest)))

/-! Synchronisation. -/

/-- The SYNC instructions on an object of the core or of its hoop's range. WAIT raises the object's watermark to its value; TAKE subtracts it; SIGNAL and
ADD increment from the next cycle (the fourth on a shared object); COUCH sends its request to the route's port. -/
def Obligations.SyncInstructionsActOnTheirObjects : Prop :=
  ∀ (s : State) (c g : Nat) (w : InstrWord), s.hw.Still → s.hw.ab.fresh = false → s.hw.syncIncs = [] →
    (∀ iw, iw = withField (withOp w 0x10) 8 0 3 0 → issuesNow s c iw (syncRule c iw) → s.hw.objOf ((s.hw.logicalOf c).getD 0) (ifld iw 8 3 14) = some g →
      (s.hw.isShared g = true → s.hw.inSyncRange (s.hw.segOf c).2 g = true) →
      ∃ h', exec (.syncWait c w) s = s.leads h' ∧
        h'.rd .SY_WMARK g = max (s.hw.rd .SY_WMARK g) (ifld iw 12 0 32) % 2 ^ 32) ∧
    (∀ iw, iw = withField (withOp w 0x10) 8 0 3 1 → issuesNow s c iw (syncRule c iw) → s.hw.objOf ((s.hw.logicalOf c).getD 0) (ifld iw 8 3 14) = some g →
      (s.hw.isShared g = true → s.hw.inSyncRange (s.hw.segOf c).2 g = true) →
      ∃ h', exec (.syncTake c w) s = s.leads h' ∧
        h'.rd .SY_VALUE g = (s.hw.rd .SY_VALUE g - ifld iw 12 0 32) % 2 ^ 32) ∧
    (∀ iw, iw = withField (withOp w 0x10) 8 0 3 2 → issuesNow s c iw (syncRule c iw) → s.hw.objOf ((s.hw.logicalOf c).getD 0) (ifld iw 8 3 14) = some g →
      (s.hw.isShared g = true → s.hw.inSyncRange (s.hw.segOf c).2 g = true) →
      ∃ h', exec (.syncSignal c w) s = s.leads h' ∧ h'.syncIncs = [(g, 1, h'.cycleTick + 4 * (if s.hw.isShared g then 4 else 1))]) ∧
    (∀ iw, iw = withField (withOp w 0x10) 8 0 3 3 → issuesNow s c iw (syncRule c iw) → s.hw.objOf ((s.hw.logicalOf c).getD 0) (ifld iw 8 3 14) = some g →
      (s.hw.isShared g = true → s.hw.inSyncRange (s.hw.segOf c).2 g = true) →
      ∃ h', exec (.syncAdd c w) s = s.leads h' ∧
        h'.syncIncs = [(g, ifld iw 12 0 32, h'.cycleTick + 4 * (if s.hw.isShared g then 4 else 1))]) ∧
    (∀ iw p, iw = withField (withOp w 0x10) 8 0 3 4 → issuesNow s c iw (syncRule c iw) → s.hw.routeTo (ifld iw 16 0 16) = some (some p) →
      (Tab.getD s.hw.couchOut p []).length < 64 →
      ∃ h' e, exec (.syncCouch c w) s = s.leads h' ∧ Tab.getD h'.couchOut p [] = Tab.getD s.hw.couchOut p [] ++ [e] ∧ e.dest = ifld iw 16 0 16 ∧
        e.obj = ifld iw 8 3 14 ∧ e.value = ifld iw 12 0 32 ∧ e.mark = ifld iw 20 0 32 ∧ e.stream = ifld iw 16 16 12 ∧ e.hoop = (s.hw.segOf c).2 ∧
        e.fbeat = s.hw.run.f % 2 ^ 32)

/-- The sync unit's other commands. A request of the run in progress whose mark is reached is applied, else it waits; a hand-set sets value and committed
value from the debug port and is refused from any other agent; ENABLE under an active pricking zeroes the unit, whose end the unit waits for. -/
def Obligations.SyncUnitCommandsTakeEffect : Prop :=
  (∀ (s : State) (o v m st hp fb : Nat), s.hw.clocks.aclk = true → s.hw.syncInit = false → s.hw.run.on = true → fb % 2 ^ 32 = s.hw.run.f % 2 ^ 32 →
    s.hw.isShared o = true → s.hw.inSyncRange hp o = true →
    (Hw.reached (s.hw.rd .SY_RX st) m = true →
      exec (.couchArrival o v m st hp fb) s = s.leads { s.hw with syncIncs := s.hw.syncIncs ++ [(o, v, s.hw.cycleTick + 16)] }) ∧
    (Hw.reached (s.hw.rd .SY_RX st) m = false → s.hw.couchPending.length < 256 →
      ∃ h' e, exec (.couchArrival o v m st hp fb) s = s.leads h' ∧ h'.couchPending = s.hw.couchPending ++ [e] ∧ e.obj = o ∧ e.value = v ∧ e.mark = m ∧
        e.stream = st ∧ h'.get F.SY_COUCH_PENDING = s.hw.couchPending.length + 1 ∧
        s.hw.Only { h' with couchPending := s.hw.couchPending } [(.SY_COUCH, 0)])) ∧
  (∀ (s : State) (o : Nat) (v : Word), s.hw.Takes .debug .SY_VALUE o → s.hw.syncInit = false → s.hw.mayHandSet o = true → s.hw.syncIncs = [] →
    ∃ h', exec (.syncHandSet .debug o v) s = s.leads h' ∧ h'.rd .SY_VALUE o = v.toNat ∧ h'.rd .SY_COMMITTED o = v.toNat ∧
      h'.on F.SY_STATUS_HAND_SET o = true ∧
      s.hw.Only { h' with debugged := s.hw.debugged } [(.SY_VALUE, o), (.SY_COMMITTED, o), (.SY_STATUS, o)]) ∧
  (∀ (s : State) (a : Agent) (o : Nat) (v : Word), s.hw.Takes a .SY_VALUE o → s.hw.syncInit = false → a ≠ .debug →
    exec (.syncHandSet a o v) s = s.leads (s.hw.refuse Rc.SEC_HOOP_VIOLATION F.SY_USTATUS_REASON 0 0x91)) ∧
  (∀ (s : State) (a : Agent) (v : Word), s.hw.Takes a .SY_CTRL 0 → s.hw.on F.SY_CTRL_ENABLE = false →
    (s.hw.hasPlan = true → ∃ h', exec (.syncUnitEnable a v) s = s.leads h' ∧ h'.on F.SY_CTRL_ENABLE = true ∧ h'.on F.SY_CTRL_INIT = true ∧
      h'.syncInitDue = some (s.hw.ticks + 4 * 16384) ∧ h'.syncIncs = [] ∧ h'.couchPending = [] ∧
      ∀ g, h'.rd .SY_VALUE g = 0 ∧ h'.rd .SY_COMMITTED g = 0 ∧ h'.rd .SY_WMARK g = 0 ∧ h'.rd .SY_RX g = 0) ∧
    (s.hw.hasPlan = false → exec (.syncUnitEnable a v) s = s.leads (s.hw.refuse Rc.CFG_SY_DEPENDS F.SY_USTATUS_REASON 0 0x91))) ∧
  (∀ (s : State) (t : Nat), s.hw.clocks.aclk = true → s.hw.syncInitDue = some t →
    ∃ h', exec .syncInitDone s = s.leads h' ∧ h'.ticks = max s.hw.ticks t ∧ h'.on F.SY_CTRL_INIT = false ∧ h'.syncInitDue = none ∧
      s.hw.Only { h' with ticks := s.hw.ticks, syncInitDue := s.hw.syncInitDue } [(.SY_CTRL, 0)])

/-! Bobbins. -/

/-- BBARM arms the descriptor at its address in the slot that NEXT names, where the slot is FREE, no macro reserves the bobbin, and the descriptor and its
extents pass the checks of R176: the slot is ARMED from the next cycle and NEXT advances. -/
def Obligations.BbarmArmsTheNextSlot : Prop :=
  ∀ (s : State) (c b sl : Nat) (w : InstrWord), s.hw.ab.fresh = false → s.hw.badWords = [] →
    let iw := withOp w 0x18
    let a := s.hw.effAddr c iw
    let bytes := s.mem.read (Area.matrix c) a 128
    let d := decodeDesc bytes a
    issuesNow s c iw (bbarmRule c iw) → b = ifld iw 8 0 3 → sl = ifld iw 8 3 2 → s.hw.reservedBobbin c b = false →
    (issueState s c iw (bbarmRule c iw)).hw.slotBusy c b sl = false → sl = (s.hw.bobbin c b).next → descOk s.hw c b bytes (gpbOf s.mem c d) d = true →
    rangeOk s.hw c (gpbOf s.mem c d) d = true → d.op ≠ 6 →
    ∃ h' x, exec (.bbarm c w) s = movesTo s h' ∧ h'.slot c b sl = some x ∧ x.state = 1 ∧ x.since = h'.cycleTick + 4 ∧ x.desc = d ∧
      (h'.bobbin c b).next = (sl + 1) % 4 ∧ (h'.bobbin c b).armed = (s.hw.bobbin c b).armed + 1

/-- BB_CTRL. Setting ENABLE with three different walker bobbins and an active pricking puts the bobbins in service with their counters at 0; clearing
it cancels every slot. -/
def Obligations.BobbinRegistersTakeEffect : Prop :=
  (∀ (s : State) (a : Agent) (c : Nat) (v : Word), s.hw.Takes a .BB_CTRL c → s.hw.on F.BB_CTRL_ENABLE c = false →
    bits 4 3 v.toNat ≠ bits 8 3 v.toNat → bits 4 3 v.toNat ≠ bits 12 3 v.toNat → bits 8 3 v.toNat ≠ bits 12 3 v.toNat → s.hw.hasPlan = true →
    ∃ h', exec (.bobbinEnable a c v) s = s.leads h' ∧ h'.on F.BB_CTRL_ENABLE c = true ∧ h'.get F.BB_CTRL_WALK_A c = bits 4 3 v.toNat ∧
      h'.get F.BB_CTRL_WALK_B c = bits 8 3 v.toNat ∧ h'.get F.BB_CTRL_WALK_OUT c = bits 12 3 v.toNat ∧ h'.rd .BB_LAPSED c = 0 ∧
      h'.rd .BB_GSKIP c = 0 ∧ h'.rd .BB_GOVF c = 0 ∧
      (∀ b, b < 8 → h'.rd .BB_ATOMS (Hw.sub c 8 b) = 0 ∧ h'.rd .BB_UNITS (Hw.sub c 8 b) = 0 ∧ h'.rd .BB_DISCARD (Hw.sub c 8 b) = 0)) ∧
  (∀ (s : State) (a : Agent) (c : Nat) (v : Word), s.hw.Takes a .BB_CTRL c → s.hw.on F.BB_CTRL_ENABLE c = true →
    bits 4 3 v.toNat = s.hw.get F.BB_CTRL_WALK_A c → bits 8 3 v.toNat = s.hw.get F.BB_CTRL_WALK_B c → bits 12 3 v.toNat = s.hw.get F.BB_CTRL_WALK_OUT c →
    (s.hw.core c).bobbins = [] →
    ∃ h', exec (.bobbinDisable a c v) s = s.leads h' ∧ h'.on F.BB_CTRL_ENABLE c = false ∧ s.hw.Only h' [(.BB_CTRL, c)])

/-- The bobbins' work. The first ARMED slot becomes ACTIVE where no slot is, and BB_DESC shows its descriptor; the regulator gives the next place of the
cycle to the ready bobbin of the lowest number; a CLOSING descriptor that has nothing in flight ends, and its slot is FREE from the next cycle. -/
def Obligations.BobbinWorkMovesOn : Prop :=
  (∀ (s : State) (c b sl : Nat) (x : BobSlot), s.hw.clocks.aclk = true → c < s.hw.physCores → s.hw.ab.on = false → s.hw.ab.fresh = false →
    s.hw.activeSlot c b = none → (s.hw.slotOrder c b).find? (fun p => p.2.state == 1) = some (sl, x) → x.desc.qend ≠ 2 → x.desc.qend ≠ 3 →
    x.desc.qend ≠ 9 →
    ∃ h', exec (.descriptorActivate c b) s = movesTo s h' ∧ h'.ticks = max s.hw.ticks (x.since + 4) ∧
      h'.slot c b sl = some { x with state := 2, since := h'.ticks } ∧ h'.rd .BB_DESC (Hw.sub c 8 b) = x.desc.src % 2 ^ (8 * (Reg.desc .BB_DESC).size)) ∧
  (∀ (s : State) (c b sl k sy : Nat) (x : BobSlot), s.hw.clocks.aclk = true → c < s.hw.physCores → s.hw.ab.on = false → s.hw.on F.BB_CTRL_ENABLE c = true →
    s.hw.on F.CR_MM_STATUS_INIT c = false → (s.hw.core c).placeTick = s.hw.cycleTick → (s.hw.core c).places = [] → b < 8 →
    (∀ b', b' < b → bobClass s.work c b' = none) → bobClass s.work c b = some (sl, x, k) → x.since ≤ s.hw.ticks →
    (k ≠ 2 → 0 < s.hw.placesAt ((s.hw.txDue s.mem ((s.hw.logicalOf c).getD 0)).length + (s.hw.rxDue ((s.hw.logicalOf c).getD 0)).length) s.hw.cycle) →
    exec (.bobbinTransferStart c sy) s = .next (s.after (pump ((startClass c b sy sl x k s.work).onHw Hw.settleAbort)))) ∧
  (∀ (s : State) (c b sl : Nat) (x : BobSlot), s.hw.clocks.aclk = true → c < s.hw.physCores → s.hw.ab.on = false → s.hw.ab.fresh = false →
    (s.hw.slotOrder c b).find? (fun p => p.2.state == 3) = some (sl, x) → s.hw.slot c b sl = some x → x.cancelled = false → x.xfers = [] →
    slotQuiet x = true → x.desc.op = 0 → x.desc.stage = none → x.desc.signalEn = false →
    bobStep c (s.work.onHw (fun h => h.elapse x.since)) = none →
    ∃ h', exec (.descriptorEnd c b) s = movesTo s h' ∧ h'.ticks = max s.hw.ticks x.since ∧ h'.slot c b sl = none ∧
      Tab.find? (h'.bobbin c b).freed sl = some (h'.cycleTick + 4))

/-- The slot moves of a beat. The next transmit move of a core takes the payload that its descriptors have for the stream, spends a REMOTE unit and puts the
payload in its slot; the next receive move gives the payload to the first descriptor that can take it. -/
def Obligations.SlotMovesCarryPayloads : Prop :=
  (∀ (s : State) (c p l sl o : Nat) (e : SlotEntry) (bs : List Byte) (w2 : Work), s.hw.clocks.aclk = true → c < s.hw.physCores →
    let k := (s.hw.core c).txMoves
    let w1 := s.work.onHw (fun h => spendRemote ((h.elapse (h.time.beatStart + 4 * k)).onCore c (fun q => { q with txMoves := k + 1 })) c e.sub)
    (s.hw.txDue s.mem ((s.hw.logicalOf c).getD 0))[k]? = some (p, l, sl, e) → (w1.hw.coreTag s.mem c = 1 ∨ w1.hw.coreTag s.mem c = 3) →
    (w1.hw.slotOrder c e.sub).findSome? (fun q => (txPayload c e.sub e.stream q.1 q.2 w1).map (fun r => (q.2.owner, r))) = some (o, bs, w2) →
    ∃ h' : Hw, exec (.slotTransmitMove c) s = .next (s.after (pump { w2 with hw := h'.settleAbort })) ∧
      h'.txSlots = w2.hw.txSlots ++
        [{ port := p, lane := l, slot := sl, typ := 1, stream := e.stream, hoop := w2.hw.bobHoop c, len := bs.length, data := sliceBytes 0 512 bs }] ∧ h'.cores = w2.hw.cores ∧ h'.ctl = w2.hw.ctl) ∧
  (∀ (s : State) (c sl : Nat) (d : SlotData) (x : BobSlot), s.hw.clocks.aclk = true → c < s.hw.physCores →
    let k := (s.hw.core c).rxMoves
    let n := (s.hw.txDue s.mem ((s.hw.logicalOf c).getD 0)).length + k
    let w1 := s.work.onHw (fun h => spendRemote ((h.elapse (h.time.beatStart + 4 * n)).onCore c (fun q => { q with rxMoves := k + 1 })) c d.sub)
    (s.hw.rxDue ((s.hw.logicalOf c).getD 0))[k]? = some d → (w1.hw.coreTag s.mem c = 1 ∨ w1.hw.coreTag s.mem c = 3) →
    (w1.hw.slotOrder c d.sub).find? (fun q => canTake w1 c d.sub q.2 d.stream d.len) = some (sl, x) →
    exec (.slotReceiveMove c) s = .next (s.after (pump (((takePayload c d.sub sl x d w1).onHw (fun h =>
      ((h.received d.stream d.len).weighOut x.owner 2 1).weigh x.owner 5 8)).onHw Hw.settleAbort))))

/-! Memories. -/

/-- The memories' registers. ENABLE of a matrix memory zeroes it and shows INIT; ENABLE of block memory with a split that the build has and memory behind the ports
zeroes it and empties the cache; INVAL empties the cache; MP_ERR_POP drops the oldest error; a commit-table word that leaves a lawful entry is held
for the commit, and one that does not is refused. -/
def Obligations.MemoryRegistersTakeEffect : Prop :=
  (∀ (s : State) (a : Agent) (c : Nat) (v : Word), s.hw.Takes a .CR_MM_CTRL c → s.hw.on F.CR_MM_CTRL_ENABLE c = false →
    ∃ h' : Hw, exec (.matrixMemoryEnable a c v) s = .next { s with hw := h'.settled, mem := s.mem.clear (Area.matrix c) 0 s.hw.matrixSize } ∧
      h'.on F.CR_MM_CTRL_ENABLE c = true ∧ h'.on F.CR_MM_STATUS_INIT c = true ∧ Tab.find? h'.mmInitDue c = some (s.hw.ticks + 4 * 4096) ∧
      s.hw.Only { h' with mmInitDue := s.hw.mmInitDue, badWords := s.hw.badWords } [(.CR_MM_CTRL, c), (.CR_MM_STATUS, c)]) ∧
  (∀ (s : State) (a : Agent) (v : Word), s.hw.Takes a .MP_BM_CTRL 0 → s.hw.on F.MP_BM_CTRL_ENABLE = false → 8 ≤ bits 16 4 v.toNat → bits 8 6 v.toNat ≠ 0 →
    bits 8 6 v.toNat ≤ s.hw.build.blockmemMib / 8 → s.hw.build.sizeGib ≠ 0 → bit 1 v.toNat = false →
    ∃ h' : Hw, exec (.blockMemoryEnable a v) s = .next { s with hw := h'.settled, mem := s.mem.clear Area.block 0 (s.hw.build.blockmemMib * 1048576) } ∧
      h'.on F.MP_BM_CTRL_ENABLE = true ∧ h'.on F.MP_BM_STATUS_INIT = true ∧ h'.get F.MP_BM_CTRL_SCRATCH_UNITS = bits 8 6 v.toNat ∧
      h'.get F.MP_BM_CTRL_SCRUB_LOG2 = bits 16 4 v.toNat ∧ h'.cache = [] ∧ h'.bmInitDue = some (s.hw.ticks + 4 * (s.hw.build.blockmemMib * 64))) ∧
  (∀ (s : State) (a : Agent) (v : Word), s.hw.Takes a .MP_BM_CTRL 0 → s.hw.on F.MP_BM_CTRL_ENABLE = true → bit 0 v.toNat = true → 8 ≤ bits 16 4 v.toNat →
    bits 8 6 v.toNat = s.hw.get F.MP_BM_CTRL_SCRATCH_UNITS → s.hw.invalDue = none →
    ∃ h', exec (.cacheInvalidate a v) s = s.leads h' ∧ h'.on F.MP_BM_CTRL_INVAL = true ∧ h'.cache = [] ∧ (∃ t, h'.invalDue = some t) ∧
      (∀ t, t ∈ h'.txns → t.alloc = false)) ∧
  (∀ (s : State) (a : Agent), s.hw.Takes a .MP_ERR_POP 0 →
    ∃ h', exec (.errorLogPop a) s = s.leads h' ∧ h'.errLog = s.hw.errLog.drop 1 ∧
      h'.get F.MP_ERR_STATUS_COUNT = (s.hw.errLog.length - 1) % 2 ^ F.MP_ERR_STATUS_COUNT.w ∧
      s.hw.Only { h' with errLog := s.hw.errLog } [(.MP_ERR_STATUS, 0)]) ∧
  (∀ (s : State) (a : Agent) (n off : Nat) (v : Word) (p : Place), n < 4096 → off = (Reg.desc .MP_CT_BUF0).base + 0x20 * n + 16 → s.hw.served off = true →
    a ≠ .debug → Hw.isMailbox off = false → placeOf off = some p → p.reg = .MP_CT_SIZE → p.idx = n → p.hi = false → s.hw.built p = true →
    Hw.mayWrite a p.reg = true →
    let e := { (Tab.find? s.hw.ctHeld n).getD (s.hw.ctEntry n) with size := v.toNat }
    (s.hw.ctEntryOk e = true → exec (.commitTableEntryWrite a n 4 v) s = s.leads { s.hw with ctHeld := Tab.insert s.hw.ctHeld n e }) ∧
    (s.hw.ctEntryOk e = false → exec (.commitTableEntryWrite a n 4 v) s = s.leads (s.hw.refuse Rc.CFG_CT_ENTRY F.MP_BM_STATUS_REASON 0 0x60)))

/-- The memories' events. Zeroing and invalidation end when they are due; a corrected word is written back; the scrubber passes over a clean word to the next, and
logs and writes back a corrected one; a port's read answers its transfer, an error response sets ERRRESP, a unit for the cache waits for its fill,
which delivers it; an acknowledged write is stored under its hoop's key. -/
def Obligations.MemoryEventsTakeEffect : Prop :=
  (∀ (s : State) (c t : Nat), s.hw.clocks.aclk = true → c < s.hw.physCores → s.hw.ab.fresh = false → Tab.find? s.hw.mmInitDue c = some t →
    ∃ h', exec (.matrixMemoryInitDone c) s = movesTo s h' ∧ h'.ticks = max s.hw.ticks t ∧ h'.on F.CR_MM_STATUS_INIT c = false ∧
      Tab.find? h'.mmInitDue c = none) ∧
  (∀ (s : State) (t : Nat), s.hw.clocks.aclk = true → s.hw.bmInitDue = some t →
    ∃ h', exec .blockMemoryInitDone s = s.leads h' ∧ h'.ticks = max s.hw.ticks t ∧ h'.on F.MP_BM_STATUS_INIT = false ∧ h'.bmInitDue = none ∧
      s.hw.Only { h' with ticks := s.hw.ticks, bmInitDue := s.hw.bmInitDue } [(.MP_BM_STATUS, 0)]) ∧
  (∀ (s : State) (t : Nat), s.hw.clocks.aclk = true → s.hw.invalDue = some t →
    ∃ h', exec .cacheInvalidateDone s = s.leads h' ∧ h'.ticks = max s.hw.ticks t ∧ h'.on F.MP_BM_CTRL_INVAL = false ∧ h'.invalDue = none ∧
      s.hw.Only { h' with ticks := s.hw.ticks, invalDue := s.hw.invalDue } [(.MP_BM_CTRL, 0)]) ∧
  (∀ (s : State), s.hw.clocks.aclk = true → exec .correctedWriteBack s = s.leads { s.hw with writeBacks := s.hw.writeBacks.drop 1 }) ∧
  (∀ (s : State) (u : Nat), s.hw.clocks.aclk = true → s.hw.scrubWords u ≠ 0 → s.hw.isBad u (Hw.scrubWhere u (Tab.getD s.hw.scrubAt u 0)) = false →
    exec (.scrubVisit u 0) s = s.leads { s.hw with scrubAt := Tab.put s.hw.scrubAt 0 u ((Tab.getD s.hw.scrubAt u 0 + 1) % s.hw.scrubWords u) } ∧
    (s.hw.errLog.length < 64 → ∃ h' e, exec (.scrubVisit u 1) s = s.leads h' ∧ h'.errLog = s.hw.errLog ++ [e] ∧ e.unit = u ∧ e.symbols = 1 ∧ e.agent = 2 ∧
      e.whereAt = Hw.scrubWhere u (Tab.getD s.hw.scrubAt u 0) ∧ e.beat = s.hw.time.beat ∧
      Tab.getD h'.scrubAt u 0 = (Tab.getD s.hw.scrubAt u 0 + 1) % s.hw.scrubWords u)) ∧
  (∀ (s : State) (p g : Nat) (t : PortTxn), s.hw.clocks.aclk = true → p < s.hw.build.memports → s.hw.ab.fresh = false →
    s.hw.txns.find? (fun t => t.port == p && t.tag == g && t.data.isNone && !t.filled) = some t →
    (t.cached = false → exec (.portReadResponse p g false 0) s = movesTo s ((s.hw.answerXfer t (unitData s.work t 0)).endTxn t)) ∧
    (t.cached = true → exec (.portReadResponse p g false 0) s = movesTo s
      { s.hw with txns := s.hw.txns.map (fun x => if x.port == p && x.tag == g then { x with filled := true, symbols := 0 } else x) })) ∧
  (∀ (s : State) (t : PortTxn), s.hw.clocks.aclk = true → s.hw.ab.fresh = false → s.hw.txns.find? (·.filled) = some t → t.alloc = false →
    exec .cacheFill s = movesTo s ((s.hw.answerXfer t (unitData s.work t t.symbols)).endTxn t)) ∧
  (∀ (s : State) (p g : Nat) (t : PortTxn) (bs : List Byte), s.hw.clocks.aclk = true → p < s.hw.build.memports → s.hw.ab.fresh = false →
    s.hw.txns.find? (fun t => t.port == p && t.tag == g && t.data.isSome) = some t → t.data = some bs → bs ≠ [] →
    ∃ h' : Hw, exec (.portWriteResponse p g false) s =
        .next (s.after (pump { hw := h', mem := s.mem.write Area.port (t.unit * 512) bs, writes := [.store Area.port (t.unit * 512) bs] })) ∧
      Tab.find? h'.portKeys t.unit = some ((s.hw.keyOf t.hoop).getD 0) ∧ h'.txns = s.hw.txns.filter (fun x => !(x.port == t.port && x.tag == t.tag)))

/-! Tambours. -/

/-- A tambour's control register takes an agent's write. -/
def tamTakes (s : State) (a : Agent) (t : Nat) : Prop :=
  s.hw.Takes a (Hw.tField t F.TB_CTRL_ENABLE).1.reg (Hw.tField t F.TB_CTRL_ENABLE).2 ∧ s.hw.tExists t = true

/-- TB_CTRL and GT_CTRL. Setting ENABLE where the checks of Table 9-10 pass starts the load of the image; where one fails, its code is refused. Clearing it
clears a tambour that is LOADING or LOADED, and is noted for the next run in the other states. RELEASE is noted in LOADED, and in HELD without an
uncorrectable frame; STOP in RUNNING and HELD; each is refused with CFG_CONFLICT elsewhere. The tambours' sequences. A load ends in LOADED with the image's identity and functions shown where its signature verifies, else in CLEARING with
CFG_TB_SIGNATURE; clearing ends in EMPTY; a release ends in RUNNING, a stop in LOADED or, with ENABLE cleared, in CLEARING. -/
def Obligations.TamboursLoadReleaseAndStop : Prop :=
  (∀ (s : State) (a : Agent) (t : Nat) (v : Word), tamTakes s a t → s.hw.tOn t F.TB_CTRL_ENABLE = false → bit 1 v.toNat = false → bit 2 v.toNat = false →
    let b := s.hw.physBytes s.mem 0 (s.hw.tGet t F.TB_IMAGE_ADDR * 64) (Tim.size (s.hw.physBytes s.mem 0 (s.hw.tGet t F.TB_IMAGE_ADDR * 64) 256))
    (s.hw.tCheck s.mem t = 0 →
      ∃ h', exec (.tambourEnable a t v) s = s.leads h' ∧ h'.tOn t F.TB_CTRL_ENABLE = true ∧ h'.tState t = 1 ∧ h'.tOn t F.TB_STATUS_UNCORR = false ∧
        h'.tGet t F.TB_TOGGLES_COUNT = 0 ∧ h'.tGet t F.TB_CORR_COUNT = 0 ∧
        h'.tam t = { image := b, signed := s.hw.tSigned b, loadDue := some (s.hw.after (ceilDiv b.length 16 + 49500)) } ∧
        s.hw.Only { h' with tams := s.hw.tams } ([F.TB_CTRL_ENABLE, F.TB_STATUS_STATE, F.TB_TOGGLES_COUNT, F.TB_CORR_COUNT].map
          (fun f => ((Hw.tField t f).1.reg, (Hw.tField t f).2)))) ∧
    (s.hw.tCheck s.mem t ≠ 0 → exec (.tambourEnable a t v) s = s.leads (s.hw.tRefuse t (s.hw.tCheck s.mem t)))) ∧
  (∀ (s : State) (a : Agent) (t : Nat) (v : Word), tamTakes s a t → s.hw.tOn t F.TB_CTRL_ENABLE = true → bit 1 v.toNat = false → bit 2 v.toNat = false →
    (s.hw.tState t ≠ 1 → s.hw.tState t ≠ 2 → exec (.tambourDisable a t v) s = s.leads (s.hw.tPut t F.TB_CTRL_ENABLE 0)) ∧
    ((s.hw.tState t = 1 ∨ s.hw.tState t = 2) →
      ∃ h', exec (.tambourDisable a t v) s = s.leads h' ∧ h'.tOn t F.TB_CTRL_ENABLE = false ∧ h'.tState t = 7 ∧
        h'.tam t = { clearDue := some (s.hw.ticks + (if s.hw.tState t = 1 then 176 else 0) + ceilDiv (s.hw.tCells t * 28) 512 * 8) } ∧
        (∀ f, f < 16 → h'.tFn t F.TB_FN_DEFINED f = 0) ∧ h'.tGet t F.TB_ID_HOOP = 0)) ∧
  (∀ (s : State) (a : Agent) (t : Nat), tamTakes s a t →
    (s.hw.tState t = 2 ∨ (s.hw.tState t = 5 ∧ s.hw.tOn t F.TB_STATUS_UNCORR = false) →
      exec (.tambourRelease a t) s = s.leads (s.hw.tPut t F.TB_CTRL_RELEASE 1)) ∧
    (s.hw.tState t ≠ 2 → (s.hw.tState t = 5 → s.hw.tOn t F.TB_STATUS_UNCORR = true) →
      exec (.tambourRelease a t) s = s.leads (s.hw.tRefuse t Rc.CFG_CONFLICT)) ∧
    (s.hw.tState t = 4 ∨ s.hw.tState t = 5 → exec (.tambourStop a t) s = s.leads (s.hw.tPut t F.TB_CTRL_STOP 1)) ∧
    (s.hw.tState t ≠ 4 → s.hw.tState t ≠ 5 → exec (.tambourStop a t) s = s.leads (s.hw.tRefuse t Rc.CFG_CONFLICT))) ∧
  (∀ (s : State) (t due : Nat), s.hw.clocks.aclk = true → s.hw.tExists t = true →
    ((s.hw.tam t).loadDue = some due → (s.hw.tam t).signed = true →
      ∃ h', exec (.tambourLoadDone t) s = s.leads h' ∧ h'.ticks = max s.hw.ticks due ∧ h'.tState t = 2 ∧
        h'.tGet t F.TB_ID_HOOP = Tim.hoop (s.hw.tam t).image % 4096 ∧
        (∀ f, f < 16 → h'.tFn t F.TB_FN_LATENCY f = leAt (80 + 8 * f) 2 (s.hw.tam t).image % 1024 ∧
          h'.tFn t F.TB_FN_FIXED f = bits 1 1 (leAt (82 + 8 * f) 1 (s.hw.tam t).image))) ∧
    ((s.hw.tam t).loadDue = some due → (s.hw.tam t).signed = false → s.hw.faultLog.length < 1024 →
      ∃ h', exec (.tambourLoadDone t) s = s.leads h' ∧ h'.ticks = max s.hw.ticks due ∧ h'.tState t = 7 ∧ h'.tOn t F.TB_CTRL_ENABLE = false ∧
        h'.tGet t F.TB_STATUS_REASON = Rc.CFG_TB_SIGNATURE ∧ ∃ e, h'.faultLog = s.hw.faultLog ++ [e] ∧ e.code = Rc.CFG_TB_SIGNATURE) ∧
    ((s.hw.tam t).clearDue = some due →
      ∃ h', exec (.tambourClearDone t) s = s.leads h' ∧ h'.ticks = max s.hw.ticks due ∧ h'.tState t = 0 ∧ h'.tam t = {} ∧
        s.hw.Only { h' with ticks := s.hw.ticks, tams := s.hw.tams } [((Hw.tField t F.TB_STATUS_STATE).1.reg, (Hw.tField t F.TB_STATUS_STATE).2)]) ∧
    ((s.hw.tam t).seqDue = some due →
      ∃ h', exec (.tambourSequenceEnd t) s = s.leads h' ∧ h'.ticks = max s.hw.ticks due ∧ (h'.tam t).seqDue = none ∧
        (s.hw.tState t = 3 → h'.tState t = 4) ∧ (s.hw.tState t = 6 → s.hw.tOn t F.TB_CTRL_ENABLE = true → h'.tState t = 2) ∧
        (s.hw.tState t = 6 → s.hw.tOn t F.TB_CTRL_ENABLE = false → h'.tState t = 7)))

/-- The tambours' boundaries and guards. A running core tambour pops the chunk at T0's front and owes the output of a FIXED function after its latency; an output
delivered early is held, and pushed to T1 when it is due; an activity window within the budget is counted, one beyond it holds the tambour, as a frame that is
not clean does. The gather tambour takes the next served row, and a GATHER transmit slot takes its payload from the L_OUT buffer. -/
def Obligations.TambourBoundariesMoveChunks : Prop :=
  (∀ (s : State) (c : Nat) (x : Chunk) (rest : List Chunk), s.hw.clocks.aclk = true → c < s.hw.physCores → c ≠ gatherTambour → s.hw.ab.on = false →
    s.hw.ab.fresh = false → s.hw.tState c = 4 → s.hw.queue c 8 = x :: rest → (s.hw.tam c).owed.length < 512 →
    ∃ h', exec (.tambourInputPop c) s = movesTo s h' ∧ h'.ticks = max s.hw.ticks (max (s.hw.tam c).popFrom (s.hw.tam c).nextMove) ∧ h'.queue c 8 = rest ∧
      (h'.tam c).used = some s.hw.runNumber ∧ (h'.tam c).nextMove = h'.ticks + s.hw.chunkTime c ∧
      (h'.tam c).owed = (s.hw.tam c).owed ++ (if s.hw.tFixed c x.fmt then [{ due := h'.cycleTick + 4 * s.hw.tLatency c x.fmt }] else []) ∧
      h'.ctl = s.hw.ctl) ∧
  (∀ (s : State) (t tag k : Nat) (o : Owed) (bs : List Byte), s.hw.clocks.aclk = true → s.hw.tExists t = true → s.hw.ab.on = false → s.hw.ab.fresh = false →
    s.hw.tState t = 4 → (s.hw.tam t).owed[(s.hw.tam t).early.length]? = some o → (t = gatherTambour → o.tag = tag) →
    exec (.tambourOutputDeliver t false tag k bs) s =
      movesTo s (s.hw.onTam t (fun j => { j with early := j.early ++ [(tag, { kind := k, bytes := bs })] }))) ∧
  (∀ (s : State) (c g : Nat) (o : Owed) (x : Chunk) (os : List Owed) (es : List (Nat × Chunk)), s.hw.clocks.aclk = true → c < s.hw.physCores →
    c ≠ gatherTambour → s.hw.ab.on = false → s.hw.ab.fresh = false → (s.hw.tam c).owed = o :: os → (s.hw.tam c).early = (g, x) :: es →
    (s.hw.queue c 9).length < 16 →
    ∃ h', exec (.tambourOutputDue c) s = movesTo s h' ∧ h'.ticks = max s.hw.ticks o.due ∧ (h'.tam c).owed = os ∧ (h'.tam c).early = es ∧
      h'.queue c 9 = s.hw.queue c 9 ++ [x] ∧ h'.ctl = s.hw.ctl) ∧
  (∀ (s : State) (t n : Nat), s.hw.clocks.aclk = true → s.hw.tExists t = true → s.hw.tState t = 4 →
    ∃ h', exec (.activityWindowEnd t n) s = s.leads h' ∧ h'.tGet t F.TB_TOGGLES_COUNT = (s.hw.tGet t F.TB_TOGGLES_COUNT + n) % 2 ^ 64 ∧
      h'.tGet t F.TB_ACTMAX_MAX = max (s.hw.tGet t F.TB_ACTMAX_MAX) (min n 65535) ∧
      (n ≤ s.hw.tGet t F.TB_ACT_BUDGET → h'.tState t = 4) ∧
      (s.hw.tGet t F.TB_ACT_BUDGET < n → h'.tState t = 5 ∧ h'.tOn t F.TB_STATUS_ACTIVITY = true ∧ h'.tGet t F.TB_STATUS_REASON = Rc.TBR_ACTIVITY_BUDGET)) ∧
  (∀ (s : State) (t o : Nat), s.hw.clocks.aclk = true → s.hw.tExists t = true →
    (s.hw.tState t ∉ [0, 1, 7] → exec (.configScrubFrame t 0) s =
      s.leads (s.hw.onTam t (fun k => { k with frame := (k.frame + 1) % max 1 (s.hw.tCells t * 12 / 64) }))) ∧
    (s.hw.tState t = 4 → o = 1 ∨ o = 2 →
      ∃ h', exec (.configScrubFrame t o) s = s.leads h' ∧ h'.tState t = 5 ∧ h'.tOn t F.TB_STATUS_UPSET = true ∧
        h'.tOn t F.TB_STATUS_UNCORR = (o == 2) ∧ h'.tGet t F.TB_STATUS_REASON = Rc.TBR_CONFIG_UPSET)) ∧
  (∀ (s : State) (r : PoolRow), s.hw.clocks.aclk = true → nextPoolRow s.hw.poolRows = some r → s.hw.tState gatherTambour = 4 → s.hw.ab.on = false →
    (s.hw.tam gatherTambour).owed.length + ceilDiv r.row.length 256 ≤ 512 →
    ∃ h', exec .gatherPoolInput s = s.leads h' ∧ h'.poolRows = s.hw.poolRows.erase r ∧
      (r.last = false → (h'.tam gatherTambour).owed = (s.hw.tam gatherTambour).owed) ∧
      (h'.tam gatherTambour).nextMove = h'.ticks + s.hw.chunkTime gatherTambour * ceilDiv r.row.length 256 ∧ h'.ctl = s.hw.ctl) ∧
  (∀ (s : State) (p l sl : Nat) (d : SlotData), s.hw.clocks.aclk = true → p < s.hw.build.linkports → l < 4 → sl < 19 → s.hw.planned = true →
    s.hw.ab.on = false → (s.hw.slotAt s.mem false (s.hw.planBeat + 1) p l sl).kind = 3 →
    (s.hw.tam gatherTambour).lout.find? (fun d => d.port == p && d.lane == l && d.slot == sl) = some d →
    ∃ h', exec (.gatherSlotDeadline p l sl) s = s.leads h' ∧ h'.ctl = s.hw.ctl ∧
      h'.txSlots = s.hw.txSlots ++ [{ d with stream := (s.hw.slotAt s.mem false (s.hw.planBeat + 1) p l sl).stream, hoop := s.hw.get F.GT_ID_HOOP }] ∧
      (h'.tam gatherTambour).lout = (s.hw.tam gatherTambour).lout.filter (fun x => !(x.port == p && x.lane == l && x.slot == sl)))

/-! Work submission. -/

/-- A word of an entry at an offset of control space takes an agent's write, and belongs to an instance of a register. -/
def wordTakes (s : State) (a : Agent) (off : Nat) (r : Reg) (i : Nat) (hi : Bool) : Prop :=
  s.hw.served off = true ∧ off % 4 = 0 ∧ a ≠ .debug ∧ Hw.isMailbox off = false ∧ Hw.mayWrite a r = true ∧
    ∃ p, placeOf off = some p ∧ p.reg = r ∧ p.idx = i ∧ p.hi = hi ∧ s.hw.built p = true

/-- The queues' registers. A ring that passes the checks of Table 10-8 is put in service with its counters at 0 and its state RUN; clearing ENABLE turns the
queue OFF; RESTART returns a STOPPED queue to RUN. DP_TAKE takes the entry at the head of a queue, with the context that DP_TAKE_CTX names or with its
STATUS. A context's CMD makes the transitions of Table 1-3 by their writers. A word of a graph entry that nothing uses, or of an armature entry that is not
valid, is written. -/
def Obligations.SubmissionRegistersTakeEffect : Prop :=
  (∀ (s : State) (a : Agent) (q : Nat) (v : Word), s.hw.Takes a .SQ_CTRL q → a ≠ .dispatcher → s.hw.on F.SQ_CTRL_ENABLE q = false → bit 1 v.toNat = false →
    s.hw.rd .SQ_DONE q = s.hw.rd .SQ_HEAD q →
    let h1 := s.hw.put F.SQ_CTRL_LOG2 (bits 8 5 v.toNat) q
    (h1.sqCheck q = 0 →
      ∃ h', exec (.queueEnable a q v) s = s.leads h' ∧ h'.on F.SQ_CTRL_ENABLE q = true ∧ h'.get F.SQ_CTRL_LOG2 q = bits 8 5 v.toNat ∧ h'.sqState q = 1 ∧
        h'.rd .SQ_HEAD q = 0 ∧ h'.rd .SQ_DONE q = 0 ∧ h'.rd .SQ_TAILSEEN q = 0 ∧ (∀ t ∈ h'.submit.taken, t.queue ≠ q) ∧
        s.hw.Only { h' with submit := s.hw.submit } [(.SQ_CTRL, q), (.SQ_STATUS, q), (.SQ_HEAD, q), (.SQ_DONE, q), (.SQ_TAILSEEN, q)]) ∧
    (h1.sqCheck q ≠ 0 → exec (.queueEnable a q v) s = s.leads (h1.sqRefuse q (h1.sqCheck q)))) ∧
  (∀ (s : State) (a : Agent) (q : Nat) (v : Word), s.hw.Takes a .SQ_CTRL q → a ≠ .dispatcher → s.hw.on F.SQ_CTRL_ENABLE q = true → bit 1 v.toNat = false →
    bits 8 5 v.toNat = s.hw.get F.SQ_CTRL_LOG2 q →
    ∃ h', exec (.queueDisable a q v) s = s.leads h' ∧ h'.on F.SQ_CTRL_ENABLE q = false ∧ h'.sqState q = 0 ∧
      s.hw.Only h' [(.SQ_CTRL, q), (.SQ_STATUS, q)]) ∧
  (∀ (s : State) (a : Agent) (q : Nat), s.hw.Takes a .SQ_CTRL q → s.hw.sqState q = 3 →
    ∃ h', exec (.queueRestart a q) s = s.leads h' ∧ h'.sqState q = 1 ∧
      h'.on F.SQ_CTRL_ENABLE q = s.hw.on F.SQ_CTRL_ENABLE q ∧ h'.get F.SQ_CTRL_LOG2 q = s.hw.get F.SQ_CTRL_LOG2 q ∧
      s.hw.Only h' [(.SQ_CTRL, q), (.SQ_STATUS, q)]) ∧
  (∀ (s : State) (a : Agent) (v : Word) (q x : Nat), s.hw.Takes a .DP_TAKE 0 → q = bits 0 12 v.toNat → x = s.hw.get F.DP_TAKE_CTX_CONTEXT →
    (s.hw.hasEntry q = true → s.hw.on F.DP_TAKE_CTX_VALID = true → s.hw.ctxFree x = true →
      ∃ h' t, exec (.dispatchTake a v) s = s.leads h' ∧ h'.rd .SQ_HEAD q = (s.hw.rd .SQ_HEAD q + 1) % 2 ^ 32 ∧ h'.ctxState x = 1 ∧
        h'.on F.DP_TAKE_CTX_VALID = false ∧ h'.get F.DP_TAKES_COUNT = (s.hw.get F.DP_TAKES_COUNT + 1) % 2 ^ 64 ∧ h'.sqState q = 1 ∧
        h'.submit.taken = s.hw.submit.taken ++ [t] ∧ t.queue = q ∧ t.seq = s.hw.rd .SQ_HEAD q ∧ t.ctx = some x) ∧
    (s.hw.hasEntry q = true → s.hw.on F.DP_TAKE_CTX_VALID = false → s.hw.get F.DP_TAKE_CTX_STATUS = 0 →
      ∃ h' t, exec (.dispatchTake a v) s = s.leads h' ∧ h'.rd .SQ_HEAD q = (s.hw.rd .SQ_HEAD q + 1) % 2 ^ 32 ∧ h'.sqState q = 1 ∧
        h'.submit.taken = s.hw.submit.taken ++ [t] ∧ t.queue = q ∧ t.seq = s.hw.rd .SQ_HEAD q ∧ t.ctx = none ∧ t.status = 0) ∧
    (s.hw.hasEntry q = false ∨ (s.hw.on F.DP_TAKE_CTX_VALID = true ∧ s.hw.ctxFree x = false) →
      exec (.dispatchTake a v) s = s.leads (s.hw.refuse Rc.CFG_DP_JOURNAL F.DP_STATUS_REASON 0 0x93))) ∧
  (∀ (s : State) (a : Agent) (x : Nat) (v : Word), s.hw.Takes a .CTX_CMD x → Tab.find? s.hw.ctxNext x = none →
    (s.hw.ctxState x = 0 → v.toNat % 4 = 1 → a = .dispatcher → exec (.contextCmdWrite a x v) s = s.leads (s.hw.setCtxState x 1)) ∧
    (s.hw.ctxState x = 1 → v.toNat % 4 = 0 → a = .dispatcher → s.hw.get F.DP_CTXPROG_SEGS_TOTAL x ≤ s.hw.get F.DP_CTXPROG_SEGS_DONE x →
      exec (.contextCmdWrite a x v) s = s.leads (s.hw.setCtxState x 0)) ∧
    (s.hw.ctxState x = 3 → v.toNat % 4 = 0 → a ≠ .dispatcher → exec (.contextCmdWrite a x v) s = s.leads ((s.hw.setCtxState x 0).energyFree x)) ∧
    (2 ≤ v.toNat % 4 ∨ s.hw.ctxState x = 2 → exec (.contextCmdWrite a x v) s = s.leads (s.hw.ctxRefuse Rc.SYN_CTX_TRANSITION))) ∧
  (∀ (s : State) (a : Agent) (g : Nat) (v : Word), g < 4096 → wordTakes s a ((Reg.desc .GRAPH_BUF0).base + 0x20 * g + 16) .GRAPH_LENGTH g false →
    (16 ≤ v.toNat → v.toNat ≤ 16777216 → s.hw.get F.GRAPH_USE_USE0 g = 0 → s.hw.get F.GRAPH_USE_USE1 g = 0 → s.hw.on F.GRAPH_FLAGS_VALID g = false →
      ∃ h', exec (.graphEntryWrite a g 4 v) s = s.leads h' ∧ h'.rd .GRAPH_LENGTH g = v.toNat ∧
        (∀ r, r ∈ [Reg.GRAPH_BUF0, .GRAPH_BUF1, .GRAPH_FLAGS] → h'.rd r g = s.hw.rd r g % 2 ^ (8 * r.desc.size)) ∧
        s.hw.Only h' [(.GRAPH_BUF0, g), (.GRAPH_BUF1, g), (.GRAPH_LENGTH, g), (.GRAPH_FLAGS, g)]) ∧
    (v.toNat < 16 ∨ 16777216 < v.toNat → exec (.graphEntryWrite a g 4 v) s = s.leads (s.hw.ctxRefuse Rc.CFG_RANGE)) ∧
    (16 ≤ v.toNat → v.toNat ≤ 16777216 → v.toNat ≠ s.hw.rd .GRAPH_LENGTH g → s.hw.get F.GRAPH_USE_USE0 g ≠ 0 →
      exec (.graphEntryWrite a g 4 v) s = s.leads (s.hw.ctxRefuse Rc.CFG_GRAPH_ENTRY))) ∧
  (∀ (s : State) (a : Agent) (e : Nat) (v : Word), e < 256 → wordTakes s a ((Reg.desc .ARM_CFG).base + 0x20 * e + 4) .ARM_STEP e false →
    bit 16 (s.hw.rd .ARM_CFG e) = false →
    ∃ h', exec (.armatureEntryWrite a e 1 v) s = s.leads h' ∧ h'.rd .ARM_STEP e = v.toNat ∧
      (∀ r, r ∈ [Reg.ARM_CFG, .ARM_COMPBASE, .ARM_TAGBASE] → h'.rd r e = s.hw.rd r e % 2 ^ (8 * r.desc.size)) ∧
      s.hw.Only h' [(.ARM_CFG, e), (.ARM_COMPBASE, e), (.ARM_TAGBASE, e), (.ARM_STEP, e)])

/-- The scanner visits the enabled queues in turn and reads their tail words; a tail word that has changed is stored and lists its queue as ready, one further
ahead than the ring is long stops its queue; a pop drops the oldest ready queue, and SQ_READY shows the next. -/
def Obligations.TheScannerListsReadyQueues : Prop :=
  (∀ (s : State) (q : Nat), s.hw.clocks.aclk = true → s.hw.clocks.pclk = true → s.hw.on F.SQ_SCAN_CTRL_ENABLE = true → s.hw.submit.reads.length < 16 →
    ((List.range 4096).filter (fun q => s.hw.on F.SQ_CTRL_ENABLE q && (s.hw.sqState q == 1 || s.hw.sqState q == 2))).find? (fun k => s.hw.submit.scanAt ≤ k) = some q →
    q ∉ s.hw.submit.reads →
    ∃ h', exec .queueScanVisit s = s.leads h' ∧ h'.ticks = max s.hw.ticks s.hw.submit.visitDue ∧ h'.submit.scanAt = q + 1 ∧
      h'.submit.visitDue = h'.ticks + 16 ∧ h'.submit.reads = s.hw.submit.reads ++ [q] ∧ h'.ctl = s.hw.ctl) ∧
  (∀ (s : State) (q tail : Nat), s.hw.clocks.aclk = true → q ∈ s.hw.submit.reads → s.hw.on F.SQ_CTRL_ENABLE q = true →
    tail = leNat (s.hw.physBytes s.mem ((s.hw.queueHoop q).getD 0) (s.hw.rd .SQ_TAILADDR q) 4) →
    (tail = s.hw.rd .SQ_TAILSEEN q →
      ∃ h', exec (.tailReadDone q) s = s.leads h' ∧ h'.ctl = s.hw.ctl ∧ h'.submit.ready = s.hw.submit.ready ∧ q ∉ h'.submit.reads) ∧
    (tail ≠ s.hw.rd .SQ_TAILSEEN q → (tail + 2 ^ 32 - s.hw.rd .SQ_HEAD q) % 2 ^ 32 ≤ s.hw.sqSize q →
      ∃ h', exec (.tailReadDone q) s = s.leads h' ∧ h'.rd .SQ_TAILSEEN q = tail % 2 ^ 32 ∧ q ∈ h'.submit.ready ∧ q ∉ h'.submit.reads ∧
        h'.sqState q = s.hw.sqState q ∧ h'.get F.SQ_READY_QUEUE = h'.submit.ready.headD 0 % 4096 ∧
        s.hw.Only { h' with submit := s.hw.submit } [(.SQ_TAILSEEN, q), (.SQ_READY, 0)]) ∧
    (tail ≠ s.hw.rd .SQ_TAILSEEN q → s.hw.sqSize q < (tail + 2 ^ 32 - s.hw.rd .SQ_HEAD q) % 2 ^ 32 →
      ∃ h', exec (.tailReadDone q) s = s.leads h' ∧ h'.rd .SQ_TAILSEEN q = tail % 2 ^ 32 ∧ h'.sqState q = 3 ∧
        h'.get F.SQ_STATUS_REASON q = Rc.SYN_QUEUE_OVERRUN)) ∧
  (∀ (s : State) (a : Agent) (q r : Nat) (rest : List Nat), s.hw.Takes a .SQ_READY_POP 0 → s.hw.submit.ready = q :: r :: rest →
    ∃ h', exec (.readyListPop a) s = s.leads h' ∧ h'.submit.ready = r :: rest ∧ h'.rd .SQ_READY 0 = r % 2 ^ 32 ∧
      s.hw.Only { h' with submit := s.hw.submit } [(.SQ_READY, 0)])

/-- The descriptor of a continuation at the end of its graph's command buffer. -/
def contDesc (s : State) (k : Continuation) : List Byte :=
  (hoopBytes s.work k.hoop (s.hw.graphBuf k.graph (s.hw.get F.GRAPH_FLAGS_ACTIVE k.graph) + 8 + 16 * (graphHeader s.work k.graph).1) 24).getD []

/-- The Dispatcher's handling of queue entries. Taking an entry advances HEAD by one and notes it for its record; an entry that fails its checks is taken with
the STATUS of its failure. A LAUNCH whose patches apply takes a free context to ADMITTED for its graph; a PATCH applies its patches; a FENCE_WAIT that is
met is taken, one that is not leaves its queue in WAIT; a CANCEL returns an ADMITTED context to FREE, or is late. An armature entry launches its graph, or
counts a skip; a continuation is admitted for its graph. -/
def Obligations.QueueEntriesTakeEffect : Prop :=
  (∀ (h : Hw) (m : Mem) (q st : Nat),
    let h' := h.takeEntry m q none st
    h'.rd .SQ_HEAD q = (h.rd .SQ_HEAD q + 1) % 2 ^ 32 ∧ h'.get F.DP_TAKES_COUNT = (h.get F.DP_TAKES_COUNT + 1) % 2 ^ 64 ∧ h'.sqState q = 1 ∧
      (st ≠ 0 → h'.on F.SQ_STATUS_FAIL q = true) ∧ (st = 0 → h'.on F.SQ_STATUS_FAIL q = h.on F.SQ_STATUS_FAIL q) ∧
      ∃ t, h'.submit.taken = h.submit.taken ++ [t] ∧ t.queue = q ∧ t.seq = h.rd .SQ_HEAD q ∧ t.ctx = none ∧ t.status = st ∧
        t.tag = leAt 8 8 (h.headEntry m q)) ∧
  (∀ (s : State) (q : Nat) (e : List Byte), s.hw.clocks.aclk = true → s.hw.runs false = true → e = s.hw.headEntry s.mem q →
    (headKind s.work q = some 0 → entryOk e = true → exec (.queueNop q) s = s.leads (s.hw.takeEntry s.mem q none 0)) ∧
    (headKind s.work q = some 0 → entryOk e = false → exec (.queueNop q) s = s.leads (s.hw.takeEntry s.mem q none Rc.SYN_ENTRY_FORMAT)) ∧
    (∀ x, headKind s.work q = some 1 → graphFail s.work q e ≠ 0 → exec (.launch q x) s = s.leads (s.hw.takeEntry s.mem q none (graphFail s.work q e))) ∧
    (∀ x g w1, headKind s.work q = some 1 → graphFail s.work q e = 0 → s.hw.ctxFree x = true → g = leAt 2 2 e →
      patchList ((s.hw.queueHoop q).getD 0) g (leAt 4 4 e) (leAt 16 8 e) s.work = .ok w1 → contOk (w1.onHw (fun h => h.activateGraph g)) g = true →
      let h1 := w1.hw.activateGraph g
      ∃ h' t, exec (.launch q x) s = .next (s.after { w1 with hw := h' }) ∧ h'.ctxState x = 1 ∧ h'.get F.CTX_QUEUE_GRAPH x = g ∧
        h'.get F.CTX_QUEUE_QUEUE x = q % 4096 ∧ h'.get F.CTX_STATE_HOOP x = (s.hw.queueHoop q).getD 0 % 4096 ∧ h'.rd .CTX_TAG x = leAt 8 8 e % 2 ^ 64 ∧
        h'.rd .CTX_SEQ x = h1.rd .SQ_HEAD q % 2 ^ 32 ∧ h'.rd .CTX_GEN x = h1.rd .GRAPH_GEN g % 2 ^ 32 ∧
        h'.rd .SQ_HEAD q = (h1.rd .SQ_HEAD q + 1) % 2 ^ 32 ∧ h'.submit.taken = h1.submit.taken ++ [t] ∧ t.queue = q ∧ t.ctx = some x) ∧
    (headKind s.work q = some 2 → graphFail s.work q e ≠ 0 → exec (.patch q) s = s.leads (s.hw.takeEntry s.mem q none (graphFail s.work q e))) ∧
    (∀ w1, headKind s.work q = some 2 → graphFail s.work q e = 0 →
      patchList ((s.hw.queueHoop q).getD 0) (leAt 2 2 e) (leAt 4 4 e) (leAt 16 8 e) s.work = .ok w1 →
      exec (.patch q) s = .next (s.after { w1 with hw := w1.hw.takeEntry w1.mem q none 0 })) ∧
    (∀ c, headKind s.work q = some 2 → graphFail s.work q e = 0 →
      patchList ((s.hw.queueHoop q).getD 0) (leAt 2 2 e) (leAt 4 4 e) (leAt 16 8 e) s.work = .error c →
      exec (.patch q) s = s.leads (s.hw.takeEntry s.mem q none c)) ∧
    (∀ n, headKind s.work q = some 3 → entryOk e = true → s.hw.queueHoop q = some n → s.hw.queueHoop (leAt 2 2 e) = some n →
      (s.hw.fenceMet (leAt 2 2 e) (leAt 4 4 e) = true → exec (.fenceWait q) s = s.leads (s.hw.takeEntry s.mem q none 0)) ∧
      (s.hw.fenceMet (leAt 2 2 e) (leAt 4 4 e) = false → fenceCycle (s.work.onHw (fun h => h.setSqState q 2)) q 4096 q [] = [] →
        exec (.fenceWait q) s = s.leads (s.hw.setSqState q 2))) ∧
    (∀ n back t x, headKind s.work q = some 4 → entryOk e = true → n = leAt 4 4 e → back = (s.hw.rd .SQ_HEAD q + 2 ^ 32 - n) % 2 ^ 32 → 0 < back →
      back < 2 ^ 31 → leAt 0 1 (s.hw.physBytes s.mem ((s.hw.queueHoop q).getD 0) (s.hw.sqEntryAddr q n) 1) = 1 →
      s.hw.submit.taken.find? (fun t => t.queue == q && t.seq == n) = some t → t.ctx = some x →
      (s.hw.ctxState x = 1 → Tab.find? s.hw.ctxNext x = none →
        ∃ h', exec (.cancel q) s = s.leads h' ∧ h'.ctxState x = 0 ∧ h'.rd .SQ_HEAD q = (s.hw.rd .SQ_HEAD q + 1) % 2 ^ 32 ∧
          ∃ t', h'.submit.taken = s.hw.submit.taken ++ [t'] ∧ t'.cancels = some x) ∧
      (s.hw.ctxState x ≠ 1 → exec (.cancel q) s = s.leads (s.hw.takeEntry s.mem q none Rc.SYN_CANCEL_LATE)))) ∧
  (∀ (s : State) (a x g : Nat), s.hw.clocks.aclk = true → s.hw.runs false = true → s.hw.on F.ARM_CFG_VALID a = true → g = s.hw.get F.ARM_CFG_GRAPH a → g < 4096 →
    (s.hw.armLive a < s.hw.get F.ARM_CFG_MAXOUT a → s.hw.ctxFree x = true → contOk s.work g = true →
      let h1 := s.hw.activateGraph g
      ∃ h', exec (.armatureLaunch a x) s = s.leads h' ∧ h'.ctxState x = 1 ∧ h'.on F.CTX_STATE_ARMATURE x = true ∧ h'.get F.CTX_QUEUE_GRAPH x = g ∧
        h'.rd .CTX_TAG x = (h1.rd .ARM_TAGBASE a + h1.rd .ARM_LAUNCHES a) % 2 ^ 64 ∧
        h'.get F.ARM_LAUNCHES_COUNT a = (h1.get F.ARM_LAUNCHES_COUNT a + 1) % 2 ^ F.ARM_LAUNCHES_COUNT.w) ∧
    (s.hw.get F.ARM_CFG_MAXOUT a ≤ s.hw.armLive a ∨ s.hw.ctxFree x = false →
      ∃ h', exec (.armatureLaunch a x) s = s.leads h' ∧ h'.get F.ARM_SKIPS_COUNT a = (s.hw.get F.ARM_SKIPS_COUNT a + 1) % 2 ^ F.ARM_SKIPS_COUNT.w ∧
        s.hw.Only h' [(.ARM_SKIPS, a)])) ∧
  (∀ (s : State) (x : Nat) (k : Continuation) (rest : List Continuation), s.hw.clocks.aclk = true → s.hw.runs false = true →
    s.hw.submit.continuations = k :: rest → s.hw.ctxFree x = true →
    let d := contDesc s k
    let g := bits 0 12 (graphHeader s.work k.graph).2
    let list := 3 * 2 ^ 62 + bits 0 12 (leAt 0 2 d) * 2 ^ 32 + leAt 4 4 d
    ∀ l c w1 w2 bs n, s.hw.resolvePhys { hoop := k.hoop, write := false, bobbin := false } list 4 = .ok (l, c) →
      n = min (leNat (farRead s.hw s.mem k.hoop l 4)) (leAt 20 4 d) →
      (∃ l' c', s.hw.resolvePhys { hoop := k.hoop, write := false, bobbin := false } list (8 + 8 * n) = .ok (l', c') ∧
        bs = farRead s.hw s.mem k.hoop l' (8 + 8 * n)) →
      hoopStore k.hoop (leAt 8 8 d) bs s.work = some w1 → patchGraph g [(leAt 16 4 d, 0, leBytes 8 n)] w1 = .ok w2 →
      ∃ h', exec (.continuationAdmit x) s = .next (s.after { w2 with hw := h' }) ∧ h'.ctxState x = 1 ∧ h'.on F.CTX_STATE_CONTINUATION x = true ∧
        h'.get F.CTX_QUEUE_GRAPH x = g ∧ h'.rd .CTX_TAG x = k.tag % 2 ^ 64 ∧ h'.rd .CTX_SEQ x = k.seq % 2 ^ 32 ∧ h'.submit.continuations = rest)

/-! Links and the fabric. -/

/-- The link unit's registers. Setting ENABLE of a port with the link unit in service starts TRAIN with the port's counters and lanes as after reset; clearing
it turns the port OFF and empties its queue; UCIE is set only on a port that can have it and is out of service. A route is written at once without an
active pricking, at the next run start with one; the fabric address only without one; a client binding only where its queue is in service in scratch and no
other binding has its stream and port. -/
def Obligations.LinkRegistersTakeEffect : Prop :=
  (∀ (s : State) (a : Agent) (p : Nat) (v : Word), s.hw.Takes a .LK_P_CTRL p → s.hw.on F.LK_P_CTRL_ENABLE p = false →
    flag (bit 1 v.toNat) = s.hw.get F.LK_P_CTRL_UCIE p →
    (s.hw.on F.LK_CTRL_ENABLE = true →
      ∃ h', exec (.linkPortEnable a p v) s = s.leads h' ∧ h'.on F.LK_P_CTRL_ENABLE p = true ∧ h'.lpState p = 1 ∧ h'.on F.LK_P_STATUS_DEGRADED p = false ∧
        h'.on F.LK_P_LANEMAP_SPARE_OK p = true ∧ h'.get F.LK_P_LANEMAP_SPARE p = s.hw.get F.LK_P_LANEMAP_SPARE p ∧
        h'.lp p = { egress := (s.hw.lp p).egress, neighbour := (s.hw.lp p).neighbour, rxSpare := s.hw.get F.LK_P_LANEMAP_SPARE p,
                    txSpare := s.hw.get F.LK_P_LANEMAP_SPARE p, lastHeard := s.hw.time.beat } ∧
        s.hw.Only { h' with link := s.hw.link } [(.LK_P_CTRL, p), (.LK_P_STATUS, p), (.LK_P_LANEMAP, p)]) ∧
    (s.hw.on F.LK_CTRL_ENABLE = false → exec (.linkPortEnable a p v) s =
      s.leads ((s.hw.put F.LK_P_CTRL_UCIE (flag (bit 1 v.toNat)) p).lpRefuse p Rc.CFG_LK_DEPENDS))) ∧
  (∀ (s : State) (a : Agent) (p : Nat) (v : Word), s.hw.Takes a .LK_P_CTRL p → s.hw.on F.LK_P_CTRL_ENABLE p = true →
    flag (bit 1 v.toNat) = s.hw.get F.LK_P_CTRL_UCIE p →
    ∃ h', exec (.linkPortDisable a p v) s = s.leads h' ∧ h'.on F.LK_P_CTRL_ENABLE p = false ∧ h'.lpState p = 0 ∧ h'.get F.LK_P_STATUS_LOCK p = 0 ∧
      h'.on F.LK_P_LANEMAP_PENDING p = false ∧ (h'.lp p).egress = [] ∧ (h'.lp p).lanes = List.replicate 5 {} ∧
      s.hw.Only { h' with link := s.hw.link, switchWhole := s.hw.switchWhole } [(.LK_P_CTRL, p), (.LK_P_STATUS, p), (.LK_P_LANEMAP, p)]) ∧
  (∀ (s : State) (a : Agent) (p : Nat) (v : Word), s.hw.Takes a .LK_P_CTRL p → s.hw.on F.LK_P_CTRL_UCIE p = false →
    (s.hw.on F.LK_P_CTRL_ENABLE p = false → s.hw.on F.LK_P_CTRL_UCIE_CAP p = true → bit 0 v.toNat = false →
      exec (.ucieBind a p v) s = s.leads (s.hw.put F.LK_P_CTRL_UCIE 1 p)) ∧
    (s.hw.on F.LK_P_CTRL_ENABLE p = true ∨ s.hw.on F.LK_P_CTRL_UCIE_CAP p = false →
      exec (.ucieBind a p v) s = s.leads (s.hw.lpRefuse p Rc.CFG_LK_UCIE))) ∧
  (∀ (s : State) (a : Agent) (i : Nat) (v : Word) (r : Reg) (k w : Nat), r = (if i < 256 then .LK_GRT else .LK_MRT) → k = (if i < 256 then i else i - 256) →
    w = v.toNat % 32 + flag (bit 7 v.toNat) * 128 → s.hw.Takes a r k →
    (v.toNat % 32 < s.hw.build.linkports → s.hw.hasPlan = false → exec (.routeTableWrite a i v) s = s.leads (s.hw.wr r k w)) ∧
    (v.toNat % 32 < s.hw.build.linkports → s.hw.hasPlan = true →
      exec (.routeTableWrite a i v) s = s.leads { s.hw with routeNext := Tab.insert s.hw.routeNext i w }) ∧
    (s.hw.build.linkports ≤ v.toNat % 32 → exec (.routeTableWrite a i v) s = s.leads (s.hw.lkRefuse Rc.CFG_LK_ROUTE))) ∧
  (∀ (s : State) (a : Agent) (v : Word), s.hw.Takes a .LK_ADDR 0 →
    (s.hw.hasPlan = false → exec (.fabricAddressWrite a v) s = s.leads (s.hw.wr .LK_ADDR 0 (v.toNat % 2 ^ 17))) ∧
    (s.hw.hasPlan = true → exec (.fabricAddressWrite a v) s = s.leads (s.hw.lkRefuse Rc.CFG_LK_ADDR))) ∧
  (∀ (s : State) (a : Agent) (c : Nat) (v : Word), s.hw.Takes a .LK_CLIENT c →
    (s.hw.clientOk c (withFld F.LK_CLIENT_ENABLE 1 v.toNat) = true →
      ∃ h', exec (.clientBindingWrite a c v) s = s.leads h' ∧ h'.rd .LK_CLIENT c = v.toNat % 2 ^ 17 + 2 ^ 31 ∧
        (s.hw.on F.LK_CLIENT_ENABLE c = false → h'.rd .LK_CLIENT_TAIL c = s.hw.rd .SQ_HEAD (s.hw.get F.LK_CLIENT_QUEUE_QUEUE c) % 2 ^ 32) ∧
        s.hw.Only h' [(.LK_CLIENT, c), (.LK_CLIENT_TAIL, c)]) ∧
    (s.hw.clientOk c (withFld F.LK_CLIENT_ENABLE 1 v.toNat) = false →
      exec (.clientBindingWrite a c v) s = s.leads (s.hw.lkRefuse Rc.CFG_LK_CLIENT)))

/-- Frames and lanes. A valid header locks its lane and tells the port is heard; on a SCHEDULED port the frame's slots are checked for the plan beat of its window. A missing
frame drops the lock. A measurement ends in STANDBY with the port's delay, or begins again; four silent beats bring a port to TRAIN, and a SCHEDULED one
raises FAB_LINK_DOWN; a failed lane is replaced by the spare, which takes effect at its beat. -/
def Obligations.FramesAndLanesTakeEffect : Prop :=
  (∀ (s : State) (p l t : Nat) (hd : List Byte) (slots : List (List Byte)), s.hw.clocks.aclk = true → p < s.hw.build.linkports → l ∈ s.hw.physLanes p →
    s.hw.ab.fresh = false → s.hw.lpState p ≠ 0 → hd ≠ [] →
    (s.hw.lpState p ≠ 4 ∧ leAt 0 1 hd ≤ 1 ∨ leAt 0 1 hd = 1 →
      ∃ h', exec (.frameReceive p l t hd slots []) s = movesTo s h' ∧ h'.ticks = max s.hw.ticks t ∧ (h'.lp p).lastHeard = s.hw.time.beat ∧
        bit l (h'.get F.LK_P_STATUS_LOCK p) = true) ∧
    (∀ k b w1 rs, s.hw.lpState p = 4 → leAt 0 1 hd = 0 → w1 = s.work.onHw (fun h => (h.elapse t).takeHeader p l t hd) →
      w1.hw.logicalLane p (w1.hw.rxSpareAt p (leAt 8 8 hd)) l = some k → w1.hw.windowBeat w1.mem p t = some b →
      rs = (List.range 19).map (fun i => rawSlot i (slots.getD i []) 0) → (∀ r ∈ rs, r.bad = false) → (w1.hw.lane p l).failed = false →
      exec (.frameReceive p l t hd slots []) s = .next (s.after (pump ((presentFrame
        { port := p, lane := k, forBeat := b, epoch := leAt 1 1 hd, missed := false, slots := rs } w1).onHw Hw.settleAbort))))) ∧
  (∀ (s : State) (p l : Nat), s.hw.clocks.aclk = true → p < s.hw.build.linkports → l ∈ s.hw.physLanes p → s.hw.ab.fresh = false → s.hw.lpState p ≠ 0 →
    s.hw.lpState p ≠ 4 → (s.hw.lp p).lanes.length = 5 →
    ∃ h', exec (.frameMiss p l) s = movesTo s h' ∧ bit l (h'.get F.LK_P_STATUS_LOCK p) = false ∧ (h'.lane p l).misses = (s.hw.lane p l).misses + 1 ∧
      (h'.lane p l).good = 0 ∧ s.hw.Only { h' with link := s.hw.link } [(.LK_P_STATUS, p)]) ∧
  (∀ (s : State) (p : Nat), s.hw.clocks.aclk = true → p < s.hw.build.linkports → s.hw.lpState p = 2 → (s.hw.lp p).measureStart + 256 ≤ s.hw.time.beat →
    let d := Hw.laneDelays (s.hw.lp p).lanes
    let found := (d.1 :: (List.range d.1.length).map (fun i => d.1.eraseIdx i)).find? (fun xs => 4 ≤ xs.length && Hw.within xs d.2)
    (found = none → ∃ h', exec (.measureEnd p) s = s.leads h' ∧ h'.lpState p = 1 ∧ (∀ k ∈ (h'.lp p).lanes, k.good = 0)) ∧
    (∀ xs, found = some xs → (xs.foldl (· + ·) 0) % (2 * (d.2 : Int) * xs.length) = 0 →
      ∃ h', exec (.measureEnd p) s = s.leads h' ∧ h'.lpState p = 3 ∧ h'.rd .LK_P_DELAY p = encSigned 24 ((xs.foldl (· + ·) 0) / (2 * (d.2 : Int) * xs.length)) ∧
        s.hw.Only h' [(.LK_P_DELAY, p), (.LK_P_STATUS, p)])) ∧
  (∀ (s : State) (p : Nat), s.hw.clocks.aclk = true → p < s.hw.build.linkports → 2 ≤ s.hw.lpState p → (s.hw.lp p).lastHeard + 4 ≤ s.hw.time.beat →
    ∃ h', exec (.linkDownTimeout p) s = s.leads h' ∧ h'.lpState p = 1 ∧ h'.get F.LK_P_STATUS_LOCK p = 0 ∧
      (s.hw.lpState p = 4 → h'.on F.LK_P_STATUS_DOWN p = true ∧ h'.get F.LK_P_STATUS_REASON p = Rc.FAB_LINK_DOWN)) ∧
  (∀ (s : State) (p l : Nat), s.hw.clocks.aclk = true → p < s.hw.build.linkports → s.hw.lpState p ≠ 0 → s.hw.ucie p = false → l < 5 →
    (s.hw.lp p).lanes.length = 5 → (s.hw.lane p l).failed = false → s.hw.laneFails p l = true → s.hw.on F.LK_P_LANEMAP_SPARE_OK p = true →
    s.hw.on F.LK_P_LANEMAP_PENDING p = false →
    ∃ h', exec (.laneFailure p l) s = s.leads h' ∧ (h'.lane p l).failed = true ∧ h'.on F.LK_P_STATUS_LANE_FAIL p = true ∧
      h'.get F.LK_P_STATUS_REASON p = Rc.FAB_LANE_FAILED ∧ h'.on F.LK_P_LANEMAP_SPARE_OK p = false ∧
      (s.hw.rxSpareAt p s.hw.time.beat ≠ l → h'.on F.LK_P_LANEMAP_PENDING p = true ∧
        (h'.lp p).rxSwitch = some (l, s.hw.time.beat + (s.hw.portDelay s.mem p).1 + 4, s.hw.time.beat + (s.hw.portDelay s.mem p).1 + 4 + (s.hw.portDelay s.mem p).1 + 1))) ∧
  (∀ (s : State) (p l es : Nat), s.hw.clocks.aclk = true → p < s.hw.build.linkports → (s.hw.lp p).txSwitch = some (l, es) → es ≤ s.hw.time.beat →
    (s.hw.lp p).rxSwitch = none →
    ∃ h', exec (.laneSwitchEffective p) s = s.leads h' ∧ (h'.lp p).txSpare = l ∧ (h'.lp p).txSwitch = none ∧ h'.get F.LK_P_LANEMAP_SPARE p = l % 8 ∧
      h'.on F.LK_P_LANEMAP_SPARE_OK p = false ∧ s.hw.Only { h' with link := s.hw.link } [(.LK_P_LANEMAP, p)])

/-- Slot 19 and discovery. A couch entry for this block arrives, one for another is sent on with TTL less 1; a fragment that breaks Table 11-7 is dropped and counted, a whole message
reaches the processors; a message incomplete for 4,096 beats is dropped. The Keeper compares an EPOCH message with its armed image; a HELLO goes out on every
live port; a silent neighbour's record is cleared; the election is stable after 1,024 beats; a client's poll is answered with records. -/
def Obligations.ManagementTrafficTakesEffect : Prop :=
  (∀ (s : State) (p w : Nat) (bs : List Byte) (e : CouchReq), s.hw.clocks.aclk = true → p < s.hw.build.linkports → s.hw.lpLive p = true → bs.length = 20 →
    w = leAt 12 4 bs → bit 24 w = true →
    e = { dest := leAt 0 2 bs, obj := leAt 2 2 bs % 16384, value := leAt 4 4 bs, mark := leAt 8 4 bs, stream := bits 0 12 w, hoop := bits 12 12 w,
          fbeat := leAt 16 4 bs, ttl := bits 25 7 w - 1 } →
    (s.hw.routeTo e.dest = some none → exec (.couchEntryReceive p bs) s = s.leads (s.hw.couchArrive e)) ∧
    (s.hw.routeTo e.dest ≠ some none → 2 ≤ bits 25 7 w → exec (.couchEntryReceive p bs) s = s.leads (s.hw.couchSend e)) ∧
    (s.hw.routeTo e.dest ≠ some none → bits 25 7 w ≤ 1 → exec (.couchEntryReceive p bs) s = s.leads s.hw.mgmtDrop)) ∧
  (∀ (s : State) (p : Nat) (bs : List Byte), s.hw.clocks.aclk = true → p < s.hw.build.linkports → s.hw.lpLive p = true →
    (sliceBytes 0 16 bs).all (· == 0#8) = false →
    (parseFragment bs = none → exec (.fragmentReceive p bs) s = s.leads (s.hw.inc F.LK_MGMT_DROP_VALUE)) ∧
    (∀ f, parseFragment bs = some f → (f.cls = 2 ∨ f.cls = 4 ∨ f.cls = 5) → f.flags = 6 → f.off = 0 → s.hw.on F.LK_ADDR_ASSIGNED = true →
      s.hw.routeTo f.dst = some none →
      ∃ h', exec (.fragmentReceive p bs) s = s.leads h' ∧ h'.link.inbox = s.hw.link.inbox ++ [{ cls := f.cls, src := f.src, data := f.data }] ∧
        { h' with link := s.hw.link } = s.hw)) ∧
  (∀ (s : State), s.hw.clocks.aclk = true →
    ∃ h', exec .reassemblyTimeout s = s.leads h' ∧ (∀ x, x ∈ h'.link.reasm ↔ x ∈ s.hw.link.reasm ∧ s.hw.time.beat < x.since + 4096) ∧
      { h' with link := s.hw.link } = s.hw) ∧
  (∀ (s : State) (x : Message), s.hw.clocks.aclk = true → s.hw.runs true = true → s.hw.link.inbox.find? (fun x => x.cls == 6) = some x →
    ∃ h' ok, exec .epochNotice s = s.leads h' ∧ h'.link.inbox = s.hw.link.inbox.erase x ∧ h'.link.epochConfirmed = some ok ∧
      (ok = true ↔ s.hw.on F.TM_EPOCH_CTRL_ARM = true ∧ Img.epoch s.mem (s.hw.get F.TM_PRK_SHADOW_BASE * 4096) = leAt 0 8 x.data ∧
        Img.startBeat s.mem (s.hw.get F.TM_PRK_SHADOW_BASE * 4096) = leAt 8 8 x.data ∧
        Img.master s.mem (s.hw.get F.TM_PRK_SHADOW_BASE * 4096) = leAt 16 2 x.data)) ∧
  (∀ (s : State), s.hw.clocks.aclk = true → s.hw.on F.LK_CTRL_DISCOVER = true → s.hw.link.helloAt = none →
    ∃ h', exec .helloSend s = s.leads h' ∧ h'.link.helloAt = some s.hw.time.beat ∧
      ∀ p ∈ s.hw.livePorts, (s.hw.lp p).egress = [] → ∃ f, (h'.lp p).egress = [f] ∧ f.cls = 0 ∧ f.ttl = 1 ∧ f.data = s.hw.elect.helloBody p) ∧
  (∀ (s : State) (p : Nat) (n : Neighbour), s.hw.clocks.aclk = true → p < s.hw.build.linkports → (s.hw.lp p).neighbour = some n →
    n.heard + 64 ≤ s.hw.time.beat →
    ∃ h', exec (.neighbourExpiry p) s = s.leads h' ∧ (h'.lp p).neighbour = none ∧ h'.rd .LK_P_NEIGH p = 0 ∧ h'.rd .LK_P_NADDR p = 0) ∧
  (∀ (s : State), s.hw.clocks.aclk = true → s.hw.elect.link.electAt + 1024 ≤ s.hw.time.beat →
    exec .electionStable s = s.leads (s.hw.elect.put F.LK_ELECT_STABLE 1)) ∧
  (∀ (s : State) (p src q n i c : Nat), s.hw.clocks.aclk = true → p < s.hw.build.linkports →
    (c < 64 → s.hw.on F.LK_CLIENT_ENABLE c = true → s.hw.get F.LK_CLIENT_PORT c = p → s.hw.get F.LK_CLIENT_QUEUE_QUEUE c = q → 1 ≤ n → n ≤ 16 →
      exec (.cpoll p src q n i) s = s.leads (s.hw.sendTo src 4 (leBytes 4 (s.hw.rd .SQ_DONE q) ++ leBytes 4 0 ++
        (List.range n).flatMap (fun k => s.hw.physBytes s.mem ((s.hw.queueHoop q).getD 0) (s.hw.sqRecordAddr q (i + k)) 16)))) ∧
    (n = 0 ∨ 16 < n → exec (.cpoll p src q n i) s = s.leads (s.hw.inc F.LK_CLIENT_DROP_VALUE)))

/-! The control processors. -/

/-- A mailbox holds a new request of a type that its processor serves, in a version that it speaks. -/
def mbReady (s : State) (n typ : Nat) : Prop :=
  let keeper := s.hw.on F.MB_CTRL_TARGET n
  let get (o k : Nat) : Nat := s.mem.le Area.mailbox (Mb.requestAt n + o) k
  n < 8 ∧ s.hw.runs keeper = true ∧ s.hw.on F.MB_CTRL_ENABLE n = true ∧ get 6 2 ≠ s.mem.le Area.mailbox (Mb.replyAt n + 6) 2 ∧
    get 0 1 = (s.hw.proc keeper).fwMajor ∧ get 1 1 ≤ (s.hw.proc keeper).fwMinor ∧ get 2 2 = typ ∧ typ ∈ Mb.types keeper

/-- The body of a mailbox's request. -/
def mbBody (s : State) (n : Nat) : List Byte := s.mem.read Area.mailbox (Mb.requestAt n + 16) (min 2032 (s.mem.le Area.mailbox (Mb.requestAt n + 4) 2))

/-- Boot, restart, watchdogs and mailboxes. The boot ROM goes on where the boot device can be used, and locks the first image that verifies; the Dispatcher
is enabled with its image locked; a restart zeroes and starts a processor again and the fourth within 1,048,576 beats holds it; a kick restarts its own
watchdog, a period without one restarts the processor. A mailbox answers a new request with its number, its STATUS and its body. -/
def Obligations.ProcessorCommandsTakeEffect : Prop :=
  (∀ (s : State) (b : Bool) (d : List Byte), s.hw.power.bootDue = none → s.hw.bootPhase = 1 →
    exec (.bootStart b d) s =
      s.leads (s.hw.setPhase (if s.hw.get F.SC_STATE_STATE = 3 ∨ b = false ∨ Hw.directoryOk d = false then 7 else 2))) ∧
  (∀ (s : State) (x y : List Byte), s.hw.bootPhase = 2 →
    (s.hw.imageOk 0 x = true → s.hw.procs.keeper.locked = false →
      ∃ h', exec (.bootImageLoad 0 x y) s = s.leads h' ∧ h'.bootPhase = 3 ∧ h'.procs.keeper.locked = true ∧ h'.procs.keeper.running = true ∧
        h'.procs.keeper.code = (x.drop 64).take (leAt 16 4 x) ∧ h'.procs.keeper.entry = leAt 20 4 x ∧ h'.procs.keeper.kicked = s.hw.time.beat ∧
        s.hw.Only { h' with procs := s.hw.procs } [(.PL_BOOT, 0)]) ∧
    (s.hw.imageOk 0 x = false → s.hw.imageOk 0 y = false →
      ∃ h', exec (.bootImageLoad 0 x y) s = s.leads h' ∧ h'.bootPhase = 7 ∧ h'.procs.keeper.running = false)) ∧
  (∀ (s : State) (x y : List Byte), (s.hw.bootPhase = 3 ∨ s.hw.bootPhase = 4) → (s.hw.setPhase 4).imageOk 1 x = true → s.hw.procs.dispatcher.locked = false →
    ∃ h', exec (.bootImageLoad 1 x y) s = s.leads h' ∧ h'.bootPhase = 4 ∧ h'.procs.dispatcher.locked = true ∧
      h'.procs.dispatcher.code = (x.drop 64).take (leAt 16 4 x) ∧ s.hw.Only { h' with procs := s.hw.procs } [(.PL_BOOT, 0)]) ∧
  (∀ (s : State) (a : Agent) (v : Word), s.hw.Takes a .DP_CTRL 0 → s.hw.on F.DP_CTRL_D_ENABLE = false → bit 1 v.toNat = false → bit 2 v.toNat = false →
    (s.hw.procs.dispatcher.locked = true →
      ∃ h', exec (.dispatcherEnable a v) s = s.leads h' ∧ h'.on F.DP_CTRL_D_ENABLE = true ∧ h'.procs.dispatcher.running = true ∧
        h'.bootPhase = (if s.hw.bootPhase = 4 then 5 else s.hw.bootPhase) ∧ s.hw.Only { h' with procs := s.hw.procs } [(.DP_CTRL, 0), (.PL_BOOT, 0)]) ∧
    (s.hw.procs.dispatcher.locked = false → exec (.dispatcherEnable a v) s = s.leads (s.hw.dpRefuse Rc.CFG_DP_IMAGE))) ∧
  (∀ (s : State) (a : Agent), s.hw.Takes a .DP_CTRL 0 → s.hw.on F.DP_CTRL_D_ENABLE = true →
    (s.hw.held false = false → exec (.dispatcherRestart a) s = s.leads (s.hw.restart false)) ∧
    (s.hw.held false = true → ∃ h', exec (.dispatcherRestart a) s = s.leads h' ∧ h'.held false = false ∧ h'.procs.dispatcher.restarts = [s.hw.time.beat]) ∧
    exec (.keeperRestart a) s = s.leads (s.hw.restart true)) ∧
  (∀ (s : State) (k : Bool), exec (.processorMemoryUncorrectable k) s = s.leads (s.hw.restart k)) ∧
  (∀ (h : Hw) (k : Bool),
    let recent := (h.proc k).restarts.filter (fun b => h.time.beat < b + 1048576)
    let h' := h.restart k
    (h'.proc k).restarts = h.time.beat :: recent ∧ (h'.proc k).kicked = h.time.beat ∧
      (h'.proc k).startDue = some (h.ticks + (if k then 8192 else 16384) * h.pclkTicks) ∧ (k = true → h'.mgmt.sessions = []) ∧
      (recent.length < 3 → h'.ctl = h.ctl ∧ h'.faultLog = h.faultLog) ∧
      (3 ≤ recent.length → h'.held k = true ∧ h'.get F.DP_STATUS_REASON = Rc.FWR_RESTART_STORM)) ∧
  (∀ (s : State) (a : Agent) (v : Word), s.hw.Takes a .DP_KICK 0 →
    (bit 0 v.toNat = true → bit 1 v.toNat = false → a ≠ .keeper →
      exec (.kick a v) s = s.leads (s.hw.onProc false (fun p => { p with kicked := s.hw.time.beat }))) ∧
    (bit 1 v.toNat = true → bit 0 v.toNat = false → a ≠ .dispatcher →
      exec (.kick a v) s = s.leads (s.hw.onProc true (fun p => { p with kicked := s.hw.time.beat }))) ∧
    ((bit 0 v.toNat = true ∧ a = .keeper) ∨ (bit 1 v.toNat = true ∧ a = .dispatcher) →
      exec (.kick a v) s = s.leads (s.hw.dpRefuse Rc.SEC_HOOP_VIOLATION))) ∧
  (∀ (s : State) (k : Bool), (s.hw.proc k).running = true → s.hw.held k = false →
    let period := if k then s.hw.get F.DP_WDOG_K_BEATS else s.hw.get F.DP_WDOG_D_BEATS
    ((s.hw.proc k).kicked + period ≤ s.hw.time.beat →
      ∃ h1 : Hw, exec (.watchdogExpiry k) s = s.leads (h1.restart k) ∧ h1.on F.DP_STATUS_STALL = true ∧ h1.get F.DP_STATUS_REASON = Rc.FWR_PROGRESS_STALL ∧
        h1.procs = s.hw.procs ∧ h1.time = s.hw.time) ∧
    (s.hw.time.beat < (s.hw.proc k).kicked + period → (k = false → s.hw.takeStall = false) → exec (.watchdogExpiry k) s = s.leads s.hw)) ∧
  (∀ (s : State) (a : Agent) (n : Nat) (v : DWord), s.hw.Takes a .DP_COVER n →
    let c := if n < s.hw.build.cores then s.hw.physOf n else n
    s.hw.admitted c = true → exec (.coverWrite a n v) s = s.leads (s.hw.wr .DP_COVER c v.toNat)) ∧
  (∀ (s : State) (a : Agent) (n : Nat) (v : Word), s.hw.Takes a .MB_CTRL n → s.hw.on F.MB_CTRL_ENABLE n = false →
    (bits 16 12 v.toNat < s.hw.build.hoops →
      ∃ h', exec (.mailboxEnable a n v) s = s.leads h' ∧ h'.on F.MB_CTRL_ENABLE n = true ∧ h'.get F.MB_CTRL_TARGET n = bits 1 1 v.toNat ∧
        h'.get F.MB_CTRL_HOOP n = bits 16 12 v.toNat ∧ s.hw.Only h' [(.MB_CTRL, n)]) ∧
    (s.hw.build.hoops ≤ bits 16 12 v.toNat →
      ∃ h', exec (.mailboxEnable a n v) s = s.leads h' ∧ h'.on F.MB_CTRL_ENABLE n = false ∧ h'.get F.DP_STATUS_REASON = Rc.CFG_MB_ENTRY)) ∧
  (∀ (w : Work) (n st : Nat) (body : List Byte), n < 8 → body.length ≤ 2032 →
    let w' := Mb.reply n st body w
    w'.hw = w.hw ∧ w'.mem.le Area.mailbox (Mb.replyAt n + 6) 2 = w.mem.le Area.mailbox (Mb.requestAt n + 6) 2 ∧
      w'.mem.le Area.mailbox (Mb.replyAt n + 8) 2 = st % 65536 ∧ w'.mem.read Area.mailbox (Mb.replyAt n + 16) body.length = body ∧
      ∀ area addr, Mem.key area addr < Mem.key Area.mailbox (Mb.replyAt n) ∨ Mem.key Area.mailbox (Mb.replyAt n) + 2048 ≤ Mem.key area addr →
        w'.mem.byte area addr = w.mem.byte area addr) ∧
  (∀ (s : State) (n : Nat) (b : List Byte) (r : List Nat) (w1 : Work),
    (mbReady s n 1 → leAt 0 1 (mbBody s n) = 1 → (Dict.serve (Mb.principal s.hw n) (mbBody s n) 2032 s.work).map (fun x => (x.1, x.2.2)) = some (b, w1) →
      exec (.mailboxDictRead n) s = .next (s.after (Mb.reply n 0 b w1))) ∧
    (mbReady s n 2 → leAt 0 1 (mbBody s n) = 2 → (Dict.serve (Mb.principal s.hw n) (mbBody s n) 2032 s.work).map (fun x => (x.1, x.2.2)) = some (b, w1) →
      exec (.mailboxDictWrite n) s = .next (s.after (Mb.reply n 0 b w1))) ∧
    (mbReady s n 3 → ∃ h', exec (.completionAreaReclaim n) s = .next (s.after (Mb.reply n 0 [] { s.work with hw := h' })) ∧
      ∀ q, s.hw.on F.SQ_CTRL_ENABLE q = true → s.hw.queueHoop q = some (s.hw.get F.MB_CTRL_HOOP n) → h'.on F.SQ_CTRL_ENABLE q = false ∧ h'.sqState q = 0) ∧
    (mbReady s n 0x101 → Mb.ownQueue s.hw n (leAt 0 2 (mbBody s n)) = true → s.hw.sqState (leAt 0 2 (mbBody s n)) = 3 →
      exec (.mailboxQueueRestart n) s = .next (s.after (Mb.reply n 0 [] { s.work with hw := s.hw.setSqState (leAt 0 2 (mbBody s n)) 1 }))) ∧
    (mbReady s n 0x102 → r = [s.hw.rd .SQ_HEAD (leAt 0 2 (mbBody s n)), s.hw.rd .SQ_DONE (leAt 0 2 (mbBody s n)), s.hw.sqState (leAt 0 2 (mbBody s n))] →
      (Mb.ownQueue s.hw n (leAt 0 2 (mbBody s n)) = true →
        exec (.mailboxQueueStatus n) s = .next (s.after (Mb.reply n 0 (r.flatMap (leBytes 4)) s.work))) ∧
      (Mb.ownQueue s.hw n (leAt 0 2 (mbBody s n)) = false →
        exec (.mailboxQueueStatus n) s = .next (s.after (Mb.reply n Rc.SEC_HOOP_VIOLATION [] s.work))))) ∧
  (∀ (s : State) (src x : Nat), s.hw.clocks.aclk = true → s.hw.runs true = true →
    let h1 := s.hw.takeMessage 1 (some src)
    (s.hw.tmState = tmMaster → x ≤ 256 → s.hw.procs.wants = [] →
      ∃ h', exec (.want src x) s = s.leads h' ∧ h'.get F.PW_STRETCH_FABRIC = x ∧ h'.procs.wants = [(src, x, s.hw.time.beat)]) ∧
    (s.hw.tmState ≠ tmMaster → exec (.want src x) s = s.leads h1)) ∧
  (∀ (s : State) (src x : Nat), s.hw.clocks.aclk = true → s.hw.runs true = true →
    (s.hw.tmState ≠ tmMaster → exec (.lostSuspect src x) s = s.leads (s.hw.takeMessage 2 (some src))) ∧
    (s.hw.tmState = tmMaster → s.hw.hasPlan = false →
      ∃ h', exec (.lostSuspect src x) s = s.leads h' ∧ (src, x, s.hw.time.beat) ∈ h'.procs.suspects ∧
        ((∀ p ∈ s.hw.link.ports, ∀ n, p.2.neighbour = some n → n.addr = x → n.heard + 64 ≤ s.hw.time.beat) → (∀ b ∈ s.hw.procs.lostBlocks, b.1 ≠ x) →
          h'.procs.lostBlocks = s.hw.procs.lostBlocks ++ [(x, s.hw.time.beat)]))) ∧
  (∀ (s : State) (x : Nat), s.hw.clocks.aclk = true → s.hw.runs true = true →
    (s.hw.hasPlan = false → exec (.lost x) s = s.leads (s.hw.takeMessage 3 none)) ∧
    (s.hw.hasPlan = true → ∃ h', exec (.lost x) s = s.leads h' ∧
      ∀ o, (x, o) ∈ Img.owners s.mem s.hw.imgBase → o < 4096 → bit (o % 32) (h'.rd .FT_LOST (o / 32)) = true)) ∧
  (∀ (s : State) (d wr : Bool) (n addr : Nat) (bs : List Byte) (r : Option (List Byte)) (w1 : Work), s.hw.clocks.aclk = true →
    hoopAccess (if d then 0x93 else 0x94) (n % 4096) (addr % 2 ^ 64) wr bs s.work = (r, w1) →
    ∃ h', exec (.apertureAccess d wr n addr bs) s = .next (s.after { w1 with hw := h' }) ∧ h'.procs.apertureResponse = some (r.isNone, r.getD []) ∧
      { h' with procs := w1.hw.procs } = w1.hw)

/-! Hoops and keys. -/

/-- Hoops, windows and keys. An accepted write of a hoop's record, of a window or of a key takes effect at once where no pricking is active, and else is held for
a commit; ranges that break R369 are refused with CFG_HP_RANGE, a hoop in use is not closed, a window that fails the checks of R368 is refused. An install is
accepted with the next sequence number, an unwrapped key and the hash of its TPUB; a sweep drops the stale lines of a hoop; a lifecycle command that is signed
for its transition is noted for the next reset. -/
def Obligations.HoopCommandsTakeEffect : Prop :=
  (∀ (s : State) (a : Agent) (n : Nat) (v : Word), s.hw.Takes a .HP_CTRL n → n < s.hw.build.hoops → bit 0 (s.hw.newHoopWord n 0) = false →
    s.hw.hoopRangesOk n (s.hw.newHoopWord n 1) (s.hw.newHoopWord n 2) (s.hw.newHoopWord n 3) = true →
    (s.hw.hasPlan = true → exec (.hoopOpen a n v) s =
      s.leads { s.hw with hoopHeld := Tab.insert s.hw.hoopHeld (n * 4) (1 + 2 * bits 1 1 v.toNat) }) ∧
    (s.hw.hasPlan = false → s.hw.hoopHeld = [] → s.hw.windowsHeld = [] → s.hw.keysHeld = [] →
      ∃ h', exec (.hoopOpen a n v) s = s.leads h' ∧ h'.on F.HP_CTRL_VALID n = true ∧ s.hw.Only h' [(.HP_CTRL, n)])) ∧
  (∀ (s : State) (a : Agent) (n : Nat) (v : Word), s.hw.Takes a .HP_CTRL n → n < s.hw.build.hoops → bit 0 (s.hw.newHoopWord n 0) = false →
    s.hw.hoopRangesOk n (s.hw.newHoopWord n 1) (s.hw.newHoopWord n 2) (s.hw.newHoopWord n 3) = false → s.hw.hasPlan = true →
    ∃ h', exec (.hoopOpen a n v) s = s.leads h' ∧ h'.get F.HP_STATUS_REASON n = Rc.CFG_HP_RANGE ∧ bit 0 (h'.newHoopWord n 0) = false) ∧
  (∀ (s : State) (a : Agent) (n : Nat) (v : Word), s.hw.Takes a .HP_CTRL n → n < s.hw.build.hoops → bit 0 (s.hw.newHoopWord n 0) = true →
    (s.hw.hoopBusy n = true → exec (.hoopClose a n v) s = s.leads (s.hw.hpRefuse n Rc.CFG_HP_BUSY)) ∧
    (s.hw.hoopBusy n = false → s.hw.hasPlan = true →
      ∃ h', exec (.hoopClose a n v) s = s.leads h' ∧ bit 0 (h'.newHoopWord n 0) = false ∧ h'.newHoopWord n 2 = 0 ∧ h'.newHoopWord n 3 = 0 ∧
        h'.newKey n = {} ∧ (∀ i, i < 16 → h'.newWindow n i = none) ∧ h'.ctl = s.hw.ctl ∧ h'.windows = s.hw.windows ∧ h'.keys = s.hw.keys)) ∧
  (∀ (s : State) (a : Agent) (n k w : Nat) (v : Word), k ∈ [1, 2, 3] → s.hw.Takes a (Hw.hoopReg k) n → n < s.hw.build.hoops →
    w = (if k = 1 then bits 0 16 v.toNat else if k = 2 then bits 0 14 v.toNat + bits 16 15 v.toNat * 65536 else bits 0 12 v.toNat + bits 16 13 v.toNat * 65536) →
    (bit 0 (s.hw.newHoopWord n 0) = false → s.hw.hasPlan = true →
      exec (.hoopRangeWrite a n k v) s = s.leads { s.hw with hoopHeld := Tab.insert s.hw.hoopHeld (n * 4 + k) w }) ∧
    (bit 0 (s.hw.newHoopWord n 0) = false → s.hw.hasPlan = false → s.hw.hoopHeld = [] → s.hw.windowsHeld = [] → s.hw.keysHeld = [] →
      exec (.hoopRangeWrite a n k v) s = s.leads (s.hw.wr (Hw.hoopReg k) n w)) ∧
    (bit 0 (s.hw.newHoopWord n 0) = true →
      s.hw.hoopRangesOk n (if k = 1 then w else s.hw.newHoopWord n 1) (if k = 2 then w else s.hw.newHoopWord n 2) (if k = 3 then w else s.hw.newHoopWord n 3) = false →
      exec (.hoopRangeWrite a n k v) s = s.leads (s.hw.hpRefuse n Rc.CFG_HP_RANGE))) ∧
  (∀ (s : State) (a : Agent) (n i x : Nat) (w : Window), s.hw.Takes a .HP_WIN_APPLY 0 → n = s.hw.get F.HP_WSEL_HOOP → i = s.hw.get F.HP_WSEL_WINDOW →
    x = s.hw.rd .HP_WIN_ATTR 0 → n < s.hw.build.hoops → s.hw.hasPlan = true →
    w = { vbase := s.hw.rd .HP_WIN_VBASE 0, pbase := s.hw.rd .HP_WIN_PBASE 0, size := s.hw.rd .HP_WIN_SIZE 0 * 65536, read := bit 1 x, write := bit 2 x } →
    (bit 0 x = false → exec (.windowApply a) s = s.leads { s.hw with windowsHeld := Tab.insert s.hw.windowsHeld (n * 16 + i) none }) ∧
    (bit 0 x = true → s.hw.windowOk (n * 16 + i) w = true →
      exec (.windowApply a) s = s.leads { s.hw with windowsHeld := Tab.insert s.hw.windowsHeld (n * 16 + i) (some w) }) ∧
    (bit 0 x = true → s.hw.windowOk (n * 16 + i) w = false → exec (.windowApply a) s = s.leads (s.hw.hpRefuse n Rc.CFG_HP_WINDOW))) ∧
  (∀ (s : State) (a : Agent) (n : Nat), s.hw.Takes a .HP_KEYCMD 0 → n < s.hw.build.hoops → n < 4096 → s.hw.hasPlan = true → Tab.find? s.hw.keySweep n = none →
    ∃ h', exec (.keyErase a n) s = s.leads h' ∧ h'.newKey n = {} ∧ h'.keys = s.hw.keys ∧ h'.get F.HP_KEYSTAT_REASON = 0 ∧
      s.hw.Only { h' with keysHeld := s.hw.keysHeld } [(.HP_KEYSTAT, 0)]) ∧
  (∀ (s : State) (a : Agent) (n : Nat) (b k : List Byte), s.hw.Takes a .HP_KEYCMD 0 → n < s.hw.build.hoops → n < 4096 → s.hw.hasPlan = true →
    Tab.find? s.hw.keySweep n = none → s.hw.badWords = [] → s.hw.d3Entered = false → b = s.mem.read Area.block (s.hw.rd .HP_KEYBLOB 0) 384 →
    (leAt 0 4 b = 0x4B570002 → leAt 4 2 b = n → leAt 8 4 b = s.hw.rd .HP_KEYCNT n + 1 → s.hw.unwrapKey n b = some k → k.take 32 ≠ (k.drop 32).take 32 →
      leAt 64 48 k = (Config.sha384 (sliceBytes 256 97 b)).toNat →
      ∃ h', exec (.keyInstall a n) s = s.leads h' ∧ h'.newKey n = { key := some (leNat (k.take 64)), tpub := sliceBytes 256 97 b } ∧ h'.keys = s.hw.keys ∧
        h'.rd .HP_KEYCNT n = (s.hw.rd .HP_KEYCNT n + 1) % 2 ^ 32 ∧ h'.get F.HP_KEYSTAT_REASON = 0) ∧
    (leAt 0 4 b ≠ 0x4B570002 ∨ leAt 4 2 b ≠ n ∨ leAt 8 4 b ≠ s.hw.rd .HP_KEYCNT n + 1 ∨ s.hw.unwrapKey n b = none →
      ∃ h', exec (.keyInstall a n) s = s.leads h' ∧ h'.get F.HP_KEYSTAT_REASON = Rc.SEC_KEY_INVALID ∧ h'.keysHeld = s.hw.keysHeld ∧
        h'.rd .HP_KEYCNT n = s.hw.rd .HP_KEYCNT n)) ∧
  (∀ (s : State) (n t : Nat), s.hw.clocks.aclk = true → Tab.find? s.hw.keySweep n = some t →
    ∃ h', exec (.keySweepDone n) s = s.leads h' ∧ h'.ticks = max s.hw.ticks t ∧ Tab.find? h'.keySweep n = none ∧ h'.keys = s.hw.keys ∧
      (∀ l ∈ h'.cache, ¬(l.2.hoop = n ∧ l.2.gen = (s.hw.keyGen n + 1) % 4)) ∧ (∀ l ∈ s.hw.cache, ¬(l.2.hoop = n ∧ l.2.gen = (s.hw.keyGen n + 1) % 4) → l ∈ h'.cache)) ∧
  (∀ (s : State) (a : Agent) (c : List Byte), s.hw.Takes a .SC_CMDGO 0 → c = s.mem.read Area.block (s.hw.rd .SC_CMD 0) 256 →
    (s.hw.rd .SC_CMD 0 + 256 ≤ s.hw.scratchSize → s.hw.badWords = [] → leAt 0 4 c = 0x4C430002 → leAt 5 1 c < 2 → leAt 6 2 c = 0 → leAt 8 8 c = s.hw.build.serial →
      leAt 16 8 c = s.hw.rd .SC_NONCE 0 → leAt 24 8 c = 0 → (sliceBytes 32 32 c).all (· == 0#8) = true → s.hw.on F.SC_STATE_PENDING = false →
      s.hw.lifecycleSigned (leAt 4 1 c) c = true →
      ∃ h', exec (.lifecycleCommand a) s = s.leads h' ∧ h'.on F.SC_STATE_PENDING = true ∧ h'.get F.SC_STATE_NEXT = leAt 4 1 c % 4 ∧
        h'.get F.SC_STATE_STATE = s.hw.get F.SC_STATE_STATE ∧ (leAt 4 1 c = 1 ∨ leAt 4 1 c = 3 → ∀ n, (Tab.getD h'.keys n {}).key = none)) ∧
    (s.hw.on F.SC_STATE_PENDING = true ∨ leAt 0 4 c ≠ 0x4C430002 ∨ leAt 16 8 c ≠ s.hw.rd .SC_NONCE 0 ∨ s.hw.lifecycleSigned (leAt 4 1 c) c = false →
      exec (.lifecycleCommand a) s = s.leads (s.hw.scRefuse Rc.SEC_LIFECYCLE).freshNonce))

/-! Debug, the test access port and the attach port. -/

/-- The test access port selects an instruction that it serves, which captures its value, and BYPASS in place of one that it does not serve. -/
def tapAnswers (s : State) (i : Instr) (ir dr : Nat) : Prop :=
  (s.hw.tapServes ir = true → exec i s = s.leads { s.hw with tap := { s.hw.tap with ir := ir, dr := dr, driven := false } }) ∧
  (s.hw.tapServes ir = false → exec i s = s.leads { s.hw with tap := { s.hw.tap with ir := 0xFF, dr := 0, driven := false } })

/-- Permits, debug halts, accesses through the test access port, and the attach port. A permit is verified, and its level comes into force or is refused with
SEC_PERMIT_INVALID; a level ends in the first beat above NOT_AFTER; HALT and RESUME stop and start issue at the permitted level. An access that the level does not allow is
refused; one that it allows returns the word. A host request is answered under the attach port's hoop, with an error where the port has none. -/
def Obligations.DebugAndAttachCommandsTakeEffect : Prop :=
  (∀ (s : State) (p : List Byte),
    (s.hw.tapServes 0x10 = true → ∃ h', exec (.dbgPermit p) s = s.leads h' ∧ h'.tap.ir = 0x10 ∧ h'.tap.permit = some (sliceBytes 0 256 p) ∧
      h'.on F.SC_DEBUG_BUSY = true ∧ s.hw.Only { h' with tap := s.hw.tap } [(.SC_DEBUG, 0)]) ∧
    (s.hw.tapServes 0x10 = false → exec (.dbgPermit p) s = s.leads { s.hw with tap := { s.hw.tap with ir := 0xFF, dr := 0, driven := false } })) ∧
  (∀ (s : State) (p : List Byte), s.hw.tap.permit = some p →
    let h1 : Hw := { s.hw.put F.SC_DEBUG_BUSY 0 with tap := { s.hw.tap with permit := none } }
    (h1.permitOk p = false → ∃ h', exec .permitVerified s = s.leads h' ∧ h'.tap.permit = none ∧ h'.on F.SC_DEBUG_BUSY = false ∧
      h'.get F.SC_DEBUG_LEVEL = s.hw.get F.SC_DEBUG_LEVEL ∧ h'.get F.SC_STATE_REASON = Rc.SEC_PERMIT_INVALID) ∧
    (h1.permitOk p = true → leAt 4 1 p ≠ 3 → ∃ h', exec .permitVerified s = s.leads h' ∧ h'.tap.permit = none ∧ h'.on F.SC_DEBUG_BUSY = false ∧
      h'.get F.SC_DEBUG_LEVEL = leAt 4 1 p ∧ h'.get F.SC_DEBUG_HOOP = leAt 6 2 p % 4096 ∧ h'.rd .SC_DEBUG_END 0 = leAt 24 8 p ∧ h'.keys = s.hw.keys) ∧
    (h1.permitOk p = true → leAt 4 1 p = 3 → ∃ w1, exec .permitVerified s = .next (s.after w1) ∧ w1.hw.get F.SC_DEBUG_LEVEL = 3 ∧
      (∀ n, (Tab.getD w1.hw.keys n {}).key = none) ∧ w1.hw.cache = [])) ∧
  (∀ (s : State),
    (s.hw.get F.SC_DEBUG_LEVEL ≠ 0 → s.hw.get F.SC_STATE_STATE ≠ 0 → s.hw.rd .SC_DEBUG_END 0 < s.hw.time.beat →
      ∃ h', exec .debugLevelExpiry s = s.leads h' ∧ h'.get F.SC_DEBUG_LEVEL = 0 ∧ (2 ≤ s.hw.get F.SC_DEBUG_LEVEL → h'.on F.DG_HALT_HALTED = false)) ∧
    (s.hw.time.beat ≤ s.hw.rd .SC_DEBUG_END 0 → exec .debugLevelExpiry s = s.leads s.hw)) ∧
  (∀ (s : State) (a : Agent), s.hw.Takes a .DG_HALT 0 →
    (s.hw.get F.SC_DEBUG_LEVEL = 3 → ∃ h', exec (.debugHalt a) s = s.leads h' ∧ h'.on F.DG_HALT_HALTED = true ∧
      ∀ c, c < s.hw.physCores → (h'.core c).debugHalt = true) ∧
    (s.hw.get F.SC_DEBUG_LEVEL < 2 → exec (.debugHalt a) s = s.leads s.hw) ∧
    (s.hw.on F.DG_HALT_HALTED = true → ∃ h', exec (.debugResume a) s = s.leads h' ∧ h'.on F.DG_HALT_HALTED = false ∧
      (∀ c, (h'.core c).debugHalt = false) ∧ s.hw.Only { h' with cores := s.hw.cores } [(.DG_HALT, 0)])) ∧
  (∀ (s : State) (off : Nat) (v : Word), s.hw.tapServes 0x12 = true → off < 2 ^ 28 →
    (s.hw.mayDebug false (placeOf off) = true → off ≠ (Reg.desc .DG_APER_DATA).base → (∀ p, placeOf off = some p → p.reg.desc.size ≠ 8) →
      ∃ h', exec (.dbgAccess false off v) s = s.leads h' ∧ h'.tap.status = 0 ∧ h'.tap.data = s.hw.sampleWord s.mem off ∧ h'.ctl = s.hw.ctl) ∧
    (∀ w, s.hw.mayDebug w (placeOf off) = false →
      ∃ h', exec (.dbgAccess w off v) s = s.leads h' ∧ h'.tap.status = 2 ∧ h'.tap.data = 0 ∧ h'.ctl = (s.hw.raise Rc.SEC_DEBUG_ACCESS debugSrc).ctl) ∧
    (∀ w1, s.hw.mayDebug true (placeOf off) = true →
      Hw.ctlWrite .debug off v.toNat 0 (s.work.onHw (fun h => h.tapSelect 0x12 (h.tap.status + h.tap.data * 2 ^ 31))) = w1 →
      ∃ h', exec (.dbgAccess true off v) s = .next (s.after { w1 with hw := h' }) ∧ h'.tap.status = 0 ∧ { h' with tap := w1.hw.tap } = w1.hw)) ∧
  (∀ (s : State) (wr : Bool) (v : Word) (r : Option (List Byte)) (w1 : Work),
    2 ≤ s.hw.get F.SC_DEBUG_LEVEL → s.hw.mayDebug wr (placeOf (Reg.desc .DG_APER_DATA).base) = true → s.hw.served (Reg.desc .DG_APER_DATA).base = true →
    hoopAccess 0xE9 (s.hw.rd .DG_APER_HOOP 0) (s.hw.rd .DG_APER_ADDR 0) wr (if wr then leBytes 4 v.toNat else List.replicate 4 0#8) s.work = (r, w1) →
    ∃ h', exec (.debugApertureAccess wr v) s = .next (s.after { w1 with hw := h' }) ∧ h'.tap.status = 0 ∧ h'.ctl = w1.hw.ctl ∧
      (wr = false → h'.tap.data = (r.map leNat).getD 0)) ∧
  (∀ s : State, tapAnswers s .dbgNonce 0x11 (s.hw.rd .SC_NONCE 0) ∧ tapAnswers s .idcode 0x01 s.hw.idcode ∧ tapAnswers s .bypass 0xFF 0 ∧
    tapAnswers s .bootStatus 0x13 (s.hw.rd .PL_BOOT 0) ∧ tapAnswers s .dbgLevel 0x14 (s.hw.rd .SC_DEBUG 0)) ∧
  (∀ (s : State) (pins x : Nat),
    (s.hw.tapServes 0x02 = true → exec (.samplePreload pins x) s =
      s.leads { s.hw with tap := { s.hw.tap with ir := 0x02, dr := pins, driven := false, boundary := x } }) ∧
    (s.hw.tapServes 0x03 = true → exec (.extest pins) s = s.leads { s.hw with tap := { s.hw.tap with ir := 0x03, dr := pins, driven := true } }) ∧
    (s.hw.tapServes 0x03 = false → exec (.extest pins) s = s.leads { s.hw with tap := { s.hw.tap with ir := 0xFF, dr := 0, driven := false } })) ∧
  (∀ (s : State) (wr : Bool) (addr : Nat) (bs : List Byte), s.hw.clocks.aclk = true → s.hw.power.porzLow = false → s.hw.power.sleeping = false →
    (s.hw.on F.HP_ATTACH_VALID = false →
      ∃ h', exec (.attachTargetRequest wr addr bs) s = s.leads h' ∧ h'.procs.attachResponse = some (true, []) ∧ h'.ctl = (s.hw.raise Rc.SEC_HOOP_VIOLATION { unit := 0xE5, refusal := true }).ctl) ∧
    (∀ r w1, s.hw.on F.HP_ATTACH_VALID = true → addr < 2 ^ 63 → hoopAccess 0xE5 (s.hw.get F.HP_ATTACH_HOOP) addr wr bs s.work = (r, w1) →
      ∃ h', exec (.attachTargetRequest wr addr bs) s = .next (s.after { w1 with hw := h' }) ∧ h'.procs.attachResponse = some (r.isNone, r.getD []) ∧
        { h' with procs := w1.hw.procs } = w1.hw)) ∧
  (∀ (s : State) (k e : Bool) (bs : List Byte), s.hw.clocks.aclk = true →
    ∃ h', exec (.attachInitiatorResponse k e bs) s = s.leads h' ∧ h'.procs.initiatorResponse = some (e, if e then [] else bs) ∧ (h'.proc k).accessFault = e ∧
      { h' with procs := s.hw.procs } = s.hw)

/-! Clocks, resets and power. -/

/-- A clock switch of domain d: where its source changes, to the root with the PLL locked, and no switch of it is under way, CK_DOM shows the new source and
BUSY, and the switch ends at the second alignment mark; to the root without LOCKED it is refused. -/
def domSwitches (s : State) (a : Agent) (i : Instr) (d : Nat) (run : Bool) : Prop :=
  s.hw.Takes a .CK_DOM 0 → bit d (s.hw.rd .CK_DOM 0) ≠ run →
    ((run = true → s.hw.on F.CK_PLL_LOCKED = true) → bit (4 + d) (s.hw.rd .CK_DOM 0) = false →
      ∃ h', exec i s = s.leads h' ∧ bit d (h'.rd .CK_DOM 0) = run ∧ bit (4 + d) (h'.rd .CK_DOM 0) = true ∧
        Tab.find? h'.clocks.switches d = some (s.hw.switchTick, run) ∧ s.hw.Only { h' with clocks := s.hw.clocks } [(.CK_DOM, 0)]) ∧
    (run = true → s.hw.on F.CK_PLL_LOCKED = false → exec i s = s.leads (s.hw.ckRefuse Rc.CFG_CK_UNLOCKED))

/-- Clocks and resets. START begins the PLL's lock, which takes 16,384 REFCLK cycles; a domain changes its source at an alignment mark; CLKMON takes a setting in
range. PORZ low resets the block and its rise starts the boot; WARMZ low and CK_RST.WARM ask for the ramp of a warm reset; a core reset returns a core to its reset
state; a tambour reset clears a tambour at once. -/
def Obligations.ClocksAndResetsTakeEffect : Prop :=
  (∀ (s : State) (a : Agent), s.hw.Takes a .CK_PLL 0 →
    (s.hw.onRoot = false → s.hw.on F.CK_PLL_START = false →
      ∃ h', exec (.pllStart a) s = s.leads h' ∧ h'.on F.CK_PLL_START = true ∧ h'.clocks.lockDue = some (s.hw.ticks + 44 * 16384) ∧
        s.hw.Only { h' with clocks := s.hw.clocks } [(.CK_PLL, 0)]) ∧
    (s.hw.onRoot = false →
      ∃ h', exec (.pllStop a) s = s.leads h' ∧ h'.on F.CK_PLL_START = false ∧ h'.on F.CK_PLL_LOCKED = false ∧ h'.clocks.lockDue = none ∧
        s.hw.Only { h' with clocks := s.hw.clocks } [(.CK_PLL, 0)]) ∧
    (s.hw.onRoot = true → exec (.pllStart a) s = s.leads (s.hw.ckRefuse Rc.CFG_CK_SWITCH) ∧
      exec (.pllStop a) s = s.leads (s.hw.ckRefuse Rc.CFG_CK_SWITCH))) ∧
  (∀ (s : State) (t : Nat), s.hw.clocks.lockDue = some t →
    ∃ h', exec .pllLocked s = s.leads h' ∧ t ≤ h'.ticks ∧ h'.on F.CK_PLL_LOCKED = true ∧ h'.clocks.lockDue = none) ∧
  (∀ (s : State) (a : Agent) (run : Bool), domSwitches s a (.aclkSwitch a run) 0 run ∧ domSwitches s a (.pclkSwitch a run) 1 run ∧
    domSwitches s a (.mclkSwitch a run) 2 run) ∧
  (∀ (s : State) (d t : Nat) (root : Bool), d < 3 → Tab.find? s.hw.clocks.switches d = some (t, root) →
    ∃ h', exec (.domainSwitchDone d) s = s.leads h' ∧ t ≤ h'.ticks ∧ bit (4 + d) (h'.rd .CK_DOM 0) = false ∧ Tab.find? h'.clocks.switches d = none ∧
      (if d = 0 then h'.clocks.aclk else if d = 1 then h'.clocks.pclk else h'.clocks.mclk) = root) ∧
  (∀ (s : State) (a : Agent) (v : Word), s.hw.Takes a .CK_MON 0 →
    (bits 0 4 v.toNat ≤ 7 → bits 4 5 v.toNat ≤ 17 → bits 16 16 v.toNat ≠ 0 →
      ∃ h', exec (.clockMonitorWrite a v) s = s.leads h' ∧ h'.rd .CK_MON 0 = Nat.land v.toNat 0xFFFF01FF ∧ h'.clocks.mon = Nat.land v.toNat 0xFFFF01FF ∧
        s.hw.Only { h' with clocks := s.hw.clocks } [(.CK_MON, 0)]) ∧
    (7 < bits 0 4 v.toNat ∨ 17 < bits 4 5 v.toNat ∨ bits 16 16 v.toNat = 0 →
      exec (.clockMonitorWrite a v) s = s.leads (s.hw.ckRefuse Rc.CFG_RANGE))) ∧
  (∀ s : State,
    (∃ h', exec (.porz false) s = s.leads h' ∧ h'.power.porzLow = true ∧ h'.cores = [] ∧ h'.clocks.aclk = false ∧ h'.time.beat = 0 ∧ h'.tams = [] ∧
      h'.get F.TM_CTRL_ENABLE = 0 ∧ h'.get F.PL_BOOT_PHASE = 0 ∧
      h'.get F.SC_STATE_STATE = (if s.hw.on F.SC_STATE_PENDING = true then s.hw.get F.SC_STATE_NEXT else s.hw.get F.SC_STATE_STATE)) ∧
    (s.hw.power.porzLow = true →
      exec (.porz true) s = s.leads { s.hw with power := { s.hw.power with porzLow := false, bootDue := some (s.hw.ticks + 45056) } })) ∧
  (∀ s : State, s.hw.power.porzLow = false →
    (s.hw.power.warmzLow = false → s.hw.power.sleeping = false → s.hw.power.ramp = none →
      ∃ h' r, exec (.warmz false) s = s.leads h' ∧ h'.power.warmzLow = true ∧ h'.power.ramp = some r ∧ r.goal = .warm ∧ r.cause = 1 ∧
        h'.on F.PW_STATE_BUSY = true) ∧
    (s.hw.power.warmzLow = true → ∃ h', exec (.warmz true) s = s.leads h' ∧ h'.power.warmzLow = false ∧ h'.ctl = s.hw.ctl)) ∧
  (∀ (s : State) (a : Agent), s.hw.Takes a .CK_RST 0 → s.hw.power.sleeping = false → s.hw.power.ramp = none →
    ∃ h' r, exec (.warmResetRequest a) s = s.leads h' ∧ h'.on F.CK_RST_WARM = true ∧ h'.power.ramp = some r ∧ r.goal = .warm ∧ r.cause = 2 ∧
      h'.on F.PW_STATE_BUSY = true ∧ s.hw.Only { h' with power := s.hw.power } [(.CK_RST, 0), (.PW_STATE, 0)]) ∧
  (∀ (s : State) (t : Nat), s.hw.power.bootDue = some t → s.hw.get F.PL_BOOT_CAUSE ≠ 0 →
    ∃ h', exec .warmResetBootStart s = s.leads h' ∧ t ≤ h'.ticks ∧ h'.bootPhase = 1 ∧ h'.power.bootDue = none) ∧
  (∀ (s : State) (a : Agent) (v : Word) (c : Nat), s.hw.Takes a .CK_RST 0 → c < 17 → v.toNat = 2 ^ c → c < s.hw.physCores → (s.hw.seq c).bound = false →
    ∃ h', exec (.coreReset a v) s = s.leads h' ∧ h'.core c = { inReset := false, debugHalt := (s.hw.core c).debugHalt } ∧ h'.admitted c = false ∧
      h'.on F.CR_SEQ_CTRL_ENABLE c = false ∧ (∀ d, d ≠ c → h'.core d = s.hw.core d)) ∧
  (∀ (s : State) (a : Agent) (v : Word) (t : Nat), s.hw.Takes a .CK_RSTTB 0 → t < 18 → v.toNat = 2 ^ t → s.hw.tExists t = true →
    (s.hw.tState t = 0 ∨ s.hw.tState t = 7 → exec (.tambourReset a v) s = s.leads s.hw) ∧
    (s.hw.tState t ≠ 0 → s.hw.tState t ≠ 7 → s.hw.run.on = false →
      ∃ h', exec (.tambourReset a v) s = s.leads h' ∧ h'.tState t = 7 ∧ h'.tOn t F.TB_CTRL_ENABLE = false ∧ h'.tOn t F.TB_CTRL_RELEASE = false ∧
        h'.tOn t F.TB_CTRL_STOP = false))

/-- Power states and the governor. A request that Table 15-5 allows starts its ramp, another is refused; at the ramp's end PW_STATE shows the new state, or the block sleeps;
an armed comparator wakes it, the core rail starts the boot. A falling rail resets the block. The governor is enabled on a locked clock with limits that give a
ramp; a limit is tightened in its direction, in force from the next beat; a thermal sample is noted, one at the emergency threshold throttles the arrays; a telemetry
sample that is missing at its deadline is estimated. -/
def Obligations.PowerCommandsTakeEffect : Prop :=
  (∀ (s : State) (n : Nat), n < 8 → s.hw.power.sleeping = false → s.hw.power.porzLow = false → s.hw.on F.EN_RAIL_EN n = true →
    ∃ h', exec (.railFault n) s = s.leads h' ∧ h'.get F.PL_BOOT_CAUSE = 3 ∧ h'.get F.PL_BOOT_PHASE = 0 ∧ h'.cores = [] ∧ h'.clocks.aclk = false ∧
      bit n h'.power.powerGood = false ∧ h'.get F.TM_CTRL_ENABLE = 0 ∧ (s.hw.power.warmzLow = false → h'.power.bootDue = some (h'.ticks + 45056))) ∧
  (∀ (s : State) (a : Agent), s.hw.Takes a .PW_REQ 0 → s.hw.on F.PW_STATE_BUSY = false →
    (s.hw.get F.PW_STATE_STATE = 2 → exec (.powerRequestRun a) s = s.leads (s.hw.startRamp .run 0)) ∧
    (s.hw.get F.PW_STATE_STATE < 2 → (∀ c, c < s.hw.physCores → s.hw.on F.CR_SEQ_CTRL_ENABLE c = false ∧ (s.hw.tState c = 0 ∨ s.hw.tState c = 2)) →
      exec (.powerRequestPark a) s = s.leads (s.hw.startRamp .park 0)) ∧
    (s.hw.get F.PW_STATE_STATE = 2 → (s.hw.tExists gatherTambour = false ∨ s.hw.tState gatherTambour = 0 ∨ s.hw.tState gatherTambour = 2) →
      exec (.powerRequestSleep a) s = s.leads (s.hw.startRamp .sleep 0)) ∧
    (s.hw.get F.PW_STATE_STATE ≠ 2 → exec (.powerRequestRun a) s = s.leads (s.hw.pwRefuse Rc.CFG_PW_STATE) ∧
      exec (.powerRequestSleep a) s = s.leads (s.hw.pwRefuse Rc.CFG_PW_STATE)) ∧
    (2 ≤ s.hw.get F.PW_STATE_STATE → exec (.powerRequestPark a) s = s.leads (s.hw.pwRefuse Rc.CFG_PW_STATE))) ∧
  (∀ (h : Hw) (g : RampGoal) (c : Nat),
    let h' := h.startRamp g c
    h'.on F.PW_STATE_BUSY = true ∧ (∃ r, h'.power.ramp = some r ∧ r.goal = g ∧ r.cause = c ∧ r.credits = 0) ∧
      h.Only { h' with power := h.power } [(.PW_STATE, 0)]) ∧
  (∀ (s : State) (r : Ramp), s.hw.power.ramp = some r → (s.hw.rampDone r = true ∨ s.hw.clocks.aclk = false) →
    (r.goal = .park → ∃ h', exec .rampEnd s = s.leads h' ∧ h'.get F.PW_STATE_STATE = 2 ∧ h'.on F.PW_STATE_BUSY = false ∧ h'.power.ramp = none ∧
      s.hw.Only { h' with power := s.hw.power } [(.PW_STATE, 0)]) ∧
    (r.goal = .run → ∃ h', exec .rampEnd s = s.leads h' ∧ h'.get F.PW_STATE_STATE = (if s.hw.get F.TM_STRETCH_CURRENT = 0 then 0 else 1) ∧
      h'.on F.PW_STATE_BUSY = false ∧ h'.power.ramp = none ∧ s.hw.Only { h' with power := s.hw.power } [(.PW_STATE, 0)]) ∧
    (r.goal = .sleep ∨ r.goal = .trip → ∃ h', exec .rampEnd s = s.leads h' ∧ h'.power.sleeping = true ∧ h'.power.tripped = (r.goal == .trip) ∧
      h'.keys = s.hw.keys ∧ h'.cores = [] ∧ h'.clocks.aclk = false ∧ (∀ k, h'.rd .PL_WAKE k = s.hw.rd .PL_WAKE k)) ∧
    (r.goal = .warm → ∃ h', exec .rampEnd s = s.leads h' ∧ h'.get F.PL_BOOT_CAUSE = r.cause % 16 ∧ h'.get F.PL_BOOT_PHASE = 0 ∧ h'.keys = [] ∧ h'.cores = [])) ∧
  (∀ (s : State) (k : Nat), s.hw.canWake = true → s.hw.power.waking = false →
    (k < 8 → s.hw.on F.PL_WAKE_EN k = true → s.hw.on F.PL_WAKE_FIRED k = false →
      ∃ h', exec (.wakeBeat k) s = s.leads h' ∧ h'.on F.PL_WAKE_FIRED k = true ∧ h'.get F.PL_BOOT_CAUSE = 5 ∧ h'.get F.PL_BOOT_WAKER = k ∧
        h'.power.waking = true ∧ s.hw.time.beat ≤ h'.time.beat) ∧
    (∀ x, k < 4 → s.hw.on F.PL_FRAME_EN k = true → s.hw.get F.PL_FRAME_OFFSET k + 16 ≤ x.length →
      (∀ j, j < 16 → x.getD (s.hw.get F.PL_FRAME_OFFSET k + j) 0#8 &&& (s.hw.framePattern .PL_FRAME_MASK k).getD j 0#8 =
        (s.hw.framePattern .PL_FRAME_PATTERN k).getD j 0#8 &&& (s.hw.framePattern .PL_FRAME_MASK k).getD j 0#8) →
      ∃ h', exec (.wakeFrameMatch k x) s = s.leads h' ∧ h'.on F.PL_FRAME_FIRED k = true ∧ h'.get F.PL_BOOT_CAUSE = 5 ∧ h'.get F.PL_BOOT_WAKER = 8 + k ∧
        h'.power.waking = true) ∧
    (∀ r ∈ s.hw.readings, s.hw.get F.PL_THERM_WAKE ≤ r.2 →
      ∃ h', exec .wakeThermal s = s.leads h' ∧ h'.get F.PL_BOOT_CAUSE = 5 ∧ h'.get F.PL_BOOT_WAKER = 12 ∧ h'.power.waking = true)) ∧
  (∀ s : State, s.hw.power.waking = true → s.hw.power.warmzLow = false →
    ∃ h', exec .coreRailPowerGood s = s.leads h' ∧ h'.bootPhase = 1 ∧ h'.power.waking = false ∧ h'.power.sleeping = false ∧ h'.power.tripped = false) ∧
  (∀ (s : State) (xs : List Nat), s.hw.power.sleeping = false → s.hw.power.porzLow = false →
    let h1 := s.hw.onPower (fun p => { p with thermal := (List.range 64).map (fun n => xs.getD n 0 % 256) })
    (s.hw.on F.PW_CTRL_ENABLE = false →
      ∃ h', exec (.thermalSample xs) s = s.leads h' ∧ h'.power = h1.power ∧ h'.get F.PW_TMAX_HOTTEST = h1.hottest.1 % 256 ∧
        h'.get F.PW_TMAX_SENSOR = h1.hottest.2 % 64 ∧ s.hw.Only { h' with power := s.hw.power } [(.PW_TMAX, 0)]) ∧
    (∀ r ∈ h1.readings, s.hw.on F.PW_CTRL_ENABLE = true → s.hw.on F.PW_STATUS_THROTTLE = false → (∀ x ∈ h1.readings, x.2 < s.hw.get F.PW_TTRIP_VALUE) →
      s.hw.get F.PW_TEMERG_VALUE ≤ r.2 →
      ∃ h', exec (.thermalSample xs) s = s.leads h' ∧ h'.on F.PW_STATUS_EMERG = true ∧ h'.on F.PW_STATUS_THROTTLE = true ∧
        h'.get F.PW_STATUS_REASON = Rc.PWR_THERMAL_EMERGENCY)) ∧
  (∀ (s : State) (a : Agent) (v : Word), s.hw.Takes a .PW_CTRL 0 → s.hw.on F.PW_CTRL_ENABLE = false →
    let bad := Hw.rampBad (s.hw.get F.PW_SLEW_VALUE) (s.hw.get F.PW_SWING_VALUE) s.hw.stepMa s.hw.unitMa
    (bad = false → s.hw.on F.CK_PLL_LOCKED = true → s.hw.on F.CK_DOM_ACLK_RUN = true → exec (.governorEnable a v) s = s.leads (s.hw.put F.PW_CTRL_ENABLE 1)) ∧
    (bad = true → exec (.governorEnable a v) s = s.leads (s.hw.pwRefuse Rc.CFG_PW_RAMP)) ∧
    (bad = false → (s.hw.on F.CK_PLL_LOCKED = false ∨ s.hw.on F.CK_DOM_ACLK_RUN = false) →
      exec (.governorEnable a v) s = s.leads (s.hw.pwRefuse Rc.CFG_PW_DEPENDS))) ∧
  (∀ (s : State) (a : Agent) (k x b : Nat) (r : Reg) (v : Word), Hw.limitRegs[k]? = some r → s.hw.Takes a r 0 → r ∉ [.PW_SLEW, .PW_SWING, .PW_TWARN] →
    x = v.toNat % 65536 → b = s.hw.rd r 0 / 65536 →
    Hw.rampBad (s.hw.limitNewest .PW_SLEW) (s.hw.limitNewest .PW_SWING) s.hw.stepMa s.hw.unitMa = false →
    ((if r ∈ [Reg.PW_DOWN, .PW_VMIN, .PW_SMIN] then b ≤ x else x ≤ b) →
      exec (.limitWrite a k v) s = s.leads { s.hw with power := { s.hw.power with limitNext := Tab.insert s.hw.power.limitNext r.ctorIdx x } }) ∧
    (¬(if r ∈ [Reg.PW_DOWN, .PW_VMIN, .PW_SMIN] then b ≤ x else x ≤ b) → exec (.limitWrite a k v) s = s.leads (s.hw.pwRefuse Rc.CFG_RANGE))) ∧
  (∀ (s : State) (vs as : List Nat),
    (s.hw.on F.EN_CTRL_ENABLE = true → s.hw.energy.asked = false → exec (.telemetrySample vs as) s = s.leads s.hw) ∧
    (s.hw.on F.EN_CTRL_ENABLE = false → s.hw.energy.asked = false → exec (.telemetrySample vs as) s = s.leads (s.hw.limitCheck vs as))) ∧
  (∀ s : State,
    (s.hw.energy.asked = true → 16 ≤ s.hw.time.beat % 64 →
      ∃ h', exec .telemetryDeadline s = s.leads h' ∧ h'.on F.EN_STATUS_ESTIMATED = true ∧ h'.energy.missing = s.hw.energy.missing + 1 ∧ h'.energy.asked = false ∧
        h'.energy.estimated = true ∧ (1 ≤ s.hw.energy.missing → s.hw.on F.PW_CTRL_ENABLE = true → h'.on F.PW_STATUS_TELE = true)) ∧
    (s.hw.energy.asked = false ∨ s.hw.time.beat % 64 < 16 → exec .telemetryDeadline s = s.leads s.hw))

/-! Energy. -/

/-- A split hands out exactly the energy: with a weight above 0 every entry takes the floor of its share or one more, the entries that take one more are those of
the largest remainders, in entry order among equals, and the shares add up to E; without a weight all of it goes to the overhead account. -/
def Obligations.ASplitHandsOutExactlyItsEnergy : Prop :=
  ∀ (e : Nat) (ws : Tab Nat), (ws.map (·.1)).Nodup →
    let W := ws.foldl (fun a p => a + p.2) 0
    let out := splitEnergy e ws
    out.foldl (fun a p => a + p.2) 0 = e ∧
      (W = 0 → out = [(Hw.overheadEntry, e)]) ∧
      (0 < W → out.map (·.1) = ws.map (·.1) ∧ ∀ o w, (o, w) ∈ ws → ∃ x, (o, x) ∈ out ∧ (x = e * w / W ∨ x = e * w / W + 1)) ∧
      (0 < W → ∀ o o' w w', (o, w) ∈ ws → (o', w') ∈ ws → (o, e * w / W + 1) ∈ out → (o', e * w' / W) ∈ out →
        e * w' % W < e * w % W ∨ (e * w' % W = e * w % W ∧ o < o'))

/-- The energy unit. A complete sample settles the period: its rail's energy is measured with the remainder carried; the division empties the period's weights. ENABLE with a CORE
rail and fabric time in service zeroes every account; coefficients are held for the next switch-over; EN_SIGN starts a record and its signature ends it. -/
def Obligations.EnergyCommandsTakeEffect : Prop :=
  (∀ (s : State) (v i r x : Nat), s.hw.energy.asked = true → s.hw.railsOn = [r] → v < 65536 → i < 2 ^ 32 → r < 8 → s.hw.get F.EN_RAIL_CLASS r < 4 →
    x = v * i * s.hw.energy.cycles * 10 + Tab.getD s.hw.energy.rho r 0 →
    ∃ h', exec (.telemetrySample (List.replicate 8 v) (List.replicate 8 i)) s = s.leads h' ∧ h'.get F.EN_RAIL_V_MV r = v ∧ h'.get F.EN_RAIL_I_MA r = i ∧
      h'.get F.EN_MEASURED_UJ = (s.hw.get F.EN_MEASURED_UJ + x / (11 * 10 ^ 9)) % 2 ^ 64 ∧ Tab.getD h'.energy.rho r 0 = x % (11 * 10 ^ 9) ∧
      h'.energy.byClass = [0, 0, 0, 0].set (s.hw.get F.EN_RAIL_CLASS r) (x / (11 * 10 ^ 9)) ∧ h'.energy.asked = false ∧ h'.energy.settled = true ∧
      h'.energy.missing = 0) ∧
  (∀ s : State, s.hw.clocks.aclk = true →
    (s.hw.energy.settled = false → exec .apportionment s = s.leads s.hw) ∧
    (s.hw.energy.settled = true → ∃ h', exec .apportionment s = s.leads h' ∧ h'.energy.settled = false ∧ h'.energy.before = [] ∧
      h'.energy.lastPeriod = s.hw.time.beat / 64 ∧ h'.rd .EN_OVERHEAD 0 = h'.accTotal Hw.overheadEntry false % 2 ^ 64 ∧
      h'.rd .EN_REPLAY 0 = h'.accTotal Hw.replayEntry false % 2 ^ 64)) ∧
  (∀ (s : State) (a : Agent) (v : Word), s.hw.Takes a .EN_CTRL 0 → s.hw.on F.EN_CTRL_ENABLE = false →
    ((∀ r, r < 8 → s.hw.on F.EN_RAIL_EN r = true → s.hw.get F.EN_RAIL_CLASS r ≠ 0) → exec (.energyUnitEnable a v) s = s.leads (s.hw.enRefuse Rc.CFG_EN_RAIL)) ∧
    (∀ r, r < 8 → s.hw.on F.EN_RAIL_EN r = true → s.hw.get F.EN_RAIL_CLASS r = 0 →
      ((s.hw.tmInService = false ∨ s.hw.scratchSize < s.hw.rd .EN_SIGNBUF 0 + 288) →
        exec (.energyUnitEnable a v) s = s.leads (s.hw.enRefuse Rc.CFG_EN_DEPENDS)) ∧
      (s.hw.tmInService = true → s.hw.rd .EN_SIGNBUF 0 + 288 ≤ s.hw.scratchSize →
        ∃ h', exec (.energyUnitEnable a v) s = s.leads h' ∧ h'.on F.EN_CTRL_ENABLE = true ∧ h'.rd .EN_MEASURED 0 = 0 ∧ h'.rd .EN_OVERHEAD 0 = 0 ∧
          h'.rd .EN_REPLAY 0 = 0 ∧ (∀ n, h'.rd .EN_ACCT n = 0) ∧ h'.energy.acc = [] ∧ h'.energy.now = [] ∧ h'.energy.rho = []))) ∧
  (∀ (s : State) (a : Agent) (k : Nat) (v : Word), s.hw.Takes a (if k < 16 then .EN_CAL else .EN_CAL_ID) (if k < 16 then k else 0) →
    (s.hw.get F.SC_STATE_STATE ≠ 2 → k < 12 ∨ 16 ≤ k →
      exec (.calibrationWrite a k v) s = s.leads { s.hw with energy := { s.hw.energy with calHeld := Tab.insert s.hw.energy.calHeld (min k 16) v.toNat } }) ∧
    (s.hw.get F.SC_STATE_STATE = 2 ∨ (12 ≤ k ∧ k < 16) → exec (.calibrationWrite a k v) s = s.leads s.hw)) ∧
  (∀ (s : State) (a : Agent) (v : Word) (x : Nat), s.hw.Takes a .EN_SIGN 0 → bits 16 2 v.toNat = 0 → x = bits 0 14 v.toNat →
    (s.hw.on F.EN_SIGN_GO = true → exec (.samplerSign a v) s = s.leads (s.hw.enRefuse Rc.CFG_EN_SIGN)) ∧
    (s.hw.on F.EN_SIGN_GO = false → bit 14 v.toNat = false → s.hw.get F.CTX_STATE_STATE x = 3 → Tab.find? s.hw.energy.produced x = none →
      Tab.find? s.hw.energy.commitPeriod x = none →
      ∃ h', exec (.samplerSign a v) s = s.leads h' ∧ h'.on F.EN_SIGN_GO = true ∧ h'.get F.EN_SIGN_CONTEXT = x ∧ h'.on F.EN_SIGN_BLOCK = false ∧
        (∃ body, h'.energy.signing = some (body, x)) ∧ s.hw.Only { h' with energy := s.hw.energy } [(.EN_SIGN, 0)]) ∧
    (s.hw.on F.EN_SIGN_GO = false → bit 14 v.toNat = true →
      ∃ h' body, exec (.samplerSign a v) s = s.leads h' ∧ h'.on F.EN_SIGN_GO = true ∧ h'.on F.EN_SIGN_BLOCK = true ∧
        h'.energy.signing = some (body, Hw.overheadEntry) ∧ h'.accTotal Hw.overheadEntry false = 0 ∧ h'.accTotal Hw.replayEntry false = 0)) ∧
  (∀ (s : State) (body : List Byte) (o : Nat), s.hw.clocks.aclk = true → s.hw.energy.signing = some (body, o) → body ≠ [] →
    let record := body ++ sliceBytes 0 96 (Config.deviceSign (Config.sha384 body))
    ∃ h' : Hw, exec .samplerSignDone s =
        .next { s with hw := h'.settled, mem := s.mem.write Area.block (s.hw.rd .EN_SIGNBUF 0) record } ∧
      h'.on F.EN_SIGN_GO = false ∧ h'.on F.EN_SIGN_DONE = true ∧ h'.energy.signing = none ∧ h'.energy.chainStart = false ∧
      h'.get F.EN_COUNTER_COUNT = (s.hw.get F.EN_COUNTER_COUNT + 1) % 2 ^ 64 ∧
      (∀ k, k < 12 → h'.rd .EN_LASTHASH k = bits (32 * (11 - k)) 32 (Config.sha384 record).toNat) ∧
      (o < 16384 → h'.get F.EN_ACCT_UJ (s.hw.get F.CTX_STATE_HOOP o) =
        (s.hw.get F.EN_ACCT_UJ (s.hw.get F.CTX_STATE_HOOP o) + s.hw.accTotal o true) % 2 ^ 64))

/-! Management. -/

/-- Snapshots and the management protocol. GO is taken with a list of 1 to 128 words, and the next beat's first cycle samples them into MG_SNAPBUF; a frame for this block
reaches the Keeper's inbox, another is counted. An OPEN begins a session where one of 8 is free; a CONFIRM that proves the principal derives its keys; an authentic REQUEST of
the next number is served and answered, its repetition answered from store, and any other discarded; CLOSE and 2^27 idle beats end a session. -/
def Obligations.ManagementCommandsTakeEffect : Prop :=
  (∀ (s : State) (a : Agent) (v : Word) (n : Nat), s.hw.Takes a .MG_SNAPCTRL 0 → n = bits 8 8 v.toNat →
    (s.hw.on F.MG_SNAPCTRL_GO = true → exec (.snapshotGo a v) s = s.leads (s.hw.mgRefuse Rc.CFG_CONFLICT)) ∧
    (s.hw.on F.MG_SNAPCTRL_GO = false → (n = 0 ∨ 128 < n) → exec (.snapshotGo a v) s = s.leads (s.hw.mgRefuse Rc.CFG_RANGE)) ∧
    (s.hw.on F.MG_SNAPCTRL_GO = false → 0 < n → n ≤ 128 → s.hw.rd .MG_SNAPLIST 0 + 4 * n ≤ s.hw.scratchSize →
      (∀ k, k < n → s.mem.le Area.block (s.hw.rd .MG_SNAPLIST 0 + 4 * k) 4 % 4 = 0 ∧ s.mem.le Area.block (s.hw.rd .MG_SNAPLIST 0 + 4 * k) 4 < 2 ^ 28) →
      ∃ h', exec (.snapshotGo a v) s = s.leads h' ∧ h'.on F.MG_SNAPCTRL_GO = true ∧ h'.get F.MG_SNAPCTRL_COUNT = n ∧ h'.mgmt.snapBeat = s.hw.time.beat ∧
        s.hw.Only { h' with mgmt := s.hw.mgmt } [(.MG_SNAPCTRL, 0)])) ∧
  (∀ (s : State) (n : Nat), s.hw.on F.MG_SNAPCTRL_GO = true → n = s.hw.get F.MG_SNAPCTRL_COUNT →
    (s.hw.time.beat ≤ s.hw.mgmt.snapBeat → exec .snapshotCapture s = s.leads s.hw) ∧
    (s.hw.mgmt.snapBeat < s.hw.time.beat → 0 < n →
      let words := (List.range n).flatMap (fun k => leBytes 4 (s.hw.sampleWord s.mem (s.mem.le Area.block (s.hw.rd .MG_SNAPLIST 0 + 4 * k) 4)))
      ∃ h' : Hw, exec .snapshotCapture s = .next { s with hw := h'.settled, mem := s.mem.write Area.block (s.hw.rd .MG_SNAPBUF 0) words } ∧
        h'.on F.MG_SNAPCTRL_GO = false ∧ h'.on F.MG_SNAPCTRL_DONE = true ∧ h'.rd .MG_SNAPBEAT 0 = s.hw.time.beat % 2 ^ 64 ∧
        s.hw.Only h' [(.MG_SNAPCTRL, 0), (.MG_SNAPBEAT, 0)])) ∧
  (∀ (s : State) (f : List Byte), s.hw.dictServed = true → s.hw.on F.MG_MFP_CTRL_ENABLE = true →
    let etype := leNat (((f.drop 12).take 2).reverse)
    (etype = s.hw.get F.MG_MFP_ETYPE_TYPE → 14 ≤ f.length → (f.take 6 = Dict.macBytes s.hw ∨ f.take 6 = List.replicate 6 0xFF#8) →
      exec (.mgmtFrameReceive f) s = s.leads (s.hw.onLink (fun k => { k with inbox := k.inbox ++ [{ cls := 2, src := 65536, data := f.drop 14 }] }))) ∧
    ((etype ≠ s.hw.get F.MG_MFP_ETYPE_TYPE ∨ f.length < 14 ∨ (f.take 6 ≠ Dict.macBytes s.hw ∧ f.take 6 ≠ List.replicate 6 0xFF#8)) →
      exec (.mgmtFrameReceive f) s = s.leads (s.hw.inc F.MG_MFP_DROP_COUNT))) ∧
  (∀ (s : State) (msg b : List Byte) (h1 : Hw) (src : Option Nat), s.hw.takeMgmt msg = (h1, src) → s.hw.dictServed = true → Hw.headOk 1 msg = true → b = Hw.msgBody msg →
    (b.length = 161 → leAt 0 1 b ≤ 1 → leAt 1 1 b = 0 → leAt 4 4 b = 0 → leAt 8 8 b = s.hw.build.serial → leAt 4 2 msg = 0 → s.hw.mgmt.sessions.length < 8 → src = none →
      ∃ h' x, exec (.mgmtOpen msg) s = s.leads h' ∧ Tab.find? h'.mgmt.sessions s.hw.mgmt.nextSession = some x ∧ x.tenant = (leAt 0 1 b == 1) ∧
        x.hoop = leAt 2 2 b ∧ x.lastSeq = 0 ∧ x.lastBeat = s.hw.time.beat ∧ (∃ y, x.opening = some (b, y)) ∧
        h'.mgmt.nextSession = s.hw.mgmt.nextSession % 65535 + 1 ∧ h'.ctl = s.hw.ctl) ∧
    (b.length = 161 → leAt 0 1 b ≤ 1 → leAt 1 1 b = 0 → leAt 4 4 b = 0 → leAt 8 8 b = s.hw.build.serial → leAt 4 2 msg = 0 → 8 ≤ s.hw.mgmt.sessions.length →
      exec (.mgmtOpen msg) s = s.leads (h1.reject src 0 2)) ∧
    (b.length ≠ 161 ∨ leAt 8 8 b ≠ s.hw.build.serial → exec (.mgmtOpen msg) s = s.leads (h1.reject src 0 1))) ∧
  (∀ (s : State) (msg : List Byte) (h1 : Hw) (src : Option Nat) (n : Nat), s.hw.takeMgmt msg = (h1, src) → s.hw.dictServed = true → Hw.headOk 3 msg = true →
    n = leAt 4 2 msg →
    (Tab.find? s.hw.mgmt.sessions n = none → exec (.mgmtConfirm msg) s = s.leads (h1.reject src n 1)) ∧
    (∀ x o y, Tab.find? s.hw.mgmt.sessions n = some x → x.opening = some (o, y) →
      (s.hw.confirmOk x (Config.sha384 (o ++ y)) (Hw.msgBody msg) = true →
        ∃ h' z, exec (.mgmtConfirm msg) s = s.leads h' ∧ Tab.find? h'.mgmt.sessions n = some z ∧ z.opening = none ∧ z.secret = [] ∧
          z.stationKey.length = 48 ∧ z.blockKey.length = 48 ∧ z.lastBeat = s.hw.time.beat ∧ h'.ctl = s.hw.ctl) ∧
      (s.hw.confirmOk x (Config.sha384 (o ++ y)) (Hw.msgBody msg) = false →
        exec (.mgmtConfirm msg) s = s.leads (({ h1 with mgmt := { h1.mgmt with sessions := Tab.erase h1.mgmt.sessions n } } : Hw).reject src n 1)))) ∧
  (∀ (s : State) (msg : List Byte) (h1 : Hw) (src : Option Nat) (n q : Nat), s.hw.takeMgmt msg = (h1, src) → s.hw.dictServed = true → n = leAt 4 2 msg →
    q = leAt 8 8 msg →
    (h1.authentic 4 msg = none →
      exec (.requestRead msg) s = s.leads h1.discardMsg ∧ exec (.requestWrite msg) s = s.leads h1.discardMsg ∧ exec (.requestRepeat msg) s = s.leads h1.discardMsg) ∧
    (∀ x, h1.authentic 4 msg = some x → q = x.lastSeq → q ≠ 0 → exec (.requestRepeat msg) s = s.leads (h1.answer src x.lastResponse)) ∧
    (∀ x i op, i = Instr.requestRead msg ∧ op = 1 ∨ i = Instr.requestWrite msg ∧ op = 2 → h1.authentic 4 msg = some x → q = x.lastSeq + 1 →
      (leAt 16 1 msg ≠ op → exec i s = s.leads h1.discardMsg) ∧
      (∀ body p w1, leAt 16 1 msg = op → src = none →
        Dict.serve { tenant := x.tenant, hoop := x.hoop, selector := x.selector, faultIndex := x.faultIndex } (Hw.msgBody msg) 1436 { s.work with hw := h1 } =
          some (body, p, w1) → Tab.find? w1.hw.mgmt.sessions n ≠ none →
        let m := Hw.mgMessage 5 n q body
        let m' := m ++ Hw.hashBytes (Config.hmac384 x.blockKey m)
        ∃ (h' : Hw) (z : Session), exec i s = .next (s.after { w1 with hw := h' }) ∧ h'.mgmt.reply = m' ∧ Tab.find? h'.mgmt.sessions n = some z ∧
          z.lastSeq = q ∧ z.lastResponse = m' ∧ z.lastBeat = w1.hw.time.beat ∧ h'.ctl = w1.hw.ctl)) ∧
    ((h1.authentic 6 msg).isSome = true → exec (.mgmtClose msg) s =
      s.leads { h1 with mgmt := { h1.mgmt with sessions := Tab.erase h1.mgmt.sessions n } }) ∧
    (h1.authentic 6 msg = none → exec (.mgmtClose msg) s = s.leads h1.discardMsg)) ∧
  (∀ s : State, ∃ h', exec .sessionTimeout s = s.leads h' ∧
    (∀ p, p ∈ h'.mgmt.sessions ↔ p ∈ s.hw.mgmt.sessions ∧ s.hw.time.beat < p.2.lastBeat + 2 ^ 27) ∧ { h' with mgmt := s.hw.mgmt } = s.hw)

/-! Frames. -/

/-- Commands that store nothing in the byte memories: the registers' commands but for those that zero a memory, the timers' events, the pins' and the ports' that carry no data. -/
def storesNothing : Instr → Bool
  | .plinthBeatCount _ | .beatMark _ _ _ | .trefEdge _ | .sourceMarkTimeout | .holdoverExpiry | .tmEnable _ _ | .tmDisable _ | .trimStepLong _ _ |
    .trimStepShort _ _ | .prkShadowWrite _ _ | .epochArm _ _ | .epochDisarm _ | .slackExpiry _ | .abortFlush _ | .replayReady | .spareRequest _ _ |
    .faultUnitEnable _ _ | .faultLogPop _ | .lostStreamsWrite _ _ _ | .arrayEnable _ _ _ | .arrayScrubDone _ | .arrayDisable _ _ _ |
    .arrSpareWrite _ _ _ | .treeRowTest _ _ _ | .treeAllRowsTest _ _ _ | .treeMappingVerify _ _ _ | .treeOperationDone _ _ | .drainUnitEnable _ _ _ |
    .macroUnitEnable _ _ _ | .ringTailWrite _ _ _ | .publishedCopyDone _ | .bankReloadRequest _ _ _ | .bankLoadDone _ _ | .sequencerEnable _ _ _ |
    .sequencerDisable _ _ _ | .bobbinEnable _ _ _ | .bobbinDisable _ _ _ | .blockMemoryInitDone | .cacheInvalidateDone | .correctedWriteBack |
    .errorLogPop _ | .tambourEnable _ _ _ | .tambourLoadDone _ | .tambourDisable _ _ _ | .tambourRelease _ _ | .tambourStop _ _ |
    .tambourSequenceEnd _ | .tambourClearDone _ | .activityWindowEnd _ _ | .configScrubFrame _ _ | .gatherPoolInput | .gatherSlotDeadline _ _ _ |
    .couchArrival _ _ _ _ _ _ | .syncHandSet _ _ _ | .syncUnitEnable _ _ | .syncInitDone | .queueScanVisit | .tailReadDone _ | .readyListPop _ |
    .queueEnable _ _ _ | .queueDisable _ _ _ | .queueRestart _ _ | .dispatchTake _ _ | .contextCmdWrite _ _ _ | .couchEntryReceive _ _ |
    .reassemblyTimeout | .epochNotice | .helloSend | .neighbourExpiry _ | .electionStable | .linkPortEnable _ _ _ | .linkPortDisable _ _ _ |
    .measureEnd _ | .linkDownTimeout _ | .laneFailure _ _ | .laneSwitchEffective _ | .routeTableWrite _ _ _ | .fabricAddressWrite _ _ |
    .clientBindingWrite _ _ _ | .ucieBind _ _ _ | .cpoll _ _ _ _ _ | .bootStart _ _ | .bootImageLoad _ _ _ | .dispatcherEnable _ _ |
    .dispatcherRestart _ | .keeperRestart _ | .processorMemoryUncorrectable _ | .kick _ _ | .watchdogExpiry _ | .coverWrite _ _ _ |
    .mailboxEnable _ _ _ | .want _ _ | .lostSuspect _ _ | .lost _ | .hoopOpen _ _ _ | .hoopClose _ _ _ | .hoopRangeWrite _ _ _ _ | .windowApply _ |
    .keyInstall _ _ | .keyErase _ _ | .keySweepDone _ | .lifecycleCommand _ | .dbgPermit _ | .debugLevelExpiry | .debugHalt _ | .debugResume _ |
    .dbgNonce | .idcode | .bypass | .samplePreload _ _ | .extest _ | .bootStatus | .dbgLevel | .attachInitiatorResponse _ _ _ | .pllStart _ |
    .pllStop _ | .pllLocked | .aclkSwitch _ _ | .pclkSwitch _ _ | .mclkSwitch _ _ | .domainSwitchDone _ | .clockMonitorWrite _ _ | .porz _ |
    .warmz _ | .warmResetRequest _ | .coreReset _ _ | .tambourReset _ _ | .railFault _ | .powerRequestRun _ | .powerRequestPark _ |
    .powerRequestSleep _ | .rampEnd | .wakeBeat _ | .wakeFrameMatch _ _ | .wakeThermal | .thermalSample _ | .governorEnable _ _ | .limitWrite _ _ _ |
    .telemetrySample _ _ | .telemetryDeadline | .apportionment | .energyUnitEnable _ _ | .calibrationWrite _ _ _ | .samplerSign _ _ |
    .snapshotGo _ _ | .mgmtFrameReceive _ | .mgmtOpen _ | .mgmtConfirm _ | .requestRepeat _ | .mgmtClose _ | .sessionTimeout | .warmResetBootStart |
    .coreRailPowerGood => true
  | _ => false

/-- Such a command leaves every byte of block memory, of matrix memory, of the mailboxes and of port memory as it was, and the commands that wait. -/
def Obligations.ControlCommandsKeepMemory : Prop :=
  ∀ (i : Instr) (s t : State), storesNothing i = true → exec i s = .next t →
    t.pending = s.pending ∧ ∀ area addr, t.mem.byte area addr = s.mem.byte area addr
end

