-- ==== Sys2Proof/Laws/State.lean ====
section
/-! SUPPORT. What each update of the state leaves of each field, true by unfolding, for simp. -/

namespace Sys2Proof.Machine

/-! An effect and the state it leaves. -/

@[simp] theorem State.after_pending (s : State) (w : Work) : (s.after w).pending = s.pending := rfl
@[simp] theorem State.after_hw (s : State) (w : Work) : (s.after w).hw = w.hw.settled := rfl
@[simp] theorem State.after_mem (s : State) (w : Work) : (s.after w).mem = w.writes.foldl MemWrite.apply s.mem := rfl
@[simp] theorem State.work_hw (s : State) : s.work.hw = s.hw := rfl
@[simp] theorem State.work_mem (s : State) : s.work.mem = s.mem := rfl
@[simp] theorem State.work_writes (s : State) : s.work.writes = [] := rfl
@[simp] theorem Work.onHw_hw (w : Work) (f : Hw → Hw) : (w.onHw f).hw = f w.hw := rfl
@[simp] theorem Work.onHw_mem (w : Work) (f : Hw → Hw) : (w.onHw f).mem = w.mem := rfl
@[simp] theorem Work.onHw_writes (w : Work) (f : Hw → Hw) : (w.onHw f).writes = w.writes := rfl
@[simp] theorem Work.onHwMem_hw (w : Work) (f : Mem → Hw → Hw) : (w.onHwMem f).hw = f w.mem w.hw := rfl
@[simp] theorem Work.onHwMem_mem (w : Work) (f : Mem → Hw → Hw) : (w.onHwMem f).mem = w.mem := rfl
@[simp] theorem Work.onHwMem_writes (w : Work) (f : Mem → Hw → Hw) : (w.onHwMem f).writes = w.writes := rfl
@[simp] theorem Work.write_hw (w : Work) (x : MemWrite) : (w.write x).hw = w.hw := rfl
@[simp] theorem Work.write_mem (w : Work) (x : MemWrite) : (w.write x).mem = x.apply w.mem := rfl
@[simp] theorem Work.write_writes (w : Work) (x : MemWrite) : (w.write x).writes = w.writes ++ [x] := rfl

namespace Hw

/-! A register written. -/

@[simp] theorem wr_build (h : Hw) (r : Reg) (i v : Nat) : (h.wr r i v).build = h.build := rfl
@[simp] theorem wr_integ (h : Hw) (r : Reg) (i v : Nat) : (h.wr r i v).integ = h.integ := rfl
@[simp] theorem wr_ticks (h : Hw) (r : Reg) (i v : Nat) : (h.wr r i v).ticks = h.ticks := rfl
@[simp] theorem wr_draws (h : Hw) (r : Reg) (i v : Nat) : (h.wr r i v).draws = h.draws := rfl
@[simp] theorem wr_holding (h : Hw) (r : Reg) (i v : Nat) : (h.wr r i v).holding = h.holding := rfl
@[simp] theorem wr_time (h : Hw) (r : Reg) (i v : Nat) : (h.wr r i v).time = h.time := rfl
@[simp] theorem wr_run (h : Hw) (r : Reg) (i v : Nat) : (h.wr r i v).run = h.run := rfl
@[simp] theorem wr_ab (h : Hw) (r : Reg) (i v : Nat) : (h.wr r i v).ab = h.ab := rfl
@[simp] theorem wr_faultLog (h : Hw) (r : Reg) (i v : Nat) : (h.wr r i v).faultLog = h.faultLog := rfl
@[simp] theorem wr_spare (h : Hw) (r : Reg) (i v : Nat) : (h.wr r i v).spare = h.spare := rfl
@[simp] theorem wr_clocks (h : Hw) (r : Reg) (i v : Nat) : (h.wr r i v).clocks = h.clocks := rfl
@[simp] theorem wr_power (h : Hw) (r : Reg) (i v : Nat) : (h.wr r i v).power = h.power := rfl
@[simp] theorem wr_switchWhole (h : Hw) (r : Reg) (i v : Nat) : (h.wr r i v).switchWhole = h.switchWhole := rfl
@[simp] theorem wr_cores (h : Hw) (r : Reg) (i v : Nat) : (h.wr r i v).cores = h.cores := rfl
@[simp] theorem wr_runNumber (h : Hw) (r : Reg) (i v : Nat) : (h.wr r i v).runNumber = h.runNumber := rfl
@[simp] theorem wr_ctxNext (h : Hw) (r : Reg) (i v : Nat) : (h.wr r i v).ctxNext = h.ctxNext := rfl
@[simp] theorem wr_bmInitDue (h : Hw) (r : Reg) (i v : Nat) : (h.wr r i v).bmInitDue = h.bmInitDue := rfl
@[simp] theorem wr_mmInitDue (h : Hw) (r : Reg) (i v : Nat) : (h.wr r i v).mmInitDue = h.mmInitDue := rfl
@[simp] theorem wr_invalDue (h : Hw) (r : Reg) (i v : Nat) : (h.wr r i v).invalDue = h.invalDue := rfl
@[simp] theorem wr_cache (h : Hw) (r : Reg) (i v : Nat) : (h.wr r i v).cache = h.cache := rfl
@[simp] theorem wr_plru (h : Hw) (r : Reg) (i v : Nat) : (h.wr r i v).plru = h.plru := rfl
@[simp] theorem wr_keySweep (h : Hw) (r : Reg) (i v : Nat) : (h.wr r i v).keySweep = h.keySweep := rfl
@[simp] theorem wr_errLog (h : Hw) (r : Reg) (i v : Nat) : (h.wr r i v).errLog = h.errLog := rfl
@[simp] theorem wr_badWords (h : Hw) (r : Reg) (i v : Nat) : (h.wr r i v).badWords = h.badWords := rfl
@[simp] theorem wr_writeBacks (h : Hw) (r : Reg) (i v : Nat) : (h.wr r i v).writeBacks = h.writeBacks := rfl
@[simp] theorem wr_txns (h : Hw) (r : Reg) (i v : Nat) : (h.wr r i v).txns = h.txns := rfl
@[simp] theorem wr_portKeys (h : Hw) (r : Reg) (i v : Nat) : (h.wr r i v).portKeys = h.portKeys := rfl
@[simp] theorem wr_scrubAt (h : Hw) (r : Reg) (i v : Nat) : (h.wr r i v).scrubAt = h.scrubAt := rfl
@[simp] theorem wr_ctHeld (h : Hw) (r : Reg) (i v : Nat) : (h.wr r i v).ctHeld = h.ctHeld := rfl
@[simp] theorem wr_windows (h : Hw) (r : Reg) (i v : Nat) : (h.wr r i v).windows = h.windows := rfl
@[simp] theorem wr_windowsHeld (h : Hw) (r : Reg) (i v : Nat) : (h.wr r i v).windowsHeld = h.windowsHeld := rfl
@[simp] theorem wr_keys (h : Hw) (r : Reg) (i v : Nat) : (h.wr r i v).keys = h.keys := rfl
@[simp] theorem wr_keysHeld (h : Hw) (r : Reg) (i v : Nat) : (h.wr r i v).keysHeld = h.keysHeld := rfl
@[simp] theorem wr_hoopHeld (h : Hw) (r : Reg) (i v : Nat) : (h.wr r i v).hoopHeld = h.hoopHeld := rfl
@[simp] theorem wr_syncIncs (h : Hw) (r : Reg) (i v : Nat) : (h.wr r i v).syncIncs = h.syncIncs := rfl
@[simp] theorem wr_takesNow (h : Hw) (r : Reg) (i v : Nat) : (h.wr r i v).takesNow = h.takesNow := rfl
@[simp] theorem wr_couchPending (h : Hw) (r : Reg) (i v : Nat) : (h.wr r i v).couchPending = h.couchPending := rfl
@[simp] theorem wr_syncInitDue (h : Hw) (r : Reg) (i v : Nat) : (h.wr r i v).syncInitDue = h.syncInitDue := rfl
@[simp] theorem wr_couchOut (h : Hw) (r : Reg) (i v : Nat) : (h.wr r i v).couchOut = h.couchOut := rfl
@[simp] theorem wr_routeNext (h : Hw) (r : Reg) (i v : Nat) : (h.wr r i v).routeNext = h.routeNext := rfl
@[simp] theorem wr_debugged (h : Hw) (r : Reg) (i v : Nat) : (h.wr r i v).debugged = h.debugged := rfl
@[simp] theorem wr_rxSlots (h : Hw) (r : Reg) (i v : Nat) : (h.wr r i v).rxSlots = h.rxSlots := rfl
@[simp] theorem wr_rxMoving (h : Hw) (r : Reg) (i v : Nat) : (h.wr r i v).rxMoving = h.rxMoving := rfl
@[simp] theorem wr_txSlots (h : Hw) (r : Reg) (i v : Nat) : (h.wr r i v).txSlots = h.txSlots := rfl
@[simp] theorem wr_poolRows (h : Hw) (r : Reg) (i v : Nat) : (h.wr r i v).poolRows = h.poolRows := rfl
@[simp] theorem wr_combineSent (h : Hw) (r : Reg) (i v : Nat) : (h.wr r i v).combineSent = h.combineSent := rfl
@[simp] theorem wr_energy (h : Hw) (r : Reg) (i v : Nat) : (h.wr r i v).energy = h.energy := rfl
@[simp] theorem wr_tap (h : Hw) (r : Reg) (i v : Nat) : (h.wr r i v).tap = h.tap := rfl
@[simp] theorem wr_readBack (h : Hw) (r : Reg) (i v : Nat) : (h.wr r i v).readBack = h.readBack := rfl
@[simp] theorem wr_submit (h : Hw) (r : Reg) (i v : Nat) : (h.wr r i v).submit = h.submit := rfl
@[simp] theorem wr_tams (h : Hw) (r : Reg) (i v : Nat) : (h.wr r i v).tams = h.tams := rfl
@[simp] theorem wr_admitNext (h : Hw) (r : Reg) (i v : Nat) : (h.wr r i v).admitNext = h.admitNext := rfl
@[simp] theorem wr_scrubbed (h : Hw) (r : Reg) (i v : Nat) : (h.wr r i v).scrubbed = h.scrubbed := rfl
@[simp] theorem wr_zeroed (h : Hw) (r : Reg) (i v : Nat) : (h.wr r i v).zeroed = h.zeroed := rfl
@[simp] theorem wr_link (h : Hw) (r : Reg) (i v : Nat) : (h.wr r i v).link = h.link := rfl
@[simp] theorem wr_procs (h : Hw) (r : Reg) (i v : Nat) : (h.wr r i v).procs = h.procs := rfl
@[simp] theorem wr_mgmt (h : Hw) (r : Reg) (i v : Nat) : (h.wr r i v).mgmt = h.mgmt := rfl

/-! A field written. -/

@[simp] theorem put_build (h : Hw) (f : Fld) (v i : Nat) : (h.put f v i).build = h.build := rfl
@[simp] theorem put_integ (h : Hw) (f : Fld) (v i : Nat) : (h.put f v i).integ = h.integ := rfl
@[simp] theorem put_ticks (h : Hw) (f : Fld) (v i : Nat) : (h.put f v i).ticks = h.ticks := rfl
@[simp] theorem put_draws (h : Hw) (f : Fld) (v i : Nat) : (h.put f v i).draws = h.draws := rfl
@[simp] theorem put_holding (h : Hw) (f : Fld) (v i : Nat) : (h.put f v i).holding = h.holding := rfl
@[simp] theorem put_time (h : Hw) (f : Fld) (v i : Nat) : (h.put f v i).time = h.time := rfl
@[simp] theorem put_run (h : Hw) (f : Fld) (v i : Nat) : (h.put f v i).run = h.run := rfl
@[simp] theorem put_ab (h : Hw) (f : Fld) (v i : Nat) : (h.put f v i).ab = h.ab := rfl
@[simp] theorem put_faultLog (h : Hw) (f : Fld) (v i : Nat) : (h.put f v i).faultLog = h.faultLog := rfl
@[simp] theorem put_spare (h : Hw) (f : Fld) (v i : Nat) : (h.put f v i).spare = h.spare := rfl
@[simp] theorem put_clocks (h : Hw) (f : Fld) (v i : Nat) : (h.put f v i).clocks = h.clocks := rfl
@[simp] theorem put_power (h : Hw) (f : Fld) (v i : Nat) : (h.put f v i).power = h.power := rfl
@[simp] theorem put_switchWhole (h : Hw) (f : Fld) (v i : Nat) : (h.put f v i).switchWhole = h.switchWhole := rfl
@[simp] theorem put_cores (h : Hw) (f : Fld) (v i : Nat) : (h.put f v i).cores = h.cores := rfl
@[simp] theorem put_runNumber (h : Hw) (f : Fld) (v i : Nat) : (h.put f v i).runNumber = h.runNumber := rfl
@[simp] theorem put_ctxNext (h : Hw) (f : Fld) (v i : Nat) : (h.put f v i).ctxNext = h.ctxNext := rfl
@[simp] theorem put_bmInitDue (h : Hw) (f : Fld) (v i : Nat) : (h.put f v i).bmInitDue = h.bmInitDue := rfl
@[simp] theorem put_mmInitDue (h : Hw) (f : Fld) (v i : Nat) : (h.put f v i).mmInitDue = h.mmInitDue := rfl
@[simp] theorem put_invalDue (h : Hw) (f : Fld) (v i : Nat) : (h.put f v i).invalDue = h.invalDue := rfl
@[simp] theorem put_cache (h : Hw) (f : Fld) (v i : Nat) : (h.put f v i).cache = h.cache := rfl
@[simp] theorem put_plru (h : Hw) (f : Fld) (v i : Nat) : (h.put f v i).plru = h.plru := rfl
@[simp] theorem put_keySweep (h : Hw) (f : Fld) (v i : Nat) : (h.put f v i).keySweep = h.keySweep := rfl
@[simp] theorem put_errLog (h : Hw) (f : Fld) (v i : Nat) : (h.put f v i).errLog = h.errLog := rfl
@[simp] theorem put_badWords (h : Hw) (f : Fld) (v i : Nat) : (h.put f v i).badWords = h.badWords := rfl
@[simp] theorem put_writeBacks (h : Hw) (f : Fld) (v i : Nat) : (h.put f v i).writeBacks = h.writeBacks := rfl
@[simp] theorem put_txns (h : Hw) (f : Fld) (v i : Nat) : (h.put f v i).txns = h.txns := rfl
@[simp] theorem put_portKeys (h : Hw) (f : Fld) (v i : Nat) : (h.put f v i).portKeys = h.portKeys := rfl
@[simp] theorem put_scrubAt (h : Hw) (f : Fld) (v i : Nat) : (h.put f v i).scrubAt = h.scrubAt := rfl
@[simp] theorem put_ctHeld (h : Hw) (f : Fld) (v i : Nat) : (h.put f v i).ctHeld = h.ctHeld := rfl
@[simp] theorem put_windows (h : Hw) (f : Fld) (v i : Nat) : (h.put f v i).windows = h.windows := rfl
@[simp] theorem put_windowsHeld (h : Hw) (f : Fld) (v i : Nat) : (h.put f v i).windowsHeld = h.windowsHeld := rfl
@[simp] theorem put_keys (h : Hw) (f : Fld) (v i : Nat) : (h.put f v i).keys = h.keys := rfl
@[simp] theorem put_keysHeld (h : Hw) (f : Fld) (v i : Nat) : (h.put f v i).keysHeld = h.keysHeld := rfl
@[simp] theorem put_hoopHeld (h : Hw) (f : Fld) (v i : Nat) : (h.put f v i).hoopHeld = h.hoopHeld := rfl
@[simp] theorem put_syncIncs (h : Hw) (f : Fld) (v i : Nat) : (h.put f v i).syncIncs = h.syncIncs := rfl
@[simp] theorem put_takesNow (h : Hw) (f : Fld) (v i : Nat) : (h.put f v i).takesNow = h.takesNow := rfl
@[simp] theorem put_couchPending (h : Hw) (f : Fld) (v i : Nat) : (h.put f v i).couchPending = h.couchPending := rfl
@[simp] theorem put_syncInitDue (h : Hw) (f : Fld) (v i : Nat) : (h.put f v i).syncInitDue = h.syncInitDue := rfl
@[simp] theorem put_couchOut (h : Hw) (f : Fld) (v i : Nat) : (h.put f v i).couchOut = h.couchOut := rfl
@[simp] theorem put_routeNext (h : Hw) (f : Fld) (v i : Nat) : (h.put f v i).routeNext = h.routeNext := rfl
@[simp] theorem put_debugged (h : Hw) (f : Fld) (v i : Nat) : (h.put f v i).debugged = h.debugged := rfl
@[simp] theorem put_rxSlots (h : Hw) (f : Fld) (v i : Nat) : (h.put f v i).rxSlots = h.rxSlots := rfl
@[simp] theorem put_rxMoving (h : Hw) (f : Fld) (v i : Nat) : (h.put f v i).rxMoving = h.rxMoving := rfl
@[simp] theorem put_txSlots (h : Hw) (f : Fld) (v i : Nat) : (h.put f v i).txSlots = h.txSlots := rfl
@[simp] theorem put_poolRows (h : Hw) (f : Fld) (v i : Nat) : (h.put f v i).poolRows = h.poolRows := rfl
@[simp] theorem put_combineSent (h : Hw) (f : Fld) (v i : Nat) : (h.put f v i).combineSent = h.combineSent := rfl
@[simp] theorem put_energy (h : Hw) (f : Fld) (v i : Nat) : (h.put f v i).energy = h.energy := rfl
@[simp] theorem put_tap (h : Hw) (f : Fld) (v i : Nat) : (h.put f v i).tap = h.tap := rfl
@[simp] theorem put_readBack (h : Hw) (f : Fld) (v i : Nat) : (h.put f v i).readBack = h.readBack := rfl
@[simp] theorem put_submit (h : Hw) (f : Fld) (v i : Nat) : (h.put f v i).submit = h.submit := rfl
@[simp] theorem put_tams (h : Hw) (f : Fld) (v i : Nat) : (h.put f v i).tams = h.tams := rfl
@[simp] theorem put_admitNext (h : Hw) (f : Fld) (v i : Nat) : (h.put f v i).admitNext = h.admitNext := rfl
@[simp] theorem put_scrubbed (h : Hw) (f : Fld) (v i : Nat) : (h.put f v i).scrubbed = h.scrubbed := rfl
@[simp] theorem put_zeroed (h : Hw) (f : Fld) (v i : Nat) : (h.put f v i).zeroed = h.zeroed := rfl
@[simp] theorem put_link (h : Hw) (f : Fld) (v i : Nat) : (h.put f v i).link = h.link := rfl
@[simp] theorem put_procs (h : Hw) (f : Fld) (v i : Nat) : (h.put f v i).procs = h.procs := rfl
@[simp] theorem put_mgmt (h : Hw) (f : Fld) (v i : Nat) : (h.put f v i).mgmt = h.mgmt := rfl

/-! A core changed. -/

@[simp] theorem onCore_build (h : Hw) (c : Nat) (f : Core → Core) : (h.onCore c f).build = h.build := rfl
@[simp] theorem onCore_integ (h : Hw) (c : Nat) (f : Core → Core) : (h.onCore c f).integ = h.integ := rfl
@[simp] theorem onCore_ticks (h : Hw) (c : Nat) (f : Core → Core) : (h.onCore c f).ticks = h.ticks := rfl
@[simp] theorem onCore_draws (h : Hw) (c : Nat) (f : Core → Core) : (h.onCore c f).draws = h.draws := rfl
@[simp] theorem onCore_ctl (h : Hw) (c : Nat) (f : Core → Core) : (h.onCore c f).ctl = h.ctl := rfl
@[simp] theorem onCore_holding (h : Hw) (c : Nat) (f : Core → Core) : (h.onCore c f).holding = h.holding := rfl
@[simp] theorem onCore_time (h : Hw) (c : Nat) (f : Core → Core) : (h.onCore c f).time = h.time := rfl
@[simp] theorem onCore_run (h : Hw) (c : Nat) (f : Core → Core) : (h.onCore c f).run = h.run := rfl
@[simp] theorem onCore_ab (h : Hw) (c : Nat) (f : Core → Core) : (h.onCore c f).ab = h.ab := rfl
@[simp] theorem onCore_faultLog (h : Hw) (c : Nat) (f : Core → Core) : (h.onCore c f).faultLog = h.faultLog := rfl
@[simp] theorem onCore_spare (h : Hw) (c : Nat) (f : Core → Core) : (h.onCore c f).spare = h.spare := rfl
@[simp] theorem onCore_clocks (h : Hw) (c : Nat) (f : Core → Core) : (h.onCore c f).clocks = h.clocks := rfl
@[simp] theorem onCore_power (h : Hw) (c : Nat) (f : Core → Core) : (h.onCore c f).power = h.power := rfl
@[simp] theorem onCore_switchWhole (h : Hw) (c : Nat) (f : Core → Core) : (h.onCore c f).switchWhole = h.switchWhole := rfl
@[simp] theorem onCore_runNumber (h : Hw) (c : Nat) (f : Core → Core) : (h.onCore c f).runNumber = h.runNumber := rfl
@[simp] theorem onCore_ctxNext (h : Hw) (c : Nat) (f : Core → Core) : (h.onCore c f).ctxNext = h.ctxNext := rfl
@[simp] theorem onCore_bmInitDue (h : Hw) (c : Nat) (f : Core → Core) : (h.onCore c f).bmInitDue = h.bmInitDue := rfl
@[simp] theorem onCore_mmInitDue (h : Hw) (c : Nat) (f : Core → Core) : (h.onCore c f).mmInitDue = h.mmInitDue := rfl
@[simp] theorem onCore_invalDue (h : Hw) (c : Nat) (f : Core → Core) : (h.onCore c f).invalDue = h.invalDue := rfl
@[simp] theorem onCore_cache (h : Hw) (c : Nat) (f : Core → Core) : (h.onCore c f).cache = h.cache := rfl
@[simp] theorem onCore_plru (h : Hw) (c : Nat) (f : Core → Core) : (h.onCore c f).plru = h.plru := rfl
@[simp] theorem onCore_keySweep (h : Hw) (c : Nat) (f : Core → Core) : (h.onCore c f).keySweep = h.keySweep := rfl
@[simp] theorem onCore_errLog (h : Hw) (c : Nat) (f : Core → Core) : (h.onCore c f).errLog = h.errLog := rfl
@[simp] theorem onCore_badWords (h : Hw) (c : Nat) (f : Core → Core) : (h.onCore c f).badWords = h.badWords := rfl
@[simp] theorem onCore_writeBacks (h : Hw) (c : Nat) (f : Core → Core) : (h.onCore c f).writeBacks = h.writeBacks := rfl
@[simp] theorem onCore_txns (h : Hw) (c : Nat) (f : Core → Core) : (h.onCore c f).txns = h.txns := rfl
@[simp] theorem onCore_portKeys (h : Hw) (c : Nat) (f : Core → Core) : (h.onCore c f).portKeys = h.portKeys := rfl
@[simp] theorem onCore_scrubAt (h : Hw) (c : Nat) (f : Core → Core) : (h.onCore c f).scrubAt = h.scrubAt := rfl
@[simp] theorem onCore_ctHeld (h : Hw) (c : Nat) (f : Core → Core) : (h.onCore c f).ctHeld = h.ctHeld := rfl
@[simp] theorem onCore_windows (h : Hw) (c : Nat) (f : Core → Core) : (h.onCore c f).windows = h.windows := rfl
@[simp] theorem onCore_windowsHeld (h : Hw) (c : Nat) (f : Core → Core) : (h.onCore c f).windowsHeld = h.windowsHeld := rfl
@[simp] theorem onCore_keys (h : Hw) (c : Nat) (f : Core → Core) : (h.onCore c f).keys = h.keys := rfl
@[simp] theorem onCore_keysHeld (h : Hw) (c : Nat) (f : Core → Core) : (h.onCore c f).keysHeld = h.keysHeld := rfl
@[simp] theorem onCore_hoopHeld (h : Hw) (c : Nat) (f : Core → Core) : (h.onCore c f).hoopHeld = h.hoopHeld := rfl
@[simp] theorem onCore_syncIncs (h : Hw) (c : Nat) (f : Core → Core) : (h.onCore c f).syncIncs = h.syncIncs := rfl
@[simp] theorem onCore_takesNow (h : Hw) (c : Nat) (f : Core → Core) : (h.onCore c f).takesNow = h.takesNow := rfl
@[simp] theorem onCore_couchPending (h : Hw) (c : Nat) (f : Core → Core) : (h.onCore c f).couchPending = h.couchPending := rfl
@[simp] theorem onCore_syncInitDue (h : Hw) (c : Nat) (f : Core → Core) : (h.onCore c f).syncInitDue = h.syncInitDue := rfl
@[simp] theorem onCore_couchOut (h : Hw) (c : Nat) (f : Core → Core) : (h.onCore c f).couchOut = h.couchOut := rfl
@[simp] theorem onCore_routeNext (h : Hw) (c : Nat) (f : Core → Core) : (h.onCore c f).routeNext = h.routeNext := rfl
@[simp] theorem onCore_debugged (h : Hw) (c : Nat) (f : Core → Core) : (h.onCore c f).debugged = h.debugged := rfl
@[simp] theorem onCore_rxSlots (h : Hw) (c : Nat) (f : Core → Core) : (h.onCore c f).rxSlots = h.rxSlots := rfl
@[simp] theorem onCore_rxMoving (h : Hw) (c : Nat) (f : Core → Core) : (h.onCore c f).rxMoving = h.rxMoving := rfl
@[simp] theorem onCore_txSlots (h : Hw) (c : Nat) (f : Core → Core) : (h.onCore c f).txSlots = h.txSlots := rfl
@[simp] theorem onCore_poolRows (h : Hw) (c : Nat) (f : Core → Core) : (h.onCore c f).poolRows = h.poolRows := rfl
@[simp] theorem onCore_combineSent (h : Hw) (c : Nat) (f : Core → Core) : (h.onCore c f).combineSent = h.combineSent := rfl
@[simp] theorem onCore_energy (h : Hw) (c : Nat) (f : Core → Core) : (h.onCore c f).energy = h.energy := rfl
@[simp] theorem onCore_tap (h : Hw) (c : Nat) (f : Core → Core) : (h.onCore c f).tap = h.tap := rfl
@[simp] theorem onCore_readBack (h : Hw) (c : Nat) (f : Core → Core) : (h.onCore c f).readBack = h.readBack := rfl
@[simp] theorem onCore_submit (h : Hw) (c : Nat) (f : Core → Core) : (h.onCore c f).submit = h.submit := rfl
@[simp] theorem onCore_tams (h : Hw) (c : Nat) (f : Core → Core) : (h.onCore c f).tams = h.tams := rfl
@[simp] theorem onCore_admitNext (h : Hw) (c : Nat) (f : Core → Core) : (h.onCore c f).admitNext = h.admitNext := rfl
@[simp] theorem onCore_scrubbed (h : Hw) (c : Nat) (f : Core → Core) : (h.onCore c f).scrubbed = h.scrubbed := rfl
@[simp] theorem onCore_zeroed (h : Hw) (c : Nat) (f : Core → Core) : (h.onCore c f).zeroed = h.zeroed := rfl
@[simp] theorem onCore_link (h : Hw) (c : Nat) (f : Core → Core) : (h.onCore c f).link = h.link := rfl
@[simp] theorem onCore_procs (h : Hw) (c : Nat) (f : Core → Core) : (h.onCore c f).procs = h.procs := rfl
@[simp] theorem onCore_mgmt (h : Hw) (c : Nat) (f : Core → Core) : (h.onCore c f).mgmt = h.mgmt := rfl

@[simp] theorem rd_setAb (h : Hw) (x : AbortState) (r : Reg) (i : Nat) : (h.setAb x).rd r i = h.rd r i := rfl
@[simp] theorem get_setAb (h : Hw) (x : AbortState) (f : Fld) (i : Nat) : (h.setAb x).get f i = h.get f i := rfl
@[simp] theorem rd_setRun (h : Hw) (x : Run) (r : Reg) (i : Nat) : (h.setRun x).rd r i = h.rd r i := rfl
@[simp] theorem get_setRun (h : Hw) (x : Run) (f : Fld) (i : Nat) : (h.setRun x).get f i = h.get f i := rfl
@[simp] theorem rd_setFaultLog (h : Hw) (x : List FaultEntry) (r : Reg) (i : Nat) : (h.setFaultLog x).rd r i = h.rd r i := rfl
@[simp] theorem get_setFaultLog (h : Hw) (x : List FaultEntry) (f : Fld) (i : Nat) : (h.setFaultLog x).get f i = h.get f i := rfl
@[simp] theorem setAb_ab (h : Hw) (x : AbortState) : (h.setAb x).ab = x := rfl
@[simp] theorem setAb_run (h : Hw) (x : AbortState) : (h.setAb x).run = h.run := rfl
@[simp] theorem setAb_faultLog (h : Hw) (x : AbortState) : (h.setAb x).faultLog = h.faultLog := rfl
@[simp] theorem setRun_run (h : Hw) (x : Run) : (h.setRun x).run = x := rfl
@[simp] theorem setRun_ab (h : Hw) (x : Run) : (h.setRun x).ab = h.ab := rfl
@[simp] theorem setRun_faultLog (h : Hw) (x : Run) : (h.setRun x).faultLog = h.faultLog := rfl
@[simp] theorem setFaultLog_run (h : Hw) (x : List FaultEntry) : (h.setFaultLog x).run = h.run := rfl
@[simp] theorem setFaultLog_ab (h : Hw) (x : List FaultEntry) : (h.setFaultLog x).ab = h.ab := rfl
@[simp] theorem setFaultLog_faultLog (h : Hw) (x : List FaultEntry) : (h.setFaultLog x).faultLog = x := rfl

end Hw

end Sys2Proof.Machine
end

