-- ==== Sys2Proof/Laws/Control.lean ====
section
/-! SUPPORT. The shared operations between a command and its effect: a register write by name, what falls due by itself, and the units that move on. -/

namespace Sys2Proof.Machine

/-- A command whose effect touches the hardware alone leads to that hardware. -/
theorem State.answers_onHw (s : State) (f : Hw → Hw) : s.answers (fun w => w.onHw f) = s.leads (f s.hw) := rfl

theorem State.answers_onHwMem (s : State) (f : Mem → Hw → Hw) : s.answers (fun w => w.onHwMem f) = s.leads (f s.mem s.hw) := rfl

/-- A write that the register takes has the register's effect. -/
theorem Hw.guarded_of_takes (w : Work) (a : Agent) (r : Reg) (i : Nat) (f : Work → Work) (h : w.hw.Takes a r i) : Hw.guarded a r i f w = f w := by
  obtain ⟨h1, h2, h3, h4, h5⟩ := h
  unfold Hw.guarded
  have hd : (a == .debug && !w.hw.mayDebug true (some { reg := r, idx := i, outer := i, hi := false })) = false := by
    cases a <;> simp_all
  simp [h1, h3, h5, hd, Nat.not_le.mpr h2]

theorem Hw.writeNamed_of_takes (w : Work) (a : Agent) (r : Reg) (i v : Nat) (h : w.hw.Takes a r i) :
    Hw.writeNamed a r i v w = Hw.regWrite a { reg := r, idx := i, outer := i, hi := false } (v % 2 ^ 32) 0 w :=
  Hw.guarded_of_takes w a r i _ h

/-- A register's write that touches the hardware alone leads to that hardware. -/
theorem State.answers_writeNamed (s : State) (a : Agent) (r : Reg) (i v : Nat) (f : Hw → Hw) (h : s.hw.Takes a r i)
    (hf : Hw.regWrite a { reg := r, idx := i, outer := i, hi := false } (v % 2 ^ 32) 0 s.work = s.work.onHw f) :
    s.answers (Hw.writeNamed a r i v) = s.leads (f s.hw) := by
  unfold State.answers
  rw [Hw.writeNamed_of_takes _ _ _ _ _ h, hf]
  rfl

/-! Where a command acts. -/

theorem clocked_of (f : Work → Work) (w : Work) (ha : w.hw.clocks.aclk = true) : clocked f w = f w := by
  unfold clocked; rw [ha]; rfl

theorem atCore_of (c : Nat) (f : Work → Work) (w : Work) (ha : w.hw.clocks.aclk = true) (hc : c < w.hw.physCores) : atCore c f w = f w := by
  unfold atCore; simp [ha, hc]

theorem atLink_of (p : Nat) (f : Work → Work) (w : Work) (ha : w.hw.clocks.aclk = true) (hp : p < w.hw.build.linkports) : atLink p f w = f w := by
  unfold atLink; simp [ha, hp]

theorem atPort_of (p : Nat) (f : Work → Work) (w : Work) (ha : w.hw.clocks.aclk = true) (hp : p < w.hw.build.memports) : atPort p f w = f w := by
  unfold atPort; simp [ha, hp]

theorem atTambour_of (t : Nat) (f : Work → Work) (w : Work) (ha : w.hw.clocks.aclk = true) (ht : w.hw.tExists t = true) : atTambour t f w = f w := by
  unfold atTambour; simp [ha, ht]

theorem byFirmware_of (keeper : Bool) (f : Work → Work) (w : Work) (ha : w.hw.clocks.aclk = true) (hr : w.hw.runs keeper = true) :
    byFirmware keeper f w = f w := by
  unfold byFirmware; simp [ha, hr]

/-- A command that changes the hardware where it acts leads to that hardware. -/
theorem State.answers_of (s : State) (f : Work → Work) (g : Work → Work) (h' : Hw) (hf : f s.work = g s.work) (hg : (g s.work) = { s.work with hw := h' }) :
    s.answers f = s.leads h' := by
  unfold State.answers
  rw [hf, hg]
  rfl

/-! What falls due by itself. -/

theorem Tab.find?_mem {α : Type} (t : Tab α) (i : Nat) (v : α) (h : Tab.find? t i = some v) : (i, v) ∈ t := by
  induction t with
  | nil => cases h
  | cons p t ih =>
    obtain ⟨k, x⟩ := p
    simp only [Tab.find?] at h
    split at h
    · rename_i hk
      have : i = k := by simpa using hk
      subst this
      cases h
      exact List.mem_cons_self
    · exact List.mem_cons_of_mem _ (ih h)

/-- What holds of every core in the table, and of a core in its reset state, holds of every core. -/
theorem Hw.core_of_all (P : Core → Prop) (h : Hw) (h0 : P {}) (ha : ∀ p ∈ h.cores, P p.2) (c : Nat) : P (h.core c) := by
  unfold Hw.core Tab.getD
  cases hf : Tab.find? h.cores c with
  | none => exact h0
  | some k => exact ha _ (Tab.find?_mem _ _ _ hf)

theorem foldl_fix {α β : Type} (f : α → β → α) (a : α) (xs : List β) (h : ∀ x ∈ xs, f a x = a) : xs.foldl f a = a := by
  induction xs with
  | nil => rfl
  | cons x xs ih =>
    rw [List.foldl_cons, h x List.mem_cons_self]
    exact ih (fun y hy => h y (List.mem_cons_of_mem _ hy))

/-- Nothing changes where nothing falls due. -/
theorem Hw.settled_of_calm (h : Hw) (hc : h.Calm) : h.settled = h := by
  obtain ⟨hf, hi, hk⟩ := hc
  have hb : h.judgeBanks = h := by
    refine foldl_fix _ _ _ (fun c _ => ?_)
    have := (Hw.core_of_all (fun k => k.seq.bankReq = none ∧ k.arr.badReads = []) h ⟨rfl, rfl⟩ hk c).1
    unfold Hw.judgeBank Hw.seq
    rw [this]
  have hr : h.settleAllReads = h := by
    refine foldl_fix _ _ _ (fun c _ => ?_)
    have := (Hw.core_of_all (fun k => k.seq.bankReq = none ∧ k.arr.badReads = []) h ⟨rfl, rfl⟩ hk c).2
    unfold Hw.settleReads Hw.arr
    simp [this]
  have hs : h.settleIncs = h := by
    unfold Hw.settleIncs
    rw [hi]
    simp only [List.filter_nil, List.foldl_nil]
    rw [← hi]
  have ha : h.settleAbort = h := by
    unfold Hw.settleAbort
    rw [hf]
    rfl
  unfold Hw.settled
  rw [hb, hr, hs, ha]

/-- The units of still cores move nothing. -/
theorem pump_of_still (w : Work) (hs : w.hw.Still) : pump w = w := by
  obtain ⟨ho, hk⟩ := hs
  refine foldl_fix _ _ _ (fun c _ => ?_)
  obtain ⟨h1, h2, h3⟩ := Hw.core_of_all (fun k => k.drn = [] ∧ k.vec = [] ∧ k.bobbins = []) w.hw ⟨rfl, rfl, rfl⟩ hk c
  unfold pumpCore
  rw [ho]
  split
  · contradiction
  · split
    · rfl
    · unfold pumpFuel Work.repeatStep coreStep drainStep vecStep bobStep
      rw [h1, h2, h3]
      simp [vecStepFrom, ho]

end Sys2Proof.Machine
end

