-- ==== Sys2Proof/Laws/Tab.lean ====
section
/-! SUPPORT. What a sparse table reads after a change, and that the changes keep its canonical form. -/

namespace Sys2Proof

theorem Tab.find?_insert_same {α : Type} (t : Tab α) (i : Nat) (v : α) : Tab.find? (Tab.insert t i v) i = some v := by
  induction t with
  | nil => simp [Tab.insert, Tab.find?]
  | cons p t ih =>
    obtain ⟨k, x⟩ := p
    unfold Tab.insert
    split
    · simp [Tab.find?]
    · split
      · simp [Tab.find?]
      · rename_i h1 h2
        simp only [Tab.find?]
        rw [if_neg h2]
        exact ih

theorem Tab.find?_insert_other {α : Type} (t : Tab α) (i j : Nat) (v : α) (h : j ≠ i) : Tab.find? (Tab.insert t i v) j = Tab.find? t j := by
  induction t with
  | nil => simp [Tab.insert, Tab.find?, h]
  | cons p t ih =>
    obtain ⟨k, x⟩ := p
    unfold Tab.insert
    split
    · simp [Tab.find?, h]
    · split
      · rename_i h2
        have : i = k := by simpa using h2
        subst this
        simp [Tab.find?, h]
      · simp only [Tab.find?, ih]

theorem Tab.find?_erase_same {α : Type} (t : Tab α) (i : Nat) : Tab.find? (Tab.erase t i) i = none := by
  induction t with
  | nil => rfl
  | cons p t ih =>
    obtain ⟨k, x⟩ := p
    by_cases hk : k = i
    · subst hk
      have : Tab.erase ((k, x) :: t) k = Tab.erase t k := by simp [Tab.erase]
      rw [this]; exact ih
    · have : Tab.erase ((k, x) :: t) i = (k, x) :: Tab.erase t i := by simp [Tab.erase, hk]
      rw [this]
      simp only [Tab.find?]
      rw [if_neg (by simpa using fun h => hk h.symm)]
      exact ih

theorem Tab.find?_erase_other {α : Type} (t : Tab α) (i j : Nat) (h : j ≠ i) : Tab.find? (Tab.erase t i) j = Tab.find? t j := by
  induction t with
  | nil => rfl
  | cons p t ih =>
    obtain ⟨k, x⟩ := p
    by_cases hk : k = i
    · subst hk
      have e : Tab.erase ((k, x) :: t) k = Tab.erase t k := by simp [Tab.erase]
      rw [e, ih]
      simp only [Tab.find?]
      rw [if_neg (by simpa using h)]
    · have e : Tab.erase ((k, x) :: t) i = (k, x) :: Tab.erase t i := by simp [Tab.erase, hk]
      rw [e]
      simp only [Tab.find?, ih]

/-- A key reads what was put at it. -/
@[simp] theorem Tab.getD_put_same {α : Type} [DecidableEq α] (t : Tab α) (d : α) (i : Nat) (v : α) : Tab.getD (Tab.put t d i v) i d = v := by
  unfold Tab.getD Tab.put
  split
  · rename_i h; rw [Tab.find?_erase_same]; exact h.symm
  · rw [Tab.find?_insert_same]; rfl

/-- Every other key reads what it read before. -/
theorem Tab.find?_put_other {α : Type} [DecidableEq α] (t : Tab α) (d : α) (i j : Nat) (v : α) (h : j ≠ i) :
    Tab.find? (Tab.put t d i v) j = Tab.find? t j := by
  unfold Tab.put
  split
  · exact Tab.find?_erase_other t i j h
  · exact Tab.find?_insert_other t i j v h

theorem Tab.getD_put_other {α : Type} [DecidableEq α] (t : Tab α) (d e : α) (i j : Nat) (v : α) (h : j ≠ i) :
    Tab.getD (Tab.put t d i v) j e = Tab.getD t j e := by
  unfold Tab.getD
  rw [Tab.find?_put_other t d i j v h]

/-! The canonical form. -/

theorem Tab.risesFrom_mono {α : Type} (t : Tab α) (a b : Nat) (h : a ≤ b) (hb : Tab.risesFrom b t = true) : Tab.risesFrom a t = true := by
  cases t with
  | nil => rfl
  | cons p t =>
    obtain ⟨k, x⟩ := p
    simp only [Tab.risesFrom, Bool.and_eq_true, decide_eq_true_eq] at hb ⊢
    exact ⟨by omega, hb.2⟩

theorem Tab.risesFrom_filter {α : Type} (f : Nat × α → Bool) (t : Tab α) (lo : Nat) (h : Tab.risesFrom lo t = true) :
    Tab.risesFrom lo (t.filter f) = true := by
  induction t generalizing lo with
  | nil => rfl
  | cons p t ih =>
    obtain ⟨k, x⟩ := p
    simp only [Tab.risesFrom, Bool.and_eq_true, decide_eq_true_eq] at h
    rw [List.filter_cons]
    split
    · simp only [Tab.risesFrom, Bool.and_eq_true, decide_eq_true_eq]
      exact ⟨h.1, ih _ h.2⟩
    · exact Tab.risesFrom_mono _ _ _ (by omega) (ih _ h.2)

theorem Tab.risesFrom_insert {α : Type} (t : Tab α) (i : Nat) (v : α) (lo : Nat) (hi : lo ≤ i) (h : Tab.risesFrom lo t = true) :
    Tab.risesFrom lo (Tab.insert t i v) = true := by
  induction t generalizing lo with
  | nil => simp [Tab.insert, Tab.risesFrom, hi]
  | cons p t ih =>
    obtain ⟨k, x⟩ := p
    simp only [Tab.risesFrom, Bool.and_eq_true, decide_eq_true_eq] at h
    unfold Tab.insert
    split
    · rename_i hlt
      simp only [Tab.risesFrom, Bool.and_eq_true, decide_eq_true_eq]
      exact ⟨hi, by omega, h.2⟩
    · split
      · rename_i heq
        have : i = k := by simpa using heq
        subst this
        simp only [Tab.risesFrom, Bool.and_eq_true, decide_eq_true_eq]
        exact ⟨hi, h.2⟩
      · rename_i hlt heq
        have hne : i ≠ k := by simpa using heq
        simp only [Tab.risesFrom, Bool.and_eq_true, decide_eq_true_eq]
        exact ⟨h.1, ih (k + 1) (by omega) h.2⟩

theorem Tab.mem_insert {α : Type} (t : Tab α) (i : Nat) (v : α) (p : Nat × α) (h : p ∈ Tab.insert t i v) : p = (i, v) ∨ p ∈ t := by
  induction t with
  | nil => simpa [Tab.insert] using h
  | cons q t ih =>
    obtain ⟨k, x⟩ := q
    unfold Tab.insert at h
    split at h
    · simpa using h
    · split at h
      · rcases List.mem_cons.mp h with h | h
        · exact .inl h
        · exact .inr (List.mem_cons_of_mem _ h)
      · rcases List.mem_cons.mp h with h | h
        · exact .inr (h ▸ List.mem_cons_self)
        · rcases ih h with h | h
          · exact .inl h
          · exact .inr (List.mem_cons_of_mem _ h)

theorem Tab.wf_filter {α : Type} [DecidableEq α] (d : Nat → α) (f : Nat × α → Bool) (t : Tab α) (h : Tab.wf d t = true) :
    Tab.wf d (t.filter f) = true := by
  simp only [Tab.wf, Bool.and_eq_true, List.all_eq_true] at h ⊢
  exact ⟨Tab.risesFrom_filter f t 0 h.1, fun p hp => h.2 p (List.mem_filter.mp hp).1⟩

/-- A put keeps the canonical form where it names the key's own default. -/
theorem Tab.wf_put {α : Type} [DecidableEq α] (d : Nat → α) (t : Tab α) (i : Nat) (v : α) (h : Tab.wf d t = true) :
    Tab.wf d (Tab.put t (d i) i v) = true := by
  unfold Tab.put
  split
  · exact Tab.wf_filter d _ t h
  · rename_i hv
    simp only [Tab.wf, Bool.and_eq_true, List.all_eq_true] at h ⊢
    refine ⟨Tab.risesFrom_insert t i v 0 (Nat.zero_le _) h.1, fun p hp => ?_⟩
    rcases Tab.mem_insert t i v p hp with rfl | hp
    · simpa using hv
    · exact h.2 p hp

/-! A value changed in place. -/

theorem Tab.getD_modify_same {α : Type} [DecidableEq α] (t : Tab α) (d : α) (i : Nat) (f : α → α) :
    Tab.getD (Tab.modify t d i f) i d = f (Tab.getD t i d) := by
  unfold Tab.modify Tab.put
  split
  · rename_i h
    rw [h]
    unfold Tab.getD
    rw [Tab.find?_erase_same]
    rfl
  · show (Tab.find? (Tab.insert t i _) i).getD d = _
    rw [Tab.find?_insert_same]
    rfl

theorem Tab.getD_modify_other {α : Type} [DecidableEq α] (t : Tab α) (d : α) (i j : Nat) (f : α → α) (h : j ≠ i) :
    Tab.getD (Tab.modify t d i f) j d = Tab.getD t j d := Tab.getD_put_other t d d i j _ h

theorem Tab.mem_modify {α : Type} [DecidableEq α] (t : Tab α) (d : α) (i : Nat) (f : α → α) (p : Nat × α) (h : p ∈ Tab.modify t d i f) :
    p = (i, f (Tab.getD t i d)) ∨ p ∈ t := by
  unfold Tab.modify Tab.put at h
  split at h
  · exact .inr ((List.mem_filter.mp h).1)
  · exact Tab.mem_insert _ _ _ _ h

end Sys2Proof
end

