-- ==== Sys2Proof/Laws/Cores.lean ====
section
/-! SUPPORT. A core's state after a change of it and of another core, and what such a change keeps. -/

namespace Sys2Proof.Machine

namespace Hw

@[simp] theorem core_onCore_same (h : Hw) (c : Nat) (f : Core → Core) : (h.onCore c f).core c = f (h.core c) := Tab.getD_modify_same _ _ _ _

theorem core_onCore_other (h : Hw) (c d : Nat) (f : Core → Core) (hd : d ≠ c) : (h.onCore c f).core d = h.core d := Tab.getD_modify_other _ _ _ _ _ hd

@[simp] theorem arr_onArr_same (h : Hw) (c : Nat) (f : ArrayUnit → ArrayUnit) : (h.onArr c f).arr c = f (h.arr c) := by
  unfold arr onArr; rw [core_onCore_same]

@[simp] theorem seq_onSeq_same (h : Hw) (c : Nat) (f : Seq → Seq) : (h.onSeq c f).seq c = f (h.seq c) := by
  unfold seq onSeq; rw [core_onCore_same]

@[simp] theorem rd_onCore (h : Hw) (c : Nat) (f : Core → Core) (r : Reg) (i : Nat) : (h.onCore c f).rd r i = h.rd r i := rfl
@[simp] theorem get_onCore (h : Hw) (c : Nat) (f : Core → Core) (g : Fld) (i : Nat) : (h.onCore c f).get g i = h.get g i := rfl
@[simp] theorem rd_onArr (h : Hw) (c : Nat) (f : ArrayUnit → ArrayUnit) (r : Reg) (i : Nat) : (h.onArr c f).rd r i = h.rd r i := rfl
@[simp] theorem get_onArr (h : Hw) (c : Nat) (f : ArrayUnit → ArrayUnit) (g : Fld) (i : Nat) : (h.onArr c f).get g i = h.get g i := rfl
@[simp] theorem rd_onSeq (h : Hw) (c : Nat) (f : Seq → Seq) (r : Reg) (i : Nat) : (h.onSeq c f).rd r i = h.rd r i := rfl
@[simp] theorem get_onSeq (h : Hw) (c : Nat) (f : Seq → Seq) (g : Fld) (i : Nat) : (h.onSeq c f).get g i = h.get g i := rfl
@[simp] theorem core_put (h : Hw) (f : Fld) (v i c : Nat) : (h.put f v i).core c = h.core c := rfl
@[simp] theorem core_wr (h : Hw) (r : Reg) (i v c : Nat) : (h.wr r i v).core c = h.core c := rfl
@[simp] theorem arr_put (h : Hw) (f : Fld) (v i c : Nat) : (h.put f v i).arr c = h.arr c := rfl
@[simp] theorem seq_put (h : Hw) (f : Fld) (v i c : Nat) : (h.put f v i).seq c = h.seq c := rfl
@[simp] theorem rd_elapse (h : Hw) (t : Nat) (r : Reg) (i : Nat) : (h.elapse t).rd r i = h.rd r i := rfl
@[simp] theorem get_elapse (h : Hw) (t : Nat) (g : Fld) (i : Nat) : (h.elapse t).get g i = h.get g i := rfl
@[simp] theorem core_elapse (h : Hw) (t c : Nat) : (h.elapse t).core c = h.core c := rfl
@[simp] theorem arr_elapse (h : Hw) (t c : Nat) : (h.elapse t).arr c = h.arr c := rfl
@[simp] theorem seq_elapse (h : Hw) (t c : Nat) : (h.elapse t).seq c = h.seq c := rfl

/-- What a change of a core keeps of every core, it keeps in the table. -/
theorem cores_onCore (P : Core → Prop) (h : Hw) (c : Nat) (f : Core → Core) (h0 : P {}) (ha : ∀ p ∈ h.cores, P p.2) (hf : P (h.core c) → P (f (h.core c))) :
    ∀ p ∈ (h.onCore c f).cores, P p.2 := by
  intro p hp
  rcases Tab.mem_modify _ _ _ _ _ hp with e | e
  · rw [e]
    exact hf (core_of_all P h h0 ha c)
  · exact ha p e

theorem still_onCore (h : Hw) (c : Nat) (f : Core → Core) (hs : h.Still)
    (hf : (f (h.core c)).drn = (h.core c).drn ∧ (f (h.core c)).vec = (h.core c).vec ∧ (f (h.core c)).bobbins = (h.core c).bobbins) : (h.onCore c f).Still := by
  refine ⟨hs.1, cores_onCore (fun k => k.drn = [] ∧ k.vec = [] ∧ k.bobbins = []) h c f ⟨rfl, rfl, rfl⟩ hs.2 ?_⟩
  rw [hf.1, hf.2.1, hf.2.2]
  exact id

theorem still_onArr (h : Hw) (c : Nat) (f : ArrayUnit → ArrayUnit) (hs : h.Still) : (h.onArr c f).Still := still_onCore h c _ hs ⟨rfl, rfl, rfl⟩

theorem still_onSeq (h : Hw) (c : Nat) (f : Seq → Seq) (hs : h.Still) : (h.onSeq c f).Still := still_onCore h c _ hs ⟨rfl, rfl, rfl⟩

/-- A change that leaves the cores and the abort alone leaves still cores still. -/
theorem still_of (h h' : Hw) (hs : h.Still) (hc : h'.cores = h.cores) (ha : h'.ab = h.ab) : h'.Still := by
  unfold Still at *
  rw [hc, ha]
  exact hs

theorem settleAbort_of (h : Hw) (hf : h.ab.fresh = false) : h.settleAbort = h := by
  unfold settleAbort
  rw [hf]
  rfl

end Hw

/-- A command after which the units are still and no abort is to be settled leads to its effect. -/
theorem State.moves_still (s : State) (f : Work → Work) (h' : Hw) (he : f s.work = { s.work with hw := h' }) (hs : h'.Still) (hf : h'.ab.fresh = false) :
    s.moves f = s.leads h' := by
  unfold State.moves
  have : (f s.work).onHw Hw.settleAbort = { s.work with hw := h' } := by
    rw [he]
    show { s.work with hw := h'.settleAbort } = _
    rw [Hw.settleAbort_of h' hf]
  rw [this, pump_of_still _ hs]
  rfl

end Sys2Proof.Machine
end

