-- ==== Sys2Proof/Laws/Memory.lean ====
section
/-! SUPPORT. Reading memory after a write, and that every memory operation keeps the canonical form. -/

namespace Sys2Proof

theorem Mem.byte_setByte_same (m : Mem) (area addr : Nat) (b : Byte) : Mem.byte (Mem.setByte m area addr b) area addr = b := by
  unfold Mem.byte Mem.setByte
  exact Tab.getD_put_same _ _ _ _

theorem Mem.byte_setByte_other (m : Mem) (area addr area' addr' : Nat) (b : Byte) (h : Mem.key area' addr' ≠ Mem.key area addr) :
    Mem.byte (Mem.setByte m area addr b) area' addr' = Mem.byte m area' addr' := by
  unfold Mem.byte Mem.setByte
  exact Tab.getD_put_other _ _ _ _ _ _ h

/-- A byte outside the string written reads as before. -/
theorem Mem.byte_write_other (bs : List Byte) (m : Mem) (area addr area' addr' : Nat)
    (h : ∀ i, i < bs.length → Mem.key area' addr' ≠ Mem.key area (addr + i)) :
    Mem.byte (Mem.write m area addr bs) area' addr' = Mem.byte m area' addr' := by
  induction bs generalizing m addr with
  | nil => rfl
  | cons b bs ih =>
    unfold Mem.write
    rw [ih, Mem.byte_setByte_other]
    · exact h 0 (by simp)
    · intro i hi
      have := h (i + 1) (by simpa using hi)
      rwa [show addr + (i + 1) = addr + 1 + i by omega] at this

theorem Mem.key_inj_addr (area a b : Nat) (h : Mem.key area a = Mem.key area b) : a = b := by
  unfold Mem.key at h; omega

/-- A byte of the string written reads as written. -/
theorem Mem.byte_write_same (bs : List Byte) (m : Mem) (area addr i : Nat) (hi : i < bs.length) :
    Mem.byte (Mem.write m area addr bs) area (addr + i) = bs[i] := by
  induction bs generalizing m addr i with
  | nil => simp at hi
  | cons b bs ih =>
    unfold Mem.write
    cases i with
    | zero =>
      rw [Mem.byte_write_other]
      · simpa using Mem.byte_setByte_same m area addr b
      · intro j _ he
        have := Mem.key_inj_addr _ _ _ he
        omega
    | succ i =>
      rw [show addr + (i + 1) = addr + 1 + i by omega, ih]
      · simp
      · simpa using hi

/-! The canonical form (log entry 4). -/

theorem Mem.wf_setByte (m : Mem) (area addr : Nat) (b : Byte) (h : m.wf = true) : (Mem.setByte m area addr b).wf = true := by
  unfold Mem.wf Mem.setByte
  exact Tab.wf_put Mem.empty m (Mem.key area addr) b h

theorem Mem.wf_write (bs : List Byte) (m : Mem) (area addr : Nat) (h : m.wf = true) : (Mem.write m area addr bs).wf = true := by
  induction bs generalizing m addr with
  | nil => exact h
  | cons b bs ih => exact ih _ _ (Mem.wf_setByte m area addr b h)

theorem Mem.wf_clear (m : Mem) (area addr n : Nat) (h : m.wf = true) : (Mem.clear m area addr n).wf = true := by
  unfold Mem.wf Mem.clear
  exact Tab.wf_filter Mem.empty _ m h

theorem Mem.wf_putAll (cs : List Host.Cell) (m : Mem) (h : m.wf = true) : (Mem.putAll m cs).wf = true := by
  induction cs generalizing m with
  | nil => exact h
  | cons c cs ih =>
    obtain ⟨k, b⟩ := c
    exact ih _ (Tab.wf_put Mem.empty m k b h)

namespace Machine

theorem MemWrite.apply_wf (m : Mem) (x : MemWrite) (h : m.wf = true) : (MemWrite.apply m x).wf = true := by
  cases x with
  | store a addr bs => exact Mem.wf_write bs m a addr h
  | clear a addr n => exact Mem.wf_clear m a addr n h
  | copy a b => exact Mem.wf_putAll _ _ (Mem.wf_clear m b 0 (2 ^ 64) h)

theorem MemWrite.applyAll_wf (xs : List MemWrite) (m : Mem) (h : m.wf = true) : (xs.foldl MemWrite.apply m).wf = true := by
  induction xs generalizing m with
  | nil => exact h
  | cons x xs ih => exact ih _ (MemWrite.apply_wf m x h)

/-- What an effect leaves of memory is in canonical form whatever the effect was. -/
theorem State.after_wf (s : State) (w : Work) (h : s.mem.wf = true) : (s.after w).mem.wf = true :=
  MemWrite.applyAll_wf w.writes s.mem h

end Machine

end Sys2Proof
end

