-- ==== Sys2Proof/Laws/Regs.lean ====
section
/-! SUPPORT. What a register reads after a write of it, and after a write of another. -/

namespace Sys2Proof

theorem bits_putBits (lo w v x : Nat) : bits lo w (putBits lo w v x) = v % 2 ^ w := by
  unfold bits putBits
  have h1 : x / 2 ^ (lo + w) * 2 ^ (lo + w) + v % 2 ^ w * 2 ^ lo + x % 2 ^ lo
      = x % 2 ^ lo + 2 ^ lo * (v % 2 ^ w + 2 ^ w * (x / 2 ^ (lo + w))) := by
    have h2 : 2 ^ lo * (2 ^ w * (x / 2 ^ (lo + w))) = x / 2 ^ (lo + w) * 2 ^ (lo + w) := by
      rw [← Nat.mul_assoc, ← Nat.pow_add, Nat.mul_comm]
    rw [Nat.mul_add, h2, Nat.mul_comm (2 ^ lo) (v % 2 ^ w)]
    omega
  rw [h1, Nat.add_mul_div_left _ _ (Nat.two_pow_pos lo), Nat.div_eq_of_lt (Nat.mod_lt _ (Nat.two_pow_pos lo)), Nat.zero_add,
    Nat.add_mul_mod_self_left, Nat.mod_mod]

/-- A field is not touched by a truncation above it. -/
theorem bits_mod (lo w x n : Nat) (hf : lo + w ≤ n) : bits lo w (x % 2 ^ n) = bits lo w x := by
  unfold bits
  obtain ⟨k, rfl⟩ : ∃ k, n = lo + (w + k) := ⟨n - lo - w, by omega⟩
  rw [Nat.pow_add, Nat.mod_mul_right_div_self]
  exact Nat.mod_mod_of_dvd _ (Nat.pow_dvd_pow 2 (by omega))

/-- A field that does not overlap is not touched. -/
theorem bits_putBits_apart (lo w lo' w' v x : Nat) (hd : lo' + w' ≤ lo ∨ lo + w ≤ lo') : bits lo' w' (putBits lo w v x) = bits lo' w' x := by
  have hv : v % 2 ^ w < 2 ^ w := Nat.mod_lt _ (Nat.two_pow_pos w)
  have hl : x % 2 ^ lo < 2 ^ lo := Nat.mod_lt _ (Nat.two_pow_pos lo)
  rcases hd with hd | hd
  · -- below
    have hlow : putBits lo w v x % 2 ^ lo = x % 2 ^ lo := by
      unfold putBits
      rw [Nat.pow_add, show x / (2 ^ lo * 2 ^ w) * (2 ^ lo * 2 ^ w) = 2 ^ lo * (x / (2 ^ lo * 2 ^ w) * 2 ^ w) by
        rw [Nat.mul_left_comm], Nat.mul_comm (v % 2 ^ w), Nat.add_assoc, Nat.mul_add_mod, Nat.mul_add_mod, Nat.mod_mod]
    rw [← bits_mod lo' w' _ lo hd, hlow, bits_mod lo' w' _ lo hd]
  · -- above
    have hhi : putBits lo w v x / 2 ^ (lo + w) = x / 2 ^ (lo + w) := by
      unfold putBits
      have h1 : v % 2 ^ w * 2 ^ lo + x % 2 ^ lo < 2 ^ (lo + w) := by
        rw [Nat.pow_add]
        have h2 : (v % 2 ^ w + 1) * 2 ^ lo ≤ 2 ^ w * 2 ^ lo := Nat.mul_le_mul_right _ hv
        rw [Nat.add_mul, Nat.one_mul] at h2
        have h3 := Nat.mul_comm (2 ^ lo) (2 ^ w)
        omega
      rw [Nat.add_assoc, Nat.mul_comm, Nat.mul_add_div (Nat.two_pow_pos _), Nat.div_eq_of_lt h1, Nat.add_zero]
    obtain ⟨k, rfl⟩ : ∃ k, lo' = lo + w + k := ⟨lo' - lo - w, by omega⟩
    unfold bits
    rw [Nat.pow_add 2 (lo + w) k, ← Nat.div_div_eq_div_mul, ← Nat.div_div_eq_div_mul, hhi]

namespace Machine

theorem ctorIdx_lt (r : Reg) : r.ctorIdx < 512 := by cases r <;> decide

theorem Reg.all_ctorIdx (r : Reg) : Reg.all[r.ctorIdx]? = some r := by cases r <;> rfl

theorem ctorIdx_inj (r r' : Reg) (h : r.ctorIdx = r'.ctorIdx) : r = r' := by
  have h1 := Reg.all_ctorIdx r
  rw [h, Reg.all_ctorIdx r'] at h1
  exact (Option.some.inj h1).symm

theorem ctlKey_inj (r r' : Reg) (i i' : Nat) (h : ctlKey r i = ctlKey r' i') : r = r' ∧ i = i' := by
  unfold ctlKey at h
  have h1 := ctorIdx_lt r
  have h2 := ctorIdx_lt r'
  have hi : i = i' := by omega
  have hc : r.ctorIdx = r'.ctorIdx := by omega
  exact ⟨ctorIdx_inj _ _ hc, hi⟩

theorem desc_size_le (r : Reg) : r.desc.size ≤ 8 := by cases r <;> decide

namespace Hw

/-- A register instance reads what was written to it, within its size. -/
theorem rd_wr_same (h : Hw) (r : Reg) (i v : Nat) : (h.wr r i v).rd r i = v % 2 ^ (8 * r.desc.size) := by
  have hlt : v % 2 ^ (8 * r.desc.size) < 2 ^ 64 :=
    Nat.lt_of_lt_of_le (Nat.mod_lt _ (Nat.two_pow_pos _)) (Nat.pow_le_pow_right (by decide) (by have := desc_size_le r; omega))
  unfold rd wr
  simp only
  unfold Tab.put
  split
  · rename_i f heq
    split at heq
    · rw [Tab.find?_erase_same] at heq; cases heq
    · rw [Tab.find?_insert_same] at heq
      cases heq
      rw [BitVec.toNat_ofNat, Nat.mod_eq_of_lt hlt]
  · rename_i heq
    split at heq
    · rename_i he
      have := congrArg BitVec.toNat he
      rw [BitVec.toNat_ofNat, BitVec.toNat_ofNat, Nat.mod_eq_of_lt hlt] at this
      exact this.symm
    · rw [Tab.find?_insert_same] at heq; cases heq

/-- Another register instance reads what it read before. -/
theorem rd_wr_other (h : Hw) (r r' : Reg) (i i' v : Nat) (hne : (r', i') ≠ (r, i)) : (h.wr r i v).rd r' i' = h.rd r' i' := by
  have hk : ctlKey r' i' ≠ ctlKey r i := fun he => hne (by obtain ⟨h1, h2⟩ := ctlKey_inj _ _ _ _ he; rw [h1, h2])
  unfold rd wr
  simp only
  rw [Tab.find?_put_other _ _ _ _ _ hk]

/-- A field reads what was put into it. -/
theorem get_put_same (h : Hw) (f : Fld) (v i : Nat) (hf : f.lo + f.w ≤ 8 * f.reg.desc.size) : (h.put f v i).get f i = v % 2 ^ f.w := by
  unfold get put
  rw [rd_wr_same, bits_mod _ _ _ _ hf, bits_putBits]

/-- A field of the same register that does not overlap reads what it read before. -/
theorem get_put_apart (h : Hw) (f g : Fld) (v i : Nat) (hr : g.reg = f.reg) (hg : g.lo + g.w ≤ 8 * f.reg.desc.size)
    (hd : g.lo + g.w ≤ f.lo ∨ f.lo + f.w ≤ g.lo) : (h.put f v i).get g i = h.get g i := by
  unfold get put
  rw [hr, rd_wr_same, bits_mod _ _ _ _ hg, bits_putBits_apart _ _ _ _ _ _ hd]

/-- A put touches its register alone. -/
theorem rd_put_other (h : Hw) (f : Fld) (v i : Nat) (r : Reg) (j : Nat) (hne : (r, j) ≠ (f.reg, i)) : (h.put f v i).rd r j = h.rd r j :=
  rd_wr_other h _ _ _ _ _ hne

/-- A field of another register instance reads what it read before. -/
theorem get_put_other (h : Hw) (f g : Fld) (v i j : Nat) (hne : (g.reg, j) ≠ (f.reg, i)) : (h.put f v i).get g j = h.get g j := by
  unfold get
  rw [rd_put_other h f v i _ _ hne]

theorem get_wr_other (h : Hw) (r : Reg) (g : Fld) (v i j : Nat) (hne : (g.reg, j) ≠ (r, i)) : (h.wr r i v).get g j = h.get g j := by
  unfold get
  rw [rd_wr_other h _ _ _ _ _ hne]

/-! Registers of different names, whatever the instances. -/

theorem get_put_reg (h : Hw) (f g : Fld) (v i j : Nat) (hr : g.reg ≠ f.reg) : (h.put f v i).get g j = h.get g j :=
  get_put_other h f g v i j (fun e => hr (Prod.mk.inj e).1)

theorem rd_put_reg (h : Hw) (f : Fld) (v i j : Nat) (r : Reg) (hr : r ≠ f.reg) : (h.put f v i).rd r j = h.rd r j :=
  rd_put_other h f v i r j (fun e => hr (Prod.mk.inj e).1)

theorem get_wr_reg (h : Hw) (r : Reg) (g : Fld) (v i j : Nat) (hr : g.reg ≠ r) : (h.wr r i v).get g j = h.get g j :=
  get_wr_other h r g v i j (fun e => hr (Prod.mk.inj e).1)

theorem rd_wr_reg (h : Hw) (r r' : Reg) (v i j : Nat) (hr : r' ≠ r) : (h.wr r i v).rd r' j = h.rd r' j :=
  rd_wr_other h r r' i j v (fun e => hr (Prod.mk.inj e).1)

end Hw

end Machine

end Sys2Proof
end

