-- ==== Sys2Proof/WellFormed.lean ====
section
/-! DEFINITION. The operands that a command may carry on the largest build (Table 0-2). A command that is not well-formed names a core, a
port or a place that no build has. -/

namespace Sys2Proof

/-- Physical cores of the largest build, spare included (Table 0-2). -/
def maxCores : Nat := 17

/-- Link ports of the largest build (Table 0-2). -/
def maxLinkPorts : Nat := 18

/-- Memory ports of the largest build (Table 0-2). -/
def maxMemPorts : Nat := 16

/-- Hoops of the largest build (Table 0-2). -/
def maxHoops : Nat := 4096

/-- Tambours: one for each physical core, and the gather tambour (R231). -/
def maxTambours : Nat := 18

/-- The operands of a command lie in the ranges that the spec gives them. -/
def WellFormed (i : Instr) : Bool :=
  match i with
  | .registerWrite _ offset _ _ => offset % 4 == 0
  | .counterLowWordRead _ offset => offset % 4 == 0
  | .tmNowRead _ => true
  | .beatBoundary => true
  | .plinthBeatCount _ => true
  | .beatMark port _ _ => port < maxLinkPorts
  | .trefEdge _ => true
  | .sourceMarkTimeout => true
  | .holdoverExpiry => true
  | .tmEnable _ _ => true
  | .tmDisable _ => true
  | .trimStepLong _ _ => true
  | .trimStepShort _ _ => true
  | .prkShadowWrite _ _ => true
  | .epochArm _ _ => true
  | .epochDisarm _ => true
  | .epochSwitchover => true
  | .slackExpiry core => core < maxCores
  | .stepCommit => true
  | .abortFlush core => core < maxCores
  | .replayReady => true
  | .replayRunStart => true
  | .nullCommit => true
  | .spareSubstitution => true
  | .spareRequest _ _ => true
  | .faultUnitEnable _ _ => true
  | .faultLogPop _ => true
  | .lostStreamsWrite _ n _ => n < 128
  | .pass core _ => core < maxCores
  | .load core _ => core < maxCores
  | .loadStart core => core < maxCores
  | .passFeedStart core => core < maxCores
  | .passCommit core => core < maxCores
  | .arrayCheckFault core kind row col => core < maxCores && kind < 8 && row < 1024 && col < 64
  | .arrayEnable _ core _ => core < maxCores
  | .arrayScrubDone core => core < maxCores
  | .arrayDisable _ core _ => core < maxCores
  | .arrSpareWrite _ core _ => core < maxCores
  | .treeRowTest _ core _ => core < maxCores
  | .treeAllRowsTest _ core _ => core < maxCores
  | .treeMappingVerify _ core _ => core < maxCores
  | .treeOperationDone core _ => core < maxCores
  | .drain core _ => core < maxCores
  | .drainResume core => core < maxCores
  | .cvt core _ => core < maxCores
  | .drainUnitEnable _ core _ => core < maxCores
  | .vopt core _ => core < maxCores
  | .bind core _ => core < maxCores
  | .mmul core _ => core < maxCores
  | .mmul2 core _ => core < maxCores
  | .walkerPassIssue core => core < maxCores
  | .walkerArm core which => core < maxCores && which < 3
  | .macroSignal core => core < maxCores
  | .combineRound core => core < maxCores
  | .bandConvert core => core < maxCores
  | .macroUnitEnable _ core _ => core < maxCores
  | .ringTailWrite _ core _ => core < maxCores
  | .publishedCopyDone core => core < maxCores
  | .bankReloadRequest _ core _ => core < maxCores
  | .bankLoadDone core bank => core < maxCores && bank < 2
  | .instructionIssue core => core < maxCores
  | .nop core _ => core < maxCores
  | .seg core _ => core < maxCores
  | .loop core _ => core < maxCores
  | .skipc core _ => core < maxCores
  | .sli core _ => core < maxCores
  | .salu core _ => core < maxCores
  | .sld core _ => core < maxCores
  | .sst core _ => core < maxCores
  | .sqd core _ => core < maxCores
  | .ctrSet core _ => core < maxCores
  | .ctrAdd core _ => core < maxCores
  | .ctrSelect core _ => core < maxCores
  | .cmp core _ => core < maxCores
  | .syncWait core _ => core < maxCores
  | .syncTake core _ => core < maxCores
  | .syncSignal core _ => core < maxCores
  | .syncAdd core _ => core < maxCores
  | .syncCouch core _ => core < maxCores
  | .bbarm core _ => core < maxCores
  | .bbcan core _ => core < maxCores
  | .vop core _ => core < maxCores
  | .vld core _ => core < maxCores
  | .vst core _ => core < maxCores
  | .sequencerEnable _ core _ => core < maxCores
  | .sequencerDisable _ core _ => core < maxCores
  | .descriptorActivate core bobbin => core < maxCores && bobbin < 8
  | .bobbinTransferStart core _ => core < maxCores
  | .descriptorEnd core bobbin => core < maxCores && bobbin < 8
  | .slotTransmitMove core => core < maxCores
  | .slotReceiveMove core => core < maxCores
  | .bobbinEnable _ core _ => core < maxCores
  | .bobbinDisable _ core _ => core < maxCores
  | .matrixMemoryEnable _ core _ => core < maxCores
  | .matrixMemoryInitDone core => core < maxCores
  | .blockMemoryEnable _ _ => true
  | .blockMemoryInitDone => true
  | .cacheInvalidate _ _ => true
  | .cacheInvalidateDone => true
  | .cacheFill => true
  | .correctedWriteBack => true
  | .scrubVisit _ _ => true
  | .errorLogPop _ => true
  | .portReadResponse port tag _ _ => port < maxMemPorts && tag < 256
  | .portWriteResponse port tag _ => port < maxMemPorts && tag < 256
  | .commitTableEntryWrite _ entry word _ => entry < 4096 && word < 8
  | .tambourEnable _ tambour _ => tambour < maxTambours
  | .tambourLoadDone tambour => tambour < maxTambours
  | .tambourDisable _ tambour _ => tambour < maxTambours
  | .tambourRelease _ tambour => tambour < maxTambours
  | .tambourStop _ tambour => tambour < maxTambours
  | .tambourSequenceEnd tambour => tambour < maxTambours
  | .tambourClearDone tambour => tambour < maxTambours
  | .tambourInputPop core => core < maxCores
  | .tambourOutputDeliver tambour _ _ kind _ => tambour < maxTambours && kind < 4
  | .tambourOutputDue core => core < maxCores
  | .activityWindowEnd tambour _ => tambour < maxTambours
  | .configScrubFrame tambour outcome => tambour < maxTambours && outcome < 3
  | .gatherPoolInput => true
  | .gatherSlotDeadline port lane slot => port < maxLinkPorts && lane < 4 && slot < 19
  | .couchArrival obj _ _ _ hoop _ => obj < 16384 && hoop < maxHoops
  | .syncHandSet _ obj _ => obj < 16384
  | .syncUnitEnable _ _ => true
  | .syncInitDone => true
  | .queueScanVisit => true
  | .tailReadDone queue => queue < 4096
  | .readyListPop _ => true
  | .queueEnable _ queue _ => queue < 4096
  | .queueDisable _ queue _ => queue < 4096
  | .queueRestart _ queue => queue < 4096
  | .dispatchTake _ _ => true
  | .launch queue context => queue < 4096 && context < 16384
  | .patch queue => queue < 4096
  | .fenceWait queue => queue < 4096
  | .cancel queue => queue < 4096
  | .queueNop queue => queue < 4096
  | .armatureLaunch entry context => entry < 256 && context < 16384
  | .contextCmdWrite _ context _ => context < 16384
  | .graphEntryWrite _ graph word _ => graph < 4096 && word < 8
  | .armatureEntryWrite _ entry word _ => entry < 256 && word < 8
  | .frameReceive port lane _ _ _ _ => port < maxLinkPorts && lane < 5
  | .frameMiss port lane => port < maxLinkPorts && lane < 5
  | .couchEntryReceive port _ => port < maxLinkPorts
  | .fragmentReceive port _ => port < maxLinkPorts
  | .reassemblyTimeout => true
  | .epochNotice => true
  | .helloSend => true
  | .neighbourExpiry port => port < maxLinkPorts
  | .electionStable => true
  | .linkPortEnable _ port _ => port < maxLinkPorts
  | .linkPortDisable _ port _ => port < maxLinkPorts
  | .measureEnd port => port < maxLinkPorts
  | .linkDownTimeout port => port < maxLinkPorts
  | .laneFailure port lane => port < maxLinkPorts && lane < 5
  | .laneSwitchEffective port => port < maxLinkPorts
  | .routeTableWrite _ index _ => index < 512
  | .fabricAddressWrite _ _ => true
  | .clientBindingWrite _ client _ => client < 64
  | .ucieBind _ port _ => port < maxLinkPorts
  | .cpoll port source queue _ _ => port < maxLinkPorts && source < 65536 && queue < 4096
  | .bootStart _ _ => true
  | .bootImageLoad role _ _ => role < 2
  | .dispatcherEnable _ _ => true
  | .dispatcherRestart _ => true
  | .keeperRestart _ => true
  | .processorMemoryUncorrectable _ => true
  | .kick _ _ => true
  | .watchdogExpiry _ => true
  | .coverWrite _ core _ => core < maxCores
  | .mailboxEnable _ mailbox _ => mailbox < 8
  | .mailboxDictRead mailbox => mailbox < 8
  | .mailboxDictWrite mailbox => mailbox < 8
  | .completionAreaReclaim mailbox => mailbox < 8
  | .mailboxQueueRestart mailbox => mailbox < 8
  | .mailboxQueueStatus mailbox => mailbox < 8
  | .want source _ => source < 65536
  | .lostSuspect source _ => source < 65536
  | .lost _ => true
  | .continuationAdmit context => context < 16384
  | .hoopOpen _ hoop _ => hoop < maxHoops
  | .hoopClose _ hoop _ => hoop < maxHoops
  | .hoopRangeWrite _ hoop which _ => hoop < maxHoops && 1 ≤ which && which < 4
  | .windowApply _ => true
  | .keyInstall _ hoop => hoop < maxHoops
  | .keyErase _ hoop => hoop < maxHoops
  | .keySweepDone hoop => hoop < maxHoops
  | .lifecycleCommand _ => true
  | .dbgPermit permit => permit.length == 256
  | .permitVerified => true
  | .debugLevelExpiry => true
  | .debugHalt _ => true
  | .debugResume _ => true
  | .dbgAccess _ offset _ => offset % 4 == 0
  | .debugApertureAccess _ _ => true
  | .dbgNonce => true
  | .idcode => true
  | .bypass => true
  | .samplePreload _ _ => true
  | .extest _ => true
  | .bootStatus => true
  | .dbgLevel => true
  | .attachTargetRequest _ _ _ => true
  | .attachInitiatorResponse _ _ _ => true
  | .pllStart _ => true
  | .pllStop _ => true
  | .pllLocked => true
  | .aclkSwitch _ _ => true
  | .pclkSwitch _ _ => true
  | .mclkSwitch _ _ => true
  | .domainSwitchDone domain => domain < 3
  | .clockMonitorWrite _ _ => true
  | .porz _ => true
  | .warmz _ => true
  | .warmResetRequest _ => true
  | .coreReset _ _ => true
  | .tambourReset _ _ => true
  | .railFault rail => rail < 9
  | .powerRequestRun _ => true
  | .powerRequestPark _ => true
  | .powerRequestSleep _ => true
  | .rampEnd => true
  | .wakeBeat index => index < 8
  | .wakeFrameMatch index _ => index < 4
  | .wakeThermal => true
  | .thermalSample sensors => sensors.all (· < 256)
  | .governorEnable _ _ => true
  | .limitWrite _ limit _ => limit < 11
  | .telemetrySample volts amps => volts.length == 8 && amps.length == 8
  | .telemetryDeadline => true
  | .apportionment => true
  | .energyUnitEnable _ _ => true
  | .calibrationWrite _ index _ => index < 17
  | .samplerSign _ _ => true
  | .samplerSignDone => true
  | .snapshotGo _ _ => true
  | .snapshotCapture => true
  | .mgmtFrameReceive _ => true
  | .mgmtOpen _ => true
  | .mgmtConfirm _ => true
  | .requestRead _ => true
  | .requestWrite _ => true
  | .requestRepeat _ => true
  | .mgmtClose _ => true
  | .sessionTimeout => true
  | .warmResetBootStart => true
  | .coreRailPowerGood => true
  | .apertureAccess _ _ hoop _ _ => hoop < maxHoops

end Sys2Proof
end

