-- ==== Sys2Proof/Tests/Slice0.lean ====
section
/-! SUPPORT. Tests of the model: a smoke test of WellFormed, single commands, and for the hypotheses of every statement a state and operands that meet
them. A test on fixed values is a check of the model, never a statement for the provers. -/

namespace Sys2Proof.Tests

open Sys2Proof Sys2Proof.Machine

set_option Elab.async false

/-- The block with ACLK, PCLK and MCLK running and fields of registers put. -/
def hwOf (fs : List (Fld × Nat × Nat)) (h : Hw := { clocks := { aclk := true, pclk := true, mclk := true } }) : Hw :=
  fs.foldl (fun h f => h.put f.1 f.2.1 f.2.2) h

/-- The state with that hardware. -/
def stOf (fs : List (Fld × Nat × Nat)) (f : Hw → Hw := id) : State := { hw := f (hwOf fs) }

/-- Little-endian values of n bytes placed in an area. -/
def memOf (xs : List (Nat × Nat × Nat × Nat)) : Mem := xs.foldl (fun m x => m.write x.1 x.2.1 (leBytes x.2.2.1 x.2.2.2)) []

/-- A pricking image of the minimum build in scratch at 4,096, from Table 2-4: epoch 1 from beat 2,000, one step of 4 beats, every core in Compute
or Drain, every table in one residue. -/
def imgCells : List (Nat × Nat × Nat × Nat) :=
  [(0, 4096, 4, 0x4B520002), (0, 4100, 2, 2), (0, 4104, 8, 1), (0, 4112, 8, 2000), (0, 4120, 8, paramsWord Config.minimumBuild), (0, 4136, 1, 31),
   (0, 4140, 2, 1), (0, 4142, 2, 1), (0, 4144, 2, 1), (0, 4146, 2, 1),
   (0, 4148, 4, 128), (0, 4152, 4, 1344), (0, 4156, 4, 2560), (0, 4160, 4, 2624), (0, 4164, 4, 2688), (0, 4168, 4, 2752), (0, 4172, 4, 2880),
   (0, 6656, 1, 2 + 4 * 2), (0, 6720, 4, 4), (0, 6728, 4, 77)]

/-- The minimum build with its clocks running, fields put, the image of `imgCells` active at 4,096, and its run in progress from beat 2,000. -/
def runOf (fs : List (Fld × Nat × Nat)) (f : Hw → Hw := id) (cells : List (Nat × Nat × Nat × Nat) := []) : State :=
  { hw := f (hwOf ((F.TM_PRK_ACTIVE_BASE, 1, 0) :: fs)
      { clocks := { aclk := true, pclk := true, mclk := true }, build := Config.minimumBuild, ticks := 2048000,
        time := { beat := 2000, beatStart := 2048000 },
        run := { on := true, member := true, f := 2000, len := 4, stepId := 77, epochStart := 2000 }, runNumber := 1 })
    mem := memOf (imgCells ++ cells) }

/-- A core of a run in progress, bound to it, with a NOP at HEAD stamped 0. -/
def boundCore : Core := { seq := { bound := true, boundRun := 1, f := 2000, seg := some (5, 0), runHoop := some 0, segs := [5], bank0 := [(0, 0#256)] } }

/-- The run with that core as core 1, and its ring published up to 1. -/
def segState (fs : List (Fld × Nat × Nat) := []) (f : Hw → Hw := id) (cells : List (Nat × Nat × Nat × Nat) := []) (iw : InstrWord := 0#256)
    (g : Core → Core := id) : State :=
  runOf ([(F.CR_SEQ_STATUS_STATE, 1, 1), (F.CR_SEQ_CTRL_ENABLE, 1, 1), (F.CR_SEQ_RING_TAIL_POS, 1, 1), (F.CR_SEQ_BANK_VALID0, 1, 1)] ++ fs)
    (fun h => f { h with cores := [(1, g { boundCore with seq := { boundCore.seq with bank0 := [(0, iw)] } })] }) cells

/-- An instruction word from fields: byte, lowest bit, width, value. -/
def wd (fs : List (Nat × Nat × Nat × Nat)) : InstrWord := fs.foldl (fun w f => withField w f.1 f.2.1 f.2.2.1 f.2.2.2) 0

/-- Bytes from values: offset, length, value. -/
def bytesOf (n : Nat) (xs : List (Nat × Nat × Nat)) : List Byte := leBytes n (xs.foldl (fun a x => a + x.2.2 * 2 ^ (8 * x.1)) 0)

/-! Witnesses: the step, the state and the shared operations. -/

theorem witness_StepTakesTheFrontCommand : (⟨[.idcode], [], {}⟩ : State).pending = Instr.idcode :: [] := by decide

theorem witness_EmptyQueueLetsOneCyclePass :
    (fun s : State => s.pending = [] ∧ s.hw.clocks.aclk = true ∧ s.hw.ticks ≤ s.hw.time.beatStart + s.hw.beatTicks ∧ s.hw.Calm ∧ s.hw.Still) (stOf []) := by
  decide +kernel

theorem witness_EveryStepKeepsTheInvariant :
    State.reset.Inv ∧ (match step State.reset with | .next _ => true | _ => false) = true := by unfold State.Inv; decide +kernel

theorem witness_RegistersKeepWhatIsWritten :
    F.TM_CTRL_ENABLE.lo + F.TM_CTRL_ENABLE.w ≤ 8 * F.TM_CTRL_ENABLE.reg.desc.size ∧
    (fun f g : Fld => g.reg = f.reg ∧ f.lo + f.w ≤ 8 * f.reg.desc.size ∧ g.lo + g.w ≤ 8 * f.reg.desc.size ∧
      (g.lo + g.w ≤ f.lo ∨ f.lo + f.w ≤ g.lo)) F.TM_CTRL_ENABLE F.TM_CTRL_SOURCE ∧
    ((Reg.TM_TRIM, 0) : Reg × Nat) ≠ (.TM_CTRL, 0) := by decide +kernel

theorem witness_NothingDueNothingMoves : (stOf []).hw.Calm ∧ (stOf []).work.hw.Still := by decide +kernel

theorem witness_MemoryKeepsWhatIsStored :
    0 < [(5#8 : Byte)].length ∧ ∀ i, i < [(5#8 : Byte)].length → Mem.key Area.block 8 ≠ Mem.key Area.block (7 + i) := by decide +kernel

theorem witness_PlainWriteByBits : 31 < 32 ∧ Nat.land 0x3 0x8 = 0 := by decide

theorem witness_RegisterWritesFollowTheirWriters :
    (fun (s : State) (off : Nat) (p : Place) => off < 2 ^ 28 ∧ off % 4 = 0 ∧ (placeOf off).any (fun q => q.reg == p.reg && q.idx == p.idx && q.hi == p.hi) = true ∧
      p.reg ∈ plainRegs ∧ Hw.isMailbox off = false ∧ s.hw.served off = true ∧ s.hw.built p = true ∧ Hw.mayWrite .keeper p.reg = true ∧
      p.hi = false ∧ (s.hw.mayDebug true (some p) = true)) (stOf []) (Reg.desc .HP_WSEL).base { reg := .HP_WSEL, idx := 0, outer := 0, hi := false } ∧
    sdcBit .HP_WSEL = none ∧
    (0xFFFFFFC < 2 ^ 28 ∧ (placeOf 0xFFFFFFC).isNone = true ∧ Hw.isMailbox 0xFFFFFFC = false) ∧
    (fun (s : State) (off : Nat) (p : Place) => off < 2 ^ 28 ∧ off % 4 = 0 ∧ (placeOf off).any (fun q => q.reg == p.reg && q.idx == p.idx) = true ∧
      s.hw.served off = true ∧ s.hw.built p = true ∧ Hw.mayWrite .dispatcher p.reg = false) (stOf []) (Reg.desc .TM_CTRL).base
        { reg := .TM_CTRL, idx := 0, outer := 0, hi := false } := by decide +kernel

theorem witness_TmNowCapturesThePhase : (stOf []).hw.served 0x300008 = true ∧ (stOf []).hw.served 0x300010 = true := by decide +kernel
/-! Witnesses: reason codes, fabric time, the fault unit. -/

theorem witness_ARefusalIsLoggedAndChangesNothing :
    Rc.CFG_RANGE / 0x1000 = 1 ∧ F.TM_STATUS_REASON.reg ≠ .LK_ADDR ∧ (stOf []).hw.faultLog.length < 1024 := by decide +kernel

theorem witness_ARaiseInTheRunAborts :
    (fun (h : Hw) (src : Src) (code : Nat) => h.run.on = true ∧ h.ab.on = false ∧ src.inRun = true ∧ src.refusal = false ∧ src.halting = false ∧
      src.reason = none ∧ code < 2 ^ 16 ∧ responseOf code true false false = 2 ∧ h.inSettle = false ∧ h.faultLog.length < 1024 ∧ h.run.mirrored = false)
      (runOf []).hw { unit := 0xA0, inRun := true } Rc.TIM_LATE_ISSUE := by decide +kernel

theorem witness_TimeUnitWritesTakeEffect :
    (fun (s : State) (v : Nat) => s.hw.Takes .keeper .TM_CTRL 0 ∧ s.hw.tmState = tmFree ∧ s.hw.on F.TM_CTRL_ENABLE = false ∧
      (bits 1 3 v ≤ 2 ∧ bits 4 5 v < s.hw.build.linkports ∧ (bits 9 5 v = 31 ∨ bits 9 5 v < s.hw.build.linkports) ∧ bits 17 3 v ≤ 4) ∧
      bits 1 3 v = 0 ∧ bits 14 3 v = 0) (stOf []) 1 ∧
    (fun s : State => s.hw.Takes .keeper .TM_CTRL 0 ∧ s.hw.tmState = tmMaster ∧ s.hw.rd .TM_CTRL 0 < 2 ^ 20)
      (stOf [(F.TM_STATUS_STATE, tmMaster, 0), (F.TM_CTRL_ENABLE, 1, 0)]) ∧
    (fun (s : State) (v : Nat) => s.hw.Takes .keeper .TM_TRIM 0 ∧ bits 0 2 v = 2 ∧ 1 ≤ bits 4 4 v ∧ bits 8 4 v ≤ 7 ∧ 8 ≤ bits 12 4 v ∧
      bit 3 v = false ∧ bit 2 v = false) (stOf []) 0x8712 ∧
    (fun s : State => s.hw.Takes .keeper .TM_PRK_SHADOW 0 ∧ s.hw.on F.TM_EPOCH_CTRL_ARM = false) (stOf []) ∧
    (fun s : State => s.hw.Takes .keeper .TM_EPOCH_CTRL 0 ∧ s.hw.on F.TM_EPOCH_CTRL_ARM = true ∧
      s.hw.time.beat + 1024 < Img.startBeat s.mem (s.hw.get F.TM_PRK_SHADOW_BASE * 4096))
      { stOf [(F.TM_EPOCH_CTRL_ARM, 1, 0), (F.TM_PRK_SHADOW_BASE, 1, 0)] with mem := memOf imgCells } := by decide +kernel

theorem witness_TimeUnitWritesTakeEffect_arm :
    (fun s : State => s.hw.Takes .keeper .TM_EPOCH_CTRL 0 ∧ s.hw.on F.TM_EPOCH_CTRL_ARM = false ∧ s.hw.badWords = [] ∧ s.hw.isMaster = false ∧
      s.hw.bootPhase ≠ 5 ∧ s.hw.armCheck s.mem (s.hw.get F.TM_PRK_SHADOW_BASE * 4096) false = 0)
      { hw := hwOf [(F.TM_PRK_SHADOW_BASE, 1, 0)] { clocks := { aclk := true }, build := Config.minimumBuild }, mem := memOf imgCells } := by decide +kernel

theorem witness_ThePlinthCountsBeats : State.reset.hw.clocks.aclk = false ∧ State.reset.hw.power.limitNext = [] := by decide

theorem witness_MarksDisciplineTheTimeUnit :
    (fun (s : State) (p : Nat) => s.hw.clocks.aclk = true ∧ p < s.hw.build.linkports ∧ s.hw.tmState = tmAcquire ∧ s.hw.time.acquired = false ∧
      s.hw.get F.TM_CTRL_SOURCE = 1 ∧ s.hw.get F.TM_CTRL_PORT = p)
      (stOf [(F.TM_CTRL_SOURCE, 1, 0), (F.TM_CTRL_PORT, 3, 0), (F.TM_STATUS_STATE, tmAcquire, 0)]) 3 ∧
    (fun s : State => s.hw.clocks.aclk = true ∧ s.hw.get F.TM_CTRL_SOURCE = 2 ∧ s.hw.tmState = tmAcquire ∧ s.hw.time.acquired = false ∧
      s.hw.time.tracked = some (7, 1024))
      (stOf [(F.TM_CTRL_SOURCE, 2, 0), (F.TM_STATUS_STATE, tmAcquire, 0)] (fun h => { h with time := { tracked := some (7, 1024) } })) ∧
    (fun s : State => s.hw.clocks.aclk = true ∧ s.hw.tmState = tmLocked ∧ s.hw.time.onBackup = false ∧ 4 ≤ s.hw.time.silentPrimary ∧
      s.hw.time.silentBackup < 4) (stOf [(F.TM_STATUS_STATE, tmLocked, 0)] (fun h => { h with time := { silentPrimary := 4, silentBackup := 3 } })) ∧
    (fun s : State => s.hw.clocks.aclk = true ∧ s.hw.tmState = tmLocked ∧ s.hw.time.onBackup = false ∧ 4 ≤ s.hw.time.silentPrimary ∧
      4 ≤ s.hw.time.silentBackup ∧ s.hw.isDeputy s.mem = false) (stOf [(F.TM_STATUS_STATE, tmLocked, 0)] (fun h => { h with time := { silentPrimary := 4 } })) ∧
    (fun s : State => s.hw.clocks.aclk = true ∧ s.hw.tmState = tmHoldover ∧ 1024 ≤ s.hw.time.holdBeats ∧ s.hw.on F.TM_STATUS_LOST = false ∧
      s.hw.faultLog.length < 1024) (stOf [(F.TM_STATUS_STATE, tmHoldover, 0)] (fun h => { h with time := { holdBeats := 1024 } })) := by decide +kernel

theorem witness_RunEventsHappenWhenDue :
    (fun s : State => s.hw.clocks.aclk = true ∧ s.hw.eventDue s.mem = false) (runOf []) ∧
    (fun s : State => s.hw.clocks.aclk = true ∧ s.hw.switchDueNow s.mem = true) (runOf [(F.TM_EPOCH_CTRL_ARM, 1, 0), (F.TM_PRK_SHADOW_BASE, 1, 0)]) ∧
    (fun s : State => s.hw.clocks.aclk = true ∧ s.hw.commitDueNow = true ∧ s.hw.switchDueNow s.mem = false)
      (runOf [] (fun h => { h with time := { beat := 2004 } })) ∧
    (fun s : State => s.hw.clocks.aclk = true ∧ s.hw.replayDueNow = true ∧ s.hw.switchDueNow s.mem = false)
      (runOf [(F.FT_STATUS_READY, 1, 0), (F.FT_REPLAY_BEAT, 2000, 0)] (fun h => { h with ab := { on := true } })) ∧
    (fun s : State => s.hw.clocks.aclk = true ∧ s.hw.nullDueNow = true ∧ s.hw.switchDueNow s.mem = false)
      (runOf [] (fun h => { h with ab := { on := true, abandoned := true, endBeat := 2000 } })) ∧
    (fun s : State => s.hw.Still ∧ s.hw.ab.fresh = false ∧ s.hw.commitDueNow = false ∧ s.hw.replayDueNow = false ∧ s.hw.nullDueNow = false) (runOf []) := by
  decide +kernel

theorem witness_SlackEndsInALateIssue :
    (fun (s : State) (c e t : Nat) => s.hw.clocks.aclk = true ∧ c < s.hw.physCores ∧ s.hw.slackOf c = some (e, t) ∧
      t < s.hw.time.beatStart + s.hw.beatTicks ∧ (s.hw.seq c).bound = true) (segState [] (fun h => h.onSeq 1 (fun q => { q with bindPos := some 0 }))) 1 2048000 2048004 := by decide +kernel

theorem witness_FaultUnitEnableRunsItsCheck :
    (fun (s : State) => s.hw.Takes .keeper .FT_CTRL 0 ∧ s.hw.on F.FT_CTRL_ENABLE = false ∧ bits 1 3 3 ≠ 0 ∧ s.hw.faultLog.length < 1024) (stOf []) ∧
    (stOf []).hw.on F.SY_CTRL_ENABLE = false ∧
    (fun (s : State) => s.hw.Takes .keeper .FT_CTRL 0 ∧ s.hw.on F.FT_CTRL_ENABLE = false ∧ s.hw.on F.SY_CTRL_ENABLE = true)
      (stOf [(F.SY_CTRL_ENABLE, 1, 0)]) := by decide +kernel

theorem witness_FaultUnitCommandsTakeEffect :
    (fun (s : State) => s.hw.Takes .keeper .FT_LOG_POP 0 ∧ s.hw.faultLog = ⟨0, 1, 2, 3, 4, 5, 6, 7, 3, 8⟩ :: [])
      (stOf [] (fun h => { h with faultLog := [⟨0, 1, 2, 3, 4, 5, 6, 7, 3, 8⟩] })) ∧
    (fun (s : State) => s.hw.Takes .keeper .FT_SPARE 0 ∧ 0x1F % 16 < s.hw.build.cores ∧ s.hw.spareStandby = true)
      (stOf ([F.CR_SEQ_CTRL_ENABLE, F.CR_ARR_CTRL_ENABLE, F.CR_DRN_CTRL_ENABLE, F.CR_MAC_CTRL_ENABLE, F.BB_CTRL_ENABLE, F.CR_MM_CTRL_ENABLE].map
        (fun f => (f, 1, 16)))) ∧
    (stOf []).hw.Takes .keeper .FT_LOST 127 ∧
    (fun (s : State) (c : Nat) => s.hw.clocks.aclk = true ∧ c < s.hw.physCores ∧ s.hw.ab.on = true ∧ (s.hw.arr c).passes = [] ∧
      s.hw.on F.FT_STATUS_READY = false ∧ s.hw.cores = [] ∧ s.hw.ab.abandoned = false ∧ s.hw.ab.noReplay = false)
      (runOf [(F.FT_STATUS_READY, 0, 0)] (fun h => { h with ab := { on := true } })) 1 ∧
    (fun (s : State) (n : Nat) => s.hw.clocks.aclk = true ∧ s.hw.spare.pendingFor = some n ∧ s.hw.ab.on = true ∧ (s.hw.arr n).passes = [] ∧
      s.hw.spareStandby = true)
      (stOf ([F.CR_SEQ_CTRL_ENABLE, F.CR_ARR_CTRL_ENABLE, F.CR_DRN_CTRL_ENABLE, F.CR_MAC_CTRL_ENABLE, F.BB_CTRL_ENABLE, F.CR_MM_CTRL_ENABLE].map
        (fun f => (f, 1, 16))) (fun h => { h with ab := { on := true }, spare := { pendingFor := some 3 } })) 3 := by decide +kernel
/-! Witnesses: the array. -/

theorem witness_ArrayRegistersTakeEffect :
    (fun (s : State) (c : Nat) => s.hw.Takes .keeper .CR_ARR_CTRL c ∧ s.hw.on F.CR_ARR_CTRL_ENABLE c = false ∧ bit 1 1 = false ∧
      s.hw.spareMapOk c = true ∧ s.hw.spareVerified c = true) (stOf []) 16 ∧
    (fun (s : State) (c : Nat) => s.hw.Takes .keeper .CR_ARR_CTRL c ∧ s.hw.on F.CR_ARR_CTRL_ENABLE c = true ∧ bit 1 0 = s.hw.on F.CR_ARR_CTRL_TREE c ∧
      (s.hw.arr c).passes = []) (stOf [(F.CR_ARR_CTRL_ENABLE, 1, 3)]) 3 ∧
    (stOf []).hw.Takes .keeper .CR_ARR_SPARE 16 ∧ (stOf []).hw.on F.CR_ARR_CTRL_ENABLE 16 = false ∧
    (fun s : State => s.hw.Takes .keeper .CR_ARR_SPARE 3 ∧ s.hw.on F.CR_ARR_CTRL_ENABLE 3 = true) (stOf [(F.CR_ARR_CTRL_ENABLE, 1, 3)]) ∧
    (fun s : State => s.hw.Takes .keeper .CR_ARR_TREE 2 ∧ s.hw.on F.CR_ARR_CTRL_ENABLE 2 = false ∧ s.hw.on F.CR_ARR_CTRL_TREE 2 = true ∧
      s.hw.on F.CR_ARR_TREE_START 2 = false ∧ bits 0 10 513 ≤ s.hw.build.arrayRows + 1) (stOf [(F.CR_ARR_CTRL_TREE, 1, 2)]) ∧
    (fun s : State => s.hw.clocks.aclk = true ∧ 2 < s.hw.physCores ∧ (s.hw.arr 2).treeDue = some 9 ∧ s.hw.get F.CR_ARR_TREE_OP 2 = 2)
      (stOf [(F.CR_ARR_TREE_OP, 2, 2)] (fun h => { h with cores := [(2, { arr := { treeDue := some 9 } })] })) ∧
    (fun s : State => s.hw.clocks.aclk = true ∧ 2 < s.hw.physCores ∧ (s.hw.arr 2).scrubDue = some 9)
      (stOf [] (fun h => { h with cores := [(2, { arr := { scrubDue := some 9 } })] })) := by decide +kernel

/-- A load of mode W and a pass over one row, queued. -/
def qLoad : ArrLoad := { mode := 0, fmt := 0, pfmt := 0, kRows := 1, cols := 1, accumulate := false, tile := 0, bank := 0, line := 0 }
def qPass : ArrPass :=
  { mode := 0, fmtA := 0, fmtB := 0, kRows := 1, cols := 1, len := 1, tile := 0, line0 := 0, accumulate := false, sealing := true, swap := false, csum := false,
    rowMask := 0, colMask := 0, bankA := 0, lineA := 0, bankB := 0, lineB := 0 }

theorem witness_ArrayWorkMovesOn :
    (fun (s : State) (c : Nat) (l : ArrLoad) => s.hw.clocks.aclk = true ∧ c < s.hw.physCores ∧ s.hw.Still ∧ s.hw.ab.fresh = false ∧
      (s.hw.arr c).loads.filter (·.started.isNone) = l :: [] ∧ s.hw.arrHeld c = false ∧ (s.hw.arr c).standbyReady = false ∧ (l.mode = 2 → l.accumulate = false) ∧
      max s.hw.ticks (s.hw.loadFree c) < s.hw.time.beatStart + s.hw.beatTicks)
      (stOf [(F.CR_ARR_CTRL_ENABLE, 1, 1)] (fun h => { h with cores := [(1, { arr := { loads := [qLoad] } })] })) 1 qLoad ∧
    (fun (s : State) (c : Nat) (p : ArrPass) => s.hw.clocks.aclk = true ∧ c < s.hw.physCores ∧ s.hw.Still ∧ s.hw.ab.fresh = false ∧
      (s.hw.arr c).passes.filter (·.started.isNone) = p :: [] ∧ s.hw.passFree s.mem c p = true ∧ (p.swap = true → (s.hw.arr c).standbyReady = true) ∧
      max s.hw.ticks (s.hw.feedFree c) < s.hw.time.beatStart + s.hw.beatTicks)
      (runOf [(F.CR_ARR_CTRL_ENABLE, 1, 1)] (fun h => { h with cores := [(1, { arr := { passes := [qPass] } })] })) 1 qPass ∧
    (fun (s : State) (c : Nat) (p : ArrPass) => s.hw.clocks.aclk = true ∧ c < s.hw.physCores ∧ s.hw.Still ∧ s.hw.ab.fresh = false ∧
      (s.hw.arr c).passes = p :: [] ∧ p.started = some 8 ∧ (s.hw.arr c).badReads = [] ∧ (s.hw.arr c).stopTick = none ∧ (s.hw.arr c).discard = false)
      (stOf [(F.CR_ARR_CTRL_ENABLE, 1, 1)] (fun h => { h with cores := [(1, { arr := { passes := [{ qPass with started := some 8 }] } })] })) 1
      { qPass with started := some 8 } ∧
    (fun (s : State) (c : Nat) (p : ArrPass) => (s.hw.arr c).passes = p :: [] ∧ p.started = some 8 ∧ (s.hw.arr c).discard = true)
      (stOf [] (fun h => { h with cores := [(1, { arr := { passes := [{ qPass with started := some 8 }], discard := true } })] })) 1
      { qPass with started := some 8 } ∧
    (fun (s : State) => s.hw.clocks.aclk = true ∧ 16 < s.hw.physCores ∧ s.hw.Still ∧ s.hw.ab.fresh = false ∧ s.hw.run.on = false ∧
      s.hw.faultLog.length < 1024) (stOf []) := by decide +kernel
/-! Witnesses: the issue of instructions. Core 1 of the minimum build, bound to the run in a Compute beat. -/

/-- The core issuing, with its array enabled and a mode-W bank loaded. -/
def arrState : State :=
  segState [(F.CR_ARR_CTRL_ENABLE, 1, 1), (F.CR_DRN_CTRL_RB_BANKS, 1, 1)] id [] 0 (fun k => { k with arr := { active := { loaded := true } }, queues := [(4, [{ kind := 0, bytes := [] }])] })

theorem witness_InstructionsIssueByTheCommonRule_scalar :
    issuesNow segState 1 (withOp 0 0x00) nopRule ∧ issuesNow segState 1 (withOp 0 0x02) (loopRule 1 (withOp 0 0x02)) ∧
    issuesNow segState 1 (withOp (wd [(8, 3, 10, 1)]) 0x03) (skipcRule 1 (withOp (wd [(8, 3, 10, 1)]) 0x03)) ∧
    issuesNow segState 1 (withOp (wd [(8, 0, 4, 15), (16, 0, 64, 2 ^ 64 - 1)]) 0x08) (sliRule 1 (withOp (wd [(8, 0, 4, 15), (16, 0, 64, 2 ^ 64 - 1)]) 0x08)) ∧
    issuesNow segState 1 (withOp (wd [(8, 16, 4, 9)]) 0x09) (saluRule 1 (withOp (wd [(8, 16, 4, 9)]) 0x09)) ∧
    issuesNow segState 1 (withOp 0 0x0A) (sldRule 1 (withOp 0 0x0A)) ∧ issuesNow segState 1 (withOp 0 0x0B) (sstRule 1 (withOp 0 0x0B)) ∧
    issuesNow segState 1 (withOp (wd [(8, 9, 1, 1)]) 0x0C) (sqdRule 1 (withOp (wd [(8, 9, 1, 1)]) 0x0C)) ∧
    issuesNow segState 1 (withOp 0 0x0E) (cmpRule 1 (withOp 0 0x0E)) := by unfold issuesNow; (repeat' apply And.intro) <;> decide +kernel

theorem witness_ScalarInstructionsWriteTheirResults :
    (segState.hw.Still ∧ segState.hw.ab.fresh = false ∧ (segState.hw.seq 1).loops = [] ∧ (segState.hw.seq 1).sldPending = [] ∧
      (segState.hw.seq 1).sel.getD 7 0 ≠ 1) ∧
    (fun iw : InstrWord => issuesNow segState 1 iw (ctrRule 1 iw)) (withField (withOp (wd [(8, 0, 3, 7)]) 0x0D) 8 4 2 0) ∧
    (fun iw : InstrWord => issuesNow segState 1 iw (ctrRule 1 iw)) (withField (withOp (wd [(8, 0, 3, 7)]) 0x0D) 8 4 2 1) ∧
    (fun iw : InstrWord => issuesNow segState 1 iw (ctrRule 1 iw)) (withField (withOp (wd [(8, 8, 8, 15)]) 0x0D) 8 4 2 2) := by
  unfold issuesNow; (repeat' apply And.intro) <;> decide +kernel

theorem witness_InstructionsIssueByTheCommonRule_array :
    (fun iw : InstrWord => issuesNow arrState 1 iw (loadRule 1 iw)) (withOp (wd [(8, 6, 10, 1), (8, 16, 7, 1)]) 0x20) ∧
    (fun iw : InstrWord => issuesNow arrState 1 iw (passRule 1 iw)) (withOp (wd [(8, 10, 10, 1), (8, 20, 7, 1), (12, 0, 13, 1)]) 0x21) ∧
    (fun iw : InstrWord => issuesNow arrState 1 iw (drainRule 1 iw)) (withOp (wd [(8, 13, 10, 1), (8, 27, 5, 3), (12, 8, 4, 6)]) 0x22) ∧
    (fun iw : InstrWord => issuesNow arrState 1 iw (cvtRule 1 iw)) (withOp (wd [(8, 0, 10, 1), (8, 24, 5, 3)]) 0x23) ∧
    (fun iw : InstrWord => issuesNow arrState 1 iw (vopRule 1 iw)) (withOp (wd [(8, 8, 5, 0x1E), (8, 23, 5, 4), (12, 0, 32, 1)]) 0x30) ∧
    (fun iw : InstrWord => issuesNow arrState 1 iw (vldRule 1 iw)) (withOp (wd [(8, 0, 5, 4), (16, 0, 32, 1)]) 0x31) ∧
    (fun iw : InstrWord => issuesNow arrState 1 iw (vstRule 1 iw)) (withOp (wd [(8, 0, 5, 4), (16, 0, 32, 1)]) 0x32) := by
  unfold issuesNow; (repeat' apply And.intro) <;> decide +kernel

theorem witness_InstructionsIssueByTheCommonRule_blocks :
    (fun (s : State) (iw : InstrWord) => issuesNow s 1 iw (voptRule 1 iw))
      (segState [(F.CR_DRN_CTRL_RB_BANKS, 1, 1)] id [(17, 48, 4, 1)]) (withOp 0 0x33) ∧
    (fun (s : State) (iw : InstrWord) => issuesNow s 1 iw (bindRule 1 iw))
      (segState [] id [(17, 16, 4, 1), (17, 20, 4, 1), (17, 24, 4, 64)]) (withOp 0 0x28) ∧
    (fun (s : State) (iw : InstrWord) => issuesNow s 1 iw (bbarmRule 1 iw)) (segState [] id [(17, 2, 1, 1), (17, 3, 1, 0x1F)]) (withOp 0 0x18) ∧
    (fun iw : InstrWord => issuesNow segState 1 iw (bbcanRule 1 iw)) (withOp 0 0x19) := by unfold issuesNow; (repeat' apply And.intro) <;> decide +kernel

/-- Descriptors of one element, and a parameter block of one of each, at 0 of matrix memory. -/
def macState (two : Bool) : State :=
  let td (f : Nat) : List Byte := bytesOf 64 [(16, 4, 1), (20, 4, 1), (24, 4, 64), (28, 1, f)]
  segState [(F.CR_MAC_CTRL_ENABLE, 1, 1), (F.CR_DRN_CTRL_RB_BANKS, 1, 1)] id
    ([(17, 2, 1, 1), (17, 4, 2, 2), (17, 7, 1, 1), (17, 12, 4, 1), (17, 16, 4, 256), (17, 20, 4, 257), (17, 36, 2, 0xFFFF)] ++
      (if two then [(17, 30, 2, 1), (17, 40, 4, 258)] else [])) 0
    (fun k => { k with descs := [(0, [td 0]), (1, if two then [td 0, td 0] else [td 0]), (3, [td 6])] })

theorem witness_InstructionsIssueByTheCommonRule_macros :
    (fun (s : State) (iw : InstrWord) => issuesNow s 1 iw (mmulRule 1 false)) (macState false) (withOp 0 0x29) ∧
    (fun (s : State) (iw : InstrWord) => issuesNow s 1 iw (mmulRule 1 true)) (macState true) (withOp 0 0x2A) := by unfold issuesNow; (repeat' apply And.intro) <;> decide +kernel

theorem witness_InstructionsIssueByTheCommonRule : (Instr.nop 1 0, withOp 0 0x00, nopRule) ∈ instrRows 1 0 := by simp [instrRows]

theorem witness_TheWordAtHeadIssues :
    segState.hw.clocks.aclk = true ∧ 1 < segState.hw.physCores ∧ segState.hw.wordAtHead 1 = some 0 ∧ (segState.hw.seq 1).badPos.contains (segState.hw.head 1) = false ∧
    iop 0 = 0x00 := by decide +kernel

theorem witness_ABadInstructionHaltsItsCore :
    (fun (s : State) (iw : InstrWord) => s.hw.clocks.aclk = true ∧ 1 < s.hw.physCores ∧ s.hw.mayIssue 1 = true ∧ (s.hw.seq 1).skip = .none ∧ s.hw.Still ∧
      s.hw.ab.fresh = false ∧ s.hw.run.on = false ∧ reservedOk iw = false ∧ (s.hw.seq 1).badPos = [])
      (segState [] (fun h => { h with run := {} })) (withOp (wd [(28, 0, 8, 1)]) 0x00) ∧
    (fun (s : State) (iw : InstrWord) => s.hw.mayIssue 1 = true ∧ s.hw.Still ∧ s.hw.run.on = false ∧ reservedOk iw = true ∧ ifld iw 7 0 1 = 0 ∧
      (s.hw.seq 1).seg = none)
      (segState [] (fun h => { h with run := {} }) [] 0 (fun k => { k with seq := { k.seq with seg := none } })) (withOp 0 0x00) ∧
    (fun (s : State) (iw : InstrWord) => s.hw.mayIssue 1 = true ∧ s.hw.Still ∧ s.hw.run.on = false ∧ s.hw.wordAtHead 1 = some iw ∧ iop iw ∉ opcodes)
      (segState [] (fun h => { h with run := {} }) [] (withOp 0 0xFF)) (withOp 0 0xFF) ∧
    (fun h : Hw => h.run.on = false ∧ h.faultLog.length < 1024 ∧ h.on F.CR_SEQ_STATUS_HALT 1 = false ∧ 0xFF < 256 ∧ (h.seq 1).loops.length < 256)
      (segState [] (fun h => { h with run := {} })).hw := by decide +kernel

theorem witness_LoopsAndSkipsMoveHead :
    (fun iw : InstrWord => issuesNow segState 1 iw (loopRule 1 iw) ∧ ifld iw 12 0 32 = 16777215) (withOp (wd [(12, 0, 32, 16777215)]) 0x02) := by
  unfold issuesNow; (repeat' apply And.intro) <;> decide +kernel

theorem witness_SegOpensItsSegment :
    (fun (s : State) (iw : InstrWord) => s.hw.Still ∧ s.hw.ab.fresh = false ∧ s.hw.mayIssue 1 = true ∧ reservedOk iw = true ∧ ifld iw 7 0 1 = 0 ∧
      s.hw.ctxState (ifld iw 8 0 14) = 1 ∧ bit ((s.hw.logicalOf 1).getD 0) (s.hw.rd .HP_CORES (s.hw.get F.CTX_STATE_HOOP (ifld iw 8 0 14))) = true ∧
      s.hw.ctxNext = [] ∧ (s.hw.seq 1).bankReq = none ∧ ifld iw 8 14 1 = 0 ∧ (s.hw.seq 1).skip = .none ∧
      (s.hw.seq 1).runHoop.all (· == s.hw.get F.CTX_STATE_HOOP (ifld iw 8 0 14)) = true ∧ s.hw.effStamp 1 iw < 2 ^ 28 ∧
      (s.hw.seq 1).lastStamp ≤ s.hw.effStamp 1 iw ∧ s.hw.effStamp 1 iw / 256 < s.hw.run.len ∧ (s.hw.seq 1).f + s.hw.effStamp 1 iw / 256 ≤ s.hw.time.beat ∧
      max s.hw.ticks (max (s.hw.tickOf ((s.hw.seq 1).f + s.hw.effStamp 1 iw / 256) (s.hw.effStamp 1 iw % 256)) (s.hw.seq 1).nextIssue) ≤
        s.hw.tickOf ((s.hw.seq 1).f + s.hw.effStamp 1 iw / 256) (s.hw.effStamp 1 iw % 256) + 4 * ifld iw 4 0 16 + 3)
      (segState [(F.CTX_STATE_STATE, 1, 9)] (fun h => h.wr .HP_CORES 0 2)) (withOp (wd [(8, 0, 14, 9)]) 0x01) ∧
    (fun (s : State) (iw : InstrWord) => s.hw.Still ∧ s.hw.ab.fresh = false ∧ s.hw.mayIssue 1 = true ∧ reservedOk iw = true ∧ ifld iw 7 0 1 = 0 ∧
      s.hw.ctxState (ifld iw 8 0 14) = 2 ∧ bit ((s.hw.logicalOf 1).getD 0) (s.hw.rd .HP_CORES (s.hw.get F.CTX_STATE_HOOP (ifld iw 8 0 14))) = true ∧
      ifld iw 8 14 1 = 1 ∧ s.hw.binding 1 = false ∧ s.hw.mayBind 1 = true ∧ ifld iw 16 0 8 = s.hw.get F.TM_EPOCH_EPOCH % 256 ∧ ifld iw 12 0 32 = s.hw.run.stepId ∧
      ifld iw 0 0 20 < s.hw.run.len ∧ s.hw.run.f + ifld iw 0 0 20 ≤ s.hw.time.beat ∧
      max s.hw.ticks (max (s.hw.tickOf (s.hw.run.f + ifld iw 0 0 20) (ifld iw 0 20 8)) (s.hw.seq 1).nextIssue) ≤
        s.hw.tickOf (s.hw.run.f + ifld iw 0 0 20) (ifld iw 0 20 8) + 4 * ifld iw 4 0 16 + 3)
      (segState [(F.CTX_STATE_STATE, 2, 9)] (fun h => h.wr .HP_CORES 0 2) [] 0 (fun k => { k with seq := { k.seq with bound := false, boundRun := 0 } }))
      (withOp (wd [(8, 0, 14, 9), (8, 14, 1, 1), (12, 0, 32, 77)]) 0x01) := by decide +kernel
/-! Witnesses: the sequencer's, the drain unit's and the macro unit's registers; the walker; synchronisation. -/

theorem witness_SequencerRegistersTakeEffect :
    (fun (s : State) (c v : Nat) => s.hw.Takes .dispatcher .CR_SEQ_RING_TAIL c ∧ s.hw.get F.CR_SEQ_RING_TAIL_POS c ≤ v ∧
      v < s.hw.get F.CR_SEQ_RING_TAIL_POS c + 2 ^ 31 ∧ s.hw.get F.CR_SEQ_RING_CHEAD_POS c ≤ s.hw.get F.CR_SEQ_RING_TAIL_POS c ∧
      v - s.hw.get F.CR_SEQ_RING_CHEAD_POS c ≤ s.hw.ringSize c / 32 ∧ s.hw.on F.CR_SEQ_BANK_VALID0 c = false ∧ s.hw.on F.CR_SEQ_BANK_VALID1 c = false)
      (stOf [(F.CR_SEQ_RING_SIZE_LOG2, 16, 1)]) 1 2048 ∧
    (fun (s : State) (c v old b : Nat) => s.hw.Takes .dispatcher .CR_SEQ_RING_TAIL c ∧ old = s.hw.get F.CR_SEQ_RING_TAIL_POS c ∧ b = old / 1024 * 1024 ∧ old < v ∧
      v ≤ b + 1024 ∧ s.hw.get F.CR_SEQ_RING_CHEAD_POS c ≤ old ∧ v - s.hw.get F.CR_SEQ_RING_CHEAD_POS c ≤ s.hw.ringSize c / 32 ∧
      s.hw.bankValid c (old / 1024 % 2) = true ∧ s.hw.bankPos c (old / 1024 % 2) = b)
      (stOf [(F.CR_SEQ_RING_SIZE_LOG2, 16, 1), (F.CR_SEQ_BANK_VALID0, 1, 1), (F.CR_SEQ_RING_TAIL_POS, 1023, 1)]) 1 1024 1023 0 ∧
    (fun (s : State) (c v : Nat) => s.hw.Takes .dispatcher .CR_SEQ_RING_TAIL c ∧
      (v + 2 ^ 32 - s.hw.get F.CR_SEQ_RING_CHEAD_POS c) % 2 ^ 32 > s.hw.ringSize c / 32) (stOf [(F.CR_SEQ_RING_SIZE_LOG2, 16, 1)]) 1 2049 ∧
    (stOf []).hw.Takes .dispatcher .CR_SEQ_BANK 16 ∧ 3 % 4 ≠ 0 ∧
    (fun (s : State) (c : Nat) => s.hw.Takes .keeper .CR_SEQ_CTRL c ∧ s.hw.on F.CR_SEQ_CTRL_ENABLE c = false ∧ 16 ≤ s.hw.get F.CR_SEQ_RING_SIZE_LOG2 c ∧
      s.hw.get F.CR_SEQ_RING_SIZE_LOG2 c ≤ 24 ∧ s.hw.get F.CR_SEQ_RING_BASE_BASE c * 4096 % 2 ^ s.hw.get F.CR_SEQ_RING_SIZE_LOG2 c = 0 ∧
      s.hw.get F.CR_SEQ_RING_BASE_BASE c * 4096 + 2 ^ s.hw.get F.CR_SEQ_RING_SIZE_LOG2 c ≤ s.hw.scratchSize ∧ s.hw.on F.CR_MAC_CTRL_ENABLE c = true)
      (stOf [(F.CR_SEQ_RING_SIZE_LOG2, 24, 1), (F.CR_MAC_CTRL_ENABLE, 1, 1)]) 1 ∧
    (fun (s : State) (c : Nat) => s.hw.Takes .keeper .CR_SEQ_CTRL c ∧ s.hw.on F.CR_SEQ_CTRL_ENABLE c = true) (stOf [(F.CR_SEQ_CTRL_ENABLE, 1, 1)]) 1 ∧
    (fun (s : State) (c : Nat) => s.hw.clocks.aclk = true ∧ c < s.hw.physCores ∧ s.hw.badWords = [] ∧ (s.hw.seq c).copies = (0, 5, 9) :: [] ∧
      Tab.find? (s.hw.seq c).loadDue 1 = some 12 ∧ (s.hw.seq c).restart = false)
      (stOf [] (fun h => { h with cores := [(1, { seq := { copies := [(0, 5, 9)], loadDue := [(1, 12)] } })] })) 1 := by
  dsimp only; (repeat' apply And.intro) <;> decide +kernel

theorem witness_DrainUnitEnableRunsItsCheck :
    (fun (s : State) (c : Nat) => s.hw.Takes .keeper .CR_DRN_CTRL c ∧ s.hw.on F.CR_DRN_CTRL_ENABLE c = false ∧ s.hw.faultLog.length < 1024 ∧
      bits 8 8 0x600001 + bits 16 8 0x600001 ≤ 4 * s.hw.build.matmemMib ∧ 4 * s.hw.build.matmemMib < bits 8 8 0x600101 + bits 16 8 0x600101) (stOf []) 16 := by
  decide +kernel

theorem witness_MacroUnitEnableRunsItsCheck :
    (fun (s : State) (c : Nat) => s.hw.Takes .keeper .CR_MAC_CTRL c ∧ s.hw.on F.CR_MAC_CTRL_ENABLE c = false ∧ s.hw.on F.CR_ARR_CTRL_ENABLE c = true ∧
      s.hw.on F.CR_DRN_CTRL_ENABLE c = true) (stOf [(F.CR_ARR_CTRL_ENABLE, 1, 1), (F.CR_DRN_CTRL_ENABLE, 1, 1)]) 1 ∧
    (fun (s : State) (c : Nat) => s.hw.Takes .keeper .CR_MAC_CTRL c ∧ s.hw.on F.CR_MAC_CTRL_ENABLE c = false ∧ s.hw.on F.CR_ARR_CTRL_ENABLE c = false ∧
      c < s.hw.physCores ∧ s.hw.ab.fresh = false) (stOf []) 16 := by decide +kernel

/-- A macro of one element a side on core 1, in two tiles, with its first pass to issue; fetches and an output to arm. -/
def mac0 : Macro :=
  let td (f : Nat) : List Byte := bytesOf 64 [(16, 4, 1), (20, 4, 1), (24, 4, 64), (28, 1, f)]
  { two := false, mpb := bytesOf 64 [(2, 1, 2), (4, 2, 2), (7, 1, 2), (12, 4, 1), (16, 4, 256), (20, 4, 257), (36, 2, 0xFFFF)], descs := [td 0, td 0, td 6],
    rtM := 1, rtN := 1, rtK := 1, rtB := 1, fetchA := [0], fetchB := [0], outs := [[(0, 64)]], staged := [(0, 0), (1, 0)],
    passes := [{ n := 0, b := 0, s := 0, o := 0, kc := 0, g := 1, v := 0, first := true, last := false }] }

def walkState (m : Macro) (fs : List (Fld × Nat × Nat) := []) (cells : List (Nat × Nat × Nat × Nat) := []) (f : Core → Core := id) : State :=
  segState ([(F.BB_CTRL_ENABLE, 1, 1), (F.BB_CTRL_WALK_A, 1, 1), (F.BB_CTRL_WALK_B, 2, 1), (F.BB_CTRL_WALK_OUT, 3, 1), (F.CR_ARR_CTRL_ENABLE, 1, 1)] ++ fs) id
    cells 0 (fun k => f { k with mac := some m })

theorem witness_TheWalkerCarriesTheMacro :
    (fun (s : State) (c which n b slot : Nat) (m : Macro) (p : GenPass) => s.hw.clocks.aclk = true ∧ c < s.hw.physCores ∧ s.hw.ab.on = false ∧
      s.hw.ab.fresh = false ∧ (s.hw.core c).mac = some m ∧ which < 2 ∧ (if which = 0 then m.fetchA else m.fetchB) = n :: [] ∧ m.passes[n]? = some p ∧
      b = s.hw.get (if which = 0 then F.BB_CTRL_WALK_A else F.BB_CTRL_WALK_B) c ∧ slot = (s.hw.bobbin c b).next ∧ s.hw.slot c b slot = none ∧
      s.hw.on F.BB_CTRL_ENABLE c = true ∧ stageOver s.hw c m p which = false ∧ setFree s.hw c m p which = true)
      (walkState mac0) 1 1 0 2 0 mac0 (mac0.passes.headD ⟨0, 0, 0, 0, 0, 0, 0, true, true, false, 1, 0⟩) ∧
    (fun (s : State) (c b slot : Nat) (m : Macro) => s.hw.clocks.aclk = true ∧ c < s.hw.physCores ∧ s.hw.ab.on = false ∧ (s.hw.core c).mac = some m ∧
      m.outs = [(0, 64)] :: [] ∧ b = s.hw.get F.BB_CTRL_WALK_OUT c ∧ slot = (s.hw.bobbin c b).next ∧ s.hw.slot c b slot = none ∧
      s.hw.on F.BB_CTRL_ENABLE c = true) (walkState mac0) 1 3 0 mac0 ∧
    (fun (s : State) (c : Nat) (m : Macro) (p : GenPass) => s.hw.clocks.aclk = true ∧ c < s.hw.physCores ∧ s.hw.ab.on = false ∧ s.hw.ab.fresh = false ∧
      (s.hw.core c).mac = some m ∧ m.passes[m.issued]? = some p ∧ s.hw.arrHeld c = false ∧ m.ready p = true ∧ p.last = false ∧
      m.tileOf p < Mpb.accBase m.mpb + Mpb.accCount m.mpb ∧ m.tileOf p < s.hw.build.accTiles ∧
      shiftCheck m s.hw.build (spaceBytes s.hw s.mem c (some m.hoop)) p = 0 ∧
      (m.arrPass s.hw.build (spaceBytes s.hw s.mem c (some m.hoop)) p).swap = false ∧ s.hw.get F.CR_SEQ_STATUS_STATE c = 1 ∧
      s.hw.passOk (m.arrPass s.hw.build (spaceBytes s.hw s.mem c (some m.hoop)) p) = true ∧
      s.hw.passMeets c (m.arrPass s.hw.build (spaceBytes s.hw s.mem c (some m.hoop)) p) = false)
      (walkState mac0) 1 mac0 (mac0.passes.headD ⟨0, 0, 0, 0, 0, 0, 0, true, true, false, 1, 0⟩) ∧
    (fun (s : State) (c : Nat) (m : Macro) => s.hw.clocks.aclk = true ∧ c < s.hw.physCores ∧ s.hw.ab.on = false ∧ s.hw.ab.fresh = false ∧
      (s.hw.core c).mac = some m ∧ macroDone s.hw c m = true ∧ Mpb.signal m.mpb = 0xFFFF)
      (walkState { mac0 with issued := 1, outs := [], fetchA := [], fetchB := [] }) 1 { mac0 with issued := 1, outs := [], fetchA := [], fetchB := [] } := by
  decide +kernel

theorem witness_RoundsAndConversionsMoveOn :
    (fun (s : State) (c : Nat) (m : Macro) (p : GenPass) => s.hw.clocks.aclk = true ∧ c < s.hw.physCores ∧ s.hw.ab.on = false ∧ (s.hw.core c).mac = some m ∧
      m.combine = p :: [] ∧ s.hw.mayMove s.mem c 1 = true ∧
      (List.range (if m.mode = 2 then (m.streamOf s.hw.build p).2.1 else (m.streamOf s.hw.build p).2.2)).all
        (fun l => ((s.hw.arr c).line s.hw.build.arrayRows (m.tileOf p) l).state == 2) = true ∧ m.members ≤ 2 ^ m.rounds)
      (walkState { mac0 with combine := mac0.passes } [] [(0, 6656, 1, 12)] (fun k => { k with arr := { lines := [(256, { state := 2 })] } })) 1
      { mac0 with combine := mac0.passes } (mac0.passes.headD ⟨0, 0, 0, 0, 0, 0, 0, true, true, false, 1, 0⟩) ∧
    (fun (s : State) (c : Nat) (m : Macro) (p : GenPass) => (s.hw.core c).mac = some m ∧ m.combine = p :: [] ∧ s.hw.mayMove s.mem c 1 = true ∧
      (List.range (if m.mode = 2 then (m.streamOf s.hw.build p).2.1 else (m.streamOf s.hw.build p).2.2)).all
        (fun l => ((s.hw.arr c).line s.hw.build.arrayRows (m.tileOf p) l).state == 2) = true ∧
      2 ^ m.rounds < m.members ∧ m.rank % 2 ^ (m.rounds + 1) ≠ 2 ^ m.rounds ∧ m.members ≤ m.rank + 2 ^ m.rounds ∧ s.hw.ab.fresh = false)
      (walkState { mac0 with combine := mac0.passes, rank := 2, members := 3 } [] [(0, 6656, 1, 12)]
        (fun k => { k with arr := { lines := [(256, { state := 2 })] } })) 1 { mac0 with combine := mac0.passes, rank := 2, members := 3 }
        (mac0.passes.headD ⟨0, 0, 0, 0, 0, 0, 0, true, true, false, 1, 0⟩) ∧
    (fun (s : State) (c : Nat) (m : Macro) (op : DrainOp) => s.hw.clocks.aclk = true ∧ c < s.hw.physCores ∧ s.hw.ab.on = false ∧ s.hw.ab.fresh = false ∧
      (s.hw.core c).mac = some m ∧ (s.hw.core c).drn = op :: [] ∧ op.held = true ∧ op.mid = none ∧
      (op.records = true → narrowFmt op.fmt = true → op.lines = 0))
      (walkState mac0 [] [] (fun k => { k with drn := [{ isCvt := true, lines := 4, fmt := 6, held := true }] })) 1 mac0
      { isCvt := true, lines := 4, fmt := 6, held := true } := by decide +kernel

/-- A state in which an object of core 1 holds 5 and a route leads to port 2. -/
def syncState : State := segState [(F.LK_GRT_VALID, 1, 1), (F.LK_GRT_PORT, 2, 1), (F.SY_VALUE_VALUE, 5, 64)]

theorem witness_SyncInstructionsActOnTheirObjects :
    (syncState.hw.Still ∧ syncState.hw.ab.fresh = false ∧ syncState.hw.syncIncs = []) ∧
    (syncState.hw.objOf ((syncState.hw.logicalOf 1).getD 0) 0 = some 64 ∧ syncState.hw.isShared 64 = false) ∧
    (fun iw : InstrWord => issuesNow syncState 1 iw (syncRule 1 iw)) (withField (withOp (wd [(12, 0, 32, 5)]) 0x10) 8 0 3 0) ∧
    (fun iw : InstrWord => issuesNow syncState 1 iw (syncRule 1 iw)) (withField (withOp (wd [(12, 0, 32, 5)]) 0x10) 8 0 3 1) ∧
    (fun iw : InstrWord => issuesNow syncState 1 iw (syncRule 1 iw)) (withField (withOp (wd [(12, 0, 32, 0)]) 0x10) 8 0 3 2) ∧
    (fun iw : InstrWord => issuesNow syncState 1 iw (syncRule 1 iw)) (withField (withOp (wd [(12, 0, 32, 5)]) 0x10) 8 0 3 3) ∧
    (fun iw : InstrWord => issuesNow syncState 1 iw (syncRule 1 iw)) (withField (withOp (wd [(12, 0, 32, 5), (16, 0, 16, 256)]) 0x10) 8 0 3 4) ∧
    (syncState.hw.routeTo 256 = some (some 2) ∧ (Tab.getD syncState.hw.couchOut 2 []).length < 64) := by
  unfold issuesNow; (repeat' apply And.intro) <;> decide +kernel

theorem witness_SyncUnitCommandsTakeEffect :
    (fun (s : State) (o hp fb st : Nat) => s.hw.clocks.aclk = true ∧ s.hw.syncInit = false ∧ s.hw.run.on = true ∧ fb % 2 ^ 32 = s.hw.run.f % 2 ^ 32 ∧
      s.hw.isShared o = true ∧ s.hw.inSyncRange hp o = true ∧ Hw.reached (s.hw.rd .SY_RX st) 0 = true ∧ Hw.reached (s.hw.rd .SY_RX st) 1 = false ∧
      s.hw.couchPending.length < 256) (runOf [(F.HP_CTRL_VALID, 1, 7), (F.HP_SYNC_BASE, 128, 7), (F.HP_SYNC_COUNT, 1, 7)]) 128 7 2000 4095 ∧
    (fun (s : State) (o : Nat) => s.hw.Takes .debug .SY_VALUE o ∧ s.hw.syncInit = false ∧ s.hw.mayHandSet o = true ∧ s.hw.syncIncs = []) (stOf []) 16383 ∧
    (fun (s : State) (o : Nat) => s.hw.Takes .keeper .SY_VALUE o ∧ s.hw.syncInit = false) (stOf []) 16383 ∧
    (fun (s : State) => s.hw.Takes .keeper .SY_CTRL 0 ∧ s.hw.on F.SY_CTRL_ENABLE = false ∧ s.hw.hasPlan = true) (runOf []) ∧
    (fun (s : State) => s.hw.Takes .keeper .SY_CTRL 0 ∧ s.hw.on F.SY_CTRL_ENABLE = false ∧ s.hw.hasPlan = false) (stOf []) ∧
    (fun (s : State) => s.hw.clocks.aclk = true ∧ s.hw.syncInitDue = some 9) (stOf [] (fun h => { h with syncInitDue := some 9 })) := by decide +kernel
/-! Witnesses: bobbins and memories. -/

theorem witness_BbarmArmsTheNextSlot :
    (fun (s : State) (iw : InstrWord) => s.hw.ab.fresh = false ∧ s.hw.badWords = [] ∧ ifld iw 8 0 3 = 7 ∧ ifld iw 8 3 2 = 0 ∧ s.hw.reservedBobbin 1 7 = false ∧
      (issueState s 1 iw (bbarmRule 1 iw)).hw.slotBusy 1 7 0 = false ∧ (s.hw.bobbin 1 7).next = 0 ∧
      descOk s.hw 1 7 (s.mem.read (Area.matrix 1) 0 128) (gpbOf s.mem 1 (decodeDesc (s.mem.read (Area.matrix 1) 0 128) 0))
        (decodeDesc (s.mem.read (Area.matrix 1) 0 128) 0) = true ∧
      rangeOk s.hw 1 (gpbOf s.mem 1 (decodeDesc (s.mem.read (Area.matrix 1) 0 128) 0)) (decodeDesc (s.mem.read (Area.matrix 1) 0 128) 0) = true ∧
      (decodeDesc (s.mem.read (Area.matrix 1) 0 128) 0).op ≠ 6 ∧ s.hw.effAddr 1 iw = 0)
      (segState [] id [(17, 2, 1, 128), (17, 3, 1, 0x1F)]) (withOp (wd [(8, 0, 3, 7)]) 0x18) := by
  dsimp only; (repeat' apply And.intro) <;> decide +kernel

theorem witness_BobbinRegistersTakeEffect :
    (fun (s : State) => s.hw.Takes .keeper .BB_CTRL 1 ∧ s.hw.on F.BB_CTRL_ENABLE 1 = false ∧ bits 4 3 0x7651 ≠ bits 8 3 0x7651 ∧
      bits 4 3 0x7651 ≠ bits 12 3 0x7651 ∧ bits 8 3 0x7651 ≠ bits 12 3 0x7651 ∧ s.hw.hasPlan = true) (runOf []) ∧
    (fun (s : State) => s.hw.Takes .keeper .BB_CTRL 1 ∧ s.hw.on F.BB_CTRL_ENABLE 1 = true ∧ bits 4 3 0x7650 = s.hw.get F.BB_CTRL_WALK_A 1 ∧
      bits 8 3 0x7650 = s.hw.get F.BB_CTRL_WALK_B 1 ∧ bits 12 3 0x7650 = s.hw.get F.BB_CTRL_WALK_OUT 1 ∧ (s.hw.core 1).bobbins = [])
      (stOf [(F.BB_CTRL_ENABLE, 1, 1), (F.BB_CTRL_WALK_A, 5, 1), (F.BB_CTRL_WALK_B, 6, 1), (F.BB_CTRL_WALK_OUT, 7, 1)]) := by decide +kernel

/-- An image of which only the transmit table's and the phase map's offsets and core 1's tag Drain are not 0. -/
def miniCells : List (Nat × Nat × Nat × Nat) := [(0, 4148, 4, 128), (0, 4156, 4, 2560), (0, 6656, 1, 12)]

/-- Core 1 of the run in a Drain beat, with a bobbin's slot busy. -/
def bobState (b : Nat) (x : BobSlot) (fs : List (Fld × Nat × Nat) := []) : State :=
  { segState ([(F.BB_CTRL_ENABLE, 1, 1), (F.BB_GRANT_READ, 9, 1), (F.BB_GRANT_REMOTE, 2, 1)] ++ fs) id [] 0
      (fun k => { k with placeTick := 2048000, bobbins := [(b, { slots := [(0, x)] })] }) with
    mem := memOf miniCells }

/-- One atom of 64 bytes from block memory. -/
def desc0 : BobbinDesc := { op := 0, atom := 128, qend := 0x1F, counts := [1, 1, 1, 1, 1, 1], fstride := [0, 0, 0, 0, 0, 0], nstride := [0, 0, 0, 0, 0, 0] }

theorem witness_BobbinWorkMovesOn :
    (fun (s : State) (x : BobSlot) => s.hw.clocks.aclk = true ∧ 1 < s.hw.physCores ∧ s.hw.ab.on = false ∧ s.hw.ab.fresh = false ∧
      s.hw.activeSlot 1 7 = none ∧ (s.hw.slotOrder 1 7).find? (fun p => p.2.state == 1) = some (0, x) ∧ x.desc.qend ≠ 2 ∧ x.desc.qend ≠ 3 ∧ x.desc.qend ≠ 9)
      (bobState 7 { state := 1, desc := desc0 }) { state := 1, desc := desc0 } ∧
    (fun (s : State) (x : BobSlot) => s.hw.clocks.aclk = true ∧ 1 < s.hw.physCores ∧ s.hw.ab.on = false ∧ s.hw.on F.BB_CTRL_ENABLE 1 = true ∧
      s.hw.on F.CR_MM_STATUS_INIT 1 = false ∧ (s.hw.core 1).placeTick = s.hw.cycleTick ∧ (s.hw.core 1).places = [] ∧
      (∀ b', b' < 2 → bobClass s.work 1 b' = none) ∧ bobClass s.work 1 2 = some (0, x, 0) ∧ x.since ≤ s.hw.ticks ∧
      0 < s.hw.placesAt ((s.hw.txDue s.mem ((s.hw.logicalOf 1).getD 0)).length + (s.hw.rxDue ((s.hw.logicalOf 1).getD 0)).length) s.hw.cycle)
      (bobState 2 { state := 2, desc := desc0 }) { state := 2, desc := desc0 } ∧
    (fun (s : State) (x : BobSlot) => s.hw.clocks.aclk = true ∧ 1 < s.hw.physCores ∧ s.hw.ab.on = false ∧ s.hw.ab.fresh = false ∧
      (s.hw.slotOrder 1 0).find? (fun p => p.2.state == 3) = some (0, x) ∧ s.hw.slot 1 0 0 = some x ∧ x.cancelled = false ∧ x.xfers = [] ∧
      slotQuiet x = true ∧ x.desc.op = 0 ∧ x.desc.stage = none ∧ x.desc.signalEn = false ∧ bobStep 1 (s.work.onHw (fun h => h.elapse x.since)) = none)
      (bobState 0 { state := 3, desc := desc0, pos := 1 }) { state := 3, desc := desc0, pos := 1 } := by
  dsimp only; (repeat' apply And.intro) <;> decide +kernel

/-- A SEND of one payload from matrix memory. -/
def send0 : BobbinDesc := { desc0 with op := 4, stream := 9 }

/-- A transmit move of core 1 is due for that SEND, and a receive move for a RECEIVE of the same stream; and the work as the move finds it. -/
def txState : State :=
  { bobState 2 { state := 2, desc := send0 } with mem := memOf (miniCells ++ [(0, 4096 + 128 + 4 * 303, 4, 1 + 1 * 16 + 2 * 512 + 9 * 2 ^ 20)]) }

def txWork : Work := txState.work.onHw (fun h => spendRemote ((h.elapse (h.time.beatStart + 4 * 0)).onCore 1 (fun q => { q with txMoves := 0 + 1 })) 1 2)

def rxData : SlotData := { port := 0, lane := 0, slot := 0, typ := 1, stream := 9, len := 64, kind := 1, unit := 1, sub := 2 }

def rxState : State :=
  { bobState 2 { state := 2, desc := { send0 with op := 5 } } with
    hw := { (bobState 2 { state := 2, desc := { send0 with op := 5 } }).hw with rxMoving := [rxData] } }

def rxWork : Work := rxState.work.onHw (fun h => spendRemote ((h.elapse (h.time.beatStart + 4 * (0 + 0))).onCore 1 (fun q => { q with rxMoves := 0 + 1 })) 1 2)

theorem witness_SlotMovesCarryPayloads :
    (txState.hw.clocks.aclk = true ∧ 1 < txState.hw.physCores ∧ (txState.hw.core 1).txMoves = 0 ∧
      (txState.hw.txDue txState.mem ((txState.hw.logicalOf 1).getD 0))[0]?.any (fun q => q.1 == 3 && q.2.1 == 3 && q.2.2.1 == 18 && q.2.2.2.sub == 2 &&
        q.2.2.2.stream == 9) = true ∧
      txWork.hw.coreTag txState.mem 1 = 3 ∧ txWork.hw.slotOrder 1 2 = [(0, { state := 2, desc := send0 })] ∧
      (txPayload 1 2 9 0 { state := 2, desc := send0 } txWork).isSome = true) ∧
    (rxState.hw.clocks.aclk = true ∧ (rxState.hw.core 1).rxMoves = 0 ∧ (rxState.hw.txDue rxState.mem ((rxState.hw.logicalOf 1).getD 0)).length = 0 ∧
      (rxState.hw.rxDue ((rxState.hw.logicalOf 1).getD 0))[0]? = some rxData ∧ rxWork.hw.coreTag rxState.mem 1 = 3 ∧
      (rxWork.hw.slotOrder 1 2).find? (fun q => canTake rxWork 1 2 q.2 9 64) = some (0, { state := 2, desc := { send0 with op := 5 } })) := by
  (repeat' apply And.intro) <;> decide +kernel

theorem witness_MemoryRegistersTakeEffect :
    (fun (s : State) => s.hw.Takes .keeper .CR_MM_CTRL 16 ∧ s.hw.on F.CR_MM_CTRL_ENABLE 16 = false) (stOf []) ∧
    (fun (s : State) (v : Nat) => s.hw.Takes .keeper .MP_BM_CTRL 0 ∧ s.hw.on F.MP_BM_CTRL_ENABLE = false ∧ 8 ≤ bits 16 4 v ∧ bits 8 6 v ≠ 0 ∧
      bits 8 6 v ≤ s.hw.build.blockmemMib / 8 ∧ s.hw.build.sizeGib ≠ 0 ∧ bit 1 v = false) (stOf []) 0x81001 ∧
    (fun (s : State) (v : Nat) => s.hw.Takes .keeper .MP_BM_CTRL 0 ∧ s.hw.on F.MP_BM_CTRL_ENABLE = true ∧ bit 0 v = true ∧ 8 ≤ bits 16 4 v ∧
      bits 8 6 v = s.hw.get F.MP_BM_CTRL_SCRATCH_UNITS ∧ s.hw.invalDue = none) (stOf [(F.MP_BM_CTRL_ENABLE, 1, 0)]) 0xF0803 ∧
    (stOf []).hw.Takes .keeper .MP_ERR_POP 0 ∧
    (fun (s : State) (off : Nat) => s.hw.served off = true ∧ Hw.isMailbox off = false ∧
      (placeOf off).any (fun p => p.reg == .MP_CT_SIZE && p.idx == 4095 && !p.hi && s.hw.built p && Hw.mayWrite .keeper p.reg) = true ∧
      s.hw.ctEntryOk { (Tab.find? s.hw.ctHeld 4095).getD (s.hw.ctEntry 4095) with size := 8388608 } = true)
      (stOf []) ((Reg.desc .MP_CT_BUF0).base + 0x20 * 4095 + 16) ∧
    (fun (s : State) => s.hw.ctEntryOk { (Tab.find? s.hw.ctHeld 4095).getD (s.hw.ctEntry 4095) with size := 8388609 } = false)
      (stOf [(F.MP_CT_FLAGS_VALID, 1, 4095)]) := by
  dsimp only; (repeat' apply And.intro) <;> decide +kernel

/-- A transaction on port 1. -/
def txn0 : PortTxn := { port := 1, tag := 3, unit := 17, data := none, hoop := 0, gen := 0, alloc := false, cached := false, core := 1, bobbin := 0, xfer := 0 }

theorem witness_MemoryEventsTakeEffect :
    (fun (s : State) => s.hw.clocks.aclk = true ∧ 16 < s.hw.physCores ∧ s.hw.ab.fresh = false ∧ Tab.find? s.hw.mmInitDue 16 = some 9 ∧
      s.hw.bmInitDue = some 9 ∧ s.hw.invalDue = some 9) (stOf [] (fun h => { h with mmInitDue := [(16, 9)], bmInitDue := some 9, invalDue := some 9 })) ∧
    (fun (s : State) => s.hw.clocks.aclk = true ∧ s.hw.scrubWords 0x40 ≠ 0 ∧ s.hw.isBad 0x40 (Hw.scrubWhere 0x40 (Tab.getD s.hw.scrubAt 0x40 0)) = false ∧
      s.hw.errLog.length < 64) (stOf []) ∧
    (fun (s : State) (t : PortTxn) => s.hw.clocks.aclk = true ∧ 1 < s.hw.build.memports ∧ s.hw.ab.fresh = false ∧
      s.hw.txns.find? (fun t => t.port == 1 && t.tag == 3 && t.data.isNone && !t.filled) = some t ∧ t.cached = false)
      (stOf [] (fun h => { h with txns := [txn0] })) txn0 ∧
    (fun (s : State) (t : PortTxn) => s.hw.txns.find? (fun t => t.port == 1 && t.tag == 3 && t.data.isNone && !t.filled) = some t ∧ t.cached = true)
      (stOf [] (fun h => { h with txns := [{ txn0 with cached := true }] })) { txn0 with cached := true } ∧
    (fun (s : State) (t : PortTxn) => s.hw.clocks.aclk = true ∧ s.hw.txns.find? (·.filled) = some t ∧ t.alloc = false)
      (stOf [] (fun h => { h with txns := [{ txn0 with cached := true, filled := true }] })) { txn0 with cached := true, filled := true } ∧
    (fun (s : State) (t : PortTxn) => s.hw.clocks.aclk = true ∧ 1 < s.hw.build.memports ∧
      s.hw.txns.find? (fun t => t.port == 1 && t.tag == 3 && t.data.isSome) = some t ∧ t.data = some [5#8])
      (stOf [] (fun h => { h with txns := [{ txn0 with data := some [5#8] }] })) { txn0 with data := some [5#8] } := by
  dsimp only; (repeat' apply And.intro) <;> decide +kernel
/-! Witnesses: tambours. -/

/-- The block with a tambour in a state. -/
def tamState (t st : Nat) (x : Tambour) (fs : List (Fld × Nat × Nat) := []) (cells : List (Nat × Nat × Nat × Nat) := []) (f : Hw → Hw := id) : State :=
  { stOf ([((Hw.tField t F.TB_STATUS_STATE).1, st, (Hw.tField t F.TB_STATUS_STATE).2)] ++ fs) (fun h => f { h with tams := [(t, x)] }) with mem := memOf cells }

theorem witness_TamboursLoadReleaseAndStop_registers :
    (fun (s : State) => tamTakes s .keeper 1 ∧ s.hw.tOn 1 F.TB_CTRL_ENABLE = false ∧ bit 1 1 = false ∧ bit 2 1 = false ∧ s.hw.tCheck s.mem 1 = 0)
      (tamState 1 0 {} [(F.TB_IMAGE_ADDR, 64, 1)] [(0, 4096, 4, 0x54420002), (0, 4100, 2, 2), (0, 4105, 1, 1), (0, 4108, 1, 8), (0, 4112, 4, 65536),
        (0, 4116, 4, 786432)]) ∧
    (fun (s : State) => tamTakes s .keeper 17 ∧ s.hw.tOn 17 F.TB_CTRL_ENABLE = false ∧ s.hw.tCheck s.mem 17 ≠ 0) (tamState 17 0 {}) ∧
    (fun (s : State) => tamTakes s .keeper 17 ∧ s.hw.tOn 17 F.TB_CTRL_ENABLE = true ∧ s.hw.tState 17 ≠ 1 ∧ s.hw.tState 17 ≠ 2)
      (tamState 17 4 {} [((Hw.tField 17 F.TB_CTRL_ENABLE).1, 1, 0)]) ∧
    (fun (s : State) => tamTakes s .keeper 16 ∧ s.hw.tOn 16 F.TB_CTRL_ENABLE = true ∧ s.hw.tState 16 = 1) (tamState 16 1 {} [(F.TB_CTRL_ENABLE, 1, 16)]) ∧
    (fun (s : State) => tamTakes s .keeper 16 ∧ s.hw.tState 16 = 2) (tamState 16 2 {}) ∧
    (fun (s : State) => tamTakes s .keeper 16 ∧ s.hw.tState 16 = 5 ∧ s.hw.tOn 16 F.TB_STATUS_UNCORR = false) (tamState 16 5 {}) ∧
    (fun (s : State) => tamTakes s .keeper 16 ∧ s.hw.tState 16 ≠ 2 ∧ s.hw.tState 16 = 5 ∧ s.hw.tOn 16 F.TB_STATUS_UNCORR = true)
      (tamState 16 5 {} [(F.TB_STATUS_UNCORR, 1, 16)]) ∧
    (fun (s : State) => tamTakes s .keeper 16 ∧ s.hw.tState 16 = 4) (tamState 16 4 {}) ∧
    (fun (s : State) => tamTakes s .keeper 16 ∧ s.hw.tState 16 ≠ 4 ∧ s.hw.tState 16 ≠ 5) (tamState 16 2 {}) := by
  unfold tamTakes; dsimp only; (repeat' apply And.intro) <;> decide +kernel

theorem witness_TamboursLoadReleaseAndStop_sequences :
    (fun (s : State) => s.hw.clocks.aclk = true ∧ s.hw.tExists 17 = true ∧ (s.hw.tam 17).loadDue = some 9 ∧ (s.hw.tam 17).signed = true)
      (tamState 17 1 { loadDue := some 9, signed := true }) ∧
    (fun (s : State) => s.hw.clocks.aclk = true ∧ s.hw.tExists 1 = true ∧ (s.hw.tam 1).loadDue = some 9 ∧ (s.hw.tam 1).signed = false ∧
      s.hw.faultLog.length < 1024) (tamState 1 1 { loadDue := some 9 }) ∧
    (fun (s : State) => s.hw.tExists 1 = true ∧ (s.hw.tam 1).clearDue = some 9) (tamState 1 7 { clearDue := some 9 }) ∧
    (fun (s : State) => s.hw.tExists 1 = true ∧ (s.hw.tam 1).seqDue = some 9 ∧ s.hw.tState 1 = 3) (tamState 1 3 { seqDue := some 9 }) ∧
    (fun (s : State) => s.hw.tExists 1 = true ∧ (s.hw.tam 1).seqDue = some 9 ∧ s.hw.tState 1 = 6 ∧ s.hw.tOn 1 F.TB_CTRL_ENABLE = true)
      (tamState 1 6 { seqDue := some 9 } [(F.TB_CTRL_ENABLE, 1, 1)]) ∧
    (fun (s : State) => s.hw.tExists 1 = true ∧ (s.hw.tam 1).seqDue = some 9 ∧ s.hw.tState 1 = 6 ∧ s.hw.tOn 1 F.TB_CTRL_ENABLE = false)
      (tamState 1 6 { seqDue := some 9 }) := by
  dsimp only; (repeat' apply And.intro) <;> decide +kernel

/-- A chunk of 256 bytes' kind, and a row for the gather tambour. -/
def chunk0 : Chunk := { kind := 2, fmt := 3, bytes := [] }
def row0 : PoolRow := { core := 1, bobbin := 2, bag := 3, last := false, row := [5#8] }
def lout0 : SlotData := { port := 3, lane := 3, slot := 18, typ := 1, len := 4 }

theorem witness_TambourBoundariesMoveChunks :
    (fun (s : State) => s.hw.clocks.aclk = true ∧ 16 < s.hw.physCores ∧ 16 ≠ gatherTambour ∧ s.hw.ab.on = false ∧ s.hw.ab.fresh = false ∧
      s.hw.tState 16 = 4 ∧ s.hw.queue 16 8 = chunk0 :: [] ∧ (s.hw.tam 16).owed.length < 512)
      (tamState 16 4 {} [] [] (fun h => { h with cores := [(16, { queues := [(8, [chunk0])] })] })) ∧
    (fun (s : State) => s.hw.clocks.aclk = true ∧ s.hw.tExists 17 = true ∧ s.hw.ab.on = false ∧ s.hw.ab.fresh = false ∧ s.hw.tState 17 = 4 ∧
      (s.hw.tam 17).owed[(s.hw.tam 17).early.length]? = some { due := 9, tag := 7 }) (tamState 17 4 { owed := [{ due := 9, tag := 7 }] }) ∧
    (fun (s : State) => s.hw.clocks.aclk = true ∧ 1 < s.hw.physCores ∧ 1 ≠ gatherTambour ∧ s.hw.ab.on = false ∧ s.hw.ab.fresh = false ∧
      (s.hw.tam 1).owed = { due := 9 } :: [] ∧ (s.hw.tam 1).early = (0, chunk0) :: [] ∧ (s.hw.queue 1 9).length < 16)
      (tamState 1 4 { owed := [{ due := 9 }], early := [(0, chunk0)] }) ∧
    (fun (s : State) => s.hw.clocks.aclk = true ∧ s.hw.tExists 1 = true ∧ s.hw.tState 1 = 4 ∧ 4 ≤ s.hw.tGet 1 F.TB_ACT_BUDGET ∧
      s.hw.tGet 1 F.TB_ACT_BUDGET < 5 ∧ s.hw.tState 1 ∉ [0, 1, 7]) (tamState 1 4 {} [(F.TB_ACT_BUDGET, 4, 1)]) ∧
    (fun (s : State) => s.hw.clocks.aclk = true ∧ nextPoolRow s.hw.poolRows = some row0 ∧ s.hw.tState gatherTambour = 4 ∧ s.hw.ab.on = false ∧
      (s.hw.tam gatherTambour).owed.length + ceilDiv row0.row.length 256 ≤ 512 ∧ row0.last = false)
      (tamState 17 4 {} [] [] (fun h => { h with poolRows := [row0] })) ∧
    (fun (s : State) => s.hw.clocks.aclk = true ∧ 3 < s.hw.build.linkports ∧ s.hw.planned = true ∧ s.hw.ab.on = false ∧
      (s.hw.slotAt s.mem false (s.hw.planBeat + 1) 3 3 18).kind = 3 ∧
      (s.hw.tam gatherTambour).lout.find? (fun d => d.port == 3 && d.lane == 3 && d.slot == 18) = some lout0)
      (runOf [] (fun h => { h with tams := [(17, { lout := [lout0] })] }) [(0, 4096 + 128 + 4 * 303, 4, 3)]) := by
  dsimp only; (repeat' apply And.intro) <;> decide +kernel

/-! WellFormed refuses an ill-formed term of each of its checks. -/

def ill1 : List Instr := [
  .registerWrite .keeper 2 0 0,
  .counterLowWordRead .keeper 2,
  .beatMark 18 0 0,
  .slackExpiry 17,
  .abortFlush 17,
  .lostStreamsWrite .keeper 128 0,
  .pass 17 0,
  .load 17 0,
  .loadStart 17,
  .passFeedStart 17,
  .passCommit 17,
  .arrayCheckFault 17 0 0 0,
  .arrayCheckFault 0 8 0 0,
  .arrayCheckFault 0 0 1024 0,
  .arrayCheckFault 0 0 0 64,
  .arrayEnable .keeper 17 0,
  .arrayScrubDone 17,
  .arrayDisable .keeper 17 0,
  .arrSpareWrite .keeper 17 0,
  .treeRowTest .keeper 17 0,
  .treeAllRowsTest .keeper 17 0,
  .treeMappingVerify .keeper 17 0,
  .treeOperationDone 17 true,
  .drain 17 0,
  .drainResume 17,
  .cvt 17 0,
  .drainUnitEnable .keeper 17 0,
  .vopt 17 0,
  .bind 17 0,
  .mmul 17 0,
  .mmul2 17 0,
  .walkerPassIssue 17,
  .walkerArm 17 0,
  .walkerArm 0 3,
  .macroSignal 17]

def ill2 : List Instr := [
  .combineRound 17,
  .bandConvert 17,
  .macroUnitEnable .keeper 17 0,
  .ringTailWrite .keeper 17 0,
  .publishedCopyDone 17,
  .bankReloadRequest .keeper 17 0,
  .bankLoadDone 17 0,
  .bankLoadDone 0 2,
  .instructionIssue 17,
  .nop 17 0,
  .seg 17 0,
  .loop 17 0,
  .skipc 17 0,
  .sli 17 0,
  .salu 17 0,
  .sld 17 0,
  .sst 17 0,
  .sqd 17 0,
  .ctrSet 17 0,
  .ctrAdd 17 0,
  .ctrSelect 17 0,
  .cmp 17 0,
  .syncWait 17 0,
  .syncTake 17 0,
  .syncSignal 17 0,
  .syncAdd 17 0,
  .syncCouch 17 0,
  .bbarm 17 0,
  .bbcan 17 0,
  .vop 17 0,
  .vld 17 0,
  .vst 17 0,
  .sequencerEnable .keeper 17 0,
  .sequencerDisable .keeper 17 0,
  .descriptorActivate 17 0]

def ill3 : List Instr := [
  .descriptorActivate 0 8,
  .bobbinTransferStart 17 0,
  .descriptorEnd 17 0,
  .descriptorEnd 0 8,
  .slotTransmitMove 17,
  .slotReceiveMove 17,
  .bobbinEnable .keeper 17 0,
  .bobbinDisable .keeper 17 0,
  .matrixMemoryEnable .keeper 17 0,
  .matrixMemoryInitDone 17,
  .portReadResponse 16 0 true 0,
  .portReadResponse 0 256 true 0,
  .portWriteResponse 16 0 true,
  .portWriteResponse 0 256 true,
  .commitTableEntryWrite .keeper 4096 0 0,
  .commitTableEntryWrite .keeper 0 8 0,
  .tambourEnable .keeper 18 0,
  .tambourLoadDone 18,
  .tambourDisable .keeper 18 0,
  .tambourRelease .keeper 18,
  .tambourStop .keeper 18,
  .tambourSequenceEnd 18,
  .tambourClearDone 18,
  .tambourInputPop 17,
  .tambourOutputDeliver 18 true 0 0 [],
  .tambourOutputDeliver 0 true 0 4 [],
  .tambourOutputDue 17,
  .activityWindowEnd 18 0,
  .configScrubFrame 18 0,
  .configScrubFrame 0 3,
  .gatherSlotDeadline 18 0 0,
  .gatherSlotDeadline 0 4 0,
  .gatherSlotDeadline 0 0 19,
  .couchArrival 16384 0 0 0 0 0,
  .couchArrival 0 0 0 0 4096 0]

def ill4 : List Instr := [
  .syncHandSet .keeper 16384 0,
  .tailReadDone 4096,
  .queueEnable .keeper 4096 0,
  .queueDisable .keeper 4096 0,
  .queueRestart .keeper 4096,
  .launch 4096 0,
  .launch 0 16384,
  .patch 4096,
  .fenceWait 4096,
  .cancel 4096,
  .queueNop 4096,
  .armatureLaunch 256 0,
  .armatureLaunch 0 16384,
  .contextCmdWrite .keeper 16384 0,
  .graphEntryWrite .keeper 4096 0 0,
  .graphEntryWrite .keeper 0 8 0,
  .armatureEntryWrite .keeper 256 0 0,
  .armatureEntryWrite .keeper 0 8 0,
  .frameReceive 18 0 0 [] [] [],
  .frameReceive 0 5 0 [] [] [],
  .frameMiss 18 0,
  .frameMiss 0 5,
  .couchEntryReceive 18 [],
  .fragmentReceive 18 [],
  .neighbourExpiry 18,
  .linkPortEnable .keeper 18 0,
  .linkPortDisable .keeper 18 0,
  .measureEnd 18,
  .linkDownTimeout 18,
  .laneFailure 18 0,
  .laneFailure 0 5,
  .laneSwitchEffective 18,
  .routeTableWrite .keeper 512 0,
  .clientBindingWrite .keeper 64 0,
  .ucieBind .keeper 18 0]

def ill5 : List Instr := [
  .cpoll 18 0 0 0 0,
  .cpoll 0 65536 0 0 0,
  .cpoll 0 0 4096 0 0,
  .bootImageLoad 2 [] [],
  .coverWrite .keeper 17 0,
  .mailboxEnable .keeper 8 0,
  .mailboxDictRead 8,
  .mailboxDictWrite 8,
  .completionAreaReclaim 8,
  .mailboxQueueRestart 8,
  .mailboxQueueStatus 8,
  .want 65536 0,
  .lostSuspect 65536 0,
  .continuationAdmit 16384,
  .hoopOpen .keeper 4096 0,
  .hoopClose .keeper 4096 0,
  .hoopRangeWrite .keeper 4096 1 0,
  .hoopRangeWrite .keeper 0 4 0,
  .keyInstall .keeper 4096,
  .keyErase .keeper 4096,
  .keySweepDone 4096,
  .dbgPermit [],
  .dbgAccess true 2 0,
  .domainSwitchDone 3,
  .railFault 9,
  .wakeBeat 8,
  .wakeFrameMatch 4 [],
  .thermalSample [256],
  .limitWrite .keeper 11 0,
  .telemetrySample [] (List.replicate 8 0),
  .telemetrySample (List.replicate 8 0) [],
  .calibrationWrite .keeper 17 0,
  .apertureAccess true true 4096 0 []]

theorem test_ill_formed_refused : (ill1 ++ ill2 ++ ill3 ++ ill4 ++ ill5).all (fun i => !WellFormed i) = true := by decide +kernel

theorem test_well_formed_accepted : WellFormed (.registerWrite .keeper 8 0 0) = true ∧ WellFormed (.beatMark 17 0 0) = true := by decide

/-! Single commands. -/

/-- The state after a command. -/
def after (i : Instr) (s : State) : State := match exec i s with | .next t => t | _ => s

/-- Setting TM_CTRL.ENABLE with SOURCE 0 and depth 0 makes the unit MASTER (R36). -/
theorem test_tm_enable_master : (after (.tmEnable .keeper 1) (stOf [])).hw.tmState = tmMaster := by decide +kernel

/-- A write by the processor that Table 12-2 does not name is refused and logged (R318). -/
theorem test_other_writer_refused : (after (.registerWrite .dispatcher 0x300020 5 0) (stOf [])).hw.faultLog.length = 1 := by decide +kernel

/-- The plinth counts one beat for 1,024 root ticks, 44 for each REFCLK cycle (R24). -/
theorem test_plinth_beats : (after (.plinthBeatCount 256) State.reset).hw.time.beat = 11 := by decide +kernel

/-- The table gives no row bits. -/
theorem test_no_word_spells_a_command : decodeTableWord 32 0 = none := by decide

end Sys2Proof.Tests
end

section
/-! Proofs about reads of control space (R8) and the capture of fabric time by a read of TM_NOW (R25). -/

namespace Sys2Proof.Machine

/-! A read by a control processor or the attach port. -/

/-- The value of a read, as the agent receives it. -/
def Hw.noted (h : Hw) (a : Agent) (v : Nat) : Hw := { h with readBack := Tab.put h.readBack 0 a.index v }

theorem Hw.getD_readBack_noted (h : Hw) (a : Agent) (v : Nat) : Tab.getD (h.noted a v).readBack a.index 0 = v :=
  Tab.getD_put_same _ _ _ _

/-- Only the debug port's reads are judged by level, and only DG_APER_DATA reads through the aperture (R367, R378). -/
theorem busRead_eq_ctlRead (a : Agent) (off : Nat) (w : Work) (ha : a ≠ .debug) (hoff : off ≠ (Reg.desc .DG_APER_DATA).base) :
    busRead a off w = w.onHwMem (fun m h => h.ctlRead m a off) := by
  simp [busRead, ha, hoff]

theorem State.answers_busRead (s : State) (a : Agent) (off : Nat) (ha : a ≠ .debug) (hoff : off ≠ (Reg.desc .DG_APER_DATA).base) :
    s.answers (busRead a off) = s.leads (s.hw.ctlRead s.mem a off) := by
  rw [funext fun w => busRead_eq_ctlRead a off w ha hoff]
  exact State.answers_onHwMem s (fun m h => h.ctlRead m a off)

namespace Hw

/-- A read of a word of a 32-bit register notes the word and captures nothing (R8). -/
theorem ctlRead_of_narrow (h : Hw) (m : Mem) (a : Agent) (off : Nat) (p : Place) (hp : placeOf off = some p) (hsize : p.reg.desc.size ≠ 8) :
    h.ctlRead m a off = h.noted a (h.sampleWord m off) := by
  simp [ctlRead, hp, hsize, noted]

/-- The word of a register that stands in a running domain and that the build has. -/
theorem sampleWord_of_low (h : Hw) (m : Mem) (off : Nat) (p : Place) (hp : placeOf off = some p) (halign : off % 4 = 0) (hs : h.served off = true)
    (hmb : isMailbox off = false) (hb : h.built p = true) (hlo : p.hi = false) :
    h.sampleWord m off = h.shown m p.reg p.idx % 2 ^ 64 % 2 ^ 32 := by
  simp [sampleWord, hp, halign, hs, hmb, hb, hlo]

/-! The phase. -/

theorem phase_lt (h : Hw) : h.phase < 2 ^ 8 := by
  unfold phase; omega

/-- HOLD lies above PHASE: the phase field of the captured word is the phase. -/
theorem bits_phaseWord (h : Hw) : bits F.TM_NOW_PHASE_PHASE.lo F.TM_NOW_PHASE_PHASE.w h.phaseWord = h.phase := by
  have hlt := h.phase_lt
  show (h.phase + flag (256 ≤ h.cycle) * 256) / 2 ^ 0 % 2 ^ 8 = h.phase
  omega

/-! A register write as the only change. -/

theorem only_wr (h : Hw) (r : Reg) (i v : Nat) : h.Only (h.wr r i v) [(r, i)] :=
  ⟨rfl, fun r' i' hne => rd_wr_other h r r' i i' v (by simpa using hne)⟩

/-! TM_NOW and TM_NOW_PHASE. -/

theorem placeOf_tmNow : placeOf 0x300008 = some { reg := .TM_NOW, idx := 0, outer := 0, hi := false } := rfl

theorem placeOf_tmNowPhase : placeOf 0x300010 = some { reg := .TM_NOW_PHASE, idx := 0, outer := 0, hi := false } := rfl

/-- The effect of a read of TM_NOW: the high word goes to the agent's holding register and the phase to TM_NOW_PHASE (R25). -/
theorem ctlRead_tmNow (h : Hw) (m : Mem) (a : Agent) (hs : h.served 0x300008 = true) :
    h.ctlRead m a 0x300008 =
      ({ h.wr .TM_NOW_PHASE 0 h.phaseWord with holding := Tab.put h.holding 0 a.index (h.time.beat % 2 ^ 64 / 2 ^ 32) }).noted a
        (h.time.beat % 2 ^ 64 % 2 ^ 32) := by
  have hb : h.built { reg := .TM_NOW, idx := 0, outer := 0, hi := false } = true := rfl
  have hsize : (Reg.desc .TM_NOW).size = 8 := rfl
  simp only [ctlRead, placeOf_tmNow, hs, hb, hsize]
  rfl

/-- A read of TM_NOW_PHASE returns the register as it stands. -/
theorem ctlRead_tmNowPhase (h : Hw) (m : Mem) (a : Agent) (hs : h.served 0x300010 = true) :
    h.ctlRead m a 0x300010 = h.noted a (h.rd .TM_NOW_PHASE 0 % 2 ^ 64 % 2 ^ 32) := by
  rw [ctlRead_of_narrow h m a _ _ placeOf_tmNowPhase (by decide),
    sampleWord_of_low h m _ _ placeOf_tmNowPhase (by decide) hs (by decide) rfl rfl]
  rfl

/-- The phase captured in TM_NOW_PHASE is the phase of the cycle. -/
theorem get_phase_wr_phaseWord (h : Hw) : (h.wr .TM_NOW_PHASE 0 h.phaseWord).get F.TM_NOW_PHASE_PHASE = h.phase := by
  unfold get
  rw [show F.TM_NOW_PHASE_PHASE.reg = .TM_NOW_PHASE from rfl, rd_wr_same, bits_mod _ _ _ _ (by decide), bits_phaseWord]

end Hw

/-- Settles O12: the read of TM_NOW captures the high word and the phase, and the read of TM_NOW_PHASE returns its register. -/
theorem tmNowCapturesThePhase : Obligations.TmNowCapturesThePhase := by
  unfold Obligations.TmNowCapturesThePhase
  refine ⟨fun s a ha hs => ⟨s.hw.ctlRead s.mem a 0x300008, State.answers_busRead s a _ ha (by decide), ?_⟩,
    fun s a ha hs => ⟨s.hw.ctlRead s.mem a 0x300010, State.answers_busRead s a _ ha (by decide), ?_⟩⟩
  · rw [Hw.ctlRead_tmNow _ _ _ hs]
    refine ⟨?low, ?high, Hw.get_phase_wr_phaseWord s.hw, Hw.only_wr s.hw .TM_NOW_PHASE 0 s.hw.phaseWord⟩
    case low =>
      rw [Hw.getD_readBack_noted]
      exact Nat.mod_mod_of_dvd _ (by decide)
    case high => exact Tab.getD_put_same _ _ _ _
  · rw [Hw.ctlRead_tmNowPhase _ _ _ hs]
    refine ⟨?value, rfl⟩
    rw [Hw.getD_readBack_noted, bits_mod _ _ _ _ (by decide), bits_mod _ _ _ _ (by decide)]
    rfl

end Sys2Proof.Machine
end

section
/-! Proofs about refused configuration writes (R11, R404) and the enable of the drain unit (R107). -/

namespace Sys2Proof.Machine

namespace Hw

/-! A refusal under a CFG code. -/

/-- The fault-log entry of a refusal that belongs to no run (R363). -/
def refusalEntry (h : Hw) (code unit : Nat) : FaultEntry :=
  { beat := h.time.beat, code := code, unit := unit, attempt := 0xFF, stepId := 0, context := 0xFFFF, hoop := 0,
    origin := h.get F.LK_ADDR_ADDR, response := 0, detail := 0 }

theorem responseOf_cfg (code : Nat) (bound refusal halting : Bool) (hc : code / 0x1000 = 1) : responseOf code bound refusal halting = 0 := by
  simp [responseOf, hc]

/-- No power code that aborts a run is a CFG code. -/
theorem not_mem_powerAbortCodes_of_cfg (code : Nat) (hc : code / 0x1000 = 1) : code ∉ powerAbortCodes := fun hm =>
  have hall : ∀ x ∈ powerAbortCodes, x / 0x1000 ≠ 1 := by decide
  hall code hm hc

theorem logFault_of_room (h : Hw) (e : FaultEntry) (hroom : h.faultLog.length < 1024) : h.logFault e = h.setFaultLog (h.faultLog ++ [e]) :=
  if_pos hroom

/-- A refusal under a CFG code places the code and logs it, and aborts nothing, in a run or not. -/
theorem refuse_cfg (h : Hw) (code : Nat) (f : Fld) (i unit : Nat) (hc : code / 0x1000 = 1) (hroom : h.faultLog.length < 1024) :
    h.refuse code f i unit = (h.put f code i).setFaultLog (h.faultLog ++ [(h.put f code i).refusalEntry code unit]) := by
  have hlog : h.refuse code f i unit = (h.put f code i).logFault ((h.put f code i).refusalEntry code unit) := by
    simp [refuse, raise, responseOf_cfg, not_mem_powerAbortCodes_of_cfg, hc, refusalEntry]
  rw [hlog, logFault_of_room _ _ (by rwa [put_faultLog]), put_faultLog]

/-! `Only` along a chain of field writes. -/

theorem Only.refl (h : Hw) (ks : List (Reg × Nat)) : h.Only h ks := ⟨rfl, fun _ _ _ => rfl⟩

/-- One more field write within the listed registers. -/
theorem Only.put {h h' : Hw} {ks : List (Reg × Nat)} (ho : h.Only h' ks) (f : Fld) (v i : Nat) (hk : (f.reg, i) ∈ ks) : h.Only (h'.put f v i) ks := by
  obtain ⟨hrest, hrd⟩ := ho
  refine ⟨hrest, fun r j hne => ?_⟩
  rw [rd_put_other h' f v i r j fun heq => hne (heq ▸ hk), hrd r j hne]

/-! The write of CR_DRN_CTRL. -/

/-- The block with the row buffer placed as a word of CR_DRN_CTRL says. -/
def placeRowBuf (h : Hw) (c v : Nat) : Hw := (h.put F.CR_DRN_CTRL_RB_BANK0 (bits 8 8 v) c).put F.CR_DRN_CTRL_RB_BANKS (bits 16 8 v) c

theorem placeRowBuf_build (h : Hw) (c v : Nat) : (h.placeRowBuf c v).build = h.build := (put_build _ _ _ _).trans (put_build _ _ _ _)

theorem placeRowBuf_faultLog (h : Hw) (c v : Nat) : (h.placeRowBuf c v).faultLog = h.faultLog := (put_faultLog _ _ _ _).trans (put_faultLog _ _ _ _)

theorem placeRowBuf_enable (h : Hw) (c v : Nat) : (h.placeRowBuf c v).on F.CR_DRN_CTRL_ENABLE c = h.on F.CR_DRN_CTRL_ENABLE c := by
  unfold on placeRowBuf
  rw [get_put_apart _ F.CR_DRN_CTRL_RB_BANKS F.CR_DRN_CTRL_ENABLE _ _ rfl (by decide) (by decide),
    get_put_apart _ F.CR_DRN_CTRL_RB_BANK0 F.CR_DRN_CTRL_ENABLE _ _ rfl (by decide) (by decide)]

theorem placeRowBuf_bank0 (h : Hw) (c v : Nat) : (h.placeRowBuf c v).get F.CR_DRN_CTRL_RB_BANK0 c = bits 8 8 v := by
  unfold placeRowBuf
  rw [get_put_apart _ F.CR_DRN_CTRL_RB_BANKS F.CR_DRN_CTRL_RB_BANK0 _ _ rfl (by decide) (by decide), get_put_same _ _ _ _ (by decide)]
  exact Nat.mod_mod _ _

theorem placeRowBuf_banks (h : Hw) (c v : Nat) : (h.placeRowBuf c v).get F.CR_DRN_CTRL_RB_BANKS c = bits 16 8 v := by
  unfold placeRowBuf
  rw [get_put_same _ _ _ _ (by decide)]
  exact Nat.mod_mod _ _

theorem placeRowBuf_only (h : Hw) (c v : Nat) : h.Only (h.placeRowBuf c v) [(.CR_DRN_CTRL, c)] :=
  ((Only.refl h _).put _ _ _ (List.mem_singleton_self _)).put _ _ _ (List.mem_singleton_self _)

/-! The check of Table 4-8, on a word that sets ENABLE. -/

theorem writeDrnCtrl_of_enable (h : Hw) (c v : Nat) (hoff : h.on F.CR_DRN_CTRL_ENABLE c = false) (hen : bit 0 v = true) :
    h.writeDrnCtrl c v =
      if bits 8 8 v + bits 16 8 v ≤ 4 * (h.placeRowBuf c v).build.matmemMib then (h.placeRowBuf c v).put F.CR_DRN_CTRL_ENABLE 1 c
      else (h.placeRowBuf c v).refuse Rc.CFG_DRN_ROWBUF F.CR_DRN_STATUS_REASON c (0xB1 + c) := by
  unfold writeDrnCtrl
  rw [hoff, hen]
  rfl

/-- The check passed: the drain unit is in service over the row buffer of the word. -/
theorem writeDrnCtrl_enables (h : Hw) (c v : Nat) (hoff : h.on F.CR_DRN_CTRL_ENABLE c = false) (hen : bit 0 v = true)
    (hin : bits 8 8 v + bits 16 8 v ≤ 4 * h.build.matmemMib) :
    (h.writeDrnCtrl c v).on F.CR_DRN_CTRL_ENABLE c = true ∧ (h.writeDrnCtrl c v).get F.CR_DRN_CTRL_RB_BANK0 c = bits 8 8 v ∧
      (h.writeDrnCtrl c v).get F.CR_DRN_CTRL_RB_BANKS c = bits 16 8 v ∧ h.Only (h.writeDrnCtrl c v) [(.CR_DRN_CTRL, c)] := by
  rw [writeDrnCtrl_of_enable h c v hoff hen, if_pos (by rwa [placeRowBuf_build])]
  refine ⟨?enable, ?bank0, ?banks, (h.placeRowBuf_only c v).put _ _ _ (List.mem_singleton_self _)⟩
  case enable => unfold on; rw [get_put_same _ _ _ _ (by decide)]; rfl
  case bank0 => rw [get_put_apart _ F.CR_DRN_CTRL_ENABLE F.CR_DRN_CTRL_RB_BANK0 _ _ rfl (by decide) (by decide), placeRowBuf_bank0]
  case banks => rw [get_put_apart _ F.CR_DRN_CTRL_ENABLE F.CR_DRN_CTRL_RB_BANKS _ _ rfl (by decide) (by decide), placeRowBuf_banks]

/-- The check failed: ENABLE stays 0, and CFG_DRN_ROWBUF is placed and logged. -/
theorem writeDrnCtrl_refuses (h : Hw) (c v : Nat) (hoff : h.on F.CR_DRN_CTRL_ENABLE c = false) (hen : bit 0 v = true)
    (hroom : h.faultLog.length < 1024) (hout : 4 * h.build.matmemMib < bits 8 8 v + bits 16 8 v) :
    (h.writeDrnCtrl c v).on F.CR_DRN_CTRL_ENABLE c = false ∧ (h.writeDrnCtrl c v).get F.CR_DRN_STATUS_REASON c = Rc.CFG_DRN_ROWBUF ∧
      ∃ e, (h.writeDrnCtrl c v).faultLog = h.faultLog ++ [e] ∧ e.code = Rc.CFG_DRN_ROWBUF := by
  rw [writeDrnCtrl_of_enable h c v hoff hen, if_neg (by rwa [placeRowBuf_build, Nat.not_le]),
    refuse_cfg _ _ _ _ _ (by decide) (by rwa [placeRowBuf_faultLog]), placeRowBuf_faultLog]
  refine ⟨?enable, ?reason, _, rfl, rfl⟩
  case enable =>
    unfold on
    rw [get_setFaultLog, get_put_reg _ _ _ _ _ _ (by decide)]
    exact (h.placeRowBuf_enable c v).trans hoff
  case reason => rw [get_setFaultLog, get_put_same _ _ _ _ (by decide)]; rfl

end Hw

/-! The word that DRAIN_UNIT_ENABLE writes. -/

/-- The low word of a value with ENABLE set has ENABLE set. -/
theorem bit_enableWord (x : Nat) : bit 0 (withFld F.CR_DRN_CTRL_ENABLE 1 x % 2 ^ 32) = true := by
  have hone : bits 0 1 (withFld F.CR_DRN_CTRL_ENABLE 1 x % 2 ^ 32) = 1 :=
    (bits_mod 0 1 _ 32 (by decide)).trans (bits_putBits 0 1 1 x)
  exact beq_iff_eq.mpr hone

/-- A field of the low word above ENABLE is the value's own. -/
theorem bits_enableWord (lo w x : Nat) (hlo : 1 ≤ lo) (hw : lo + w ≤ 32) : bits lo w (withFld F.CR_DRN_CTRL_ENABLE 1 x % 2 ^ 32) = bits lo w x :=
  (bits_mod lo w _ 32 hw).trans (bits_putBits_apart 0 1 lo w 1 x (.inr hlo))

/-- Settles O32: the write of CR_DRN_CTRL places the row buffer, and the check of Table 4-8 decides between ENABLE and the refusal. -/
theorem drainUnitEnableRunsItsCheck : Obligations.DrainUnitEnableRunsItsCheck := by
  unfold Obligations.DrainUnitEnableRunsItsCheck
  intro s a c v htakes hoff hroom
  refine ⟨_, State.answers_writeNamed s a .CR_DRN_CTRL c _ (·.writeDrnCtrl c _) htakes rfl, ?_⟩
  rw [← bits_enableWord 8 8 v.toNat (by decide) (by decide), ← bits_enableWord 16 8 v.toNat (by decide) (by decide)]
  exact ⟨s.hw.writeDrnCtrl_enables c _ hoff (bit_enableWord _), s.hw.writeDrnCtrl_refuses c _ hoff (bit_enableWord _) hroom⟩

end Sys2Proof.Machine
end

section
/-! Proofs about the enable of the fault unit (R364). -/

namespace Sys2Proof.Machine

namespace Hw

/-! The write of FT_CTRL. -/

/-- The block with the fields of FT_CTRL other than ENABLE as a word of it says. -/
def setRetries (h : Hw) (v : Nat) : Hw := (h.put F.FT_CTRL_REPLAY_MAX (bits 1 3 v)).put F.FT_CTRL_AUTO_SPARE (bits 4 1 v)

theorem setRetries_faultLog (h : Hw) (v : Nat) : (h.setRetries v).faultLog = h.faultLog := (put_faultLog _ _ _ _).trans (put_faultLog _ _ _ _)

theorem setRetries_enable (h : Hw) (v : Nat) : (h.setRetries v).on F.FT_CTRL_ENABLE = h.on F.FT_CTRL_ENABLE := by
  unfold on setRetries
  rw [get_put_apart _ F.FT_CTRL_AUTO_SPARE F.FT_CTRL_ENABLE _ _ rfl (by decide) (by decide),
    get_put_apart _ F.FT_CTRL_REPLAY_MAX F.FT_CTRL_ENABLE _ _ rfl (by decide) (by decide)]

theorem setRetries_syncEnable (h : Hw) (v : Nat) : (h.setRetries v).on F.SY_CTRL_ENABLE = h.on F.SY_CTRL_ENABLE := by
  unfold on setRetries
  rw [get_put_reg _ _ _ _ _ _ (by decide), get_put_reg _ _ _ _ _ _ (by decide)]

theorem setRetries_replayMax (h : Hw) (v : Nat) : (h.setRetries v).get F.FT_CTRL_REPLAY_MAX = bits 1 3 v := by
  unfold setRetries
  rw [get_put_apart _ F.FT_CTRL_AUTO_SPARE F.FT_CTRL_REPLAY_MAX _ _ rfl (by decide) (by decide), get_put_same _ _ _ _ (by decide)]
  exact Nat.mod_mod _ _

theorem setRetries_only (h : Hw) (v : Nat) : h.Only (h.setRetries v) [(.FT_CTRL, 0)] :=
  ((Only.refl h _).put _ _ _ (List.mem_singleton_self _)).put _ _ _ (List.mem_singleton_self _)

/-! The check of Table 13-8, on a word that sets ENABLE. -/

theorem writeFtCtrl_of_enable (h : Hw) (v : Nat) (hoff : h.on F.FT_CTRL_ENABLE = false) (hmax : bits 1 3 v ≠ 0) (hen : bit 0 v = true) :
    h.writeFtCtrl v =
      if h.on F.SY_CTRL_ENABLE = true then (h.setRetries v).put F.FT_CTRL_ENABLE 1
      else (h.setRetries v).refuse Rc.CFG_FT_DEPENDS F.FT_STATUS_REASON 0 0x98 := by
  have hone : bits 0 1 v = 1 := beq_iff_eq.mp hen
  unfold writeFtCtrl
  rw [if_neg (mt beq_iff_eq.mp hmax), hoff, hen, hone, ← h.setRetries_syncEnable v]
  change (if (!(h.setRetries v).on F.SY_CTRL_ENABLE) = true then (h.setRetries v).refuse Rc.CFG_FT_DEPENDS F.FT_STATUS_REASON 0 0x98
    else (h.setRetries v).put F.FT_CTRL_ENABLE 1) = _
  cases (h.setRetries v).on F.SY_CTRL_ENABLE <;> rfl

/-- The check passed: the fault unit is in service. -/
theorem writeFtCtrl_enables (h : Hw) (v : Nat) (hoff : h.on F.FT_CTRL_ENABLE = false) (hmax : bits 1 3 v ≠ 0) (hen : bit 0 v = true)
    (hsync : h.on F.SY_CTRL_ENABLE = true) :
    (h.writeFtCtrl v).on F.FT_CTRL_ENABLE = true ∧ h.Only (h.writeFtCtrl v) [(.FT_CTRL, 0)] := by
  rw [writeFtCtrl_of_enable h v hoff hmax hen, if_pos hsync]
  refine ⟨?enable, (h.setRetries_only v).put _ _ _ (List.mem_singleton_self _)⟩
  case enable => unfold on; rw [get_put_same _ _ _ _ (by decide)]; rfl

/-- The check failed: ENABLE stays 0, and CFG_FT_DEPENDS is placed and logged. -/
theorem writeFtCtrl_refuses (h : Hw) (v : Nat) (hoff : h.on F.FT_CTRL_ENABLE = false) (hmax : bits 1 3 v ≠ 0) (hen : bit 0 v = true)
    (hroom : h.faultLog.length < 1024) (hsync : h.on F.SY_CTRL_ENABLE = false) :
    (h.writeFtCtrl v).on F.FT_CTRL_ENABLE = false ∧ (h.writeFtCtrl v).get F.FT_STATUS_REASON = Rc.CFG_FT_DEPENDS ∧
      ∃ e, (h.writeFtCtrl v).faultLog = h.faultLog ++ [e] ∧ e.code = Rc.CFG_FT_DEPENDS := by
  rw [writeFtCtrl_of_enable h v hoff hmax hen, if_neg (by simp [hsync]),
    refuse_cfg _ _ _ _ _ (by decide) (by rwa [setRetries_faultLog]), setRetries_faultLog]
  refine ⟨?enable, ?reason, _, rfl, rfl⟩
  case enable =>
    unfold on
    rw [get_setFaultLog, get_put_reg _ _ _ _ _ _ (by decide)]
    exact (h.setRetries_enable v).trans hoff
  case reason => rw [get_setFaultLog, get_put_same _ _ _ _ (by decide)]; rfl

/-- REPLAY_MAX keeps the value written, whether the check passed or failed (R404). -/
theorem writeFtCtrl_replayMax (h : Hw) (v : Nat) (hoff : h.on F.FT_CTRL_ENABLE = false) (hmax : bits 1 3 v ≠ 0) (hen : bit 0 v = true)
    (hroom : h.faultLog.length < 1024) : (h.writeFtCtrl v).get F.FT_CTRL_REPLAY_MAX = bits 1 3 v := by
  rw [writeFtCtrl_of_enable h v hoff hmax hen]
  split
  · rw [get_put_apart _ F.FT_CTRL_ENABLE F.FT_CTRL_REPLAY_MAX _ _ rfl (by decide) (by decide), setRetries_replayMax]
  · rw [refuse_cfg _ _ _ _ _ (by decide) (by rwa [setRetries_faultLog]), get_setFaultLog, get_put_reg _ _ _ _ _ _ (by decide),
      setRetries_replayMax]

end Hw

/-- ENABLE is bit 0 of FT_CTRL as it is of CR_DRN_CTRL. -/
theorem ftEnableWord_eq_drnEnableWord (x : Nat) : withFld F.FT_CTRL_ENABLE 1 x = withFld F.CR_DRN_CTRL_ENABLE 1 x := rfl

/-- Settles O20: the write of FT_CTRL sets REPLAY_MAX, and the check of Table 13-8 decides between ENABLE and the refusal. -/
theorem faultUnitEnableRunsItsCheck : Obligations.FaultUnitEnableRunsItsCheck := by
  unfold Obligations.FaultUnitEnableRunsItsCheck
  intro s a v htakes hoff hmax hroom
  refine ⟨_, State.answers_writeNamed s a .FT_CTRL 0 _ (·.writeFtCtrl _) htakes rfl, ?_⟩
  rw [ftEnableWord_eq_drnEnableWord]
  rw [← bits_enableWord 1 3 v.toNat (by decide) (by decide)] at hmax ⊢
  exact ⟨s.hw.writeFtCtrl_replayMax _ hoff hmax (bit_enableWord _) hroom, s.hw.writeFtCtrl_enables _ hoff hmax (bit_enableWord _),
    s.hw.writeFtCtrl_refuses _ hoff hmax (bit_enableWord _) hroom⟩

end Sys2Proof.Machine
end

section
/-! Proofs about the split of an energy by weights (R411). -/

namespace Sys2Proof

/-! A table with distinct keys, and the sum of a table of numbers. -/

theorem Tab.eq_of_nodup {α : Type} {t : Tab α} (hnodup : (t.map (·.1)).Nodup) {p q : Nat × α} (hp : p ∈ t) (hq : q ∈ t) (h : p.1 = q.1) :
    p = q := by
  have hne := List.pairwise_map.1 hnodup
  exact List.Pairwise.forall_of_forall_of_flip (R := fun p q => p.1 = q.1 → p = q) (fun _ _ _ => rfl) (hne.imp fun hne h => absurd h hne)
    (hne.imp fun hne h => absurd h.symm hne) hp hq h

/-- The sum W of a table of weights, and the energy that a table of shares hands out. -/
def Tab.total (t : Tab Nat) : Nat := (t.map (·.2)).sum

theorem Tab.foldl_eq_total (t : Tab Nat) : t.foldl (fun a p => a + p.2) 0 = t.total := by
  rw [Tab.total, List.sum_eq_foldl_nat, List.foldl_map]

theorem sum_map_add {α : Type} (l : List α) (f g : α → Nat) : (l.map (fun a => f a + g a)).sum = (l.map f).sum + (l.map g).sum := by
  induction l with
  | nil => rfl
  | cons a l ih =>
    simp only [List.map_cons, List.sum_cons, ih]
    omega

namespace Machine

/-! The order in which the entries take what the floors leave. An entry counts by its remainder and its number. -/

/-- Larger remainders come first, and among equal remainders the lower entry. -/
def takesBefore (a b : Nat × Nat) : Bool := b.1 < a.1 || (a.1 == b.1 && a.2 < b.2)

theorem takesBefore_iff (a b : Nat × Nat) : takesBefore a b = true ↔ b.1 < a.1 ∨ (b.1 = a.1 ∧ a.2 < b.2) := by
  simp only [takesBefore, Bool.or_eq_true, Bool.and_eq_true, decide_eq_true_eq, beq_iff_eq]
  rw [eq_comm (a := a.1)]

theorem takesBefore_asymm {a b : Nat × Nat} (h : takesBefore a b = true) : ¬ takesBefore b a = true := by
  rw [takesBefore_iff] at h ⊢
  omega

theorem takesBefore_of_not {a b c : Nat × Nat} (hab : takesBefore a b = true) (hcb : ¬ takesBefore c b = true) : takesBefore a c = true := by
  rw [takesBefore_iff] at hab hcb ⊢
  omega

theorem takesBefore_total {a b : Nat × Nat} (h : a ≠ b) (hba : ¬ takesBefore b a = true) : takesBefore a b = true := by
  rw [takesBefore_iff] at hba ⊢
  rw [Ne, Prod.ext_iff] at h
  omega

/-! Ranks. Those of distinct pairs are the positions in the sorted list, so of n pairs exactly k ≤ n have a rank below k. -/

/-- How many pairs of a list come before a pair. -/
def rankIn (l : List (Nat × Nat)) (a : Nat × Nat) : Nat := l.countP (takesBefore · a)

theorem takesBefore_of_rankIn_lt {l : List (Nat × Nat)} {a b : Nat × Nat} (h : rankIn l a < rankIn l b) : takesBefore a b = true := by
  refine Decidable.byContradiction fun hab => Nat.not_le_of_lt h ?_
  exact List.countP_mono_left fun _ _ hc => takesBefore_of_not hc hab

theorem rankIn_head {a : Nat × Nat} {l : List (Nat × Nat)} (h : ∀ b ∈ l, takesBefore a b = true) : rankIn (a :: l) a = 0 := by
  refine List.countP_eq_zero.2 fun b hb hba => ?_
  rcases List.mem_cons.1 hb with rfl | hb
  · exact takesBefore_asymm hba hba
  · exact takesBefore_asymm hba (h b hb)

theorem rankIn_cons_of_takesBefore {a b : Nat × Nat} (l : List (Nat × Nat)) (h : takesBefore a b = true) :
    rankIn (a :: l) b = rankIn l b + 1 :=
  List.countP_cons_of_pos h

theorem rankIn_of_perm {l l' : List (Nat × Nat)} (h : l.Perm l') (a : Nat × Nat) : rankIn l a = rankIn l' a := h.countP_eq _

/-- In a sorted list the rank is the position. -/
theorem sum_flag_rankIn_of_sorted {l : List (Nat × Nat)} (h : l.Pairwise (fun a b => takesBefore a b = true)) (k : Nat) (hk : k ≤ l.length) :
    (l.map (fun a => flag (rankIn l a < k))).sum = k := by
  induction l generalizing k with
  | nil => exact (Nat.le_zero.1 hk).symm
  | cons a l ih =>
    obtain ⟨hhead, htail⟩ := List.pairwise_cons.1 h
    have hlater (j : Nat) : l.map (fun b => flag (rankIn (a :: l) b < j)) = l.map (fun b => flag (rankIn l b + 1 < j)) :=
      List.map_congr_left fun b hb => by rw [rankIn_cons_of_takesBefore l (hhead b hb)]
    rw [List.map_cons, List.sum_cons, rankIn_head hhead, hlater]
    cases k with
    | zero =>
      have hnone := ih htail 0 (Nat.zero_le _)
      simp only [Nat.not_lt_zero, decide_false] at hnone ⊢
      rw [hnone]
      rfl
    | succ k =>
      simp only [Nat.add_lt_add_iff_right]
      rw [ih htail k (Nat.le_of_succ_le_succ hk), decide_eq_true (Nat.succ_pos k)]
      exact Nat.add_comm 1 k

/-- The pairs in the order in which they take. -/
def takeOrder (l : List (Nat × Nat)) : List (Nat × Nat) := l.mergeSort (fun a b => !takesBefore b a)

theorem takeOrder_perm (l : List (Nat × Nat)) : (takeOrder l).Perm l := List.mergeSort_perm l _

theorem takeOrder_sorted {l : List (Nat × Nat)} (h : l.Nodup) : (takeOrder l).Pairwise (fun a b => takesBefore a b = true) := by
  have hsorted : (takeOrder l).Pairwise (fun a b => (!takesBefore b a) = true) := by
    refine List.pairwise_mergeSort (fun a b c hab hbc => ?trans) (fun a b => ?total) l
    case trans =>
      rw [Bool.not_eq_true', Bool.eq_false_iff] at hab hbc ⊢
      exact fun hca => hbc (takesBefore_of_not hca hab)
    case total =>
      rw [Bool.or_eq_true, Bool.not_eq_true', Bool.not_eq_true', Bool.eq_false_iff, Bool.eq_false_iff]
      exact Decidable.or_iff_not_imp_left.2 fun hba => takesBefore_asymm (Decidable.not_not.1 hba)
  refine List.Pairwise.imp₂ (fun a b hne hle => takesBefore_total hne ?_) ((takeOrder_perm l).nodup_iff.2 h) hsorted
  rwa [Bool.not_eq_true', Bool.eq_false_iff] at hle

theorem sum_flag_rankIn {l : List (Nat × Nat)} (h : l.Nodup) {k : Nat} (hk : k ≤ l.length) :
    (l.map (fun a => flag (rankIn l a < k))).sum = k := by
  have hperm := takeOrder_perm l
  calc (l.map (fun a => flag (rankIn l a < k))).sum
      = ((takeOrder l).map (fun a => flag (rankIn l a < k))).sum := (hperm.map _).sum_nat.symm
    _ = ((takeOrder l).map (fun a => flag (rankIn (takeOrder l) a < k))).sum := by simp only [rankIn_of_perm hperm]
    _ = k := sum_flag_rankIn_of_sorted (takeOrder_sorted h) k (by rwa [hperm.length_eq])

/-! The floors of the shares, and what they leave. -/

/-- What the floors of the shares leave of the energy. -/
def splitLeft (e : Nat) (ws : Tab Nat) : Nat := e - (ws.map (fun p => e * p.2 / ws.total)).sum

/-- An entry's remainder and number. -/
def splitKey (e w : Nat) (p : Nat × Nat) : Nat × Nat := (e * p.2 % w, p.1)

/-- How many entries come before an entry when what is left is handed out. -/
def splitRank (e : Nat) (ws : Tab Nat) (p : Nat × Nat) : Nat := rankIn (ws.map (splitKey e ws.total)) (splitKey e ws.total p)

theorem nodup_splitKeys (e w : Nat) {ws : Tab Nat} (h : (ws.map (·.1)).Nodup) : (ws.map (splitKey e w)).Nodup :=
  List.pairwise_map.2 ((List.pairwise_map.1 h).imp fun hne heq => hne (congrArg Prod.snd heq))

theorem mul_floors_add_remainders (e w : Nat) (ws : Tab Nat) :
    w * (ws.map (fun p => e * p.2 / w)).sum + (ws.map (fun p => e * p.2 % w)).sum = e * ws.total := by
  induction ws with
  | nil => rfl
  | cons p ws ih =>
    have hp := Nat.div_add_mod (e * p.2) w
    simp only [Tab.total, List.map_cons, List.sum_cons, Nat.mul_add] at ih ⊢
    omega

theorem sum_remainders_le (e : Nat) {w : Nat} (hw : 0 < w) (ws : Tab Nat) : (ws.map (fun p => e * p.2 % w)).sum ≤ w * ws.length := by
  induction ws with
  | nil => exact Nat.zero_le _
  | cons p ws ih =>
    have hp := Nat.mod_lt (e * p.2) hw
    rw [List.map_cons, List.sum_cons, List.length_cons, Nat.mul_succ]
    omega

theorem sum_floors_le (e : Nat) {ws : Tab Nat} (hw : 0 < ws.total) : (ws.map (fun p => e * p.2 / ws.total)).sum ≤ e := by
  refine Nat.le_of_mul_le_mul_left ?_ hw
  rw [Nat.mul_comm _ e, ← mul_floors_add_remainders e ws.total ws]
  exact Nat.le_add_right _ _

/-- Each remainder is below W, so there are entries enough to take what is left one each. -/
theorem splitLeft_le_length (e : Nat) {ws : Tab Nat} (hw : 0 < ws.total) : splitLeft e ws ≤ ws.length := by
  refine Nat.le_of_mul_le_mul_left ?_ hw
  rw [splitLeft, Nat.mul_sub, Nat.mul_comm _ e, ← mul_floors_add_remainders e ws.total ws, Nat.add_sub_cancel_left]
  exact sum_remainders_le e hw ws

/-! What a split answers. -/

theorem splitEnergy_of_total_zero (e : Nat) {ws : Tab Nat} (hw : ws.total = 0) : splitEnergy e ws = [(Hw.overheadEntry, e)] := by
  rw [← Tab.foldl_eq_total] at hw
  exact if_pos (beq_iff_eq.2 hw)

/-- With a weight above 0 every entry receives its floor, and one more when its rank is below what is left. -/
theorem splitEnergy_of_total_pos (e : Nat) {ws : Tab Nat} (hw : 0 < ws.total) :
    splitEnergy e ws = ws.map (fun p => (p.1, e * p.2 / ws.total + flag (splitRank e ws p < splitLeft e ws))) := by
  have hfold : (ws.map (fun p => (p.1, e * p.2 / ws.total, e * p.2 % ws.total))).foldl (fun a p => a + p.2.1) 0 =
      (ws.map (fun p => e * p.2 / ws.total)).sum := by
    rw [List.sum_eq_foldl_nat, List.foldl_map, List.foldl_map]
  have hrank (p : Nat × Nat) : ((ws.map (fun p => (p.1, e * p.2 / ws.total, e * p.2 % ws.total))).filter
      (fun q => e * p.2 % ws.total < q.2.2 || (q.2.2 == e * p.2 % ws.total && q.1 < p.1))).length = splitRank e ws p := by
    rw [← List.countP_eq_length_filter, List.countP_map, splitRank, rankIn, List.countP_map]
    rfl
  simp only [splitEnergy, Tab.foldl_eq_total, beq_iff_eq, Nat.ne_of_gt hw, if_false, hfold, List.map_map]
  refine List.map_congr_left fun p _ => ?_
  simp only [Function.comp_apply, hrank]
  rfl

theorem total_splitEnergy (e : Nat) {ws : Tab Nat} (hnodup : (ws.map (·.1)).Nodup) : (splitEnergy e ws).total = e := by
  rcases Nat.eq_zero_or_pos ws.total with hw | hw
  · rw [splitEnergy_of_total_zero e hw]
    rfl
  · have hflags : (ws.map (fun p => flag (splitRank e ws p < splitLeft e ws))).sum = splitLeft e ws := by
      have h := sum_flag_rankIn (nodup_splitKeys e ws.total hnodup) (Nat.le_trans (splitLeft_le_length e hw) (Nat.le_of_eq (List.length_map _).symm))
      rwa [List.map_map] at h
    calc (splitEnergy e ws).total
        = (ws.map (fun p => e * p.2 / ws.total + flag (splitRank e ws p < splitLeft e ws))).sum := by
          rw [splitEnergy_of_total_pos e hw, Tab.total, List.map_map]
          rfl
      _ = (ws.map (fun p => e * p.2 / ws.total)).sum + splitLeft e ws := by rw [sum_map_add, hflags]
      _ = e := Nat.add_sub_cancel' (sum_floors_le e hw)

/-- The share of an entry whose number stands once in the table. -/
theorem mem_splitEnergy_iff (e : Nat) {ws : Tab Nat} (hnodup : (ws.map (·.1)).Nodup) (hw : 0 < ws.total) {o w : Nat} (h : (o, w) ∈ ws) (x : Nat) :
    (o, x) ∈ splitEnergy e ws ↔ x = e * w / ws.total + flag (splitRank e ws (o, w) < splitLeft e ws) := by
  rw [splitEnergy_of_total_pos e hw, List.mem_map]
  constructor
  · rintro ⟨p, hp, heq⟩
    obtain ⟨ho, hx⟩ := Prod.mk.inj heq
    obtain rfl : p = (o, w) := Tab.eq_of_nodup hnodup hp h ho
    exact hx.symm
  · rintro rfl
    exact ⟨(o, w), h, rfl⟩

theorem flag_decide_eq_one_iff {P : Prop} [Decidable P] : flag P = 1 ↔ P := by
  by_cases h : P
  · exact iff_of_true (by rw [decide_eq_true h]; rfl) h
  · exact iff_of_false (by rw [decide_eq_false h]; decide) h

theorem flag_decide_eq_zero_iff {P : Prop} [Decidable P] : flag P = 0 ↔ ¬ P := by
  by_cases h : P
  · exact iff_of_false (by rw [decide_eq_true h]; decide) (not_not_intro h)
  · exact iff_of_true (by rw [decide_eq_false h]; rfl) h

/-- An entry that takes one more comes before an entry that does not, in the order of R411. -/
theorem takesBefore_of_takes_more (e : Nat) {ws : Tab Nat} (hnodup : (ws.map (·.1)).Nodup) (hw : 0 < ws.total) {o o' w w' : Nat}
    (h : (o, w) ∈ ws) (h' : (o', w') ∈ ws) (hmore : (o, e * w / ws.total + 1) ∈ splitEnergy e ws)
    (hfloor : (o', e * w' / ws.total) ∈ splitEnergy e ws) : takesBefore (splitKey e ws.total (o, w)) (splitKey e ws.total (o', w')) = true := by
  rw [mem_splitEnergy_iff e hnodup hw h, Nat.add_left_cancel_iff] at hmore
  rw [mem_splitEnergy_iff e hnodup hw h', Nat.left_eq_add] at hfloor
  have hin : splitRank e ws (o, w) < splitLeft e ws := flag_decide_eq_one_iff.1 hmore.symm
  have hout : splitLeft e ws ≤ splitRank e ws (o', w') := Nat.le_of_not_lt (flag_decide_eq_zero_iff.1 hfloor)
  exact takesBefore_of_rankIn_lt (Nat.lt_of_lt_of_le hin hout)

/-- Settles O57: what the floors leave is at most the number of entries, and as many entries as are left have a rank below it. -/
theorem aSplitHandsOutExactlyItsEnergy : Obligations.ASplitHandsOutExactlyItsEnergy := by
  unfold Obligations.ASplitHandsOutExactlyItsEnergy
  intro e ws hnodup
  simp only [Tab.foldl_eq_total]
  refine ⟨total_splitEnergy e hnodup, splitEnergy_of_total_zero e, fun hw => ⟨?entries, ?shares⟩, ?order⟩
  case entries =>
    rw [splitEnergy_of_total_pos e hw, List.map_map]
    rfl
  case shares =>
    intro o w h
    refine ⟨_, (mem_splitEnergy_iff e hnodup hw h _).2 rfl, ?_⟩
    by_cases hr : splitRank e ws (o, w) < splitLeft e ws
    · exact .inr (by rw [flag_decide_eq_one_iff.2 hr])
    · exact .inl (by rw [flag_decide_eq_zero_iff.2 hr, Nat.add_zero])
  case order =>
    intro hw o o' w w' h h' hmore hfloor
    exact (takesBefore_iff _ _).1 (takesBefore_of_takes_more e hnodup hw h h' hmore hfloor)

end Machine

end Sys2Proof
end

section
/-! Proofs about the shape of a step: every command answers a next state that its effect leaves (log entry 1, R205). -/

namespace Sys2Proof.Machine

/-- Every command completes, and what it leaves is what some effect leaves of its state. -/
theorem exec_eq_after (i : Instr) (s : State) : ∃ w : Work, exec i s = .next (s.after w) := by
  cases i <;> exact ⟨_, rfl⟩

/-- Settles O1: the definition of a step on a queue with a front. -/
theorem stepTakesTheFrontCommand : Obligations.StepTakesTheFrontCommand := by
  unfold Obligations.StepTakesTheFrontCommand
  intro i rest s hq
  unfold step
  rw [hq]

/-- Settles O3: no byte is listed after reset. -/
theorem resetMeetsTheInvariant : Obligations.ResetMeetsTheInvariant := by
  unfold Obligations.ResetMeetsTheInvariant State.Inv
  rfl

/-- A step answers a next state that an effect leaves of its state, whose memory is the step's own. -/
theorem step_eq_after (s : State) : ∃ (s' : State) (w : Work), s'.mem = s.mem ∧ step s = .next (s'.after w) := by
  unfold step
  split
  case h_1 => exact ⟨s, pump (s.work.onHw idleCycle), rfl, rfl⟩
  case h_2 i rest _ =>
    obtain ⟨w, hw⟩ := exec_eq_after i { s with pending := rest }
    exact ⟨{ s with pending := rest }, w, rfl, hw⟩

/-- Settles O4: whatever its effect was, a step applies a list of writes to memory, and each write keeps the canonical form. -/
theorem everyStepKeepsTheInvariant : Obligations.EveryStepKeepsTheInvariant := by
  unfold Obligations.EveryStepKeepsTheInvariant
  intro s t hinv hstep
  obtain ⟨s', w, hmem, hnext⟩ := step_eq_after s
  obtain rfl : s'.after w = t := by
    rw [hnext] at hstep
    exact Host.Outcome.next.inj hstep
  exact s'.after_wf w (hmem ▸ hinv)

/-- Settles O5: what an effect leaves has the commands that wait untouched. -/
theorem everyCommandCompletes : Obligations.EveryCommandCompletes := by
  unfold Obligations.EveryCommandCompletes
  intro i s
  obtain ⟨w, hw⟩ := exec_eq_after i s
  exact ⟨s.after w, hw, s.after_pending w⟩

/-- Settles O6: the four laws of the register table. -/
theorem registersKeepWhatIsWritten : Obligations.RegistersKeepWhatIsWritten := by
  unfold Obligations.RegistersKeepWhatIsWritten
  exact ⟨Hw.rd_wr_same, Hw.get_put_same, fun h f g v i hr _ => Hw.get_put_apart h f g v i hr, Hw.rd_wr_other⟩

/-- Settles O7: a calm block settles to itself, and the units of still cores move nothing. -/
theorem nothingDueNothingMoves : Obligations.NothingDueNothingMoves := by
  unfold Obligations.NothingDueNothingMoves
  exact ⟨Hw.settled_of_calm, pump_of_still⟩

/-- Settles O8: the bytes of a write read as written, and every byte outside them as before. -/
theorem memoryKeepsWhatIsStored : Obligations.MemoryKeepsWhatIsStored := by
  unfold Obligations.MemoryKeepsWhatIsStored
  exact ⟨fun m area addr i bs hi => Mem.byte_write_same bs m area addr i hi,
    fun m area addr area' addr' bs hne => Mem.byte_write_other bs m area addr area' addr' hne⟩

/-- Time that moves to a tick not in the past stands at that tick. -/
theorem Hw.elapse_of_le (h : Hw) (t : Nat) (hle : h.ticks ≤ t) : h.elapse t = { h with ticks := t } := by
  unfold Hw.elapse
  rw [Nat.max_eq_right hle]

theorem Hw.still_elapse (h : Hw) (t : Nat) (hs : h.Still) : (h.elapse t).Still := Hw.still_of h _ hs rfl rfl

theorem Hw.calm_elapse (h : Hw) (t : Nat) (hc : h.Calm) : (h.elapse t).Calm := hc

/-- A cycle of the running clock moves time four ticks on, and no further than the beat's end. -/
theorem idleCycle_of_aclk (h : Hw) (ha : h.clocks.aclk = true) (hin : h.ticks ≤ h.time.beatStart + h.beatTicks) :
    idleCycle h = h.elapse (min (h.ticks + 4) (h.time.beatStart + h.beatTicks)) := by
  unfold idleCycle
  rw [if_pos ha, Nat.max_eq_right (Nat.le_min_of_le_of_le (Nat.le_add_right _ _) hin)]

/-- Where no unit moves and nothing falls due, what a cycle without a command leaves is the time it takes. -/
theorem State.idle_of_still (s : State) (t : Nat) (hcycle : idleCycle s.hw = s.hw.elapse t) (hstill : s.hw.Still) (hcalm : s.hw.Calm) :
    s.idle = { s with hw := s.hw.elapse t } := by
  have hpump : pump (s.work.onHw idleCycle) = s.work.onHw idleCycle := by
    refine pump_of_still _ ?_
    rw [Work.onHw_hw, State.work_hw, hcycle]
    exact s.hw.still_elapse t hstill
  unfold State.idle
  rw [hpump]
  unfold State.after
  rw [Work.onHw_hw, State.work_hw, hcycle, Hw.settled_of_calm _ (s.hw.calm_elapse t hcalm)]
  rfl

/-- Settles O2: the cycle passes, still units stay, and nothing falls due. -/
theorem emptyQueueLetsOneCyclePass : Obligations.EmptyQueueLetsOneCyclePass := by
  unfold Obligations.EmptyQueueLetsOneCyclePass
  intro s hq ha hin hcalm hstill
  have hstep : step s = .next s.idle := by unfold step; rw [hq]
  rw [hstep, s.idle_of_still _ (idleCycle_of_aclk s.hw ha hin) hstill hcalm,
    Hw.elapse_of_le _ _ (Nat.le_min_of_le_of_le (Nat.le_add_right _ _) hin)]

end Sys2Proof.Machine
end

section
/-! Laws of register words and fields that the proofs about writes share (R6, R7, R403). -/

namespace Sys2Proof.Machine

/-! Words. -/

/-- A bit is a one-bit field. -/
theorem bit_eq_bits (b x : Nat) : bit b x = (bits b 1 x == 1) := rfl

/-- A field of a word as a command writes it, where the command sets the field. -/
theorem bits_withFld_same (f : Fld) (v x : Nat) (hf : f.lo + f.w ≤ 32) : bits f.lo f.w (withFld f v x % 2 ^ 32) = v % 2 ^ f.w := by
  rw [bits_mod _ _ _ _ hf]
  exact bits_putBits _ _ _ _

/-- A field of a word as a command writes it, beside the field that the command sets. -/
theorem bits_withFld_apart (f : Fld) (lo w v x : Nat) (hw : lo + w ≤ 32) (hd : lo + w ≤ f.lo ∨ f.lo + f.w ≤ lo) :
    bits lo w (withFld f v x % 2 ^ 32) = bits lo w x := by
  rw [bits_mod _ _ _ _ hw]
  exact bits_putBits_apart _ _ _ _ _ _ hd

theorem bit_withFld_apart (f : Fld) (b v x : Nat) (hb : b < 32) (hd : b + 1 ≤ f.lo ∨ f.lo + f.w ≤ b) :
    bit b (withFld f v x % 2 ^ 32) = bit b x := by
  rw [bit_eq_bits, bits_withFld_apart f b 1 v x hb hd, bit_eq_bits]

theorem bit_withFld_same (f : Fld) (v x : Nat) (hw : f.w = 1) (hf : f.lo < 32) : bit f.lo (withFld f v x % 2 ^ 32) = (v % 2 == 1) := by
  have h := bits_withFld_same f v x (by omega)
  rw [hw] at h
  rw [bit_eq_bits, h, Nat.pow_one]

theorem bits_lt (lo w x : Nat) : bits lo w x < 2 ^ w := Nat.mod_lt _ (Nat.two_pow_pos w)

theorem bits_mod_self (lo w x : Nat) : bits lo w x % 2 ^ w = bits lo w x := Nat.mod_eq_of_lt (bits_lt lo w x)

namespace Hw

/-! One-bit fields. -/

theorem on_eq_get (h : Hw) (f : Fld) (i : Nat) : h.on f i = (h.get f i == 1) := rfl

theorem on_put_same (h : Hw) (f : Fld) (v i : Nat) (hf : f.lo + f.w ≤ 8 * f.reg.desc.size) : (h.put f v i).on f i = (v % 2 ^ f.w == 1) := by
  rw [on_eq_get, get_put_same _ _ _ _ hf]

theorem on_put_apart (h : Hw) (f g : Fld) (v i : Nat) (hr : g.reg = f.reg) (hg : g.lo + g.w ≤ 8 * f.reg.desc.size)
    (hd : g.lo + g.w ≤ f.lo ∨ f.lo + f.w ≤ g.lo) : (h.put f v i).on g i = h.on g i := by
  rw [on_eq_get, get_put_apart _ _ _ _ _ hr hg hd, on_eq_get]

theorem on_put_reg (h : Hw) (f g : Fld) (v i j : Nat) (hr : g.reg ≠ f.reg) : (h.put f v i).on g j = h.on g j := by
  rw [on_eq_get, get_put_reg _ _ _ _ _ _ hr, on_eq_get]

theorem on_wr_reg (h : Hw) (r : Reg) (g : Fld) (v i j : Nat) (hr : g.reg ≠ r) : (h.wr r i v).on g j = h.on g j := by
  rw [on_eq_get, get_wr_reg _ _ _ _ _ _ hr, on_eq_get]

/-- A field of a register written whole. -/
theorem get_wr_same (h : Hw) (f : Fld) (v i : Nat) (hf : f.lo + f.w ≤ 8 * f.reg.desc.size) : (h.wr f.reg i v).get f i = bits f.lo f.w v := by
  unfold get
  rw [rd_wr_same, bits_mod _ _ _ _ hf]

/-! `Only` along a chain of writes. -/

/-- One more register write within the listed registers. -/
theorem Only.wr {h h' : Hw} {ks : List (Reg × Nat)} (ho : h.Only h' ks) (r : Reg) (i v : Nat) (hk : (r, i) ∈ ks) : h.Only (h'.wr r i v) ks := by
  obtain ⟨hrest, hrd⟩ := ho
  refine ⟨hrest, fun r' j hne => ?_⟩
  rw [rd_wr_other h' r r' i j v fun heq => hne (heq ▸ hk), hrd r' j hne]

theorem only_put (h : Hw) (f : Fld) (v i : Nat) : h.Only (h.put f v i) [(f.reg, i)] := only_wr h f.reg i _

end Hw

/-! A plain write of a word. -/

theorem getLsbD_word (x b : Nat) (hb : b < 32) : (BitVec.ofNat 32 x).getLsbD b = x.testBit b := by
  rw [BitVec.getLsbD_ofNat, decide_eq_true hb, Bool.true_and]

/-- The bits of a word after a plain write, one by one. -/
theorem testBit_writtenWord (old rw w1c v hwSet b : Nat) (hb : b < 32) :
    (Hw.writtenWord old rw w1c v hwSet).testBit b =
      (((old.testBit b && !rw.testBit b || v.testBit b && rw.testBit b) && !(v.testBit b && w1c.testBit b)) || hwSet.testBit b && w1c.testBit b) := by
  unfold Hw.writtenWord
  rw [BitVec.testBit_toNat]
  simp only [BitVec.getLsbD_or, BitVec.getLsbD_and, BitVec.getLsbD_not, getLsbD_word _ _ hb, decide_eq_true hb, Bool.true_and]

/-- Settles O10: the word bit by bit, for a bit that is W1C, RW, or neither. -/
theorem plainWriteByBits : Obligations.PlainWriteByBits := by
  unfold Obligations.PlainWriteByBits
  intro old rw w1c v hwSet b hb hdisj
  have hnot : (rw.testBit b && w1c.testBit b) = false := by
    have h := Nat.testBit_and rw w1c b
    rw [show rw &&& w1c = 0 from hdisj, Nat.zero_testBit] at h
    exact h.symm
  rw [testBit_writtenWord _ _ _ _ _ _ hb]
  cases hw1c : w1c.testBit b with
  | true =>
    have hrw : rw.testBit b = false := by simpa [hw1c] using hnot
    cases hwSet.testBit b <;> simp [hrw]
  | false => cases hrw : rw.testBit b <;> simp

/-- Settles O13: the refusal as its put and its entry, where the put leaves LK_ADDR. -/
theorem aRefusalIsLoggedAndChangesNothing : Obligations.ARefusalIsLoggedAndChangesNothing := by
  unfold Obligations.ARefusalIsLoggedAndChangesNothing
  intro h code f i unit hcode hreg hroom
  rw [Hw.refuse_cfg h code f i unit hcode hroom]
  unfold Hw.refusalEntry
  rw [Hw.get_put_reg _ _ _ _ _ _ (Ne.symm hreg)]
  rfl

end Sys2Proof.Machine
end

section
/-! Proofs about REGISTER_WRITE (R6, R7, R318, R403). -/

namespace Sys2Proof.Machine

namespace Hw

/-! What a write of control space passes before it takes effect. -/

/-- A write that nothing stops has the register's effect. -/
theorem ctlWrite_of_takes (w : Work) (a : Agent) (off v hwSet : Nat) (p : Place) (hal : off % 4 = 0) (hs : w.hw.served off = true)
    (hd : a = .debug → w.hw.mayDebug true (some p) = true) (hmb : isMailbox off = false) (hp : placeOf off = some p) (hb : w.hw.built p = true)
    (hw : mayWrite a p.reg = true) : ctlWrite a off v hwSet w = regWrite a p (v % 2 ^ 32) hwSet w := by
  have hdbg : (a == .debug && !w.hw.mayDebug true (placeOf off)) = false := by
    rw [hp]
    cases a <;> simp_all
  simp [ctlWrite, hal, hs, hmb, hp, hb, hw] at hdbg ⊢
  intro ha hno
  exact absurd (hdbg ha) (by simp [hno])

/-- A write where nothing lies is ignored. -/
theorem ctlWrite_of_nowhere (w : Work) (a : Agent) (off v hwSet : Nat) (hp : placeOf off = none) (hmb : isMailbox off = false) (ha : a ≠ .debug) :
    ctlWrite a off v hwSet w = w := by
  simp [ctlWrite, hp, hmb, ha]

/-- A write by an agent that may not write the register is refused with the unit's code (R318). -/
theorem ctlWrite_of_notWriter (w : Work) (a : Agent) (off v hwSet : Nat) (p : Place) (hal : off % 4 = 0) (hs : w.hw.served off = true)
    (ha : a ≠ .debug) (hmb : isMailbox off = false) (hp : placeOf off = some p) (hb : w.hw.built p = true) (hw : mayWrite a p.reg = false) :
    ctlWrite a off v hwSet w =
      w.onHw (fun h => h.raise Rc.SEC_HOOP_VIOLATION { unit := unitCode p, refusal := true, reason := unitReason p }) := by
  simp [ctlWrite, hal, hs, ha, hmb, hp, hb, hw]
  rfl

/-- A register without a rule of its own takes the plain write. -/
theorem regWrite_of_plainReg (a : Agent) (p : Place) (v hwSet : Nat) (w : Work) (hp : p.reg ∈ plainRegs) :
    regWrite a p v hwSet w = w.onHw (fun h => h.plainWrite p v hwSet) := by
  obtain ⟨r, i, o, hi⟩ := p
  simp only [plainRegs, List.mem_cons, List.not_mem_nil, or_false] at hp
  rcases hp with rfl | rfl | rfl | rfl | rfl | rfl | rfl | rfl | rfl | rfl | rfl | rfl | rfl | rfl | rfl | rfl | rfl | rfl | rfl | rfl | rfl |
    rfl | rfl | rfl | rfl | rfl | rfl | rfl | rfl | rfl | rfl | rfl | rfl | rfl <;> rfl

/-! What the plain write leaves. -/

theorem only_plainWrite (h : Hw) (p : Place) (v hwSet : Nat) : h.Only (h.plainWrite p v hwSet) [(p.reg, p.idx)] := by
  have hone : ∀ n, h.Only (h.wr p.reg p.idx n) [(p.reg, p.idx)] := fun n => h.only_wr p.reg p.idx n
  cases hsdc : sdcBit p.reg with
  | none => simp only [plainWrite, hsdc, hone]
  | some b =>
    simp only [plainWrite, hsdc]
    generalize (p.hi || _) = quiet
    cases quiet
    · exact (hone _).wr _ _ _ (List.mem_singleton_self _)
    · exact hone _

theorem desc_size_ge (r : Reg) : 4 ≤ r.desc.size := by cases r <;> decide

theorem writtenWord_lt (old rw w1c v hwSet : Nat) : writtenWord old rw w1c v hwSet < 2 ^ 32 := BitVec.isLt _

/-- The low word of a register after a plain write of it. -/
theorem rd_plainWrite_low (h : Hw) (p : Place) (v hwSet : Nat) (hlo : p.hi = false) (hsdc : sdcBit p.reg = none) :
    (h.plainWrite p v hwSet).rd p.reg p.idx % 2 ^ 32 =
      writtenWord (h.rd p.reg p.idx % 2 ^ 32)
        (bits 0 32 (if 2 ≤ h.get F.SC_STATE_STATE then p.reg.desc.rw else Nat.lor p.reg.desc.rw p.reg.desc.rwl)) (bits 0 32 p.reg.desc.w1c) v hwSet := by
  have hlow : ∀ x, bits 0 32 x = x % 2 ^ 32 := fun x => by unfold bits; rw [Nat.pow_zero, Nat.div_one]
  have hsize : 2 ^ 32 ∣ 2 ^ (8 * p.reg.desc.size) := Nat.pow_dvd_pow 2 (by have := desc_size_ge p.reg; omega)
  unfold plainWrite
  simp only [hlo, hsdc, Bool.false_eq_true, if_false]
  rw [rd_wr_same, Nat.mod_mod_of_dvd _ hsize, ← hlow, bits_putBits, Nat.mod_eq_of_lt (writtenWord_lt _ _ _ _ _), ← hlow (h.rd p.reg p.idx)]

end Hw

/-- Settles O11: a write of a plain register passes to the plain write, one where nothing lies is ignored, one by another writer is refused. -/
theorem registerWritesFollowTheirWriters : Obligations.RegisterWritesFollowTheirWriters := by
  unfold Obligations.RegisterWritesFollowTheirWriters
  refine ⟨fun s a off v hwSet p hoff hal hp hplain hmb hs hb hw hd => ⟨?effect, s.hw.only_plainWrite p _ _, s.hw.rd_plainWrite_low p _ _⟩,
    fun s a off v hwSet hoff hp hmb ha => ?nowhere, fun s a off v hwSet p hoff hal hp ha hmb hs hb hw => ?refused⟩
  case effect =>
    show s.answers (Hw.ctlWrite a (off % 2 ^ 28) v.toNat hwSet.toNat) = _
    unfold State.answers
    rw [Nat.mod_eq_of_lt hoff, Hw.ctlWrite_of_takes s.work a off _ _ p hal hs hd hmb hp hb hw, Hw.regWrite_of_plainReg _ _ _ _ _ hplain,
      Nat.mod_eq_of_lt v.isLt]
    rfl
  case nowhere =>
    show s.answers (Hw.ctlWrite a (off % 2 ^ 28) v.toNat hwSet.toNat) = _
    unfold State.answers
    rw [Nat.mod_eq_of_lt hoff, Hw.ctlWrite_of_nowhere s.work a off _ _ hp hmb ha]
    rfl
  case refused =>
    show s.answers (Hw.ctlWrite a (off % 2 ^ 28) v.toNat hwSet.toNat) = _
    unfold State.answers
    rw [Nat.mod_eq_of_lt hoff, Hw.ctlWrite_of_notWriter s.work a off _ _ p hal hs ha hmb hp hb hw]
    rfl

end Sys2Proof.Machine
end

section
/-! Proofs about the writes of the time unit (R36, R37, R55), the plinth's count (R24) and a slack that ends (R53). -/

namespace Sys2Proof.Machine

namespace Hw

/-! TM_CTRL. -/

/-- The word that a write of TM_CTRL keeps: its 20 bits. -/
theorem bits_tmWord (f : Fld) (lo w v x : Nat) (hw : lo + w ≤ 20) (hd : lo + w ≤ f.lo ∨ f.lo + f.w ≤ lo) :
    bits lo w (withFld f v x % 2 ^ 32 % 2 ^ 20) = bits lo w x := by
  rw [bits_mod lo w _ 20 hw, bits_withFld_apart f lo w v x (by omega) hd]

theorem tmWord_eq (f : Fld) (v x : Nat) : withFld f v x % 2 ^ 32 % 2 ^ 20 = putBits f.lo f.w v x % 2 ^ 20 :=
  Nat.mod_mod_of_dvd _ (by decide)

/-- From FREE with SOURCE 0 and depth 0, ENABLE makes the unit MASTER (R36). -/
theorem writeTmCtrl_master (h : Hw) (v : Nat) (hfree : h.tmState = tmFree) (hoff : h.on F.TM_CTRL_ENABLE = false) (hin : tmCtrlInRange h v)
    (hsrc : bits 1 3 v = 0) (hdepth : bits 14 3 v = 0) :
    h.writeTmCtrl (withFld F.TM_CTRL_ENABLE 1 v % 2 ^ 32) = (h.wr .TM_CTRL 0 (putBits 0 1 1 v % 2 ^ 20)).put F.TM_STATUS_STATE tmMaster := by
  obtain ⟨_, hport, hbackup, hstretch⟩ := hin
  have hfield : ∀ lo w, 1 ≤ lo → lo + w ≤ 20 → bits lo w (withFld F.TM_CTRL_ENABLE 1 v % 2 ^ 32 % 2 ^ 20) = bits lo w v :=
    fun lo w hlo hw => bits_tmWord _ lo w 1 v hw (.inr hlo)
  have hon : bit 0 (withFld F.TM_CTRL_ENABLE 1 v % 2 ^ 32 % 2 ^ 20) = true := by
    rw [bit_eq_bits, bits_mod 0 1 _ 20 (by decide)]
    exact bit_withFld_same F.TM_CTRL_ENABLE 1 v rfl (by decide)
  have hold : bit 0 (h.rd .TM_CTRL 0) = false := hoff
  unfold writeTmCtrl
  simp only [hfree, hfield 1 3 (by decide) (by decide), hfield 14 3 (by decide) (by decide), hfield 4 5 (by decide) (by decide),
    hfield 9 5 (by decide) (by decide), hfield 17 3 (by decide) (by decide), hsrc, hdepth, hold, hon]
  simp only [tmFree, tmLocked, tmHoldover, tmMaster, depthOk, setTmState, tmWord_eq]
  simp
  rw [if_neg (by omega)]
  rfl

/-- In service, a word that clears ENABLE alone returns the unit to FREE (R36). -/
theorem writeTmCtrl_free (h : Hw) (hserv : h.tmState = tmLocked ∨ h.tmState = tmHoldover ∨ h.tmState = tmMaster) (hlt : h.rd .TM_CTRL 0 < 2 ^ 20) :
    h.writeTmCtrl (withFld F.TM_CTRL_ENABLE 0 (h.rd .TM_CTRL 0) % 2 ^ 32) = (h.put F.TM_CTRL_ENABLE 0).put F.TM_STATUS_STATE tmFree := by
  have hle : putBits 0 1 0 (h.rd .TM_CTRL 0) ≤ h.rd .TM_CTRL 0 := by unfold putBits; omega
  have hword : withFld F.TM_CTRL_ENABLE 0 (h.rd .TM_CTRL 0) % 2 ^ 32 % 2 ^ 20 = putBits 0 1 0 (h.rd .TM_CTRL 0) :=
    (tmWord_eq _ _ _).trans (Nat.mod_eq_of_lt (by exact Nat.lt_of_le_of_lt hle hlt))
  have hstate : (h.tmState == tmLocked || h.tmState == tmHoldover || h.tmState == tmMaster) = true := by
    rcases hserv with e | e | e <;> rw [e] <;> rfl
  unfold writeTmCtrl
  simp only [hword, hstate, beq_self_eq_true, if_true]
  rfl

/-! TM_TRIM. -/

/-- A word of TM_TRIM in MODE 10b with its other fields in range that requests a step takes effect at the next boundary (R37). -/
theorem writeTmTrim_step (h : Hw) (v : Nat) (step : Int) (hmode : bits 0 2 v = 2) (hgap : 1 ≤ bits 4 4 v) (hmax : bits 8 4 v ≤ 7)
    (havg : 8 ≤ bits 12 4 v) (hstep : bit 2 v = true ∧ bit 3 v = false ∧ step = 1 ∨ bit 2 v = false ∧ bit 3 v = true ∧ step = -1) :
    h.writeTmTrim v = { h.wr .TM_TRIM 0 (putBits 2 2 0 (v % 2 ^ 16)) with
      time := { h.time with trimHeld := some (h.time.trimHeld.getD (h.rd .TM_TRIM 0)), stepDue := step } } := by
  have hrange : (bits 0 2 v == 3 || bits 4 4 v == 0 || decide (bits 8 4 v > 7) || decide (bits 12 4 v < 8)) = false := by
    simp [hmode]; omega
  unfold writeTmTrim
  rw [if_neg (by rw [hrange]; decide)]
  rcases hstep with ⟨h2, h3, rfl⟩ | ⟨h2, h3, rfl⟩ <;> simp [hmode, h2, h3]

/-! TM_EPOCH_CTRL. -/

/-- ARM of an image that passes every check arms it, outside the last phase of the boot and on a block that floods no message (R55). -/
theorem armWrite_arms (h : Hw) (m : Mem) (harm : h.on F.TM_EPOCH_CTRL_ARM = false) (hbad : h.badWords = []) (hmaster : h.isMaster = false)
    (hboot : h.bootPhase ≠ 5) (hcheck : h.armCheck m (h.get F.TM_PRK_SHADOW_BASE * 4096) false = 0) :
    h.armWrite m false 1 = (h.put F.TM_EPOCH_CTRL_ARM 1).put F.TM_EPOCH_CTRL_REASON 0 := by
  have hwords : h.badScratchIn (h.get F.TM_PRK_SHADOW_BASE * 4096) (max 128 (Img.offset m (h.get F.TM_PRK_SHADOW_BASE * 4096) 6)) = none := by
    unfold badScratchIn
    rw [hbad]
    rfl
  have hb0 : bit 0 1 = true := rfl
  have hctrl : h.writeEpochCtrl m false 1 = (h.put F.TM_EPOCH_CTRL_ARM 1).put F.TM_EPOCH_CTRL_REASON 0 := by
    have hb1 : bit 1 1 = false := rfl
    have hb2 : bit 2 1 = false := rfl
    have hb3 : bit 3 1 = false := rfl
    unfold writeEpochCtrl
    simp only [hb0, hb1, hb2, hb3, applyIf, Bool.and_false, Bool.false_eq_true, if_false, harm, Bool.not_false, Bool.and_true, if_true, hcheck,
      beq_self_eq_true]
  have hmaster' : ((h.put F.TM_EPOCH_CTRL_ARM 1).put F.TM_EPOCH_CTRL_REASON 0).isMaster = false := by
    unfold isMaster tmState at hmaster ⊢
    rw [get_put_reg _ _ _ _ _ _ (by decide), get_put_reg _ _ _ _ _ _ (by decide)]
    exact hmaster
  have hboot' : (((h.put F.TM_EPOCH_CTRL_ARM 1).put F.TM_EPOCH_CTRL_REASON 0).bootPhase == 5) = false := by
    unfold bootPhase at hboot ⊢
    rw [get_put_reg _ _ _ _ _ _ (by decide), get_put_reg _ _ _ _ _ _ (by decide)]
    exact beq_eq_false_iff_ne.2 hboot
  unfold armWrite
  simp only [hb0, harm, Bool.not_true, Bool.or_false, Bool.false_eq_true, if_false, hwords, Option.isSome_none, hctrl, Bool.false_or, hmaster', hboot',
    Bool.false_and, ite_self]

/-- DISARM more than 1,024 beats before the image's start takes it back (R55). -/
theorem armWrite_disarms (h : Hw) (m : Mem) (harm : h.on F.TM_EPOCH_CTRL_ARM = true)
    (hearly : h.time.beat + 1024 < Img.startBeat m (h.get F.TM_PRK_SHADOW_BASE * 4096)) :
    h.armWrite m false 2 = (h.put F.TM_EPOCH_CTRL_ARM 0).put F.TM_EPOCH_CTRL_REASON 0 := by
  have hb0 : bit 0 2 = false := rfl
  have hb1 : bit 1 2 = true := rfl
  have hb2 : bit 2 2 = false := rfl
  have hb3 : bit 3 2 = false := rfl
  unfold armWrite writeEpochCtrl
  simp only [hb0, hb1, hb2, hb3, applyIf, harm, Bool.not_false, Bool.true_or, if_true, Option.isSome_none, Bool.and_true, Bool.false_and,
    Bool.false_eq_true, if_false, if_neg (Nat.not_le.2 hearly)]

end Hw

/-- A write of TM_TRIM that sets one STEP bit, the other clear, in MODE 10b. -/
theorem State.answers_trimStep (s : State) (a : Agent) (x : Nat) (step : Int) (htakes : s.hw.Takes a .TM_TRIM 0) (hmode : bits 0 2 (x % 2 ^ 32) = 2)
    (hgap : 1 ≤ bits 4 4 (x % 2 ^ 32)) (hmax : bits 8 4 (x % 2 ^ 32) ≤ 7) (havg : 8 ≤ bits 12 4 (x % 2 ^ 32))
    (hstep : bit 2 (x % 2 ^ 32) = true ∧ bit 3 (x % 2 ^ 32) = false ∧ step = 1 ∨ bit 2 (x % 2 ^ 32) = false ∧ bit 3 (x % 2 ^ 32) = true ∧ step = -1) :
    ∃ h', s.answers (Hw.writeNamed a .TM_TRIM 0 x) = s.leads h' ∧ h'.time.stepDue = step ∧
      s.hw.Only { h' with time := s.hw.time } [(.TM_TRIM, 0)] := by
  refine ⟨_, State.answers_writeNamed s a .TM_TRIM 0 x (·.writeTmTrim (x % 2 ^ 32)) htakes rfl, ?_⟩
  rw [s.hw.writeTmTrim_step _ step hmode hgap hmax havg hstep]
  exact ⟨rfl, s.hw.only_wr .TM_TRIM 0 _⟩

/-- Settles O15: each named write passes to its register's rule. -/
theorem timeUnitWritesTakeEffect : Obligations.TimeUnitWritesTakeEffect := by
  unfold Obligations.TimeUnitWritesTakeEffect
  refine ⟨?master, ?free, ?long, ?short, ?shadow, ?arm, ?disarm⟩
  case master =>
    intro s a v htakes hfree hoff hin hsrc hdepth
    rw [← s.hw.writeTmCtrl_master v.toNat hfree hoff hin hsrc hdepth]
    exact State.answers_writeNamed s a .TM_CTRL 0 _ (·.writeTmCtrl _) htakes rfl
  case free =>
    intro s a htakes hserv hlt
    rw [← s.hw.writeTmCtrl_free hserv hlt]
    exact State.answers_writeNamed s a .TM_CTRL 0 _ (·.writeTmCtrl _) htakes rfl
  case long =>
    intro s a v htakes hmode hgap hmax havg hshort
    refine s.answers_trimStep a (withFld F.TM_TRIM_STEP_LONG 1 v.toNat) 1 htakes ?_ ?_ ?_ ?_ (.inl ⟨bit_withFld_same _ _ _ rfl (by decide), ?_, rfl⟩)
    · rwa [bits_withFld_apart _ _ _ _ _ (by decide) (by decide)]
    · rwa [bits_withFld_apart _ _ _ _ _ (by decide) (by decide)]
    · rwa [bits_withFld_apart _ _ _ _ _ (by decide) (by decide)]
    · rwa [bits_withFld_apart _ _ _ _ _ (by decide) (by decide)]
    · rwa [bit_withFld_apart _ _ _ _ (by decide) (by decide)]
  case short =>
    intro s a v htakes hmode hgap hmax havg hlong
    refine s.answers_trimStep a (withFld F.TM_TRIM_STEP_SHORT 1 v.toNat) (-1) htakes ?_ ?_ ?_ ?_ (.inr ⟨?_, bit_withFld_same _ _ _ rfl (by decide), rfl⟩)
    · rwa [bits_withFld_apart _ _ _ _ _ (by decide) (by decide)]
    · rwa [bits_withFld_apart _ _ _ _ _ (by decide) (by decide)]
    · rwa [bits_withFld_apart _ _ _ _ _ (by decide) (by decide)]
    · rwa [bits_withFld_apart _ _ _ _ _ (by decide) (by decide)]
    · rwa [bit_withFld_apart _ _ _ _ (by decide) (by decide)]
  case shadow =>
    intro s a v htakes harm
    have heffect : s.hw.writePrkShadow (v.toNat % 2 ^ 32) = s.hw.put F.TM_PRK_SHADOW_BASE (bits 12 16 v.toNat) := by
      unfold Hw.writePrkShadow
      rw [harm, bits_mod _ _ _ _ (by decide)]
      rfl
    rw [← heffect]
    exact State.answers_writeNamed s a .TM_PRK_SHADOW 0 _ (·.writePrkShadow _) htakes rfl
  case arm =>
    intro s a htakes harm hbad hmaster hboot hcheck
    rw [← s.hw.armWrite_arms s.mem harm hbad hmaster hboot hcheck]
    exact s.answers_of _ (fun w => w.onHwMem (fun m h => h.armWrite m false 1)) _ (Hw.guarded_of_takes _ _ _ _ _ htakes) rfl
  case disarm =>
    intro s a htakes harm hearly
    rw [← s.hw.armWrite_disarms s.mem harm hearly]
    exact s.answers_of _ (fun w => w.onHwMem (fun m h => h.armWrite m false 2)) _ (Hw.writeNamed_of_takes _ _ _ _ _ htakes) rfl

/-! The plinth. -/

theorem Hw.applyLimits_of_none (h : Hw) (hn : h.power.limitNext = []) : h.applyLimits = h := by
  unfold Hw.applyLimits Hw.onPower
  rw [foldl_fix _ _ _ fun r _ => by rw [hn]; rfl, ← hn]

/-- Settles O16: the ticks beyond the last whole beat and the beats come from one sum by division. -/
theorem thePlinthCountsBeats : Obligations.ThePlinthCountsBeats := by
  unfold Obligations.ThePlinthCountsBeats
  intro s n ha hn
  have hlimits : plinthBeats n s.hw = s.hw.plinthCount n := by
    have hnone : (s.hw.plinthCount n).applyLimits = s.hw.plinthCount n :=
      Hw.applyLimits_of_none _ (by unfold Hw.plinthCount; rw [if_neg (by simp [ha])]; exact hn)
    unfold plinthBeats
    simp only [hnone, ite_self]
  refine ⟨s.hw.plinthCount n, ?_, ?_⟩
  · rw [← hlimits]
    exact s.answers_onHw _
  · unfold Hw.plinthCount
    rw [if_neg (by simp [ha])]
    refine ⟨rfl, ?_, Nat.mod_lt _ (by decide), rfl⟩
    show 1024 * (s.hw.time.beat + (s.hw.time.plinthTicks + 44 * n) / 1024) + (s.hw.time.plinthTicks + 44 * n) % 1024 = _
    omega

/-- Settles O19: the slack ends within the beat, on a core that its run has bound. -/
theorem slackEndsInALateIssue : Obligations.SlackEndsInALateIssue := by
  unfold Obligations.SlackEndsInALateIssue
  intro s c e t ha hc hslack hin hbound
  refine s.answers_of _ (fun w => w.onHw (fun h => h.slackExpiry c)) _ (atCore_of c _ _ ha hc) ?_
  have heffect : s.hw.slackExpiry c = (s.hw.elapse t).lateIssue c := by
    unfold Hw.slackExpiry
    simp only [hslack, if_neg (Nat.not_le.2 hin), Hw.seq_elapse, hbound, if_true]
  show { s.work with hw := s.hw.slackExpiry c } = _
  rw [heffect]
  rfl

end Sys2Proof.Machine
end

section
/-! Proofs about a raise that aborts the run in progress (R340, R344, R350, R355). -/

namespace Sys2Proof.Machine

namespace Hw

/-- The step is abandoned with the attempt that an abort under this code ends (R355). -/
def abandonsWith (h : Hw) (code : Nat) : Bool :=
  h.run.attempt == h.get F.FT_CTRL_REPLAY_MAX && !(h.run.mirrored && code == Rc.FAB_SLOT_MISS)

/-- The registers of the fault unit as an abort cycle writes them. -/
def abortRegs (h : Hw) (abandoned : Bool) (code attempt beat : Nat) : Hw :=
  (((((h.put F.FT_STATUS_STATE (if abandoned then 2 else 1)).put F.FT_STATUS_READY 0).put F.FT_STATUS_REASON code).put
    F.FT_ATTEMPT_CODE code).put F.FT_ATTEMPT_ATTEMPT attempt).put F.FT_REPLAY_BEAT beat

/-- What an abort cycle leaves: the abort, the run marked as faulted, and the fault unit's registers. -/
theorem beginAbort_eq (h : Hw) (code : Nat) (src : Src) (hrun : h.run.on = true) (hab : h.ab.on = false) :
    ∃ (ab : AbortState) (beat : Nat),
      h.beginAbort code src = ((h.setAb ab).setRun { h.run with faulted := true }).abortRegs (h.abandonsWith code) code h.run.attempt beat ∧
      ab.on = true ∧ ab.fresh = true ∧ ab.code = code ∧ ab.beat = h.time.beat ∧ ab.readyTick = h.ticks + 4 * h.tReady := by
  unfold beginAbort
  simp only [hrun, hab, Bool.not_true, Bool.or_self, Bool.false_eq_true, if_false]
  split
  · exact ⟨_, 0, rfl, rfl, rfl, rfl, rfl, rfl⟩
  · exact ⟨_, _, rfl, rfl, rfl, rfl, rfl, rfl⟩

/-- An abort's registers hold the code, and no readiness. -/
theorem abortRegs_holds (h : Hw) (abandoned : Bool) (code attempt beat : Nat) (hc : code < 2 ^ 16) :
    (h.abortRegs abandoned code attempt beat).get F.FT_STATUS_REASON = code ∧ (h.abortRegs abandoned code attempt beat).get F.FT_ATTEMPT_CODE = code ∧
      (h.abortRegs abandoned code attempt beat).get F.FT_STATUS_READY = 0 := by
  unfold abortRegs
  simp (disch := decide) only [get_put_reg, get_put_apart, get_put_same]
  exact ⟨Nat.mod_eq_of_lt hc, Nat.mod_eq_of_lt hc, rfl⟩

theorem abortRegs_state (h : Hw) (abandoned : Bool) (code attempt beat : Nat) :
    (h.abortRegs abandoned code attempt beat).get F.FT_STATUS_STATE = if abandoned then 2 else 1 := by
  unfold abortRegs
  simp (disch := decide) only [get_put_reg, get_put_apart, get_put_same]
  cases abandoned <;> rfl

/-- The fault-log entry of a raise by a source of the run in progress whose response is Abort. -/
def abortEntry (h : Hw) (code : Nat) (src : Src) : FaultEntry :=
  { beat := h.time.beat, code := code, unit := src.unit, attempt := h.run.attempt, stepId := h.run.stepId, context := src.context, hoop := src.hoop,
    origin := h.get F.LK_ADDR_ADDR, response := 2, detail := src.detail }

/-- A raise by a source of the run, outside its settle, is logged and begins the abort. -/
theorem raise_aborts (h : Hw) (code : Nat) (src : Src) (hrun : h.run.on = true) (hin : src.inRun = true) (href : src.refusal = false)
    (hhalt : src.halting = false) (hreason : src.reason = none) (hresp : responseOf code true false false = 2) (hset : h.inSettle = false)
    (hroom : h.faultLog.length < 1024) :
    h.raise code src = (h.setFaultLog (h.faultLog ++ [h.abortEntry code src])).beginAbort code src := by
  unfold raise
  simp only [hreason, hrun, hin, href, hhalt, hresp, Bool.true_or, Bool.and_self, if_true, beq_self_eq_true]
  rw [logFault_of_room _ _ hroom]
  have hset' : ∀ l, (h.setFaultLog l).inSettle = false := fun _ => hset
  simp only [hset', Bool.false_and, Bool.false_eq_true, if_false]
  rfl

end Hw

/-- Settles O14: the raise is logged and begins the abort, whose registers read as the abort cycle writes them. -/
theorem aRaiseInTheRunAborts : Obligations.ARaiseInTheRunAborts := by
  unfold Obligations.ARaiseInTheRunAborts
  intro h code src hrun hab hin href hhalt hreason hcode hresp hset hroom
  have hlogged := h.raise_aborts code src hrun hin href hhalt hreason hresp hset hroom
  obtain ⟨ab, beat, heq, hon, hfresh, habcode, habbeat, hready⟩ :=
    (h.setFaultLog (h.faultLog ++ [h.abortEntry code src])).beginAbort_eq code src hrun hab
  rw [hlogged, heq]
  obtain ⟨hreg, hattempt, hnotready⟩ := Hw.abortRegs_holds
    (((h.setFaultLog (h.faultLog ++ [h.abortEntry code src])).setAb ab).setRun { h.run with faulted := true }) (h.abandonsWith code) code
    h.run.attempt beat hcode
  refine ⟨hon, hfresh, habcode, habbeat, hready, rfl, rfl, hreg, hattempt, hnotready, fun hmirrored => ?state,
    h.abortEntry code src, rfl, rfl, rfl, rfl, rfl⟩
  case state =>
    have habandons : h.abandonsWith code = (h.run.attempt == h.get F.FT_CTRL_REPLAY_MAX) := by
      unfold Hw.abandonsWith
      rw [hmirrored, Bool.false_and, Bool.not_false, Bool.and_true]
    refine (Hw.abortRegs_state _ (h.abandonsWith code) code h.run.attempt beat).trans ?_
    simp only [habandons, beq_iff_eq]

end Sys2Proof.Machine
end

section
/-! Proofs about the commands that store nothing in the byte memories (R205). -/

namespace Sys2Proof.Machine

/-- An effect that makes no write to memory in a state. -/
def Quiet (s : State) (f : Work → Work) : Prop := (f s.work).writes = []

theorem quiet_clocked {s : State} {f : Work → Work} (hf : Quiet s f) : Quiet s (clocked f) := by
  unfold Quiet clocked; split
  · exact hf
  · rfl

theorem quiet_atCore {s : State} {f : Work → Work} (c : Nat) (hf : Quiet s f) : Quiet s (atCore c f) := by
  unfold Quiet atCore; split
  · exact hf
  · rfl

theorem quiet_atLink {s : State} {f : Work → Work} (p : Nat) (hf : Quiet s f) : Quiet s (atLink p f) := by
  unfold Quiet atLink; split
  · exact hf
  · rfl

theorem quiet_atTambour {s : State} {f : Work → Work} (t : Nat) (hf : Quiet s f) : Quiet s (atTambour t f) := by
  unfold Quiet atTambour; split
  · exact hf
  · rfl

theorem quiet_byFirmware {s : State} {f : Work → Work} (keeper : Bool) (hf : Quiet s f) : Quiet s (byFirmware keeper f) := by
  unfold Quiet byFirmware; split
  · exact hf
  · rfl

/-- A guarded write stores nothing where the write itself stores nothing: its refusals store nothing. -/
theorem quiet_guarded {s : State} {f : Work → Work} (a : Agent) (r : Reg) (i : Nat) (hf : Quiet s f) : Quiet s (Hw.guarded a r i f) := by
  unfold Quiet Hw.guarded
  simp only
  split
  · rfl
  · split
    · rfl
    · split
      · rfl
      · exact hf

/-! Registers that a command chooses. -/

theorem quiet_writeNamed_tambour (s : State) (a : Agent) (t v : Nat) :
    Quiet s (Hw.writeNamed a (Hw.tField t F.TB_CTRL_ENABLE).1.reg (Hw.tField t F.TB_CTRL_ENABLE).2 v) := by
  unfold Hw.tField
  split
  · exact quiet_guarded _ _ _ rfl
  · exact quiet_guarded _ _ _ rfl

theorem quiet_writeNamed_route (s : State) (a : Agent) (k i v : Nat) : Quiet s (Hw.writeNamed a (if k < 256 then .LK_GRT else .LK_MRT) i v) := by
  split
  · exact quiet_guarded _ _ _ rfl
  · exact quiet_guarded _ _ _ rfl

theorem quiet_writeNamed_calibration (s : State) (a : Agent) (k i v : Nat) :
    Quiet s (Hw.writeNamed a (if k < 16 then .EN_CAL else .EN_CAL_ID) i v) := by
  split
  · exact quiet_guarded _ _ _ rfl
  · exact quiet_guarded _ _ _ rfl

theorem quiet_writeNamed_hoop (s : State) (a : Agent) (which i v : Nat) : Quiet s (Hw.writeNamed a (Hw.hoopReg which) i v) := by
  unfold Hw.hoopReg
  split
  · exact quiet_guarded _ _ _ rfl
  · exact quiet_guarded _ _ _ rfl
  · exact quiet_guarded _ _ _ rfl
  · exact quiet_guarded _ _ _ rfl

theorem quiet_writeNamed_limit (s : State) (a : Agent) (r : Reg) (v : Nat) (hr : r ∈ Hw.limitRegs) : Quiet s (Hw.writeNamed a r 0 v) := by
  simp only [Hw.limitRegs, List.mem_cons, List.not_mem_nil, or_false] at hr
  rcases hr with rfl | rfl | rfl | rfl | rfl | rfl | rfl | rfl | rfl | rfl | rfl <;> exact quiet_guarded _ _ _ rfl

theorem quiet_clientPoll (s : State) (port source queue count index : Nat) : Quiet s (clientPoll port source queue count index) := by
  unfold Quiet clientPoll
  simp only
  split
  · rfl
  · rfl

/-- A command that completes without a write to memory. -/
def Control (i : Instr) (s : State) : Prop := ∃ w, exec i s = .next (s.after w) ∧ w.writes = []

theorem control {i : Instr} {s : State} {w : Work} (h : exec i s = .next (s.after w)) (hw : w.writes = []) : Control i s := ⟨w, h, hw⟩

/-- The commands that storesNothing names make no write to memory. -/
theorem control_of_storesNothing (i : Instr) (s : State) (hi : storesNothing i = true) : Control i s := by
  cases i
  case plinthBeatCount | bootStart | bootImageLoad | processorMemoryUncorrectable | watchdogExpiry | dbgPermit | debugLevelExpiry | dbgNonce | idcode |
      bypass | samplePreload | extest | bootStatus | dbgLevel | pllLocked | domainSwitchDone | porz | warmz | railFault | rampEnd | wakeBeat |
      wakeFrameMatch | wakeThermal | thermalSample | telemetrySample | telemetryDeadline | mgmtFrameReceive | mgmtOpen | mgmtConfirm |
      requestRepeat | mgmtClose | sessionTimeout | warmResetBootStart | coreRailPowerGood =>
    exact control rfl rfl
  case trefEdge | sourceMarkTimeout | holdoverExpiry | replayReady | blockMemoryInitDone | cacheInvalidateDone | correctedWriteBack |
      gatherPoolInput | couchArrival | syncInitDone | queueScanVisit | tailReadDone | reassemblyTimeout | helloSend | electionStable |
      keySweepDone | attachInitiatorResponse | apportionment =>
    exact control rfl (quiet_clocked rfl)
  case slackExpiry | abortFlush | arrayScrubDone | treeOperationDone | publishedCopyDone | bankLoadDone =>
    exact control rfl (quiet_atCore _ rfl)
  case beatMark | gatherSlotDeadline | couchEntryReceive | neighbourExpiry | measureEnd | linkDownTimeout | laneFailure | laneSwitchEffective =>
    exact control rfl (quiet_atLink _ rfl)
  case tambourLoadDone | tambourSequenceEnd | tambourClearDone | activityWindowEnd | configScrubFrame =>
    exact control rfl (quiet_atTambour _ rfl)
  case epochNotice | want | lostSuspect | lost => exact control rfl (quiet_byFirmware _ rfl)
  case cpoll => exact control rfl (quiet_atLink _ (quiet_clientPoll _ _ _ _ _ _))
  case tambourEnable | tambourDisable | tambourRelease | tambourStop => exact control rfl (quiet_writeNamed_tambour _ _ _ _)
  case routeTableWrite => exact control rfl (quiet_writeNamed_route _ _ _ _ _)
  case calibrationWrite => exact control rfl (quiet_writeNamed_calibration _ _ _ _ _)
  case hoopRangeWrite =>
    refine control rfl ?_
    split
    · exact quiet_writeNamed_hoop _ _ _ _ _
    · rfl
  case limitWrite =>
    refine control rfl ?_
    split
    · rename_i r hr
      exact quiet_writeNamed_limit _ _ r _ (List.mem_of_getElem? hr)
    · rfl
  case tmEnable | tmDisable | trimStepLong | trimStepShort | prkShadowWrite | epochArm | epochDisarm | spareRequest | faultUnitEnable |
      faultLogPop | lostStreamsWrite | arrayEnable | arrayDisable | arrSpareWrite | treeRowTest | treeAllRowsTest | treeMappingVerify |
      drainUnitEnable | macroUnitEnable | ringTailWrite | bankReloadRequest | sequencerEnable | sequencerDisable | bobbinEnable |
      bobbinDisable | errorLogPop | syncHandSet | syncUnitEnable | readyListPop | queueEnable | queueDisable | queueRestart | dispatchTake |
      contextCmdWrite | linkPortEnable | linkPortDisable | fabricAddressWrite | clientBindingWrite | ucieBind | dispatcherEnable |
      dispatcherRestart | keeperRestart | kick | coverWrite | mailboxEnable | hoopOpen | hoopClose | windowApply | keyInstall | keyErase |
      lifecycleCommand | debugHalt | debugResume | pllStart | pllStop | aclkSwitch | pclkSwitch | mclkSwitch | clockMonitorWrite |
      warmResetRequest | coreReset | tambourReset | powerRequestRun | powerRequestPark | powerRequestSleep | governorEnable |
      energyUnitEnable | samplerSign | snapshotGo =>
    exact control rfl (quiet_guarded _ _ _ rfl)
  all_goals exact absurd hi Bool.false_ne_true

/-- Settles O60: such a command applies no write to memory, and no effect touches the commands that wait. -/
theorem controlCommandsKeepMemory : Obligations.ControlCommandsKeepMemory := by
  unfold Obligations.ControlCommandsKeepMemory
  intro i s t hi hexec
  obtain ⟨w, hw, hwrites⟩ := control_of_storesNothing i s hi
  obtain rfl : s.after w = t := Host.Outcome.next.inj (hw.symm.trans hexec)
  refine ⟨rfl, fun area addr => ?_⟩
  rw [State.after_mem, hwrites]
  rfl

end Sys2Proof.Machine
end

section
/-! Proofs about the issue of instructions (R142 to R145, R153, R158). -/

namespace Sys2Proof.Machine

/-! Instruction words whose opcode or operation is fixed by the command's row. -/

theorem iop_withOp (w : InstrWord) (n : Nat) (hn : n < 256) : iop (withOp w n) = n := by
  unfold iop ifld withOp
  rw [BitVec.toNat_ofNat, bits_mod _ _ _ _ (by decide)]
  exact (bits_putBits 48 8 n w.toNat).trans (Nat.mod_eq_of_lt hn)

theorem ifld_withField_same (w : InstrWord) (off lo k v : Nat) (hk : 8 * off + lo + k ≤ 256) : ifld (withField w off lo k v) off lo k = v % 2 ^ k := by
  unfold ifld withField
  rw [BitVec.toNat_ofNat, bits_mod _ _ _ _ hk, bits_putBits]

theorem iop_withField (w : InstrWord) (off lo k v : Nat) (hd : 56 ≤ 8 * off + lo) : iop (withField w off lo k v) = iop w := by
  unfold iop ifld withField
  rw [BitVec.toNat_ofNat, bits_mod _ _ _ _ (by decide), bits_putBits_apart _ _ _ _ _ _ (Or.inl hd)]

/-- A row whose instruction issues its word by its rule. -/
def IssuesByRule (c : Nat) (x : Instr × InstrWord × OpRule) : Prop :=
  issueWord c x.2.1 = issueWith c x.2.1 x.2.2 ∧ ∀ s, exec x.1 s = s.moves (atCore c (issueWord c x.2.1))

theorem issuesByRule_of_row {c : Nat} {w : InstrWord} {x : Instr × InstrWord × OpRule} (hrow : x ∈ instrRows c w) : IssuesByRule c x := by
  simp only [instrRows, List.mem_cons, List.not_mem_nil, or_false] at hrow
  rcases hrow with rfl | rfl | rfl | rfl | rfl | rfl | rfl | rfl | rfl | rfl | rfl | rfl | rfl | rfl | rfl | rfl | rfl | rfl | rfl | rfl | rfl |
    rfl | rfl | rfl | rfl | rfl | rfl | rfl | rfl | rfl
  all_goals exact ⟨funext fun u => by simp (disch := decide) only [issueWord, iop_withField, iop_withOp], fun _ => rfl⟩

/-- An instruction that may issue now issues by the common rule. -/
theorem issueWith_of_issuesNow (s : State) (c : Nat) (iw : InstrWord) (rule : OpRule) (h : issuesNow s c iw rule) :
    issueWith c iw rule s.work = issueLeaves s c iw rule := by
  unfold issuesNow at h
  simp only at h
  obtain ⟨-, -, hmay, hskip, hseg, hres, haff, hstamp, hlast, hlen, htwo, hone, hcheck, hbeat, hslack, hover, hhold, hinit, hbad, hstate⟩ := h
  have hphase (tag : Nat) (htwo : opClass (iop iw) = 2 → tag = 2) (hone : opClass (iop iw) = 1 → tag ≠ 0) :
      (opClass (iop iw) == 2 && tag != 2 || opClass (iop iw) == 1 && tag == 0) = false := by
    simp only [Bool.or_eq_false_iff, Bool.and_eq_false_imp, beq_iff_eq, bne_eq_false_iff_eq, beq_eq_false_iff_ne]
    exact ⟨htwo, hone⟩
  have horder : (decide (s.hw.effStamp c iw ≥ 2 ^ 28) || decide (s.hw.effStamp c iw < (s.hw.seq c).lastStamp) ||
      (s.hw.seq c).bound && decide (s.hw.effStamp c iw / 256 ≥ s.hw.run.len)) = false := by
    simp only [Bool.or_eq_false_iff, Bool.and_eq_false_imp, decide_eq_false_iff_not]
    exact ⟨⟨Nat.not_le.mpr hstamp, Nat.not_lt.mpr hlast⟩, fun hb => Nat.not_le.mpr (hlen hb)⟩
  have hwaits : ((issueState s c iw rule).hw.beatOver || rule.hold (s.hw.effAddr c iw) (issueState s c iw rule) ||
      (addrField (iop iw)).isSome && (issueState s c iw rule).hw.on F.CR_MM_STATUS_INIT c) = false := by
    simp only [hover, hhold, Bool.false_or, Bool.and_eq_false_imp]
    exact hinit
  unfold issueWith
  refine (if_neg (by simp [hmay])).trans <| (if_neg (by simp [hskip])).trans <| (if_neg (by simpa [hres, Option.isSome_iff_ne_none] using haff)).trans <|
    (if_neg (by simpa [Option.isSome_iff_ne_none] using hseg)).trans <| (if_neg (ne_true_of_eq_false horder)).trans <|
    (if_neg (ne_true_of_eq_false (hphase _ htwo hone))).trans <| (if_neg (by simp [hcheck])).trans <| (if_neg (Nat.not_lt.mpr hbeat)).trans <|
    (if_neg (Nat.not_lt.mpr hslack)).trans <| (if_neg (ne_true_of_eq_false hwaits)).trans ?_
  split
  · next wh hwh => exact absurd (hbad.symm.trans hwh) (by simp)
  · exact if_neg (by rw [bne_iff_ne, Classical.not_not]; exact hstate)

/-- Settles O24: the row's word passes every check of the common issue, so the issue leaves its effect, and the units move on. -/
theorem instructionsIssueByTheCommonRule : Obligations.InstructionsIssueByTheCommonRule := by
  unfold Obligations.InstructionsIssueByTheCommonRule
  intro s c w iw i rule hrow h
  obtain ⟨hrule, hexec⟩ := issuesByRule_of_row hrow
  have hword : atCore c (issueWord c iw) s.work = issueLeaves s c iw rule := by
    rw [atCore_of _ _ _ h.1 h.2.1, hrule, issueWith_of_issuesNow s c iw rule h]
  rw [hexec, State.moves, hword]

theorem State.moves_congr {s : State} {f g : Work → Work} (h : f s.work = g s.work) : s.moves f = s.moves g := by
  unfold State.moves
  rw [h]

/-- A word already has its own opcode set. -/
theorem withOp_self (w : InstrWord) (n : Nat) (hn : iop w = n) : withOp w n = w := by
  have hput : putBits 48 8 n w.toNat = w.toNat := by
    have hop : w.toNat / 2 ^ 48 % 2 ^ 8 = n := hn
    unfold putBits
    omega
  unfold withOp
  rw [hput, BitVec.ofNat_toNat, BitVec.setWidth_eq]

/-- Settles O25: with its bank valid and its position clean, the word at HEAD is what the command issues, and each row issues the word of its opcode. -/
theorem theWordAtHeadIssues : Obligations.TheWordAtHeadIssues := by
  unfold Obligations.TheWordAtHeadIssues
  intro s c iw haclk hc hhead hgood
  have hnext : atCore c (issueNext c) s.work = issueWord c iw s.work := by
    rw [atCore_of _ _ _ haclk hc]
    unfold issueNext
    simp only [State.work_hw, hhead, hgood, Bool.false_and, Bool.false_eq_true, if_false]
  have hissue : exec (.instructionIssue c) s = s.moves (issueWord c iw) := State.moves_congr hnext
  have hrow (n : Nat) (hn : iop iw = n) : s.moves (atCore c (issueWord c (withOp iw n))) = s.moves (issueWord c iw) := by
    rw [withOp_self iw n hn]
    exact State.moves_congr (atCore_of _ _ _ haclk hc)
  refine ⟨hissue, fun i n hmem hn => ?_⟩
  rw [hissue, ← hrow n hn]
  simp only [List.mem_cons, Prod.mk.injEq, List.not_mem_nil, or_false] at hmem
  rcases hmem with ⟨rfl, rfl⟩ | ⟨rfl, rfl⟩ | ⟨rfl, rfl⟩ | ⟨rfl, rfl⟩ | ⟨rfl, rfl⟩ | ⟨rfl, rfl⟩ | ⟨rfl, rfl⟩ | ⟨rfl, rfl⟩ | ⟨rfl, rfl⟩ | ⟨rfl, rfl⟩ |
    ⟨rfl, rfl⟩ | ⟨rfl, rfl⟩ | ⟨rfl, rfl⟩ | ⟨rfl, rfl⟩ | ⟨rfl, rfl⟩ | ⟨rfl, rfl⟩ | ⟨rfl, rfl⟩ | ⟨rfl, rfl⟩ | ⟨rfl, rfl⟩ | ⟨rfl, rfl⟩ | ⟨rfl, rfl⟩ |
    ⟨rfl, rfl⟩ | ⟨rfl, rfl⟩
  all_goals rfl

end Sys2Proof.Machine
end

section
/-! Proofs about instructions that halt their core (R142, R158, R162). -/

namespace Sys2Proof.Machine

namespace Hw

/-- The fault-log entry of a raise that belongs to no run. -/
def unboundEntry (h : Hw) (code : Nat) (src : Src) : FaultEntry :=
  { beat := h.time.beat, code := code, unit := src.unit, attempt := 0xFF, stepId := 0, context := src.context, hoop := src.hoop,
    origin := h.get F.LK_ADDR_ADDR, response := responseOf code false src.refusal src.halting, detail := src.detail }

theorem responseOf_unbound_ne_abort (code : Nat) (refusal halting : Bool) : responseOf code false refusal halting ≠ 2 := by
  unfold responseOf
  simp only [Bool.false_eq_true, if_false]
  repeat' split
  all_goals decide

/-- Outside a run a raise places its code and is logged, and does no more. -/
theorem raise_outsideRun (h : Hw) (code : Nat) (src : Src) (f : Fld) (i : Nat) (hreason : src.reason = some (f, i)) (hrun : h.run.on = false) :
    h.raise code src = (h.put f code i).logFault ((h.put f code i).unboundEntry code src) := by
  have hresp : (responseOf code false src.refusal src.halting == 2) = false := by
    rw [beq_eq_false_iff_ne]
    exact responseOf_unbound_ne_abort code src.refusal src.halting
  unfold raise
  simp only [hreason, put_run, hrun, Bool.false_and, hresp, Bool.false_eq_true, if_false]
  rfl

theorem setFaultLog_cores (h : Hw) (x : List FaultEntry) : (h.setFaultLog x).cores = h.cores := rfl

theorem logFault_cores (h : Hw) (e : FaultEntry) : (h.logFault e).cores = h.cores := by
  unfold logFault incSat
  split
  · rw [setFaultLog_cores]
  · rw [setFaultLog_cores, put_cores]

theorem logFault_ab (h : Hw) (e : FaultEntry) : (h.logFault e).ab = h.ab := by
  unfold logFault incSat
  split
  · rw [setFaultLog_ab]
  · rw [setFaultLog_ab, put_ab]

/-- The registers of a core as its halt writes them, before the code is placed. -/
def haltRegs (h : Hw) (c op code : Nat) : Hw :=
  let h := if h.on F.CR_SEQ_STATUS_HALT c then h
    else h.wr .CR_SEQ_HALT c (h.head c % 2 ^ 32 + code * 2 ^ 32 + op * 2 ^ 48 + (h.seq c).loops.length * 2 ^ 56)
  (h.setFlag F.CR_SEQ_STATUS_HALT c).put F.CR_SEQ_STATUS_STATE 2 c

/-- The source that a halt raises its code by. -/
def haltSrc (h : Hw) (c : Nat) : Src := { h.coreSrc c 0xA0 (some F.CR_SEQ_STATUS_REASON) with detail := h.rd .CR_SEQ_HALT c, halting := true }

theorem haltAt_eq (h : Hw) (c op code : Nat) : h.haltAt c op code = (h.haltRegs c op code).raise code ((h.haltRegs c op code).haltSrc c) := rfl

theorem haltRegs_run (h : Hw) (c op code : Nat) : (h.haltRegs c op code).run = h.run := by
  unfold haltRegs
  simp only [put_run, setFlag]
  split
  · rfl
  · rw [wr_run]

theorem haltRegs_cores (h : Hw) (c op code : Nat) : (h.haltRegs c op code).cores = h.cores := by
  unfold haltRegs
  simp only [put_cores, setFlag]
  split
  · rfl
  · rw [wr_cores]

theorem haltRegs_ab (h : Hw) (c op code : Nat) : (h.haltRegs c op code).ab = h.ab := by
  unfold haltRegs
  simp only [put_ab, setFlag]
  split
  · rfl
  · rw [wr_ab]

/-- A halt outside a run: registers, then the code and its log entry. -/
theorem haltAt_outsideRun (h : Hw) (c op code : Nat) (hrun : h.run.on = false) :
    h.haltAt c op code = ((h.haltRegs c op code).put F.CR_SEQ_STATUS_REASON code c).logFault
      (((h.haltRegs c op code).put F.CR_SEQ_STATUS_REASON code c).unboundEntry code ((h.haltRegs c op code).haltSrc c)) := by
  rw [haltAt_eq]
  exact raise_outsideRun _ _ _ _ _ rfl (by rw [haltRegs_run, hrun])

theorem haltAt_cores (h : Hw) (c op code : Nat) (hrun : h.run.on = false) : (h.haltAt c op code).cores = h.cores := by
  rw [haltAt_outsideRun h c op code hrun, logFault_cores, put_cores, haltRegs_cores]

theorem haltAt_ab (h : Hw) (c op code : Nat) (hrun : h.run.on = false) : (h.haltAt c op code).ab = h.ab := by
  rw [haltAt_outsideRun h c op code hrun, logFault_ab, put_ab, haltRegs_ab]

end Hw

/-- A command that halts a core outside a run, with the units still, leads to the halt. -/
theorem State.moves_halt (s : State) (f : Work → Work) (c op code : Nat) (he : f s.work = s.work.onHw (fun h => h.haltAt c op code))
    (hs : s.hw.Still) (hf : s.hw.ab.fresh = false) (hrun : s.hw.run.on = false) : s.moves f = s.leads (s.hw.haltAt c op code) := by
  have hab := s.hw.haltAt_ab c op code hrun
  refine s.moves_still f _ he (Hw.still_of _ _ hs (s.hw.haltAt_cores c op code hrun) hab) ?_
  rw [hab, hf]

/-- An instruction with a bad word halts its core. -/
theorem issueWith_of_badWord (w : Work) (c : Nat) (iw : InstrWord) (rule : OpRule) (hmay : w.hw.mayIssue c = true) (hskip : (w.hw.seq c).skip = .none)
    (hres : reservedOk iw = false) : issueWith c iw rule w = w.onHw (fun h => h.haltAt c (iop iw) Rc.PRG_BAD_OPERAND) := by
  unfold issueWith
  exact (if_neg (by simp [hmay])).trans <| (if_neg (by simp [hskip])).trans (if_pos (by simp [hres]))

/-- An instruction outside a segment halts its core. -/
theorem issueWith_of_noSegment (w : Work) (c : Nat) (iw : InstrWord) (rule : OpRule) (hmay : w.hw.mayIssue c = true)
    (hskip : (w.hw.seq c).skip = .none) (hres : reservedOk iw = true) (haff : ifld iw 7 0 1 = 1 → (addrField (iop iw)).isSome = true)
    (hseg : (w.hw.seq c).seg = none) : issueWith c iw rule w = w.onHw (fun h => h.haltAt c (iop iw) Rc.PRG_NO_CONTEXT) := by
  unfold issueWith
  exact (if_neg (by simp [hmay])).trans <| (if_neg (by simp [hskip])).trans <|
    (if_neg (by simpa [hres, Option.isSome_iff_ne_none] using haff)).trans (if_pos (by simp [hseg]))

/-- A word of an opcode that Table 6-9 does not list halts its core. -/
theorem issueWord_of_unlisted (w : Work) (c : Nat) (iw : InstrWord) (hmay : w.hw.mayIssue c = true) (hskip : (w.hw.seq c).skip = .none)
    (hop : iop iw ∉ opcodes) : issueWord c iw w = w.onHw (fun h => h.haltAt c (iop iw) Rc.PRG_ILLEGAL_OPCODE) := by
  unfold issueWord
  split
  case h_26 => exact (if_neg (by simp [hmay])).trans (if_neg (by simp [hskip]))
  all_goals
    rename_i hlisted
    exact absurd (by rw [hlisted]; decide) hop

namespace Hw

/-- The word that a halt records. -/
def haltWord (h : Hw) (c op code : Nat) : Nat := h.head c + code * 2 ^ 32 + op * 2 ^ 48 + (h.seq c).loops.length * 2 ^ 56

theorem haltRegs_of_running (h : Hw) (c op code : Nat) (hoff : h.on F.CR_SEQ_STATUS_HALT c = false) :
    h.haltRegs c op code = ((h.wr .CR_SEQ_HALT c (h.haltWord c op code)).put F.CR_SEQ_STATUS_HALT 1 c).put F.CR_SEQ_STATUS_STATE 2 c := by
  have hhead : h.head c % 2 ^ 32 = h.head c := bits_mod_self _ _ _
  unfold haltRegs haltWord
  rw [hoff, hhead]
  rfl

/-- The registers of a core that a halt leaves. -/
def haltedRegs (h : Hw) (c op code : Nat) : Hw :=
  (((h.wr .CR_SEQ_HALT c (h.haltWord c op code)).put F.CR_SEQ_STATUS_HALT 1 c).put F.CR_SEQ_STATUS_STATE 2 c).put F.CR_SEQ_STATUS_REASON code c

theorem haltedRegs_faultLog (h : Hw) (c op code : Nat) : (h.haltedRegs c op code).faultLog = h.faultLog := by
  unfold haltedRegs
  rw [put_faultLog, put_faultLog, put_faultLog, wr_faultLog]

theorem haltedRegs_only (h : Hw) (c op code : Nat) : h.Only (h.haltedRegs c op code) [(.CR_SEQ_STATUS, c), (.CR_SEQ_HALT, c)] :=
  ((((Only.refl h _).wr _ c _ (by simp)).put _ 1 c (by simp [F.CR_SEQ_STATUS_HALT])).put _ 2 c (by simp [F.CR_SEQ_STATUS_STATE])).put _ code c
    (by simp [F.CR_SEQ_STATUS_REASON])

theorem haltedRegs_holds (h : Hw) (c op code : Nat) (hcode : code < 2 ^ 16) :
    (h.haltedRegs c op code).get F.CR_SEQ_STATUS_STATE c = 2 ∧ (h.haltedRegs c op code).on F.CR_SEQ_STATUS_HALT c = true ∧
      (h.haltedRegs c op code).get F.CR_SEQ_STATUS_REASON c = code := by
  unfold haltedRegs
  simp (disch := decide) only [get_put_apart, get_put_same, on_put_apart, on_put_same]
  exact ⟨rfl, rfl, Nat.mod_eq_of_lt hcode⟩

theorem on_setFaultLog (h : Hw) (x : List FaultEntry) (f : Fld) (i : Nat) : (h.setFaultLog x).on f i = h.on f i := rfl

/-- What only the fault log adds is left out of account. -/
theorem only_setFaultLog {h h' : Hw} {ks : List (Reg × Nat)} (ho : h.Only h' ks) (x : List FaultEntry) :
    h.Only { h'.setFaultLog x with faultLog := h.faultLog } ks := by
  obtain ⟨hrest, hrd⟩ := ho
  refine ⟨?_, fun r i hne => (rd_setFaultLog h' h.faultLog r i).trans (hrd r i hne)⟩
  have hlog : h'.setFaultLog h.faultLog = h' := by
    have hsame : ({ h' with ctl := h.ctl } : Hw).faultLog = h.faultLog := congrArg Hw.faultLog hrest
    rw [← hsame]
    rfl
  show { h'.setFaultLog h.faultLog with ctl := h.ctl } = h
  rw [hlog, hrest]

/-- A first halt outside a run, with room in the log, leaves its registers and its entry. -/
theorem haltAt_logged (h : Hw) (c op code : Nat) (hrun : h.run.on = false) (hoff : h.on F.CR_SEQ_STATUS_HALT c = false)
    (hroom : h.faultLog.length < 1024) :
    h.haltAt c op code = (h.haltedRegs c op code).setFaultLog (h.faultLog ++
      [(h.haltedRegs c op code).unboundEntry code ((h.haltRegs c op code).haltSrc c)]) := by
  rw [haltAt_outsideRun h c op code hrun, logFault_of_room, haltRegs_of_running h c op code hoff]
  · show (h.haltedRegs c op code).setFaultLog ((h.haltedRegs c op code).faultLog ++ _) = _
    rw [haltedRegs_faultLog]
    rfl
  · rw [haltRegs_of_running h c op code hoff]
    show (h.haltedRegs c op code).faultLog.length < 1024
    rw [haltedRegs_faultLog]
    exact hroom

end Hw

/-- A code that halts an instruction, without a run: not one of Table 13-1's special responses. -/
theorem responseOf_halt (code : Nat) (hcode : code ∈ [Rc.PRG_BAD_OPERAND, Rc.PRG_NO_CONTEXT, Rc.PRG_ILLEGAL_OPCODE]) :
    responseOf code false false true = 3 ∧ code < 2 ^ 16 := by
  simp only [List.mem_cons, List.not_mem_nil, or_false] at hcode
  rcases hcode with rfl | rfl | rfl <;> decide

/-- Settles O26: each fault takes the branch of its halt, and a halt's register writes read back. -/
theorem aBadInstructionHaltsItsCore : Obligations.ABadInstructionHaltsItsCore := by
  unfold Obligations.ABadInstructionHaltsItsCore
  refine ⟨?rows, ?head, ?halt⟩
  case rows =>
    intro s c w iw i rule hrow haclk hc hmay hskip hs hf hrun
    obtain ⟨hrule, hexec⟩ := issuesByRule_of_row hrow
    have hissue : atCore c (issueWord c iw) s.work = issueWith c iw rule s.work := by rw [atCore_of _ _ _ haclk hc, hrule]
    rw [hexec]
    refine ⟨fun hres => ?_, fun hres haff hseg => ?_⟩
    · exact s.moves_halt _ c _ _ (hissue.trans (issueWith_of_badWord _ c iw rule hmay hskip hres)) hs hf hrun
    · exact s.moves_halt _ c _ _ (hissue.trans (issueWith_of_noSegment _ c iw rule hmay hskip hres haff hseg)) hs hf hrun
  case head =>
    intro s c iw haclk hc hmay hskip hs hf hrun hhead hgood hop
    refine s.moves_halt _ c _ _ ?_ hs hf hrun
    rw [atCore_of _ _ _ haclk hc]
    unfold issueNext
    simp only [State.work_hw, hhead, hgood, List.contains_nil, Bool.false_and, Bool.false_eq_true, if_false]
    exact issueWord_of_unlisted _ c iw hmay hskip hop
  case halt =>
    intro h c op code hrun hroom hoff hop hcode hloops
    obtain ⟨hresp, hlt⟩ := responseOf_halt code hcode
    have hhead : h.head c < 2 ^ 32 := bits_lt _ _ _
    have hword : h.haltWord c op code < 2 ^ 64 := by unfold Hw.haltWord; omega
    have hregs : (h.haltedRegs c op code).rd .CR_SEQ_HALT c = h.haltWord c op code := by
      unfold Hw.haltedRegs
      simp (disch := decide) only [Hw.rd_put_reg, Hw.rd_wr_same]
      exact Nat.mod_eq_of_lt hword
    have hdetail : (h.haltRegs c op code).rd .CR_SEQ_HALT c = h.haltWord c op code := by
      rw [h.haltRegs_of_running c op code hoff]
      simp (disch := decide) only [Hw.rd_put_reg, Hw.rd_wr_same]
      exact Nat.mod_eq_of_lt hword
    obtain ⟨hstate, hhalt, hreason⟩ := h.haltedRegs_holds c op code hlt
    rw [h.haltAt_logged c op code hrun hoff hroom]
    exact ⟨(Hw.get_setFaultLog _ _ _ _).trans hstate, (Hw.on_setFaultLog _ _ _ _).trans hhalt, (Hw.get_setFaultLog _ _ _ _).trans hreason,
      (Hw.rd_setFaultLog _ _ _ _).trans hregs, ⟨_, rfl, rfl, hdetail.trans ((Hw.rd_setFaultLog _ _ _ _).trans hregs).symm, hresp⟩,
      Hw.only_setFaultLog (h.haltedRegs_only c op code) _⟩

end Sys2Proof.Machine
end

section
/-! What an issue changes beside the effect of its instruction (R143, R144, R155). -/

namespace Sys2Proof.Machine

namespace Hw

/-- What an issue keeps of a core's sequencer whatever the instruction: its segment, event selections, comparators and awaited SLD results. -/
def SameScalars (q q' : Seq) : Prop := q'.seg = q.seg ∧ q'.sel = q.sel ∧ q'.cm = q.cm ∧ q'.sldPending = q.sldPending

/-- The sequencer of a core moves on: beside the registers named by P, the core's sequencer alone changes, and no unit starts to move. -/
structure Moves (h h' : Hw) (c : Nat) (P : Reg → Nat → Prop) : Prop where
  rest : { h' with ctl := h.ctl, cores := h.cores } = h
  rd : ∀ r i, ¬ P r i → h'.rd r i = h.rd r i
  core : ∃ q, h'.core c = { h.core c with seq := q } ∧ SameScalars (h.core c).seq q
  other : ∀ d, d ≠ c → h'.core d = h.core d
  still : h.Still → h'.Still

variable {h h' h'' : Hw} {c : Nat} {P Q : Reg → Nat → Prop}

theorem Moves.refl (h : Hw) (c : Nat) (P : Reg → Nat → Prop) : h.Moves h c P := ⟨rfl, fun _ _ _ => rfl, ⟨_, rfl, rfl, rfl, rfl, rfl⟩, fun _ _ => rfl, id⟩

theorem Moves.trans (h1 : h.Moves h' c P) (h2 : h'.Moves h'' c P) : h.Moves h'' c P where
  rest := (congrArg (fun x : Hw => { x with ctl := h.ctl, cores := h.cores }) h2.rest).trans h1.rest
  rd r i hp := (h2.rd r i hp).trans (h1.rd r i hp)
  core := by
    obtain ⟨q1, hq1, hseg1, hsel1, hcm1, hsld1⟩ := h1.core
    obtain ⟨q2, hq2, hsame⟩ := h2.core
    rw [hq1] at hq2 hsame
    obtain ⟨hseg2, hsel2, hcm2, hsld2⟩ := hsame
    exact ⟨q2, hq2, hseg2.trans hseg1, hsel2.trans hsel1, hcm2.trans hcm1, hsld2.trans hsld1⟩
  other d hd := (h2.other d hd).trans (h1.other d hd)
  still hs := h2.still (h1.still hs)

theorem Moves.mono (hm : h.Moves h' c P) (hPQ : ∀ r i, P r i → Q r i) : h.Moves h' c Q :=
  ⟨hm.rest, fun r i hq => hm.rd r i fun hp => hq (hPQ r i hp), hm.core, hm.other, hm.still⟩

theorem moves_wr (h : Hw) (c : Nat) (r : Reg) (i v : Nat) (hp : P r i) : h.Moves (h.wr r i v) c P :=
  ⟨rfl, fun r' i' hn => rd_wr_other h r r' i i' v fun e => hn (by cases e; exact hp), ⟨_, rfl, rfl, rfl, rfl, rfl⟩, fun _ _ => rfl, fun hs => still_of h _ hs rfl rfl⟩

theorem moves_put (h : Hw) (c : Nat) (f : Fld) (v i : Nat) (hp : P f.reg i) : h.Moves (h.put f v i) c P := moves_wr h c f.reg i _ hp

theorem moves_onSeq (h : Hw) (c : Nat) (f : Seq → Seq) (hf : ∀ q, SameScalars q (f q)) : h.Moves (h.onSeq c f) c P :=
  ⟨rfl, fun _ _ _ => rfl, ⟨f (h.core c).seq, core_onCore_same h c _, hf _⟩, fun d hd => core_onCore_other h c d _ hd, still_onSeq h c f⟩

/-- Steps of a fold each move the sequencer. -/
theorem moves_foldl {α : Type} (xs : List α) (f : Hw → α → Hw) (hf : ∀ (h : Hw) x, x ∈ xs → h.Moves (f h x) c P) (h : Hw) : h.Moves (xs.foldl f h) c P := by
  induction xs generalizing h with
  | nil => exact Moves.refl h c P
  | cons x xs ih => exact (hf h x (by simp)).trans (ih (fun h y hy => hf h y (by simp [hy])) (f h x))

theorem moves_moveHead (n c pos : Nat) (h : Hw) (hp : P .CR_SEQ_RING_HEAD c) : h.Moves (moveHead n c pos h) c P := by
  induction n generalizing h with
  | zero => exact Moves.refl h c P
  | succ n ih =>
    unfold moveHead
    split
    · exact moves_put h c F.CR_SEQ_RING_HEAD_POS _ c hp
    · split
      · exact moves_put h c F.CR_SEQ_RING_HEAD_POS _ c hp
      · split
        · refine (moves_onSeq h c _ ?_).trans (moves_put _ c F.CR_SEQ_RING_HEAD_POS _ c hp)
          exact fun _ => ⟨rfl, rfl, rfl, rfl⟩
        · refine (moves_onSeq h c _ ?_).trans (ih _)
          exact fun _ => ⟨rfl, rfl, rfl, rfl⟩

theorem Moves.sel (hm : h.Moves h' c P) : (h'.seq c).sel = (h.seq c).sel := by
  obtain ⟨q, hq, -, hsel, -⟩ := hm.core
  exact (congrArg (fun k : Core => k.seq.sel) hq).trans hsel

/-- One counter of a core counts an event that it has selected. -/
def count (c ev n : Nat) (h : Hw) (i : Nat) : Hw :=
  if (h.core c).seq.sel.getD i 0 == ev && ev != 0 then h.inc F.CR_SEQ_CT_VALUE n (sub c 8 i) else h

theorem moves_counts (xs : List Nat) (c ev n : Nat) (h : Hw) (hp : ∀ i ∈ xs, (h.seq c).sel.getD i 0 = ev → P .CR_SEQ_CT (sub c 8 i)) :
    h.Moves (xs.foldl (count c ev n) h) c P := by
  induction xs generalizing h with
  | nil => exact Moves.refl h c P
  | cons i xs ih =>
    have hone : h.Moves (count c ev n h i) c P := by
      unfold count
      split
      · next hcount =>
        rw [Bool.and_eq_true, beq_iff_eq] at hcount
        exact moves_put h c F.CR_SEQ_CT_VALUE _ _ (hp i (by simp) hcount.1)
      · exact Moves.refl h c P
    refine hone.trans (ih _ fun j hj hsel => hp j (by simp [hj]) ?_)
    rw [← hone.sel]
    exact hsel

/-- Of the counters of a core, those that have selected an event count it. -/
theorem moves_event (h : Hw) (c ev n : Nat) (hp : ∀ i, i < 8 → (h.seq c).sel.getD i 0 = ev → P .CR_SEQ_CT (sub c 8 i)) :
    h.Moves (h.event c ev n) c P := moves_counts (List.range 8) c ev n h fun i hi hsel => hp i (List.mem_range.mp hi) hsel

theorem sub_div (c n i : Nat) (hi : i < n) : sub c n i / n = c := by
  unfold sub
  rw [Nat.mul_comm, Nat.mul_add_div (by omega), Nat.div_eq_of_lt hi, Nat.add_zero]

theorem moves_startLoad (h : Hw) (c k pos : Nat) (grant : Bool) (done : Nat) (h0 : P .CR_SEQ_BANK c) (h1 : P .CR_SEQ_BANK0_POS c)
    (h2 : P .CR_SEQ_BANK1_POS c) : h.Moves (h.startLoad c k pos grant done) c P := by
  have hset : h.Moves (h.setBank c k false grant) c P := by
    unfold setBank
    split
    · exact (moves_put h c F.CR_SEQ_BANK_VALID0 _ c h0).trans (moves_put _ c F.CR_SEQ_BANK_GRANT0 _ c h0)
    · exact (moves_put h c F.CR_SEQ_BANK_VALID1 _ c h0).trans (moves_put _ c F.CR_SEQ_BANK_GRANT1 _ c h0)
  unfold startLoad
  refine (hset.trans ?_).trans (moves_onSeq _ c _ fun _ => ⟨rfl, rfl, rfl, rfl⟩)
  split
  · exact moves_put _ c F.CR_SEQ_BANK0_POS_POS _ c h1
  · exact moves_put _ c F.CR_SEQ_BANK1_POS_POS _ c h2

theorem moves_prefetch (h : Hw) (c pos : Nat) (h0 : P .CR_SEQ_BANK c) (h1 : P .CR_SEQ_BANK0_POS c) (h2 : P .CR_SEQ_BANK1_POS c) :
    h.Moves (h.prefetch c pos) c P := by
  unfold prefetch
  refine (moves_onSeq h c (fun s => { s with lastBank := some (bankOf pos) }) fun _ => ⟨rfl, rfl, rfl, rfl⟩).trans ?_
  simp only
  split
  · exact Moves.refl _ c P
  · exact moves_startLoad _ c _ _ _ _ h0 h1 h2

/-- The registers that an issue changes beside those of its effect and HEAD. -/
def IssueReg (c : Nat) (r : Reg) (i : Nat) : Prop :=
  (r = .CR_SEQ_CT ∧ i / 8 = c) ∨ (i = c ∧ r ∈ [Reg.CR_SEQ_ISSUED, .CR_SEQ_SLACKMIN, .CR_SEQ_BANK, .CR_SEQ_BANK0_POS, .CR_SEQ_BANK1_POS])

/-- What an issue leaves alone: the counters of the core that have not selected the event of an issue. -/
theorem moves_issued_counted (h : Hw) (c pos ceff e slack : Nat) (hct : ∀ i, i < 8 → (h.seq c).sel.getD i 0 = 1 → P .CR_SEQ_CT (sub c 8 i))
    (hslack : P .CR_SEQ_SLACKMIN c) (hbank : P .CR_SEQ_BANK c) (hpos0 : P .CR_SEQ_BANK0_POS c) (hpos1 : P .CR_SEQ_BANK1_POS c) :
    (h.inc F.CR_SEQ_ISSUED_COUNT 1 c).Moves (h.issued c pos ceff e slack) c P := by
  unfold issued
  refine Moves.trans ?_ (moves_prefetch _ c _ hbank hpos0 hpos1)
  refine Moves.trans ?_ (moves_onSeq _ c _ fun _ => ⟨rfl, rfl, rfl, rfl⟩)
  refine Moves.trans ?_ (moves_put _ c F.CR_SEQ_SLACKMIN_MIN _ c hslack)
  have hseq : (h.inc F.CR_SEQ_ISSUED_COUNT 1 c).seq c = h.seq c := seq_put h _ _ _ c
  exact moves_event _ c _ _ fun i hi hsel => hct i hi (hseq ▸ hsel)

theorem moves_issued (h : Hw) (c pos ceff e slack : Nat) : h.Moves (h.issued c pos ceff e slack) c (IssueReg c) :=
  (moves_put h c F.CR_SEQ_ISSUED_COUNT _ c (Or.inr ⟨rfl, by decide⟩)).trans
    (moves_issued_counted h c pos ceff e slack (fun i hi _ => Or.inl ⟨rfl, sub_div c 8 i hi⟩) (Or.inr ⟨rfl, by decide⟩) (Or.inr ⟨rfl, by decide⟩)
      (Or.inr ⟨rfl, by decide⟩) (Or.inr ⟨rfl, by decide⟩))

theorem Moves.get (hm : h.Moves h' c P) (f : Fld) (i : Nat) (hp : ¬ P f.reg i) : h'.get f i = h.get f i := congrArg (bits f.lo f.w) (hm.rd _ _ hp)

theorem Moves.ab (hm : h.Moves h' c P) : h'.ab = h.ab := by
  have hrest := congrArg Hw.ab hm.rest
  exact hrest

theorem Moves.ticks (hm : h.Moves h' c P) : h'.ticks = h.ticks := by
  have hrest := congrArg Hw.ticks hm.rest
  exact hrest

theorem get_issuedCount_issued (h : Hw) (c pos ceff e slack : Nat) :
    (h.issued c pos ceff e slack).get F.CR_SEQ_ISSUED_COUNT c = (h.get F.CR_SEQ_ISSUED_COUNT c + 1) % 2 ^ F.CR_SEQ_ISSUED_COUNT.w :=
  ((moves_issued_counted h c pos ceff e slack (P := fun r _ => r ≠ .CR_SEQ_ISSUED) (fun _ _ _ => by decide) (by decide) (by decide) (by decide)
    (by decide)).get F.CR_SEQ_ISSUED_COUNT c fun hp => hp rfl).trans (get_put_same h F.CR_SEQ_ISSUED_COUNT _ c (by decide))

/-- HEAD moves on and the issue is counted. -/
def movesOn (h : Hw) (c pos ceff e slack : Nat) : Hw := (moveHead 8 c (h.head c + 1) h).issued c pos ceff e slack

theorem moves_movesOn (h : Hw) (c pos ceff e slack : Nat) :
    h.Moves (h.movesOn c pos ceff e slack) c (fun r i => IssueReg c r i ∨ r = .CR_SEQ_RING_HEAD ∧ i = c) :=
  (moves_moveHead 8 c _ h (Or.inr ⟨rfl, rfl⟩)).trans ((moves_issued _ c pos ceff e slack).mono fun _ _ hp => Or.inl hp)

theorem moveHead_of_noLoop (h : Hw) (n c pos : Nat) (hl : (h.seq c).loops = []) : moveHead (n + 1) c pos h = h.put F.CR_SEQ_RING_HEAD_POS (pos % 2 ^ 32) c := by
  unfold moveHead
  rw [hl]
  rfl

theorem head_movesOn (h : Hw) (c pos ceff e slack : Nat) (hl : (h.seq c).loops = []) : (h.movesOn c pos ceff e slack).head c = (h.head c + 1) % 2 ^ 32 := by
  unfold movesOn
  rw [moveHead_of_noLoop h 7 c _ hl]
  refine ((moves_issued _ c pos ceff e slack).get F.CR_SEQ_RING_HEAD_POS c ?_).trans ?_
  · rintro (⟨hr, -⟩ | ⟨-, hr⟩)
    · cases hr
    · revert hr; decide
  · exact (get_put_same h F.CR_SEQ_RING_HEAD_POS _ c (by decide)).trans (Nat.mod_mod _ _)

/-- A counter that has not selected the event of an issue does not count it. -/
theorem ctReg_movesOn (h : Hw) (c pos ceff e slack n : Nat) (hsel : (h.seq c).sel.getD n 0 ≠ 1) :
    (h.movesOn c pos ceff e slack).ctReg c n = h.ctReg c n := by
  have hhead := moves_moveHead 8 c (h.head c + 1) h (P := fun r _ => r = .CR_SEQ_RING_HEAD) rfl
  have hput : (moveHead 8 c (h.head c + 1) h).Moves ((moveHead 8 c (h.head c + 1) h).inc F.CR_SEQ_ISSUED_COUNT 1 c) c
      (fun r _ => r = .CR_SEQ_ISSUED) := moves_put _ c F.CR_SEQ_ISSUED_COUNT _ c rfl
  have hcounted := moves_issued_counted (moveHead 8 c (h.head c + 1) h) c pos ceff e slack (P := fun r i => (r, i) ≠ (.CR_SEQ_CT, sub c 8 n))
    (fun i _ hi heq => hsel (by
      have : i = n := by have := (Prod.mk.inj heq).2; unfold sub at this; omega
      rw [← this, ← hhead.sel]
      exact hi)) (by simp) (by simp) (by simp) (by simp)
  exact (hcounted.rd .CR_SEQ_CT _ (by simp)).trans ((hput.rd .CR_SEQ_CT _ (by decide)).trans (hhead.rd .CR_SEQ_CT _ (by decide)))

theorem get_issuedCount_movesOn (h : Hw) (c pos ceff e slack : Nat) :
    (h.movesOn c pos ceff e slack).get F.CR_SEQ_ISSUED_COUNT c = (h.get F.CR_SEQ_ISSUED_COUNT c + 1) % 2 ^ F.CR_SEQ_ISSUED_COUNT.w := by
  unfold movesOn
  rw [get_issuedCount_issued]
  have hkeep := (moves_moveHead 8 c (h.head c + 1) h (P := fun r i => r = .CR_SEQ_RING_HEAD) rfl).get F.CR_SEQ_ISSUED_COUNT c (by decide)
  rw [hkeep]

/-! The state in which an instruction issues. -/

/-- The SLD results that are due no longer wait. -/
def dropDueSld (h : Hw) (c : Nat) : Hw := h.onSeq c (fun s => { s with sldPending := s.sldPending.filter (fun x => h.ticks < x.2.2) })

/-- SLD results that are due are written to S registers. -/
theorem moves_settleSld (h : Hw) (c : Nat) : (h.dropDueSld c).Moves (h.settleSld c) c (fun r _ => r = .CR_SEQ_S) :=
  moves_foldl _ _ (fun _ _ _ => moves_wr _ c .CR_SEQ_S _ _ rfl) _

theorem elapse_zero (h : Hw) : h.elapse 0 = h := by
  unfold elapse
  rw [Nat.max_zero]

theorem waitSld_of_none (h : Hw) (c : Nat) (regs : List Nat) (hnone : (h.seq c).sldPending = []) : waitSld h c regs = h.dropDueSld c := by
  unfold waitSld settleSld
  simp only [hnone, List.filter_nil, List.foldl_nil, elapse_zero]
  rfl

theorem core_dropDueSld (h : Hw) (c : Nat) (hnone : (h.seq c).sldPending = []) : (h.dropDueSld c).core c = h.core c := by
  have hfilter : (h.core c).seq.sldPending.filter (fun x => h.ticks < x.2.2) = (h.core c).seq.sldPending := by
    rw [show (h.core c).seq.sldPending = [] from hnone]
    rfl
  refine (core_onCore_same h c _).trans ?_
  simp only
  rw [hfilter]

theorem moves_dropDueSld (h : Hw) (c : Nat) (hnone : (h.seq c).sldPending = []) : h.Moves (h.dropDueSld c) c P := by
  refine ⟨rfl, fun _ _ _ => rfl, ⟨(h.core c).seq, core_dropDueSld h c hnone, rfl, rfl, rfl, rfl⟩, fun d hd => core_onCore_other h c d _ hd,
    still_onSeq h c _⟩

end Hw

/-- What an effect leaves for the issue that follows it. -/
structure Hw.LeavesIssue (g g' : Hw) (c : Nat) (ks : List (Reg × Nat)) : Prop where
  rd : ∀ r i, (r, i) ∉ ks → g'.rd r i = g.rd r i
  ab : g'.ab = g.ab
  still : g.Still → g'.Still
  loops : (g'.seq c).loops = (g.seq c).loops

/-- An instruction issues in the state g: time has moved on, and nothing else has. -/
structure Hw.IssuesIn (h g : Hw) (c : Nat) : Prop where
  moved : ∃ t, (h.elapse t).Moves g c (fun _ _ => False)
  core : g.core c = h.core c

theorem Hw.IssuesIn.rd {h g : Hw} {c : Nat} (hg : h.IssuesIn g c) (r : Reg) (i : Nat) : g.rd r i = h.rd r i := by
  obtain ⟨t, hm⟩ := hg.moved
  exact (hm.rd r i not_false).trans (Hw.rd_elapse h t r i)

/-- An instruction whose effect is on the hardware alone, with no loop open and no SLD awaited: its effect, in a state that only time has changed, then
HEAD and the counts. -/
theorem exec_of_scalarIssue {s : State} {c : Nat} {w iw : InstrWord} {i : Instr} {rule : OpRule} (hrow : (i, iw, rule) ∈ instrRows c w)
    (hnow : issuesNow s c iw rule) (hs : s.hw.Still) (hf : s.hw.ab.fresh = false) (hloops : (s.hw.seq c).loops = [])
    (hpend : (s.hw.seq c).sldPending = []) (hjumps : rule.jumps = false) (hbefore : rule.before = id) (e : Hw → Hw)
    (heffect : ∀ u : Work, u.mem = s.mem → rule.effect (s.hw.effAddr c iw) u = u.onHw e) (ks : List (Reg × Nat))
    (hleaves : ∀ g : Hw, g.LeavesIssue (e g) c ks) (hhead : (Reg.CR_SEQ_RING_HEAD, c) ∉ ks) (hissued : (Reg.CR_SEQ_ISSUED, c) ∉ ks) :
    ∃ g h', exec i s = s.leads h' ∧ s.hw.IssuesIn g c ∧ (∃ pos ceff t slack, h' = (e g).movesOn c pos ceff t slack) ∧ issuedFrame s c h' ks := by
  let t := max (s.hw.tickOf ((s.hw.seq c).f + s.hw.effStamp c iw / 256) (s.hw.effStamp c iw % 256)) (s.hw.seq c).nextIssue
  have hmoved : (s.hw.elapse t).Moves ((s.hw.elapse t).dropDueSld c) c (fun _ _ => False) := Hw.moves_dropDueSld _ c hpend
  have hcore : ((s.hw.elapse t).dropDueSld c).core c = s.hw.core c := Hw.core_dropDueSld (s.hw.elapse t) c hpend
  have hstate : issueState s c iw rule = s.work.onHw (fun _ => (s.hw.elapse t).dropDueSld c) := by
    unfold issueState
    simp only [hbefore, id]
    exact congrArg (fun g => s.work.onHw (fun _ => g)) (Hw.waitSld_of_none (s.hw.elapse t) c rule.reads hpend)
  generalize (s.hw.elapse t).dropDueSld c = g at hmoved hcore hstate
  have hg : s.hw.IssuesIn g c := ⟨⟨t, hmoved⟩, hcore⟩
  have he := hleaves g
  have hgstill : g.Still := hmoved.still (Hw.still_elapse _ _ hs)
  have hgab : g.ab = s.hw.ab := hmoved.ab
  have hgloops : ((e g).seq c).loops = [] := he.loops.trans ((congrArg (fun k => k.seq.loops) hcore).trans hloops)
  have hkeep (f : Fld) (hk : (f.reg, c) ∉ ks) : (e g).get f c = s.hw.get f c :=
    congrArg (bits f.lo f.w) ((he.rd _ _ hk).trans (hg.rd _ _))
  obtain ⟨h', hh'⟩ : ∃ h', h' = (e g).movesOn c (s.hw.head c) (s.hw.effStamp c iw)
      (s.hw.tickOf ((s.hw.seq c).f + s.hw.effStamp c iw / 256) (s.hw.effStamp c iw % 256)) (ifld iw 4 0 16) := ⟨_, rfl⟩
  have hleave : issueLeaves s c iw rule = { s.work with hw := h' } := by
    unfold issueLeaves
    simp only [hjumps, hstate, Bool.false_eq_true, if_false]
    rw [heffect _ rfl, hh']
    rfl
  have hmoves : (e g).Moves h' c (fun r i => Hw.IssueReg c r i ∨ r = .CR_SEQ_RING_HEAD ∧ i = c) := hh' ▸ Hw.moves_movesOn _ _ _ _ _ _
  have hab : h'.ab = s.hw.ab := hmoves.ab.trans (he.ab.trans hgab)
  obtain ⟨hrule, hexec⟩ := issuesByRule_of_row hrow
  refine ⟨g, h', ?_, hg, ⟨_, _, _, _, hh'⟩, ?_, ?_, ?_⟩
  · rw [hexec]
    refine s.moves_still _ h' ?_ (hmoves.still (he.still hgstill)) (hab ▸ hf)
    rw [atCore_of _ _ _ hnow.1 hnow.2.1, hrule, issueWith_of_issuesNow s c iw rule hnow, hleave]
  · rw [hh', Hw.head_movesOn _ _ _ _ _ _ hgloops]
    exact congrArg (fun n => (n + 1) % 2 ^ 32) (hkeep F.CR_SEQ_RING_HEAD_POS hhead)
  · rw [hh', Hw.get_issuedCount_movesOn, hkeep F.CR_SEQ_ISSUED_COUNT hissued]
  · intro r i hk hct hlist
    refine (hmoves.rd r i ?_).trans ((he.rd r i hk).trans (hg.rd r i))
    rintro ((hreg | ⟨rfl, hr⟩) | ⟨rfl, rfl⟩)
    · exact hct hreg
    · exact hlist ⟨rfl, List.mem_cons_of_mem _ hr⟩
    · exact hlist ⟨rfl, by decide⟩

end Sys2Proof.Machine
end

section
/-! Proofs about the scalar instructions (R145 to R151, R163). -/

namespace Sys2Proof.Machine

namespace Hw

theorem leaves_id (g : Hw) (c : Nat) (ks : List (Reg × Nat)) : g.LeavesIssue g c ks := ⟨fun _ _ _ => rfl, rfl, id, rfl⟩

theorem leaves_wr (g : Hw) (c : Nat) (r : Reg) (i v : Nat) : g.LeavesIssue (g.wr r i v) c [(r, i)] :=
  ⟨fun r' i' hk => rd_wr_other g r r' i i' v fun heq => hk (heq ▸ List.mem_singleton.mpr rfl), rfl, fun hs => still_of g _ hs rfl rfl, rfl⟩

theorem leaves_onSeq (g : Hw) (c : Nat) (f : Seq → Seq) (hf : ∀ q, (f q).loops = q.loops) : g.LeavesIssue (g.onSeq c f) c [] :=
  ⟨fun _ _ _ => rfl, rfl, still_onSeq g c f, (congrArg Seq.loops (seq_onSeq_same g c f)).trans (hf _)⟩

theorem LeavesIssue.trans {g g' g'' : Hw} {c : Nat} {ks : List (Reg × Nat)} (h1 : g.LeavesIssue g' c ks) (h2 : g'.LeavesIssue g'' c ks) :
    g.LeavesIssue g'' c ks :=
  ⟨fun r i hk => (h2.rd r i hk).trans (h1.rd r i hk), h2.ab.trans h1.ab, fun hs => h2.still (h1.still hs), h2.loops.trans h1.loops⟩

/-- A sequencer that awaits one more SLD result. -/
def awaitSld (n v tick : Nat) (q : Seq) : Seq := { q with sldPending := q.sldPending ++ [(n, v, tick)] }

/-- A sequencer with a comparator configured. -/
def setComparator (n : Nat) (x : Comparator) (q : Seq) : Seq := { q with cm := q.cm.set n x }

/-- A sequencer with a counter's event selected. -/
def selectEvent (n ev : Nat) (q : Seq) : Seq := { q with sel := q.sel.set n ev }

theorem core_weigh (g : Hw) (c o e n : Nat) : (g.weigh o e n).core c = g.core c := by
  unfold weigh weighIn
  split <;> rfl

theorem ticks_weigh (g : Hw) (o e n : Nat) : (g.weigh o e n).ticks = g.ticks := by
  unfold weigh weighIn
  split <;> rfl

/-- A weight changes the energy accounts alone. -/
theorem leaves_weigh (g : Hw) (c o e n : Nat) (ks : List (Reg × Nat)) : g.LeavesIssue (g.weigh o e n) c ks := by
  unfold weigh weighIn
  split
  · exact leaves_id g c ks
  · exact ⟨fun _ _ _ => rfl, rfl, fun hs => still_of g _ hs rfl rfl, rfl⟩

variable {h g : Hw} {c : Nat}

theorem IssuesIn.scalar_eq (hg : h.IssuesIn g c) (n : Nat) : g.scalar c n = h.scalar c n := by
  unfold Hw.scalar sReg ctReg
  rw [hg.rd, hg.rd]

theorem IssuesIn.seq_eq (hg : h.IssuesIn g c) : g.seq c = h.seq c := congrArg Core.seq hg.core

theorem sReg_movesOn (h : Hw) (c d pos ceff e slack n : Nat) : (h.movesOn c pos ceff e slack).sReg d n = h.sReg d n := by
  refine (moves_movesOn h c pos ceff e slack).rd .CR_SEQ_S _ ?_
  rintro ((⟨hr, -⟩ | ⟨-, hr⟩) | ⟨hr, -⟩)
  · cases hr
  · revert hr; decide
  · cases hr

theorem sReg_setS (h : Hw) (c n v : Nat) : (h.setS c n v).sReg c n = v % 2 ^ 64 :=
  (rd_wr_same h .CR_SEQ_S _ _).trans (Nat.mod_mod _ _)

theorem ctReg_wr (h : Hw) (c n v : Nat) : (h.wr .CR_SEQ_CT (sub c 8 n) v).ctReg c n = v % 2 ^ 32 := rd_wr_same h .CR_SEQ_CT _ _

theorem seq_movesOn (h : Hw) (c pos ceff e slack : Nat) : SameScalars (h.seq c) ((h.movesOn c pos ceff e slack).seq c) := by
  obtain ⟨q, hq, hsame⟩ := (moves_movesOn h c pos ceff e slack).core
  unfold Hw.seq
  rw [hq]
  exact hsame

theorem ticks_movesOn (h : Hw) (c pos ceff e slack : Nat) : (h.movesOn c pos ceff e slack).ticks = h.ticks := (moves_movesOn h c pos ceff e slack).ticks

end Hw

theorem issuedFrame_ct {s : State} {c n : Nat} {h' : Hw} (hn : n < 8) (hframe : issuedFrame s c h' [(.CR_SEQ_CT, Hw.sub c 8 n)]) : issuedFrame s c h' [] := by
  obtain ⟨hhead, hcount, hrd⟩ := hframe
  refine ⟨hhead, hcount, fun r i _ hct hlist => hrd r i ?_ hct hlist⟩
  rw [List.mem_singleton]
  rintro heq
  cases heq
  exact hct ⟨rfl, Hw.sub_div c 8 n hn⟩

variable (s : State) (c : Nat) (w : InstrWord) (hs : s.hw.Still) (hf : s.hw.ab.fresh = false) (hl : (s.hw.seq c).loops = [])
  (hp : (s.hw.seq c).sldPending = [])
include hs hf hl hp

/-- An instruction that writes an S register with a value that the state it issues in gives. -/
theorem exec_of_setS {iw : InstrWord} {i : Instr} {rule : OpRule} (hrow : (i, iw, rule) ∈ instrRows c w) (hnow : issuesNow s c iw rule)
    (hjumps : rule.jumps = false) (hbefore : rule.before = id) (n : Nat) (v : Hw → Nat)
    (heffect : ∀ a, rule.effect a = fun u => u.onHw (fun h => h.setS c n (v h))) (hv : ∀ g, s.hw.IssuesIn g c → v g = v s.hw) :
    ∃ h', exec i s = s.leads h' ∧ issuedFrame s c h' [(.CR_SEQ_S, Hw.sub c 16 n)] ∧ h'.sReg c n = v s.hw % 2 ^ 64 := by
  obtain ⟨g, h', hexec, hg, ⟨pos, ceff, t, slack, rfl⟩, hframe⟩ := exec_of_scalarIssue hrow hnow hs hf hl hp hjumps hbefore
    (fun h => h.setS c n (v h)) (fun u _ => by rw [heffect]) [(.CR_SEQ_S, Hw.sub c 16 n)] (fun g => Hw.leaves_wr g c .CR_SEQ_S _ _) (by simp) (by simp)
  exact ⟨_, hexec, hframe, by rw [Hw.sReg_movesOn, Hw.sReg_setS, hv g hg]⟩

theorem nop_issues (hnow : issuesNow s c (withOp w 0x00) nopRule) : ∃ h', exec (.nop c w) s = s.leads h' ∧ issuedFrame s c h' [] := by
  obtain ⟨_, h', hexec, -, -, hframe⟩ := exec_of_scalarIssue (w := w) (i := .nop c w) (by simp [instrRows]) hnow hs hf hl hp rfl rfl (fun h => h) (fun _ _ => rfl) []
    (fun g => Hw.leaves_id g c []) (by simp) (by simp)
  exact ⟨h', hexec, hframe⟩

theorem sli_writes (hnow : issuesNow s c (withOp w 0x08) (sliRule c (withOp w 0x08))) :
    ∃ h', exec (.sli c w) s = s.leads h' ∧ h'.sReg c (ifld (withOp w 0x08) 8 0 4) = ifld (withOp w 0x08) 16 0 64 ∧
      issuedFrame s c h' [(.CR_SEQ_S, Hw.sub c 16 (ifld (withOp w 0x08) 8 0 4))] := by
  obtain ⟨h', hexec, hframe, hreg⟩ := exec_of_setS s c w hs hf hl hp (i := .sli c w) (by simp [instrRows]) hnow rfl rfl (ifld (withOp w 0x08) 8 0 4)
    (fun _ => ifld (withOp w 0x08) 16 0 64) (fun _ => rfl) (fun _ _ => rfl)
  exact ⟨h', hexec, hreg.trans (bits_mod_self _ 64 _), hframe⟩

theorem sqd_reads (hnow : issuesNow s c (withOp w 0x0C) (sqdRule c (withOp w 0x0C))) :
    ∃ h', exec (.sqd c w) s = s.leads h' ∧ issuedFrame s c h' [(.CR_SEQ_S, Hw.sub c 16 (ifld (withOp w 0x0C) 8 0 4))] ∧
      h'.sReg c (ifld (withOp w 0x0C) 8 0 4) =
        (if ifld (withOp w 0x0C) 8 9 1 = 1 then (s.hw.descQueue c (ifld (withOp w 0x0C) 8 4 5)).length
          else (s.hw.queue c (popSide (ifld (withOp w 0x0C) 8 4 5))).length) % 2 ^ 64 := by
  refine exec_of_setS s c w hs hf hl hp (i := .sqd c w) (by simp [instrRows]) hnow rfl rfl (ifld (withOp w 0x0C) 8 0 4)
    (fun h => if ifld (withOp w 0x0C) 8 9 1 = 1 then (h.descQueue c (ifld (withOp w 0x0C) 8 4 5)).length
      else (h.queue c (popSide (ifld (withOp w 0x0C) 8 4 5))).length) (fun _ => ?_) (fun g hg => ?_)
  · simp only [sqdRule, plainRule, beq_iff_eq]
  · unfold Hw.descQueue Hw.queue
    rw [hg.core]

theorem salu_computes (hnow : issuesNow s c (withOp w 0x09) (saluRule c (withOp w 0x09))) :
    ∃ h', exec (.salu c w) s = s.leads h' ∧ issuedFrame s c h' [(.CR_SEQ_S, Hw.sub c 16 (ifld (withOp w 0x09) 8 0 4))] ∧
      h'.sReg c (ifld (withOp w 0x09) 8 0 4) = saluOp (ifld (withOp w 0x09) 8 16 4) (s.hw.scalar c (ifld (withOp w 0x09) 8 4 5))
        (if ifld (withOp w 0x09) 8 14 1 = 1 then ifld (withOp w 0x09) 16 0 64 else s.hw.scalar c (ifld (withOp w 0x09) 8 9 5)) % 2 ^ 64 := by
  refine exec_of_setS s c w hs hf hl hp (i := .salu c w) (by simp [instrRows]) hnow rfl rfl (ifld (withOp w 0x09) 8 0 4)
    (fun h => saluOp (ifld (withOp w 0x09) 8 16 4) (h.scalar c (ifld (withOp w 0x09) 8 4 5))
      (if ifld (withOp w 0x09) 8 14 1 = 1 then ifld (withOp w 0x09) 16 0 64 else h.scalar c (ifld (withOp w 0x09) 8 9 5))) (fun _ => ?_) (fun g hg => ?_)
  · simp only [saluRule, plainRule, beq_iff_eq]
  · simp only [hg.scalar_eq]

theorem sld_waits (hnow : issuesNow s c (withOp w 0x0A) (sldRule c (withOp w 0x0A))) :
    ∃ h', exec (.sld c w) s = s.leads h' ∧ issuedFrame s c h' [] ∧
      (h'.seq c).sldPending = [(ifld (withOp w 0x0A) 8 0 4, leNat (s.mem.read (Area.matrix c) (s.hw.effAddr c (withOp w 0x0A)) 8), h'.ticks + 12)] := by
  obtain ⟨g, h', hexec, hg, ⟨pos, ceff, t, slack, rfl⟩, hframe⟩ := exec_of_scalarIssue (w := w) (i := .sld c w) (by simp [instrRows]) hnow hs hf hl hp
    rfl rfl (fun h => (h.weigh (h.segOf c).1 5 1).onSeq c (Hw.awaitSld (ifld (withOp w 0x0A) 8 0 4)
      (leNat (s.mem.read (Area.matrix c) (s.hw.effAddr c (withOp w 0x0A)) 8)) (h.after 3)))
    (fun u hu => by rw [← hu]; rfl) []
    (fun g => (Hw.leaves_weigh g c _ 5 1 []).trans (Hw.leaves_onSeq _ c _ fun _ => rfl)) (by simp) (by simp)
  refine ⟨_, hexec, hframe, ?_⟩
  have hseq : (g.weigh (g.segOf c).1 5 1).seq c = s.hw.seq c := (congrArg Core.seq (Hw.core_weigh g c _ 5 1)).trans hg.seq_eq
  obtain ⟨-, -, -, hpend⟩ := Hw.seq_movesOn ((g.weigh (g.segOf c).1 5 1).onSeq c (Hw.awaitSld (ifld (withOp w 0x0A) 8 0 4)
      (leNat (s.mem.read (Area.matrix c) (s.hw.effAddr c (withOp w 0x0A)) 8)) (g.after 3))) c pos ceff t slack
  have hticks (f : Seq → Seq) : ((g.weigh (g.segOf c).1 5 1).onSeq c f).ticks = g.ticks := (Hw.onCore_ticks _ c _).trans (Hw.ticks_weigh g _ 5 1)
  rw [hpend, Hw.ticks_movesOn, hticks, Hw.seq_onSeq_same, hseq, Hw.awaitSld, hp, List.nil_append]
  rfl

theorem cmp_configures (hnow : issuesNow s c (withOp w 0x0E) (cmpRule c (withOp w 0x0E))) :
    ∃ h', exec (.cmp c w) s = s.leads h' ∧ issuedFrame s c h' [] ∧
      (h'.seq c).cm = (s.hw.seq c).cm.set (ifld (withOp w 0x0E) 8 0 2)
        { operand := ifld (withOp w 0x0E) 8 2 5, qdepth := ifld (withOp w 0x0E) 8 7 1 == 1, cond := ifld (withOp w 0x0E) 8 8 3,
          en := ifld (withOp w 0x0E) 8 11 1 == 1, thresh := ifld (withOp w 0x0E) 16 0 64 } := by
  obtain ⟨g, h', hexec, hg, ⟨pos, ceff, t, slack, rfl⟩, hframe⟩ := exec_of_scalarIssue (w := w) (i := .cmp c w) (by simp [instrRows]) hnow hs hf hl hp
    rfl rfl (fun h => h.onSeq c (Hw.setComparator (ifld (withOp w 0x0E) 8 0 2)
      { operand := ifld (withOp w 0x0E) 8 2 5, qdepth := ifld (withOp w 0x0E) 8 7 1 == 1, cond := ifld (withOp w 0x0E) 8 8 3,
        en := ifld (withOp w 0x0E) 8 11 1 == 1, thresh := ifld (withOp w 0x0E) 16 0 64 }))
    (fun _ _ => rfl) [] (fun g => Hw.leaves_onSeq g c _ fun _ => rfl) (by simp) (by simp)
  refine ⟨_, hexec, hframe, ?_⟩
  obtain ⟨-, -, hcm, -⟩ := Hw.seq_movesOn (g.onSeq c (Hw.setComparator (ifld (withOp w 0x0E) 8 0 2)
      { operand := ifld (withOp w 0x0E) 8 2 5, qdepth := ifld (withOp w 0x0E) 8 7 1 == 1, cond := ifld (withOp w 0x0E) 8 8 3,
        en := ifld (withOp w 0x0E) 8 11 1 == 1, thresh := ifld (withOp w 0x0E) 16 0 64 })) c pos ceff t slack
  rw [hcm, Hw.seq_onSeq_same, hg.seq_eq]
  rfl

/-- An operation of CTR that changes the counter's register, where the counter counts no issues. -/
theorem exec_of_setCt {iw : InstrWord} {i : Instr} (hrow : (i, iw, ctrRule c iw) ∈ instrRows c w) (hnow : issuesNow s c iw (ctrRule c iw))
    (hsel : (s.hw.seq c).sel.getD (ifld iw 8 0 3) 0 ≠ 1) (v : Hw → Nat)
    (heffect : ∀ a, (ctrRule c iw).effect a = fun u => u.onHw (fun h => h.wr .CR_SEQ_CT (Hw.sub c 8 (ifld iw 8 0 3)) (v h)))
    (hv : ∀ g, s.hw.IssuesIn g c → v g = v s.hw) :
    ∃ h', exec i s = s.leads h' ∧ issuedFrame s c h' [] ∧ h'.ctReg c (ifld iw 8 0 3) = v s.hw % 2 ^ 32 := by
  obtain ⟨g, h', hexec, hg, ⟨pos, ceff, t, slack, rfl⟩, hframe⟩ := exec_of_scalarIssue hrow hnow hs hf hl hp rfl rfl
    (fun h => h.wr .CR_SEQ_CT (Hw.sub c 8 (ifld iw 8 0 3)) (v h)) (fun u _ => by rw [heffect]) [(.CR_SEQ_CT, Hw.sub c 8 (ifld iw 8 0 3))]
    (fun g => Hw.leaves_wr g c .CR_SEQ_CT _ _) (by simp) (by simp)
  have hseq : (g.wr .CR_SEQ_CT (Hw.sub c 8 (ifld iw 8 0 3)) (v g)).seq c = s.hw.seq c := (congrArg Core.seq (Hw.core_wr g _ _ _ c)).trans hg.seq_eq
  refine ⟨_, hexec, issuedFrame_ct (bits_lt _ 3 _) hframe, ?_⟩
  rw [Hw.ctReg_movesOn _ _ _ _ _ _ _ (hseq ▸ hsel), Hw.ctReg_wr, hv g hg]

theorem ctrSelect_selects {iw : InstrWord} (hiw : iw = withField (withOp w 0x0D) 8 4 2 2) (hnow : issuesNow s c iw (ctrRule c iw)) :
    ∃ h', exec (.ctrSelect c w) s = s.leads h' ∧ issuedFrame s c h' [] ∧ (h'.seq c).sel = (s.hw.seq c).sel.set (ifld iw 8 0 3) (ifld iw 8 8 8) := by
  have hop : ifld iw 8 4 2 = 2 := by rw [hiw]; exact ifld_withField_same _ 8 4 2 2 (by decide)
  obtain ⟨g, h', hexec, hg, ⟨pos, ceff, t, slack, rfl⟩, hframe⟩ := exec_of_scalarIssue (w := w) (i := .ctrSelect c w) (by rw [hiw]; simp [instrRows]) hnow
    hs hf hl hp rfl rfl (fun h => h.onSeq c (Hw.selectEvent (ifld iw 8 0 3) (ifld iw 8 8 8))) (fun _ _ => by simp only [ctrRule, plainRule, hop]; rfl) []
    (fun g => Hw.leaves_onSeq g c _ fun _ => rfl) (by simp) (by simp)
  refine ⟨_, hexec, hframe, ?_⟩
  obtain ⟨-, hsel, -, -⟩ := Hw.seq_movesOn (g.onSeq c (Hw.selectEvent (ifld iw 8 0 3) (ifld iw 8 8 8))) c pos ceff t slack
  rw [hsel, Hw.seq_onSeq_same, hg.seq_eq]
  rfl

theorem ctrSet_sets {iw : InstrWord} (hiw : iw = withField (withOp w 0x0D) 8 4 2 0) (hnow : issuesNow s c iw (ctrRule c iw))
    (hsel : (s.hw.seq c).sel.getD (ifld iw 8 0 3) 0 ≠ 1) :
    ∃ h', exec (.ctrSet c w) s = s.leads h' ∧ issuedFrame s c h' [] ∧ h'.ctReg c (ifld iw 8 0 3) = ifld iw 12 0 32 := by
  have hop : ifld iw 8 4 2 = 0 := by rw [hiw]; exact ifld_withField_same _ 8 4 2 0 (by decide)
  obtain ⟨h', hexec, hframe, hreg⟩ := exec_of_setCt s c w hs hf hl hp (i := .ctrSet c w) (by rw [hiw]; simp [instrRows]) hnow hsel
    (fun _ => ifld iw 12 0 32) (fun _ => by simp only [ctrRule, plainRule, hop]; rfl) (fun _ _ => rfl)
  exact ⟨h', hexec, hframe, hreg.trans (bits_mod_self _ 32 _)⟩

theorem ctrAdd_adds {iw : InstrWord} (hiw : iw = withField (withOp w 0x0D) 8 4 2 1) (hnow : issuesNow s c iw (ctrRule c iw))
    (hsel : (s.hw.seq c).sel.getD (ifld iw 8 0 3) 0 ≠ 1) :
    ∃ h', exec (.ctrAdd c w) s = s.leads h' ∧ issuedFrame s c h' [] ∧
      h'.ctReg c (ifld iw 8 0 3) = (s.hw.ctReg c (ifld iw 8 0 3) + ifld iw 12 0 32) % 2 ^ 32 := by
  have hop : ifld iw 8 4 2 = 1 := by rw [hiw]; exact ifld_withField_same _ 8 4 2 1 (by decide)
  obtain ⟨h', hexec, hframe, hreg⟩ := exec_of_setCt s c w hs hf hl hp (i := .ctrAdd c w) (by rw [hiw]; simp [instrRows]) hnow hsel
    (fun h => (h.ctReg c (ifld iw 8 0 3) + ifld iw 12 0 32) % 2 ^ 32) (fun _ => by simp only [ctrRule, plainRule, hop]; rfl)
    (fun g hg => by unfold Hw.ctReg; rw [hg.rd])
  exact ⟨h', hexec, hframe, hreg.trans (Nat.mod_mod _ _)⟩

omit hs hf hl hp in
/-- The difference of Table 6-5, by the branch of its code: the kernel would unfold the sum with 2^64 to compare two copies of it. -/
theorem saluOp_sub (op a b : Nat) (hop : op = 1) : saluOp op a b = (a + 2 ^ 64 - b) % 2 ^ 64 := by
  unfold saluOp
  split
  case h_2 => exact Eq.refl _
  all_goals exact absurd hop (by omega)

omit hs hf hl hp in
/-- Settles O27: each instruction's effect, in a state that only time has changed, followed by the common move of HEAD and the counts. -/
theorem scalarInstructionsWriteTheirResults : Obligations.ScalarInstructionsWriteTheirResults := by
  unfold Obligations.ScalarInstructionsWriteTheirResults
  intro s c w hs hf hl hp
  refine ⟨nop_issues s c w hs hf hl hp, sli_writes s c w hs hf hl hp, fun hnow => ?salu, sld_waits s c w hs hf hl hp, sqd_reads s c w hs hf hl hp,
    ctrSet_sets s c w hs hf hl hp rfl, ctrAdd_adds s c w hs hf hl hp rfl, ctrSelect_selects s c w hs hf hl hp rfl, cmp_configures s c w hs hf hl hp⟩
  case salu =>
    obtain ⟨h', hexec, hframe, hreg⟩ := salu_computes s c w hs hf hl hp hnow
    refine ⟨h', hexec, hframe, fun a b ha hb => ?_⟩
    rw [← ha, ← hb] at hreg
    refine ⟨fun hop => ?_, fun hop => ?_, fun hop => ?_, fun hop => ?_, fun hop => ?_, fun hop => ?_, fun hop => ?_, fun hop => ?_, fun hop => ?_,
      fun hop => ?_⟩
    case refine_2 => rw [hreg, saluOp_sub _ a b hop, Nat.mod_mod]
    all_goals rw [hop] at hreg
    · exact hreg.trans (Nat.mod_mod _ _)
    · exact hreg
    · exact hreg
    · exact hreg
    · exact hreg.trans (Nat.mod_mod _ _)
    · exact hreg
    · exact hreg
    · exact hreg
    · exact hreg.trans (Nat.mod_mod _ _)

end Sys2Proof.Machine
end

section
/-! Proofs about SST (R163): what an issue leaves whose effect stores to memory. -/

namespace Sys2Proof.Machine

/-- The units move nothing where they are still and no abort is to be settled. -/
theorem pump_settleAbort_of_still (v : Work) (hs : v.hw.Still) (hf : v.hw.ab.fresh = false) : pump (v.onHw Hw.settleAbort) = v := by
  have hsettle : v.onHw Hw.settleAbort = v := by
    show { v with hw := v.hw.settleAbort } = v
    rw [Hw.settleAbort_of _ hf]
  rw [hsettle, pump_of_still _ hs]

theorem movesOn_still (u : Work) (c pos ceff t slack : Nat) (hs : u.hw.Still) (hf : u.hw.ab.fresh = false) :
    pump ((u.onHw fun h => h.movesOn c pos ceff t slack).onHw Hw.settleAbort) = u.onHw fun h => h.movesOn c pos ceff t slack := by
  have hmoves := u.hw.moves_movesOn c pos ceff t slack
  refine pump_settleAbort_of_still _ (hmoves.still hs) ?_
  rw [Work.onHw_hw, hmoves.ab, hf]

theorem issueLeaves_eq (s : State) (c : Nat) (iw : InstrWord) (rule : OpRule) (hjumps : rule.jumps = false) :
    ∃ pos ceff t slack, issueLeaves s c iw rule =
      (rule.effect (s.hw.effAddr c iw) (issueState s c iw rule)).onHw (fun h => h.movesOn c pos ceff t slack) := by
  unfold issueLeaves
  simp only [hjumps, Bool.false_eq_true, if_false]
  exact ⟨_, _, _, _, rfl⟩

/-- An instruction that issues with the units still: its effect, then HEAD and the counts. -/
theorem exec_of_stillIssue {s : State} {c : Nat} {w iw : InstrWord} {i : Instr} {rule : OpRule} (hrow : (i, iw, rule) ∈ instrRows c w)
    (hnow : issuesNow s c iw rule) (hjumps : rule.jumps = false) (hs : (rule.effect (s.hw.effAddr c iw) (issueState s c iw rule)).hw.Still)
    (hf : (rule.effect (s.hw.effAddr c iw) (issueState s c iw rule)).hw.ab.fresh = false) :
    ∃ pos ceff t slack, exec i s =
      .next (s.after ((rule.effect (s.hw.effAddr c iw) (issueState s c iw rule)).onHw fun h => h.movesOn c pos ceff t slack)) := by
  obtain ⟨pos, ceff, t, slack, hleaves⟩ := issueLeaves_eq s c iw rule hjumps
  refine ⟨pos, ceff, t, slack, ?_⟩
  rw [instructionsIssueByTheCommonRule s c w iw i rule hrow hnow, hleaves, movesOn_still _ c pos ceff t slack hs hf]

theorem issueState_of_none (s : State) (c : Nat) (iw : InstrWord) (rule : OpRule) (hbefore : rule.before = id) (hpend : (s.hw.seq c).sldPending = []) :
    ∃ t, issueState s c iw rule = s.work.onHw (fun _ => (s.hw.elapse t).dropDueSld c) := by
  refine ⟨max (s.hw.tickOf ((s.hw.seq c).f + s.hw.effStamp c iw / 256) (s.hw.effStamp c iw % 256)) (s.hw.seq c).nextIssue, ?_⟩
  unfold issueState
  simp only [hbefore, id]
  exact congrArg (fun g => s.work.onHw (fun _ => g)) (Hw.waitSld_of_none (s.hw.elapse _) c rule.reads hpend)

theorem length_leBytes (n x : Nat) : (leBytes n x).length = n := by
  induction n generalizing x with
  | zero => rfl
  | succ n ih => simp [leBytes, ih]

namespace Hw

theorem weigh_cores (g : Hw) (o e n : Nat) : (g.weigh o e n).cores = g.cores := by
  unfold weigh weighIn
  split <;> rfl

theorem weigh_ab (g : Hw) (o e n : Nat) : (g.weigh o e n).ab = g.ab := by
  unfold weigh weighIn
  split <;> rfl

theorem healed_cores (g : Hw) (unit : Nat) (whereOf : Nat → Nat) (addr n : Nat) : (g.healed unit whereOf addr n).cores = g.cores := by
  unfold healed
  split <;> rfl

theorem healed_ab (g : Hw) (unit : Nat) (whereOf : Nat → Nat) (addr n : Nat) : (g.healed unit whereOf addr n).ab = g.ab := by
  unfold healed
  split <;> rfl

end Hw

/-- The bytes that SST stores. -/
def sstBytes (c : Nat) (iw : InstrWord) (h : Hw) : List Byte := leBytes 8 (h.sReg c (ifld iw 8 0 4))

/-- The effect of SST: one store to matrix memory, beside the unit's accounts. -/
theorem sst_effect (c a : Nat) (iw : InstrWord) (u : Work) :
    ∃ h : Hw, (sstRule c iw).effect a u = (u.write (.store (Area.matrix c) a (sstBytes c iw u.hw))).onHw (fun _ => h) ∧ h.cores = u.hw.cores ∧ h.ab = u.hw.ab := by
  exact ⟨_, rfl, (Hw.weigh_cores _ _ 5 1).trans (Hw.healed_cores _ _ _ _ _), (Hw.weigh_ab _ _ 5 1).trans (Hw.healed_ab _ _ _ _ _)⟩

/-- Settles O28: the effect is one store of eight bytes at the instruction's address, and what follows it touches no memory. -/
theorem sstStoresEightBytes : Obligations.SstStoresEightBytes := by
  unfold Obligations.SstStoresEightBytes
  intro s c w hs hf hpend iw hnow
  obtain ⟨t, hstate⟩ := issueState_of_none s c iw (sstRule c iw) rfl hpend
  obtain ⟨h, heffect, hcores, hab⟩ := sst_effect c (s.hw.effAddr c iw) iw (issueState s c iw (sstRule c iw))
  have hgs : (issueState s c iw (sstRule c iw)).hw.Still := by
    rw [hstate]
    exact Hw.still_onSeq _ c _ (Hw.still_elapse _ _ hs)
  have hgf : (issueState s c iw (sstRule c iw)).hw.ab.fresh = false := by rw [hstate]; exact hf
  have hbytes : sstBytes c iw (issueState s c iw (sstRule c iw)).hw = leBytes 8 (s.hw.sReg c (ifld iw 8 0 4)) := by rw [hstate]; rfl
  have hwork : (issueState s c iw (sstRule c iw)).writes = [] ∧ (issueState s c iw (sstRule c iw)).mem = s.mem := by rw [hstate]; exact ⟨rfl, rfl⟩
  obtain ⟨pos, ceff, e, slack, hexec⟩ := exec_of_stillIssue (w := w) (i := .sst c w) (by simp [iw, instrRows]) hnow rfl
    (by rw [heffect]; exact Hw.still_of _ h hgs hcores hab) (by rw [heffect]; exact hab ▸ hgf)
  rw [heffect, hbytes] at hexec
  refine ⟨_, hexec, rfl, ?_⟩
  rw [State.after_mem]
  simp only [Work.onHw_writes, Work.write_writes, hwork.1, List.nil_append, List.foldl_cons, List.foldl_nil, MemWrite.apply]
  refine ⟨fun i hi => ?_, fun area addr hne => ?_⟩
  · have hlen : i < (leBytes 8 (s.hw.sReg c (ifld iw 8 0 4))).length := by rw [length_leBytes]; exact hi
    rw [Mem.byte_write_same _ _ _ _ _ hlen, List.getD_eq_getElem?_getD, List.getElem?_eq_getElem hlen, Option.getD_some]
  · refine Mem.byte_write_other _ _ _ _ _ _ fun i hi => hne i ?_
    rwa [length_leBytes] at hi

end Sys2Proof.Machine
end

section
/-! Proofs about the SYNC instructions (R259 to R265, R302). -/

namespace Sys2Proof.Machine

namespace Hw

theorem core_onSeq_same (h : Hw) (c : Nat) (f : Seq → Seq) : (h.onSeq c f).core c = { h.core c with seq := f (h.core c).seq } := core_onCore_same h c _

/-- A state that differs from another in time, in the S registers and in a core's awaited SLD results alone. -/
structure SeenAt (h g : Hw) (c : Nat) : Prop where
  rest : { g with ctl := h.ctl, cores := h.cores, ticks := h.ticks } = h
  rd : ∀ r i, r ≠ .CR_SEQ_S → g.rd r i = h.rd r i
  core : ∃ q, g.core c = { h.core c with seq := q } ∧ q.seg = (h.core c).seq.seg
  still : h.Still → g.Still

variable {h g g' : Hw} {c : Nat}

theorem SeenAt.refl (h : Hw) (c : Nat) : h.SeenAt h c := ⟨rfl, fun _ _ _ => rfl, ⟨_, rfl, rfl⟩, id⟩

theorem SeenAt.seg (hg : h.SeenAt g c) : (g.core c).seq.seg = (h.core c).seq.seg := by
  obtain ⟨q, hq, hseg⟩ := hg.core
  exact (congrArg (fun k : Core => k.seq.seg) hq).trans hseg

theorem SeenAt.elapse (hg : h.SeenAt g c) (t : Nat) : h.SeenAt (g.elapse t) c :=
  ⟨hg.rest, fun r i hr => hg.rd r i hr, hg.core, fun hs => still_elapse g t (hg.still hs)⟩

theorem SeenAt.settleSld (hg : h.SeenAt g c) : h.SeenAt (g.settleSld c) c := by
  have hm := moves_settleSld g c
  obtain ⟨q, hq, hseg, -⟩ := hm.core
  obtain ⟨p, hp, hsegp⟩ := hg.core
  refine ⟨?_, fun r i hr => (hm.rd r i hr).trans (hg.rd r i hr), ⟨q, ?_, hseg.trans ?_⟩, fun hs => hm.still (still_onSeq g c _ (hg.still hs))⟩
  · exact (congrArg (fun x : Hw => { x with ctl := h.ctl, cores := h.cores, ticks := h.ticks }) hm.rest).trans hg.rest
  · rw [hq]
    unfold dropDueSld
    rw [core_onSeq_same, hp]
  · unfold dropDueSld
    rw [core_onSeq_same, hp]
    exact hsegp

theorem settleIncs_of_none (h : Hw) (hnone : h.syncIncs = []) : h.settleIncs = h := by
  unfold settleIncs
  simp only [hnone, List.filter_nil, List.foldl_nil]
  rw [← hnone]

theorem SeenAt.syncIncs (hg : h.SeenAt g c) : g.syncIncs = h.syncIncs := by
  have hrest := congrArg Hw.syncIncs hg.rest
  exact hrest

theorem SeenAt.ab (hg : h.SeenAt g c) : g.ab = h.ab := by
  have hrest := congrArg Hw.ab hg.rest
  exact hrest

theorem SeenAt.build (hg : h.SeenAt g c) : g.build = h.build := by
  have hrest := congrArg Hw.build hg.rest
  exact hrest

theorem SeenAt.run (hg : h.SeenAt g c) : g.run = h.run := by
  have hrest := congrArg Hw.run hg.rest
  exact hrest

theorem SeenAt.couchOut (hg : h.SeenAt g c) : g.couchOut = h.couchOut := by
  have hrest := congrArg Hw.couchOut hg.rest
  exact hrest

theorem SeenAt.syncLook (hg : h.SeenAt g c) (hnone : h.syncIncs = []) (logical n : Nat) : h.SeenAt (g.syncLook logical n) c := by
  unfold Hw.syncLook
  simp only
  split
  · rw [settleIncs_of_none _ ((hg.elapse _).syncIncs.trans hnone)]
    exact hg.elapse _
  · rw [settleIncs_of_none _ (hg.syncIncs.trans hnone)]
    exact hg

theorem SeenAt.waitSld (hg : h.SeenAt g c) : h.SeenAt (waitSld g c []) c := by
  unfold Machine.waitSld
  exact (hg.elapse _).settleSld

theorem SeenAt.get (hg : h.SeenAt g c) (f : Fld) (i : Nat) (hr : f.reg ≠ .CR_SEQ_S) : g.get f i = h.get f i := congrArg (bits f.lo f.w) (hg.rd _ _ hr)

theorem SeenAt.on (hg : h.SeenAt g c) (f : Fld) (i : Nat) (hr : f.reg ≠ .CR_SEQ_S) : g.on f i = h.on f i := congrArg (· == 1) (hg.get f i hr)

theorem SeenAt.logicalOf (hg : h.SeenAt g c) (p : Nat) : g.logicalOf p = h.logicalOf p := by
  unfold Hw.logicalOf
  rw [hg.build, hg.on F.FT_SPARE_ACTIVE 0 (by decide), hg.get F.FT_SPARE_REPLACES 0 (by decide)]

theorem SeenAt.objOf (hg : h.SeenAt g c) (logical name : Nat) : g.objOf logical name = h.objOf logical name := by
  unfold Hw.objOf
  rw [hg.build]

theorem SeenAt.isShared (hg : h.SeenAt g c) (n : Nat) : g.isShared n = h.isShared n := by
  unfold Hw.isShared
  rw [hg.build]

theorem SeenAt.inSyncRange (hg : h.SeenAt g c) (hoop n : Nat) : g.inSyncRange hoop n = h.inSyncRange hoop n := by
  unfold Hw.inSyncRange
  rw [hg.on F.HP_CTRL_VALID hoop (by decide), hg.get F.HP_SYNC_BASE hoop (by decide), hg.get F.HP_SYNC_COUNT hoop (by decide)]

theorem SeenAt.segOf (hg : h.SeenAt g c) : g.segOf c = h.segOf c := by
  unfold Hw.segOf
  rw [hg.seg]

theorem SeenAt.routeTo (hg : h.SeenAt g c) (d : Nat) : g.routeTo d = h.routeTo d := by
  unfold Hw.routeTo
  rw [hg.get F.LK_ADDR_ADDR 0 (by decide), hg.on F.LK_GRT_VALID _ (by decide), hg.get F.LK_GRT_PORT _ (by decide), hg.on F.LK_MRT_VALID _ (by decide),
    hg.get F.LK_MRT_PORT _ (by decide)]

end Hw

theorem Hw.SeenAt.syncLook_if {h g : Hw} {c : Nat} (hg : h.SeenAt g c) (hnone : h.syncIncs = []) (b : Bool) (logical n : Nat) :
    h.SeenAt (if b then g.syncLook logical n else g) c := by
  split
  · exact hg.syncLook hnone logical n
  · exact hg

/-- The state in which a SYNC looks at its object. -/
theorem seenAt_sync (s : State) (c : Nat) (iw : InstrWord) (hnone : s.hw.syncIncs = []) : s.hw.SeenAt (issueState s c iw (syncRule c iw)).hw c := by
  have hwait (t : Nat) : s.hw.SeenAt (waitSld (s.hw.elapse t) c []) c := ((Hw.SeenAt.refl s.hw c).elapse t).waitSld
  unfold issueState
  exact (hwait _).syncLook_if hnone _ _ _

/-- The request that COUCH sends. -/
def couchRequest (iw : InstrWord) (c : Nat) (h : Hw) : CouchReq :=
  { dest := ifld iw 16 0 16, obj := ifld iw 8 3 14, value := ifld iw 12 0 32, mark := ifld iw 20 0 32, stream := ifld iw 16 16 12,
    hoop := (h.segOf c).2, fbeat := h.run.f % 2 ^ 32 }

/-- A request with the first beat whose frame may carry it. -/
def framed (h : Hw) (e : CouchReq) : CouchReq := { e with frame := h.time.beat + (if h.cycle ≤ 220 then 0 else 1) }

/-- An effect of SYNC on an object, given the state in which the object is looked at. -/
def syncEffect (iw : InstrWord) (c g : Nat) (h : Hw) : Hw :=
  match ifld iw 8 0 3 with
  | 0 => h.wr .SY_WMARK g (max (h.rd .SY_WMARK g) (ifld iw 12 0 32))
  | 1 => h.grantTake g (ifld iw 12 0 32)
  | 2 => h.increment g 1
  | 3 => h.increment g (ifld iw 12 0 32)
  | _ => h.couchSend (couchRequest iw c h)

/-- On an object in reach the effect of SYNC is its operation's. -/
theorem sync_effect {h : Hw} {u : Work} {c n : Nat} {iw : InstrWord} (hu : h.SeenAt u.hw c) (a : Nat)
    (hobj : ifld iw 8 0 3 ≠ 4 → h.objOf ((h.logicalOf c).getD 0) (ifld iw 8 3 14) = some n)
    (hreach : ifld iw 8 0 3 ≠ 4 → h.isShared n = true → h.inSyncRange (h.segOf c).2 n = true) :
    (syncRule c iw).effect a u = u.onHw (syncEffect iw c n) := by
  refine congrArg (fun x => { u with hw := x }) ?_
  by_cases hop : ifld iw 8 0 3 = 4
  · unfold syncEffect
    simp only [hop, bne_self_eq_false, Bool.false_and, Bool.false_eq_true, if_false]
    rfl
  · have hname : (u.hw.objOf ((u.hw.logicalOf c).getD 0) (ifld iw 8 3 14)).getD 0 = n := by
      rw [hu.logicalOf, hu.objOf, hobj hop]
      rfl
    have hin : (u.hw.isShared n && !u.hw.inSyncRange (u.hw.segOf c).2 n) = false := by
      rw [hu.isShared, hu.inSyncRange, hu.segOf, Bool.and_eq_false_imp]
      intro hshared
      rw [hreach hop hshared]
      rfl
    unfold syncEffect
    simp only [hname, Bool.and_assoc, hin, Bool.and_false, Bool.false_eq_true, if_false]
    rfl

/-- A state of an effect that only one list or register changes, as HEAD and the counts leave it. -/
theorem exec_of_sync {s : State} {c n : Nat} {w iw : InstrWord} {i : Instr} (hrow : (i, iw, syncRule c iw) ∈ instrRows c w)
    (hnow : issuesNow s c iw (syncRule c iw)) (hs : s.hw.Still) (hf : s.hw.ab.fresh = false) (hnone : s.hw.syncIncs = [])
    (hobj : ifld iw 8 0 3 ≠ 4 → s.hw.objOf ((s.hw.logicalOf c).getD 0) (ifld iw 8 3 14) = some n)
    (hreach : ifld iw 8 0 3 ≠ 4 → s.hw.isShared n = true → s.hw.inSyncRange (s.hw.segOf c).2 n = true)
    (hkeep : ∀ h, s.hw.SeenAt h c → (syncEffect iw c n h).cores = h.cores ∧ (syncEffect iw c n h).ab = h.ab) :
    ∃ g pos ceff t slack, s.hw.SeenAt g c ∧ exec i s = s.leads ((syncEffect iw c n g).movesOn c pos ceff t slack) := by
  have hg := seenAt_sync s c iw hnone
  have heffect := sync_effect hg (s.hw.effAddr c iw) hobj hreach
  obtain ⟨hcores, hab⟩ := hkeep _ hg
  obtain ⟨pos, ceff, t, slack, hexec⟩ := exec_of_stillIssue hrow hnow rfl (by rw [heffect]; exact Hw.still_of _ _ (hg.still hs) hcores hab)
    (by rw [heffect]; exact (congrArg AbortState.fresh (hab.trans hg.ab)).trans hf)
  rw [heffect] at hexec
  exact ⟨(issueState s c iw (syncRule c iw)).hw, pos, ceff, t, slack, hg, hexec⟩

theorem rd_movesOn_sync (h : Hw) (c pos ceff t slack : Nat) (r : Reg) (i : Nat) (hr : r = .SY_WMARK ∨ r = .SY_VALUE) :
    (h.movesOn c pos ceff t slack).rd r i = h.rd r i := by
  refine (h.moves_movesOn c pos ceff t slack).rd r i ?_
  rcases hr with rfl | rfl <;> simp [Hw.IssueReg]

theorem syncIncs_movesOn (h : Hw) (c pos ceff t slack : Nat) : (h.movesOn c pos ceff t slack).syncIncs = h.syncIncs := by
  have hrest := congrArg Hw.syncIncs (h.moves_movesOn c pos ceff t slack).rest
  exact hrest

theorem couchOut_movesOn (h : Hw) (c pos ceff t slack : Nat) : (h.movesOn c pos ceff t slack).couchOut = h.couchOut := by
  have hrest := congrArg Hw.couchOut (h.moves_movesOn c pos ceff t slack).rest
  exact hrest

theorem cycleTick_movesOn (h : Hw) (c pos ceff t slack : Nat) : (h.movesOn c pos ceff t slack).cycleTick = h.cycleTick := by
  have hrest := congrArg Hw.cycleTick (h.moves_movesOn c pos ceff t slack).rest
  exact hrest

/-- An increment that is issued waits for its cycle. -/
theorem syncIncs_increment {h g : Hw} {c : Nat} (hg : h.SeenAt g c) (hnone : h.syncIncs = []) (n v pos ceff t slack : Nat) :
    ((g.increment n v).movesOn c pos ceff t slack).syncIncs =
      [(n, v, ((g.increment n v).movesOn c pos ceff t slack).cycleTick + 4 * (if h.isShared n then 4 else 1))] := by
  rw [syncIncs_movesOn, cycleTick_movesOn, ← hg.isShared]
  unfold Hw.increment
  simp only [hg.syncIncs, hnone, List.nil_append]
  rfl

/-- A couch request for a port with room waits there. -/
theorem couchSend_of_port (h : Hw) (e : CouchReq) (p : Nat) (hroute : h.routeTo e.dest = some (some p)) (hroom : (Tab.getD h.couchOut p []).length < 64) :
    h.couchSend e = { h with couchOut := (Tab.put h.couchOut [] p (Tab.getD h.couchOut p [] ++ [framed h e])) } := by
  unfold Hw.couchSend
  simp only [hroute, ge_iff_le, Nat.not_le.mpr hroom, if_false]
  rfl

/-- Settles O36: each operation's effect on an object in reach, in a state that differs from the present one in time and due SLD results alone. -/
theorem syncInstructionsActOnTheirObjects : Obligations.SyncInstructionsActOnTheirObjects := by
  unfold Obligations.SyncInstructionsActOnTheirObjects
  intro s c g w hs hf hnone
  have hop (iw : InstrWord) (n : Nat) (hiw : iw = withField (withOp w 0x10) 8 0 3 n) (hn : n < 8) : ifld iw 8 0 3 = n := by
    rw [hiw, ifld_withField_same _ 8 0 3 n (by decide)]
    exact Nat.mod_eq_of_lt hn
  refine ⟨fun iw hiw hnow hobj hreach => ?wait, fun iw hiw hnow hobj hreach => ?take, fun iw hiw hnow hobj hreach => ?signal,
    fun iw hiw hnow hobj hreach => ?add, fun iw p hiw hnow hroute hroom => ?couch⟩
  case wait =>
    have heff (h : Hw) : syncEffect iw c g h = h.wr .SY_WMARK g (max (h.rd .SY_WMARK g) (ifld iw 12 0 32)) := by
      simp only [syncEffect, hop iw 0 hiw (by decide)]
    obtain ⟨x, pos, ceff, t, slack, hx, hexec⟩ := exec_of_sync (w := w) (i := .syncWait c w) (by simp [hiw, instrRows]) hnow hs hf hnone
      (fun _ => hobj) (fun _ => hreach) (fun h _ => by rw [heff]; exact ⟨rfl, rfl⟩)
    rw [heff] at hexec
    refine ⟨_, hexec, ?_⟩
    rw [rd_movesOn_sync _ _ _ _ _ _ _ _ (Or.inl rfl), Hw.rd_wr_same, hx.rd _ _ (by decide)]
    rfl
  case take =>
    have heff (h : Hw) : syncEffect iw c g h = h.grantTake g (ifld iw 12 0 32) := by
      simp only [syncEffect, hop iw 1 hiw (by decide)]
    obtain ⟨x, pos, ceff, t, slack, hx, hexec⟩ := exec_of_sync (w := w) (i := .syncTake c w) (by simp [hiw, instrRows]) hnow hs hf hnone
      (fun _ => hobj) (fun _ => hreach) (fun h _ => by rw [heff]; exact ⟨rfl, rfl⟩)
    rw [heff] at hexec
    refine ⟨_, hexec, ?_⟩
    rw [rd_movesOn_sync _ _ _ _ _ _ _ _ (Or.inr rfl)]
    refine (Hw.rd_wr_same x .SY_VALUE g (x.rd .SY_VALUE g - ifld iw 12 0 32)).trans ?_
    rw [hx.rd _ _ (by decide)]
    rfl
  case signal =>
    have heff (h : Hw) : syncEffect iw c g h = h.increment g 1 := by simp only [syncEffect, hop iw 2 hiw (by decide)]
    obtain ⟨x, pos, ceff, t, slack, hx, hexec⟩ := exec_of_sync (w := w) (i := .syncSignal c w) (by simp [hiw, instrRows]) hnow hs hf hnone
      (fun _ => hobj) (fun _ => hreach) (fun h _ => by rw [heff]; exact ⟨rfl, rfl⟩)
    rw [heff] at hexec
    exact ⟨_, hexec, syncIncs_increment hx hnone g 1 pos ceff t slack⟩
  case add =>
    have heff (h : Hw) : syncEffect iw c g h = h.increment g (ifld iw 12 0 32) := by simp only [syncEffect, hop iw 3 hiw (by decide)]
    obtain ⟨x, pos, ceff, t, slack, hx, hexec⟩ := exec_of_sync (w := w) (i := .syncAdd c w) (by simp [hiw, instrRows]) hnow hs hf hnone
      (fun _ => hobj) (fun _ => hreach) (fun h _ => by rw [heff]; exact ⟨rfl, rfl⟩)
    rw [heff] at hexec
    exact ⟨_, hexec, syncIncs_increment hx hnone g _ pos ceff t slack⟩
  case couch =>
    have h4 : ifld iw 8 0 3 = 4 := hop iw 4 hiw (by decide)
    have heff (h : Hw) : syncEffect iw c g h = h.couchSend
        (couchRequest iw c h) := by simp only [syncEffect, h4]
    have hsend (h : Hw) (hh : s.hw.SeenAt h c) := couchSend_of_port h
        (couchRequest iw c h) p (hh.routeTo _ ▸ hroute) (hh.couchOut ▸ hroom)
    obtain ⟨x, pos, ceff, t, slack, hx, hexec⟩ := exec_of_sync (n := g) (w := w) (i := .syncCouch c w) (by simp [hiw, instrRows]) hnow hs hf hnone
      (fun hne => absurd h4 hne) (fun hne => absurd h4 hne) (fun h hh => by rw [heff, hsend h hh]; exact ⟨rfl, rfl⟩)
    rw [heff, hsend x hx] at hexec
    refine ⟨_, framed x (couchRequest iw c x), hexec, ?_, rfl, rfl, rfl, rfl, rfl, congrArg Prod.snd hx.segOf, ?_⟩
    · rw [couchOut_movesOn]
      simp only [Tab.getD_put_same, hx.couchOut]
    · exact congrArg (fun r : Run => r.f % 2 ^ 32) hx.run

end Sys2Proof.Machine
end

section
/-! Proofs about BBARM (R173, R176, R177, R190). -/

namespace Sys2Proof.Machine

namespace Hw

variable {h g : Hw} {c : Nat}

theorem SeenAt.bobbin (hg : h.SeenAt g c) (b : Nat) : g.bobbin c b = h.bobbin c b := by
  obtain ⟨q, hq, -⟩ := hg.core
  unfold Hw.bobbin
  rw [hq]

theorem SeenAt.reservedBobbin (hg : h.SeenAt g c) (b : Nat) : g.reservedBobbin c b = h.reservedBobbin c b := by
  obtain ⟨q, hq, -⟩ := hg.core
  unfold Hw.reservedBobbin walkerBobbin
  rw [hq, hg.get F.BB_CTRL_WALK_A c (by decide), hg.get F.BB_CTRL_WALK_B c (by decide), hg.get F.BB_CTRL_WALK_OUT c (by decide)]

theorem SeenAt.badSpans (hg : h.SeenAt g c) (hnone : h.badWords = []) (spans : List (Nat × Nat)) : g.badSpans c spans = none := by
  have hbad : g.badWords = h.badWords := by
    have hrest := congrArg Hw.badWords hg.rest
    exact hrest
  unfold Hw.badSpans
  rw [hbad, hnone]
  rfl

theorem SeenAt.nearOk (hg : h.SeenAt g c) (d : Nat) (e : Int × Int) : nearOk g d e = nearOk h d e := by
  unfold Machine.nearOk rowBufBase rowBufSize matrixSize
  rw [hg.build, hg.get F.CR_DRN_CTRL_RB_BANK0 d (by decide), hg.get F.CR_DRN_CTRL_RB_BANKS d (by decide)]

theorem SeenAt.copyCores (hg : h.SeenAt g c) (d : BobbinDesc) : g.copyCores c d = h.copyCores c d := by
  have hphys : g.physOf = h.physOf := by
    funext n
    unfold physOf
    rw [hg.build, hg.on F.FT_SPARE_ACTIVE 0 (by decide), hg.get F.FT_SPARE_REPLACES 0 (by decide)]
  unfold Hw.copyCores
  rw [hphys]

theorem SeenAt.rangeOk (hg : h.SeenAt g c) (gpb : List Byte) (d : BobbinDesc) : rangeOk g c gpb d = rangeOk h c gpb d := by
  unfold Machine.rangeOk
  simp only [hg.nearOk, hg.copyCores]

theorem SeenAt.descOk (hg : h.SeenAt g c) (b : Nat) (bs gpb : List Byte) (d : BobbinDesc) : descOk g c b bs gpb d = descOk h c b bs gpb d := by
  unfold Machine.descOk
  simp only [hg.logicalOf, hg.build, hg.objOf]

end Hw

/-- A BBARM that nothing stands against arms its slot. -/
theorem bbarm_arms {h : Hw} {u : Work} {c b sl a : Nat} (hu : h.SeenAt u.hw c) (hbad : h.badWords = []) (hres : h.reservedBobbin c b = false)
    (hbusy : u.hw.slotBusy c b sl = false) (hnext : sl = (h.bobbin c b).next)
    (hdesc : descOk h c b (u.mm c a 128) (gpbOf u.mem c (decodeDesc (u.mm c a 128) a)) (decodeDesc (u.mm c a 128) a) = true)
    (hrange : rangeOk h c (gpbOf u.mem c (decodeDesc (u.mm c a 128) a)) (decodeDesc (u.mm c a 128) a) = true)
    (hop : (decodeDesc (u.mm c a 128) a).op ≠ 6) :
    bbarm c b sl a u = u.onHw (fun h => h.arm c b sl (decodeDesc (u.mm c a 128) a)) := by
  have hres' : u.hw.reservedBobbin c b = false := (hu.reservedBobbin b).trans hres
  have hnext' : (sl != (u.hw.bobbin c b).next) = false := by rw [hu.bobbin, ← hnext, bne_self_eq_false]
  have hdesc' := (hu.descOk b (u.mm c a 128) (gpbOf u.mem c (decodeDesc (u.mm c a 128) a)) (decodeDesc (u.mm c a 128) a)).trans hdesc
  have hrange' := (hu.rangeOk (gpbOf u.mem c (decodeDesc (u.mm c a 128) a)) (decodeDesc (u.mm c a 128) a)).trans hrange
  have hsix : ((decodeDesc (u.mm c a 128) a).op == 6) = false := by rw [beq_eq_false_iff_ne]; exact hop
  unfold bbarm
  simp only [hres', hbusy, hnext', hu.badSpans hbad, hdesc', hrange', hsix, Bool.not_true, Bool.false_and, Bool.false_eq_true, if_false]

/-- The slot that an arming leaves. -/
theorem slot_arm (h : Hw) (c b sl : Nat) (d : BobbinDesc) :
    ∃ x, (h.arm c b sl d).slot c b sl = some x ∧ x.state = 1 ∧ x.since = h.afterCycle 1 ∧ x.desc = d := by
  refine ⟨{ state := 1, since := h.afterCycle 1, desc := d, serial := (h.bobbin c b).armed + 1, owner := h.ownerOf c b }, ?_, rfl, rfl, rfl⟩
  unfold Hw.arm Hw.onBobbin Hw.slot Hw.bobbin
  simp only [Hw.core_onCore_same, Tab.getD_modify_same, Tab.find?_insert_same]

theorem bobbin_arm (h : Hw) (c b sl : Nat) (d : BobbinDesc) :
    ((h.arm c b sl d).bobbin c b).next = (sl + 1) % 4 ∧ ((h.arm c b sl d).bobbin c b).armed = (h.bobbin c b).armed + 1 := by
  unfold Hw.arm Hw.onBobbin Hw.bobbin
  simp only [Hw.core_onCore_same, Tab.getD_modify_same, and_self]

theorem bobbin_movesOn (h : Hw) (c b pos ceff t slack : Nat) : (h.movesOn c pos ceff t slack).bobbin c b = h.bobbin c b := by
  obtain ⟨q, hq, -⟩ := (h.moves_movesOn c pos ceff t slack).core
  unfold Hw.bobbin
  rw [hq]

/-- Settles O38: nothing stands against the arming in the state of the issue, and what follows it leaves the bobbins. -/
theorem bbarmArmsTheNextSlot : Obligations.BbarmArmsTheNextSlot := by
  unfold Obligations.BbarmArmsTheNextSlot
  intro s c b sl w hf hbad iw a bytes d hnow hb hsl hres hbusy hnext hdesc hrange hop
  have hg : s.hw.SeenAt (issueState s c iw (bbarmRule c iw)).hw c := ((Hw.SeenAt.refl s.hw c).elapse _).waitSld
  have heffect : (bbarmRule c iw).effect a (issueState s c iw (bbarmRule c iw)) = (issueState s c iw (bbarmRule c iw)).onHw (fun h => h.arm c b sl d) := by
    show bbarm c (ifld iw 8 0 3) (ifld iw 8 3 2) a _ = _
    rw [← hb, ← hsl]
    exact bbarm_arms hg hbad hres hbusy hnext hdesc hrange hop
  obtain ⟨pos, ceff, t, slack, hleaves⟩ := issueLeaves_eq s c iw (bbarmRule c iw) rfl
  rw [show s.hw.effAddr c iw = a from rfl, heffect] at hleaves
  have hexec := instructionsIssueByTheCommonRule s c w iw (.bbarm c w) (bbarmRule c iw) (by simp [iw, instrRows]) hnow
  obtain ⟨g, hgdef⟩ : ∃ g, g = (issueState s c iw (bbarmRule c iw)).hw := ⟨_, rfl⟩
  rw [← hgdef] at hg
  have hmoves := (g.arm c b sl d).moves_movesOn c pos ceff t slack
  have hab : ((g.arm c b sl d).movesOn c pos ceff t slack).ab.fresh = false := by
    rw [hmoves.ab]
    exact (congrArg AbortState.fresh hg.ab).trans hf
  obtain ⟨x, hslot, hstate, hsince, hxd⟩ := slot_arm g c b sl d
  obtain ⟨hxnext, hxarmed⟩ := bobbin_arm g c b sl d
  refine ⟨(g.arm c b sl d).movesOn c pos ceff t slack, x, ?_, ?_, hstate, ?_, hxd, ?_, ?_⟩
  · have hsettled : (issueLeaves s c iw (bbarmRule c iw)).onHw Hw.settleAbort =
        { hw := ((g.arm c b sl d).movesOn c pos ceff t slack).settleAbort, mem := s.mem, writes := [] } := by
      rw [hleaves, hgdef]
      rfl
    rw [hexec, hsettled, Hw.settleAbort_of _ hab]
    rfl
  · unfold Hw.slot
    rw [bobbin_movesOn]
    exact hslot
  · rw [hsince, cycleTick_movesOn]
    rfl
  · rw [bobbin_movesOn, hxnext]
  · rw [bobbin_movesOn, hxarmed, hg.bobbin]

end Sys2Proof.Machine
end

section
/-! Proofs about the enable of CR_MAC_CTRL, and the units that move on (R72, R136). -/

namespace Sys2Proof.Machine

theorem pump_settleAbort_of_settled (v : Work) (hf : v.hw.ab.fresh = false) : pump (v.onHw Hw.settleAbort) = pump v := by
  have hsettle : v.onHw Hw.settleAbort = v := by
    show { v with hw := v.hw.settleAbort } = v
    rw [Hw.settleAbort_of _ hf]
  rw [hsettle]

/-- A command whose effect is on the hardware alone, with no abort to be settled: the units move on from its effect. -/
theorem State.moves_of {s : State} {f : Work → Work} {h' : Hw} (he : f s.work = { s.work with hw := h' }) (hf : h'.ab.fresh = false) :
    s.moves f = movesTo s h' := by
  unfold State.moves movesTo
  rw [he, pump_settleAbort_of_settled _ hf]
  rfl

/-- The word of a command that sets a register's enable bit. -/
theorem bit_setWord (f : Fld) (x : Nat) (hw : f.w = 1) (hlo : f.lo < 32) : bit f.lo (withFld f 1 x % 2 ^ 32) = true := bit_withFld_same f 1 x hw hlo

theorem bit_clearWord (f : Fld) (x : Nat) (hw : f.w = 1) (hlo : f.lo < 32) : bit f.lo (withFld f 0 x % 2 ^ 32) = false := bit_withFld_same f 0 x hw hlo

/-- A write of CR_MAC_CTRL with ENABLE, out of service. -/
theorem Hw.writeMacCtrl_enable (h : Hw) (c v : Nat) (hoff : h.on F.CR_MAC_CTRL_ENABLE c = false) (hv : bit 0 v = true) :
    h.writeMacCtrl c v = if h.on F.CR_ARR_CTRL_ENABLE c && h.on F.CR_DRN_CTRL_ENABLE c then h.put F.CR_MAC_CTRL_ENABLE 1 c
      else h.refuse Rc.CFG_MAC_DEPENDS F.CR_MAC_STATUS_REASON c (0xA0 + c) := by
  unfold writeMacCtrl
  simp only [hoff, hv, Bool.not_false, Bool.true_and, Bool.not_eq_true', flag, if_true]
  cases h.on F.CR_ARR_CTRL_ENABLE c && h.on F.CR_DRN_CTRL_ENABLE c <;> rfl

/-- Settles O33: the enable's check, and a command that has no effect of its own. -/
theorem macroUnitEnableRunsItsCheck : Obligations.MacroUnitEnableRunsItsCheck := by
  unfold Obligations.MacroUnitEnableRunsItsCheck
  refine ⟨fun s a c v htakes hoff => ?enable, fun s c haclk hc hf => ?resume⟩
  case enable =>
    have hexec := State.answers_writeNamed s a .CR_MAC_CTRL c (withFld F.CR_MAC_CTRL_ENABLE 1 v.toNat) (·.writeMacCtrl c _) htakes rfl
    rw [s.hw.writeMacCtrl_enable c _ hoff (bit_setWord F.CR_MAC_CTRL_ENABLE v.toNat rfl (by decide))] at hexec
    refine ⟨fun harr hdrn => ?_, fun hout => ?_⟩
    · rw [harr, hdrn] at hexec
      exact hexec
    · have hcheck : (s.hw.on F.CR_ARR_CTRL_ENABLE c && s.hw.on F.CR_DRN_CTRL_ENABLE c) = false := by
        rcases hout with h | h <;> simp [h]
      rw [hcheck] at hexec
      exact hexec
  case resume => exact State.moves_of (f := atCore c id) (by rw [atCore_of _ _ _ haclk hc]; rfl) hf

end Sys2Proof.Machine
end

section
/-! Proofs about the rounds of SPLIT K and the conversions (R129, R130). -/

namespace Sys2Proof.Machine

/-- A change of a core's state is what it makes of the present one. -/
theorem Hw.onCore_congr {h : Hw} {c : Nat} {f g : Core → Core} (hfg : f (h.core c) = g (h.core c)) : h.onCore c f = h.onCore c g := by
  have hget : f (Tab.getD h.cores c {}) = g (Tab.getD h.cores c {}) := hfg
  unfold Hw.onCore Tab.modify
  rw [hget]

/-- The lines of the tile that a round takes are sealed. -/
def tileSealed (h : Hw) (c : Nat) (m : Macro) (p : GenPass) : Bool :=
  (List.range (if m.mode = 2 then (m.streamOf h.build p).2.1 else (m.streamOf h.build p).2.2)).all
    (fun l => ((h.arr c).line h.build.arrayRows (m.tileOf p) l).state == 2)

section
variable {w : Work} {c : Nat} {m : Macro} {p : GenPass} {rest : List GenPass} (hmac : (w.hw.core c).mac = some m) (hcombine : m.combine = p :: rest)
  (hab : w.hw.ab.on = false) (hmove : w.hw.mayMove w.mem c 1 = true) (hsealed : tileSealed w.hw c m p = true)
include hmac hcombine hab hmove hsealed

/-- After its last round a tile's drain is queued. -/
theorem combineRound_last (hlast : m.members ≤ 2 ^ m.rounds) :
    combineRound c w = queueDrain c m p (w.onHw (fun h => h.onMac c (fun m => { m with combine := rest, rounds := 0 }))) := by
  unfold tileSealed at hsealed
  unfold combineRound
  simp only [hmac, hcombine, hab, hmove, beq_iff_eq, hsealed, ge_iff_le, hlast, Bool.not_true, Bool.or_self, Bool.false_eq_true, if_false,
    if_true, decide_true]

/-- A round in which a core neither sends nor has a partner passes. -/
theorem combineRound_passes (hmore : 2 ^ m.rounds < m.members) (hsends : m.rank % 2 ^ (m.rounds + 1) ≠ 2 ^ m.rounds)
    (hpartner : m.members ≤ m.rank + 2 ^ m.rounds) :
    combineRound c w = w.onHw (fun h => h.onMac c (fun k => { k with rounds := m.rounds + 1 })) := by
  unfold tileSealed at hsealed
  unfold combineRound
  simp only [hmac, hcombine, hab, hmove, beq_iff_eq, hsealed, ge_iff_le, Nat.not_le.mpr hmore, hsends, hpartner, decide_true, Bool.not_true,
    Bool.true_or, Bool.or_self, Bool.false_eq_true, if_false, if_true]

end

/-- A held conversion whose band has been gathered begins. -/
theorem bandConvert_begins {w : Work} {c : Nat} {m : Macro} {op : DrainOp} {rest : List DrainOp} (hmac : (w.hw.core c).mac = some m)
    (hdrn : (w.hw.core c).drn = op :: rest) (hab : w.hw.ab.on = false) (hheld : op.held = true) (hmid : op.mid = none)
    (hlines : op.records = true → narrowFmt op.fmt = true → op.lines = 0) :
    bandConvert c w = w.onHw (fun h => h.onDrn c (fun _ => { op with held := false } :: rest)) := by
  have hnarrow (b : Bool) : (op.records && narrowFmt op.fmt && op.lines != 0 && b) = false := by
    cases hr : op.records <;> cases hn : narrowFmt op.fmt <;> simp_all
  have hdrop : w.hw.onDrn c (fun xs => { op with held := false } :: xs.drop 1) = w.hw.onDrn c (fun _ => { op with held := false } :: rest) :=
    Hw.onCore_congr (by rw [hdrn]; rfl)
  unfold bandConvert
  simp only [hmac, hdrn, hab, hheld, Bool.not_true, Bool.or_self, Bool.false_eq_true, if_false]
  split
  · next chunk hchunk => exact absurd (hmid.symm.trans hchunk) (by simp)
  · simp only [hnarrow, Bool.false_eq_true, if_false]
    exact congrArg (fun h => { w with hw := h }) hdrop

/-- Settles O35: the branches of a round and of a conversion that the hypotheses select. -/
theorem roundsAndConversionsMoveOn : Obligations.RoundsAndConversionsMoveOn := by
  unfold Obligations.RoundsAndConversionsMoveOn
  refine ⟨?rounds, fun s c m op rest haclk hc hab hf hmac hdrn hheld hmid hlines => ?converts⟩
  case' rounds =>
    intro s c m p rest haclk hc hab hmac hcombine hmove st hsealed
    refine ⟨fun hlast => ?last, fun hmore hsends hpartner hf => ?passes⟩
  case last =>
    have hround := combineRound_last (w := s.work) hmac hcombine hab hmove hsealed hlast
    exact State.moves_congr (s := s) (f := atCore c (combineRound c)) (g := fun _ => queueDrain c m p
      (s.work.onHw (fun h => h.onMac c (fun m => { m with combine := rest, rounds := 0 })))) ((atCore_of _ _ _ haclk hc).trans hround)
  case passes =>
    have hround := combineRound_passes (w := s.work) hmac hcombine hab hmove hsealed hmore hsends hpartner
    exact State.moves_of (f := atCore c (combineRound c)) ((atCore_of _ _ _ haclk hc).trans hround) hf
  case converts =>
    have hconvert := bandConvert_begins (w := s.work) hmac hdrn hab hheld hmid hlines
    exact State.moves_of (f := atCore c (bandConvert c)) ((atCore_of _ _ _ haclk hc).trans hconvert) hf

end Sys2Proof.Machine
end

section
/-! Proofs about the array's registers (R78, R80, R84). -/

namespace Sys2Proof.Machine

/-! Registers named by a list change, and the cores' own state. -/

theorem onlyCores_refl (h : Hw) (ks : List (Reg × Nat)) : onlyCores h h ks := Hw.Only.refl h ks

theorem onlyCores_put {h h' : Hw} {ks : List (Reg × Nat)} (ho : onlyCores h h' ks) (f : Fld) (v i : Nat) (hk : (f.reg, i) ∈ ks) :
    onlyCores h (h'.put f v i) ks := Hw.Only.put ho f v i hk

theorem onlyCores_onCore {h h' : Hw} {ks : List (Reg × Nat)} (ho : onlyCores h h' ks) (c : Nat) (f : Core → Core) :
    onlyCores h (h'.onCore c f) ks := ho

/-- A change after time has moved on, with the time left out of account. -/
theorem onlyCores_elapse {h h' : Hw} {t : Nat} {ks : List (Reg × Nat)} (ho : onlyCores (h.elapse t) h' ks) : onlyCores h { h' with ticks := h.ticks } ks := by
  obtain ⟨hrest, hrd⟩ := ho
  exact ⟨congrArg (fun x : Hw => { x with ticks := h.ticks }) hrest, hrd⟩

theorem State.answers_atCore (s : State) (c : Nat) (f : Hw → Hw) (haclk : s.hw.clocks.aclk = true) (hc : c < s.hw.physCores) :
    s.answers (atCore c (fun w => w.onHw f)) = s.leads (f s.hw) := s.answers_of _ (fun w => w.onHw f) _ (atCore_of c _ s.work haclk hc) rfl

namespace Hw

theorem on_onArr (h : Hw) (c : Nat) (f : ArrayUnit → ArrayUnit) (g : Fld) (i : Nat) : (h.onArr c f).on g i = h.on g i := rfl

/-- The block with the cores whose scrub has ended noted. -/
def setScrubbed (h : Hw) (x : Nat) : Hw := { h with scrubbed := x }

theorem arr_setScrubbed (h : Hw) (x d : Nat) : (h.setScrubbed x).arr d = h.arr d := rfl

theorem ticks_setScrubbed (h : Hw) (x : Nat) : (h.setScrubbed x).ticks = h.ticks := rfl

theorem on_setScrubbed (h : Hw) (x : Nat) (f : Fld) (i : Nat) : (h.setScrubbed x).on f i = h.on f i := rfl

theorem noteScrubbed_eq (h : Hw) (c : Nat) : ∃ n, h.noteScrubbed c = (h.setScrubbed (Nat.lor h.scrubbed (2 ^ c))).put F.FT_SVC_CLEAN n := ⟨_, rfl⟩

theorem arr_noteScrubbed (h : Hw) (c d : Nat) : (h.noteScrubbed c).arr d = h.arr d := by
  obtain ⟨n, hn⟩ := h.noteScrubbed_eq c
  rw [hn, arr_put, arr_setScrubbed]

theorem ticks_noteScrubbed (h : Hw) (c : Nat) : (h.noteScrubbed c).ticks = h.ticks := by
  obtain ⟨n, hn⟩ := h.noteScrubbed_eq c
  rw [hn, put_ticks, ticks_setScrubbed]

theorem on_noteScrubbed (h : Hw) (c : Nat) (f : Fld) (i : Nat) (hf : f.reg ≠ .FT_SVC) : (h.noteScrubbed c).on f i = h.on f i := by
  obtain ⟨n, hn⟩ := h.noteScrubbed_eq c
  rw [hn, on_put_reg _ _ _ _ _ _ hf, on_setScrubbed]

/-- The registers of an array whose enable passes its checks. -/
def arrServed (h : Hw) (c bypassed : Nat) : Hw :=
  ((((h.put F.CR_ARR_CTRL_TREE 0 c).put F.CR_ARR_CTRL_ENABLE 1 c).put F.CR_ARR_STATUS_SCRUB 1 c).put F.CR_ARR_STATUS_BYPASSED bypassed c).put
    F.CR_ARR_STOPMAX_MAX 0 c

theorem spareMapOk_put (h : Hw) (f : Fld) (v i c : Nat) (hf : f.reg ≠ .CR_ARR_SPARE) : (h.put f v i).spareMapOk c = h.spareMapOk c := by
  unfold spareMapOk
  rw [on_put_reg _ _ _ _ _ _ hf.symm, on_put_reg _ _ _ _ _ _ hf.symm, get_put_reg _ _ _ _ _ _ hf.symm, get_put_reg _ _ _ _ _ _ hf.symm, put_build]

theorem spareVerified_put (h : Hw) (f : Fld) (v i c : Nat) (hf : f.reg ≠ .CR_ARR_SPARE) : (h.put f v i).spareVerified c = h.spareVerified c := by
  unfold spareVerified
  rw [on_put_reg _ _ _ _ _ _ hf.symm, on_put_reg _ _ _ _ _ _ hf.symm, on_put_reg _ _ _ _ _ _ hf.symm, on_put_reg _ _ _ _ _ _ hf.symm]

theorem writeArrCtrl_enables (h : Hw) (c v : Nat) (hoff : h.on F.CR_ARR_CTRL_ENABLE c = false) (hen : bit 0 v = true) (htree : bit 1 v = false)
    (hmap : h.spareMapOk c = true) (hver : h.spareVerified c = true) :
    ∃ n, h.writeArrCtrl c v = (h.arrServed c n).onArr c (fun _ => { scrubDue := some (h.ticks + 4 * (h.build.accTiles * h.build.arrayRows)) }) := by
  have htree0 : (h.put F.CR_ARR_CTRL_TREE 0 c).on F.CR_ARR_CTRL_TREE c = false := on_put_same _ _ _ _ (by decide)
  unfold writeArrCtrl
  simp only [hoff, hen, htree, flag, spareMapOk_put _ F.CR_ARR_CTRL_TREE 0 c c (by decide), spareVerified_put _ F.CR_ARR_CTRL_TREE 0 c c (by decide), hmap,
    hver, htree0, Bool.false_and, Bool.not_false, Bool.not_true, Bool.and_self, Bool.false_eq_true, if_false, if_true, after, put_ticks, put_build]
  exact ⟨_, rfl⟩

theorem arrServed_registers (h : Hw) (c n : Nat) :
    (h.arrServed c n).on F.CR_ARR_CTRL_ENABLE c = true ∧ (h.arrServed c n).on F.CR_ARR_CTRL_TREE c = false ∧
      (h.arrServed c n).on F.CR_ARR_STATUS_SCRUB c = true ∧ (h.arrServed c n).get F.CR_ARR_STOPMAX_MAX c = 0 := by
  unfold arrServed
  simp (disch := decide) only [on_eq_get, get_put_reg, get_put_apart, get_put_same]
  decide

theorem onlyCores_arrServed (h : Hw) (c n : Nat) : onlyCores h (h.arrServed c n) [(.CR_ARR_CTRL, c), (.CR_ARR_STATUS, c), (.CR_ARR_STOPMAX, c)] := by
  unfold arrServed
  refine onlyCores_put (onlyCores_put (onlyCores_put (onlyCores_put (onlyCores_put (onlyCores_refl h _) F.CR_ARR_CTRL_TREE _ c ?_) F.CR_ARR_CTRL_ENABLE
    _ c ?_) F.CR_ARR_STATUS_SCRUB _ c ?_) F.CR_ARR_STATUS_BYPASSED _ c ?_) F.CR_ARR_STOPMAX_MAX _ c ?_
  all_goals simp [F.CR_ARR_CTRL_TREE, F.CR_ARR_CTRL_ENABLE, F.CR_ARR_STATUS_SCRUB, F.CR_ARR_STATUS_BYPASSED, F.CR_ARR_STOPMAX_MAX]

/-- A stop without work in flight ends at once: the array is at rest. -/
theorem stopArray_idle (h : Hw) (c : Nat) (hidle : (h.arr c).passes = []) :
    ∃ n f g, h.stopArray c true false = ((h.onArr c f).put F.CR_ARR_STOPMAX_MAX n c).onArr c g ∧ (g (f (h.arr c))).stopTick = none ∧
      (g (f (h.arr c))).disabling = false ∧ (g (f (h.arr c))).passes = [] ∧ (g (f (h.arr c))).lines = (h.arr c).lines := by
  unfold stopArray arrStopped
  simp only [arr_onArr_same, hidle, List.filter_nil, List.any_nil, if_true, Bool.false_eq_true, if_false]
  exact ⟨_, _, _, rfl, rfl, rfl, by simp only [hidle, List.filter_nil], rfl⟩

/-- The registers of CR_ARR_CTRL as a disable writes them. -/
def arrUnserved (h : Hw) (c tree : Nat) : Hw := (h.put F.CR_ARR_CTRL_TREE tree c).put F.CR_ARR_CTRL_ENABLE 0 c

theorem writeArrCtrl_disables (h : Hw) (c v : Nat) (hon : h.on F.CR_ARR_CTRL_ENABLE c = true) (hen : bit 0 v = false)
    (htree : bit 1 v = h.on F.CR_ARR_CTRL_TREE c) :
    h.writeArrCtrl c v = ((h.arrUnserved c (flag (bit 1 v))).onArr c (fun a => { a with disabling := true })).stopArray c true false := by
  unfold writeArrCtrl
  simp only [hon, hen, htree, bne_self_eq_false, Bool.and_false, Bool.not_true, Bool.not_false, Bool.and_self, Bool.false_eq_true, if_false, if_true]
  rfl

/-- A tree-mode operation that a write of CR_ARR_TREE begins. -/
def treeBegun (h : Hw) (c row op : Nat) (v : Nat) : Hw :=
  (applyIf (bit 15 v) (fun h => h.put F.CR_ARR_TREE_SET_DURING_CLEAR 0 c) (applyIf (bit 13 v) (fun h => h.put F.CR_ARR_TREE_DONE 0 c)
    ((h.put F.CR_ARR_TREE_ROW row c).put F.CR_ARR_TREE_OP op c))).put F.CR_ARR_TREE_START 1 c

theorem get_applyIf_put_apart (b : Bool) (h : Hw) (f g : Fld) (v i : Nat) (hr : g.reg = f.reg) (hg : g.lo + g.w ≤ 8 * f.reg.desc.size)
    (hd : g.lo + g.w ≤ f.lo ∨ f.lo + f.w ≤ g.lo) : (applyIf b (fun h => h.put f v i) h).get g i = h.get g i := by
  unfold applyIf
  split
  · exact get_put_apart h f g v i hr hg hd
  · rfl

theorem ticks_applyIf_put (b : Bool) (h : Hw) (f : Fld) (v i : Nat) : (applyIf b (fun h => h.put f v i) h).ticks = h.ticks := by
  unfold applyIf
  split
  · rw [put_ticks]
  · rfl

theorem onlyCores_applyIf_put {h h' : Hw} {ks : List (Reg × Nat)} (ho : onlyCores h h' ks) (b : Bool) (f : Fld) (v i : Nat) (hk : (f.reg, i) ∈ ks) :
    onlyCores h (applyIf b (fun h => h.put f v i) h') ks := by
  unfold applyIf
  split
  · exact onlyCores_put ho f v i hk
  · exact ho

theorem arr_applyIf_put (b : Bool) (h : Hw) (f : Fld) (v i c : Nat) : (applyIf b (fun h => h.put f v i) h).arr c = h.arr c := by
  unfold applyIf
  split
  · rw [arr_put]
  · rfl

theorem treeBegun_registers (h : Hw) (c row op v : Nat) (hrow : row < 2 ^ 10) (hop : op < 2 ^ 2) :
    (h.treeBegun c row op v).on F.CR_ARR_TREE_START c = true ∧ (h.treeBegun c row op v).get F.CR_ARR_TREE_OP c = op ∧
      (h.treeBegun c row op v).get F.CR_ARR_TREE_ROW c = row := by
  unfold treeBegun
  refine ⟨on_put_same _ _ _ _ (by decide), ?_, ?_⟩
  · simp (disch := decide) only [get_put_apart, get_applyIf_put_apart, get_put_same]
    exact Nat.mod_eq_of_lt hop
  · simp (disch := decide) only [get_put_apart, get_applyIf_put_apart, get_put_same]
    exact Nat.mod_eq_of_lt hrow

theorem onlyCores_treeBegun (h : Hw) (c row op v : Nat) : onlyCores h (h.treeBegun c row op v) [(.CR_ARR_TREE, c)] := by
  unfold treeBegun
  refine onlyCores_put (onlyCores_applyIf_put (onlyCores_applyIf_put (onlyCores_put (onlyCores_put (onlyCores_refl h _) F.CR_ARR_TREE_ROW _ c ?_)
    F.CR_ARR_TREE_OP _ c ?_) _ F.CR_ARR_TREE_DONE _ c ?_) _ F.CR_ARR_TREE_SET_DURING_CLEAR _ c ?_) F.CR_ARR_TREE_START _ c ?_
  all_goals simp [F.CR_ARR_TREE_ROW, F.CR_ARR_TREE_OP, F.CR_ARR_TREE_DONE, F.CR_ARR_TREE_SET_DURING_CLEAR, F.CR_ARR_TREE_START]

/-- A tree-mode operation begins in an array that is in tree mode and out of service. -/
theorem writeArrTree_begins (h : Hw) (c v : Nat) (hoff : h.on F.CR_ARR_CTRL_ENABLE c = false) (htree : h.on F.CR_ARR_CTRL_TREE c = true)
    (hidle : h.on F.CR_ARR_TREE_START c = false) (hstart : bit 12 v = true) (hop : bits 10 2 v ≠ 3)
    (hrow : bits 10 2 v = 0 → bits 0 10 v ≤ h.build.arrayRows + 1) :
    h.writeArrTree c v = (h.treeBegun c (bits 0 10 v) (bits 10 2 v) v).onArr c (fun a => { a with treeDue := some (h.ticks + 4 * 16398) }) := by
  have hok : (bits 10 2 v == 3 || (bits 10 2 v == 0 && bits 0 10 v > h.build.arrayRows + 1)) = false := by
    simp only [Bool.or_eq_false_iff, beq_eq_false_iff_ne, Bool.and_eq_false_imp, beq_iff_eq, decide_eq_false_iff_not, gt_iff_lt]
    exact ⟨hop, fun h0 => Nat.not_lt.mpr (hrow h0)⟩
  have hidle' : (applyIf (bit 15 v) (fun h => h.put F.CR_ARR_TREE_SET_DURING_CLEAR 0 c) (applyIf (bit 13 v) (fun h => h.put F.CR_ARR_TREE_DONE 0 c)
      ((h.put F.CR_ARR_TREE_ROW (bits 0 10 v) c).put F.CR_ARR_TREE_OP (bits 10 2 v) c))).on F.CR_ARR_TREE_START c = false := by
    rw [← hidle]
    simp (disch := decide) only [on_eq_get, get_put_apart, get_applyIf_put_apart]
  have hticks : (applyIf (bit 15 v) (fun h => h.put F.CR_ARR_TREE_SET_DURING_CLEAR 0 c) (applyIf (bit 13 v) (fun h => h.put F.CR_ARR_TREE_DONE 0 c)
      ((h.put F.CR_ARR_TREE_ROW (bits 0 10 v) c).put F.CR_ARR_TREE_OP (bits 10 2 v) c))).after 16398 = h.ticks + 4 * 16398 := by
    unfold after
    rw [ticks_applyIf_put, ticks_applyIf_put, put_ticks, put_ticks]
  unfold writeArrTree
  simp only [hoff, htree, hstart, hok, hidle', hticks, Bool.not_true, Bool.not_false, Bool.or_self, Bool.and_false, Bool.and_self,
    Bool.false_eq_true, if_false, if_true]
  rfl

/-- The registers of a tree-mode operation that ends. -/
def treeEnded (h : Hw) (c : Nat) (ok : Bool) : Hw :=
  ((h.put F.CR_ARR_TREE_START 0 c).put F.CR_ARR_TREE_DONE 1 c).put F.CR_ARR_TREE_PASS (flag ok) c

/-- The registers of an array whose mapping is verified. -/
def mapVerified (h : Hw) (c : Nat) : Hw := (h.put F.CR_ARR_SPARE_VERIFIED0 1 c).put F.CR_ARR_SPARE_VERIFIED1 1 c

theorem treeDone_of_due (h : Hw) (c t : Nat) (ok : Bool) (hdue : (h.arr c).treeDue = some t) :
    h.treeDone c ok = if ok && h.get F.CR_ARR_TREE_OP c == 2 then
        ((((h.elapse t).onArr c (fun a => { a with treeDue := none })).treeEnded c ok).mapVerified c)
      else (((h.elapse t).onArr c (fun a => { a with treeDue := none })).treeEnded c ok) := by
  have hop : (((h.elapse t).onArr c (fun a => { a with treeDue := none })).treeEnded c ok).get F.CR_ARR_TREE_OP c = h.get F.CR_ARR_TREE_OP c := by
    unfold treeEnded
    simp (disch := decide) only [get_put_apart, get_onArr, get_elapse]
  unfold treeDone
  simp only [hdue]
  unfold treeEnded at hop
  simp only [setFlag, hop]
  rfl

theorem treeEnded_registers (h : Hw) (c : Nat) (ok : Bool) :
    (h.treeEnded c ok).on F.CR_ARR_TREE_START c = false ∧ (h.treeEnded c ok).on F.CR_ARR_TREE_DONE c = true ∧
      (h.treeEnded c ok).on F.CR_ARR_TREE_PASS c = ok := by
  unfold treeEnded
  simp (disch := decide) only [on_eq_get, get_put_apart, get_put_same]
  cases ok <;> decide

theorem onlyCores_treeEnded {h h' : Hw} {ks : List (Reg × Nat)} (ho : onlyCores h h' ks) (c : Nat) (ok : Bool) (hk : (.CR_ARR_TREE, c) ∈ ks) :
    onlyCores h (h'.treeEnded c ok) ks :=
  onlyCores_put (onlyCores_put (onlyCores_put ho F.CR_ARR_TREE_START _ c hk) F.CR_ARR_TREE_DONE _ c hk) F.CR_ARR_TREE_PASS _ c hk

theorem onlyCores_mapVerified {h h' : Hw} {ks : List (Reg × Nat)} (ho : onlyCores h h' ks) (c : Nat) (hk : (.CR_ARR_SPARE, c) ∈ ks) :
    onlyCores h (h'.mapVerified c) ks :=
  onlyCores_put (onlyCores_put ho F.CR_ARR_SPARE_VERIFIED0 _ c hk) F.CR_ARR_SPARE_VERIFIED1 _ c hk

theorem mapVerified_registers (h : Hw) (c : Nat) :
    (h.mapVerified c).on F.CR_ARR_SPARE_VERIFIED0 c = true ∧ (h.mapVerified c).on F.CR_ARR_SPARE_VERIFIED1 c = true := by
  unfold mapVerified
  simp (disch := decide) only [on_eq_get, get_put_apart, get_put_same]
  decide

end Hw

/-- The word of a tree-mode command: START, the operation, and the row of its value. -/
theorem treeWord_fields (op v : Nat) (hop : op < 4) :
    bit 12 (withFld F.CR_ARR_TREE_START 1 (withFld F.CR_ARR_TREE_OP op v) % 2 ^ 32) = true ∧
      bits 10 2 (withFld F.CR_ARR_TREE_START 1 (withFld F.CR_ARR_TREE_OP op v) % 2 ^ 32) = op ∧
      bits 0 10 (withFld F.CR_ARR_TREE_START 1 (withFld F.CR_ARR_TREE_OP op v) % 2 ^ 32) = bits 0 10 v := by
  refine ⟨bit_setWord F.CR_ARR_TREE_START _ rfl (by decide), ?_, ?_⟩
  · rw [bits_withFld_apart _ _ _ _ _ (by decide) (by decide)]
    exact (bits_putBits 10 2 op v).trans (Nat.mod_eq_of_lt hop)
  · rw [bits_withFld_apart _ _ _ _ _ (by decide) (by decide)]
    exact bits_putBits_apart 10 2 0 10 op v (by decide)

/-- A tree-mode command begins its operation. -/
theorem exec_of_treeCommand {s : State} {c : Nat} {v : Word} {op : Nat} {i : Instr} (hop : op < 3)
    (hexec : exec i s = s.leads (s.hw.writeArrTree c (withFld F.CR_ARR_TREE_START 1 (withFld F.CR_ARR_TREE_OP op v.toNat) % 2 ^ 32)))
    (hoff : s.hw.on F.CR_ARR_CTRL_ENABLE c = false) (htree : s.hw.on F.CR_ARR_CTRL_TREE c = true) (hidle : s.hw.on F.CR_ARR_TREE_START c = false)
    (hrow : op = 0 → bits 0 10 v.toNat ≤ s.hw.build.arrayRows + 1) :
    ∃ h', exec i s = s.leads h' ∧ h'.on F.CR_ARR_TREE_START c = true ∧ h'.get F.CR_ARR_TREE_OP c = op ∧
      h'.get F.CR_ARR_TREE_ROW c = bits 0 10 v.toNat ∧ h'.arr c = { s.hw.arr c with treeDue := some (s.hw.ticks + 4 * 16398) } ∧
      onlyCores s.hw h' [(.CR_ARR_TREE, c)] := by
  obtain ⟨hstart, hbits, hrowbits⟩ := treeWord_fields op v.toNat (by omega)
  rw [s.hw.writeArrTree_begins c _ hoff htree hidle hstart (by rw [hbits]; omega) (by rw [hbits, hrowbits]; exact hrow), hbits, hrowbits] at hexec
  generalize withFld F.CR_ARR_TREE_START 1 (withFld F.CR_ARR_TREE_OP op v.toNat) % 2 ^ 32 = word at hexec
  obtain ⟨hon, hgetop, hgetrow⟩ := s.hw.treeBegun_registers c (bits 0 10 v.toNat) op word (bits_lt 0 10 _) (by omega)
  refine ⟨_, hexec, hon, hgetop, hgetrow, ?_, onlyCores_onCore (s.hw.onlyCores_treeBegun c _ _ _) c _⟩
  rw [Hw.arr_onArr_same, Hw.treeBegun, Hw.arr_put, Hw.arr_applyIf_put, Hw.arr_applyIf_put, Hw.arr_put, Hw.arr_put]

section
variable {s : State} {a : Agent} {c : Nat} {v : Word}

theorem arrayEnable_enables (htakes : s.hw.Takes a .CR_ARR_CTRL c) (hoff : s.hw.on F.CR_ARR_CTRL_ENABLE c = false) (htree : bit 1 v.toNat = false)
    (hmap : s.hw.spareMapOk c = true) (hver : s.hw.spareVerified c = true) :
    ∃ h', exec (.arrayEnable a c v) s = s.leads h' ∧ h'.on F.CR_ARR_CTRL_ENABLE c = true ∧ h'.on F.CR_ARR_CTRL_TREE c = false ∧
      h'.on F.CR_ARR_STATUS_SCRUB c = true ∧ h'.get F.CR_ARR_STOPMAX_MAX c = 0 ∧
      h'.arr c = { scrubDue := some (s.hw.ticks + 4 * (s.hw.build.accTiles * s.hw.build.arrayRows)) } ∧
      onlyCores s.hw h' [(.CR_ARR_CTRL, c), (.CR_ARR_STATUS, c), (.CR_ARR_STOPMAX, c)] := by
  have hexec := State.answers_writeNamed s a .CR_ARR_CTRL c (withFld F.CR_ARR_CTRL_ENABLE 1 v.toNat) (·.writeArrCtrl c _) htakes rfl
  obtain ⟨n, heffect⟩ := s.hw.writeArrCtrl_enables c (withFld F.CR_ARR_CTRL_ENABLE 1 v.toNat % 2 ^ 32) hoff
    (bit_setWord F.CR_ARR_CTRL_ENABLE v.toNat rfl (by decide)) (by rw [bit_withFld_apart _ _ _ _ (by decide) (by decide), htree]) hmap hver
  rw [heffect] at hexec
  obtain ⟨hen, ht, hscrub, hstop⟩ := s.hw.arrServed_registers c n
  refine ⟨_, hexec, ?_, ?_, ?_, ?_, Hw.arr_onArr_same _ c _, onlyCores_onCore (s.hw.onlyCores_arrServed c n) c _⟩
  · rw [Hw.on_onArr, hen]
  · rw [Hw.on_onArr, ht]
  · rw [Hw.on_onArr, hscrub]
  · rw [Hw.get_onArr, hstop]

theorem arrayDisable_disables (htakes : s.hw.Takes a .CR_ARR_CTRL c) (hon : s.hw.on F.CR_ARR_CTRL_ENABLE c = true)
    (htree : bit 1 v.toNat = s.hw.on F.CR_ARR_CTRL_TREE c) (hidle : (s.hw.arr c).passes = []) :
    ∃ h', exec (.arrayDisable a c v) s = s.leads h' ∧ h'.on F.CR_ARR_CTRL_ENABLE c = false ∧ (h'.arr c).stopTick = none ∧ (h'.arr c).disabling = false ∧
      (h'.arr c).passes = [] ∧ (h'.arr c).lines = (s.hw.arr c).lines ∧ onlyCores s.hw h' [(.CR_ARR_CTRL, c), (.CR_ARR_STOPMAX, c)] := by
  have hexec := State.answers_writeNamed s a .CR_ARR_CTRL c (withFld F.CR_ARR_CTRL_ENABLE 0 v.toNat) (·.writeArrCtrl c _) htakes rfl
  rw [s.hw.writeArrCtrl_disables c (withFld F.CR_ARR_CTRL_ENABLE 0 v.toNat % 2 ^ 32) hon (bit_clearWord F.CR_ARR_CTRL_ENABLE v.toNat rfl (by decide))
    (by rw [bit_withFld_apart _ _ _ _ (by decide) (by decide), htree])] at hexec
  generalize flag (bit 1 (withFld F.CR_ARR_CTRL_ENABLE 0 v.toNat % 2 ^ 32)) = tree at hexec
  have harr : ((s.hw.arrUnserved c tree).onArr c (fun x => { x with disabling := true })).arr c = { s.hw.arr c with disabling := true } := by
    rw [Hw.arr_onArr_same, Hw.arrUnserved, Hw.arr_put, Hw.arr_put]
  obtain ⟨n, f, g, hstop, htick, hdis, hnone, hlines⟩ := Hw.stopArray_idle _ c ((congrArg ArrayUnit.passes harr).trans hidle)
  rw [hstop] at hexec
  have hfinal : ((((((s.hw.arrUnserved c tree).onArr c (fun x => { x with disabling := true })).onArr c f).put F.CR_ARR_STOPMAX_MAX n c).onArr c g).arr c) =
      g (f (((s.hw.arrUnserved c tree).onArr c (fun x => { x with disabling := true })).arr c)) := by
    rw [Hw.arr_onArr_same, Hw.arr_put, Hw.arr_onArr_same]
  have hcores : onlyCores s.hw ((((s.hw.arrUnserved c tree).onArr c (fun x => { x with disabling := true })).onArr c f).put F.CR_ARR_STOPMAX_MAX n c)
      [(.CR_ARR_CTRL, c), (.CR_ARR_STOPMAX, c)] := by
    refine onlyCores_put (onlyCores_onCore (onlyCores_onCore (onlyCores_put (onlyCores_put (onlyCores_refl s.hw _) F.CR_ARR_CTRL_TREE _ c ?_)
      F.CR_ARR_CTRL_ENABLE _ c ?_) c _) c _) F.CR_ARR_STOPMAX_MAX _ c ?_
    all_goals simp [F.CR_ARR_CTRL_TREE, F.CR_ARR_CTRL_ENABLE, F.CR_ARR_STOPMAX_MAX]
  refine ⟨_, hexec, ?_, ?_, ?_, ?_, ?_, onlyCores_onCore hcores c _⟩
  · rw [Hw.on_onArr, Hw.on_put_reg _ _ _ _ _ _ (by decide), Hw.on_onArr, Hw.on_onArr, Hw.arrUnserved, Hw.on_put_same _ _ _ _ (by decide)]
    rfl
  · rw [hfinal, htick]
  · rw [hfinal, hdis]
  · rw [hfinal, hnone]
  · rw [hfinal, hlines, harr]

theorem arrSpareWrite_writes (htakes : s.hw.Takes a .CR_ARR_SPARE c) :
    (s.hw.on F.CR_ARR_CTRL_ENABLE c = false →
      exec (.arrSpareWrite a c v) s = s.leads (s.hw.wr .CR_ARR_SPARE c (bits 0 11 v.toNat + bits 16 11 v.toNat * 2 ^ 16))) ∧
    (s.hw.on F.CR_ARR_CTRL_ENABLE c = true →
      exec (.arrSpareWrite a c v) s = s.leads (s.hw.refuse Rc.CFG_CONFLICT F.CR_ARR_STATUS_REASON c (0xB1 + c))) := by
  have hexec := State.answers_writeNamed s a .CR_ARR_SPARE c v.toNat (·.writeArrSpare c _) htakes rfl
  refine ⟨fun hoff => ?_, fun hon => ?_⟩
  · rw [Hw.writeArrSpare, hoff, if_neg Bool.false_ne_true, bits_mod _ _ _ _ (by decide), bits_mod _ _ _ _ (by decide)] at hexec
    exact hexec
  · rw [Hw.writeArrSpare, hon, if_pos rfl] at hexec
    exact hexec

theorem treeOperationDone_ends {t : Nat} {ok : Bool} (haclk : s.hw.clocks.aclk = true) (hc : c < s.hw.physCores) (hdue : (s.hw.arr c).treeDue = some t) :
    ∃ h', exec (.treeOperationDone c ok) s = s.leads h' ∧ h'.on F.CR_ARR_TREE_START c = false ∧ h'.on F.CR_ARR_TREE_DONE c = true ∧
      h'.on F.CR_ARR_TREE_PASS c = ok ∧ h'.ticks = max s.hw.ticks t ∧ (h'.arr c).treeDue = none ∧
      (ok = true → s.hw.get F.CR_ARR_TREE_OP c = 2 → h'.on F.CR_ARR_SPARE_VERIFIED0 c = true ∧ h'.on F.CR_ARR_SPARE_VERIFIED1 c = true) ∧
      onlyCores s.hw { h' with ticks := s.hw.ticks } [(.CR_ARR_TREE, c), (.CR_ARR_SPARE, c)] := by
  have hexec := s.answers_atCore c (·.treeDone c ok) haclk hc
  rw [s.hw.treeDone_of_due c t ok hdue] at hexec
  obtain ⟨g, hg⟩ : ∃ g, g = (s.hw.elapse t).onArr c (fun a => { a with treeDue := none }) := ⟨_, rfl⟩
  rw [← hg] at hexec
  obtain ⟨hstart, hdone, hpass⟩ := g.treeEnded_registers c ok
  have hticks : (g.treeEnded c ok).ticks = max s.hw.ticks t := by
    unfold Hw.treeEnded
    rw [Hw.put_ticks, Hw.put_ticks, Hw.put_ticks, hg]
    rfl
  have harr : ((g.treeEnded c ok).arr c).treeDue = none := by
    unfold Hw.treeEnded
    rw [Hw.arr_put, Hw.arr_put, Hw.arr_put, hg, Hw.arr_onArr_same]
  have hcores : onlyCores (s.hw.elapse t) (g.treeEnded c ok) [(.CR_ARR_TREE, c), (.CR_ARR_SPARE, c)] :=
    Hw.onlyCores_treeEnded (hg ▸ onlyCores_onCore (onlyCores_refl _ _) c _) c ok (by simp)
  by_cases hverify : (ok && s.hw.get F.CR_ARR_TREE_OP c == 2) = true
  · rw [if_pos hverify] at hexec
    refine ⟨_, hexec, ?_, ?_, ?_, ?_, ?_, fun _ _ => Hw.mapVerified_registers _ c, onlyCores_elapse (Hw.onlyCores_mapVerified hcores c (by simp))⟩
    · rw [Hw.mapVerified, Hw.on_put_reg _ _ _ _ _ _ (by decide), Hw.on_put_reg _ _ _ _ _ _ (by decide), hstart]
    · rw [Hw.mapVerified, Hw.on_put_reg _ _ _ _ _ _ (by decide), Hw.on_put_reg _ _ _ _ _ _ (by decide), hdone]
    · rw [Hw.mapVerified, Hw.on_put_reg _ _ _ _ _ _ (by decide), Hw.on_put_reg _ _ _ _ _ _ (by decide), hpass]
    · rw [Hw.mapVerified, Hw.put_ticks, Hw.put_ticks, hticks]
    · rw [Hw.mapVerified, Hw.arr_put, Hw.arr_put, harr]
  · rw [if_neg hverify] at hexec
    refine ⟨_, hexec, hstart, hdone, hpass, hticks, harr, fun hok hop => absurd ?_ hverify, onlyCores_elapse hcores⟩
    rw [hok, hop]
    rfl

theorem arrayScrubDone_ends {t : Nat} (haclk : s.hw.clocks.aclk = true) (hc : c < s.hw.physCores) (hdue : (s.hw.arr c).scrubDue = some t) :
    ∃ h', exec (.arrayScrubDone c) s = s.leads h' ∧ h'.on F.CR_ARR_STATUS_SCRUB c = false ∧ h'.ticks = max s.hw.ticks t ∧ (h'.arr c).scrubDue = none := by
  have hexec := s.answers_atCore c (fun h => if (h.arr c).scrubDue.isSome then (h.scrubDone c).noteScrubbed c else h) haclk hc
  have hdone : s.hw.scrubDone c = ((s.hw.elapse t).onArr c (fun a => { a with scrubDue := none })).put F.CR_ARR_STATUS_SCRUB 0 c := by
    unfold Hw.scrubDone
    rw [hdue]
  rw [hdue, Option.isSome_some, if_pos rfl, hdone] at hexec
  refine ⟨_, hexec, ?_, ?_, ?_⟩
  · rw [Hw.on_noteScrubbed _ _ _ _ (by decide), Hw.on_put_same _ _ _ _ (by decide)]
    rfl
  · rw [Hw.ticks_noteScrubbed, Hw.put_ticks]
    rfl
  · rw [Hw.arr_noteScrubbed, Hw.arr_put, Hw.arr_onArr_same]
end

/-- Settles O22: each register's write takes the branch that its hypotheses select, and the two ends wait for their ticks. -/
theorem arrayRegistersTakeEffect : Obligations.ArrayRegistersTakeEffect := by
  unfold Obligations.ArrayRegistersTakeEffect
  refine ⟨fun s a c v => arrayEnable_enables, fun s a c v => arrayDisable_disables, fun s a c v => arrSpareWrite_writes,
    fun s a c v op i hi htakes hoff htree hidle hrow => ?tree, fun s c t ok => treeOperationDone_ends, fun s c t => arrayScrubDone_ends⟩
  simp only [List.mem_cons, Prod.mk.injEq, List.not_mem_nil, or_false] at hi
  have hexec (n : Nat) := State.answers_writeNamed s a .CR_ARR_TREE c (withFld F.CR_ARR_TREE_START 1 (withFld F.CR_ARR_TREE_OP n v.toNat))
    (·.writeArrTree c _) htakes rfl
  rcases hi with ⟨rfl, rfl⟩ | ⟨rfl, rfl⟩ | ⟨rfl, rfl⟩
  · exact exec_of_treeCommand (by decide) (hexec 0) hoff htree hidle hrow
  · exact exec_of_treeCommand (by decide) (hexec 1) hoff htree hidle hrow
  · exact exec_of_treeCommand (by decide) (hexec 2) hoff htree hidle hrow

end Sys2Proof.Machine
end

section
/-! Proofs about the sync unit's commands (R260, R265, R266, R270, R452). -/

namespace Sys2Proof.Machine

theorem State.answers_clocked (s : State) (f : Hw → Hw) (haclk : s.hw.clocks.aclk = true) : s.answers (clocked (fun w => w.onHw f)) = s.leads (f s.hw) :=
  s.answers_of _ (fun w => w.onHw f) _ (clocked_of _ s.work haclk) rfl

/-- A table whose keys are filtered. -/
theorem find?_filter_key {α : Type} (t : Tab α) (p : Nat → Bool) (i : Nat) :
    Tab.find? (t.filter (fun x => p x.1)) i = if p i then Tab.find? t i else none := by
  induction t with
  | nil => cases p i <;> rfl
  | cons x t ih =>
    obtain ⟨k, v⟩ := x
    by_cases hik : i = k
    · subst hik
      cases hp : p i
      · rw [List.filter_cons_of_neg (by simp [hp]), ih, hp]
        rfl
      · rw [List.filter_cons_of_pos (by simp [hp])]
        simp [Tab.find?]
    · cases hp : p k
      · rw [List.filter_cons_of_neg (by simp [hp]), ih]
        simp [Tab.find?, hik]
      · rw [List.filter_cons_of_pos (by simp [hp])]
        simp [Tab.find?, hik, ih]

namespace Hw

theorem ctlKey_mod (r : Reg) (i : Nat) : ctlKey r i % 512 = r.ctorIdx := by
  have hlt := ctorIdx_lt r
  unfold ctlKey
  omega

theorem rd_clearReg_same (h : Hw) (r : Reg) (i : Nat) : (h.clearReg r).rd r i = resetValue h.build h.integ r i % 2 ^ 64 := by
  unfold rd clearReg
  simp only [find?_filter_key h.ctl (fun k => k % 512 != r.ctorIdx), ctlKey_mod, bne_self_eq_false, Bool.false_eq_true, if_false]

theorem rd_clearReg_other (h : Hw) (r r' : Reg) (i : Nat) (hr : r' ≠ r) : (h.clearReg r).rd r' i = h.rd r' i := by
  have hne : (r'.ctorIdx != r.ctorIdx) = true := by
    rw [bne_iff_ne]
    exact fun heq => hr (ctorIdx_inj _ _ heq)
  unfold rd clearReg
  simp only [find?_filter_key h.ctl (fun k => k % 512 != r.ctorIdx), ctlKey_mod, hne, if_true]

/-! The couch unit. -/

/-- The requests that wait, with one more. -/
def setCouchPending (h : Hw) (x : List CouchReq) : Hw := { h with couchPending := x }

theorem couchArrive_applies (h : Hw) (e : CouchReq) (hinit : h.syncInit = false) (hrun : h.run.on = true) (hf : e.fbeat % 2 ^ 32 = h.run.f % 2 ^ 32)
    (hshared : h.isShared e.obj = true) (hrange : h.inSyncRange e.hoop e.obj = true) (hmark : reached (h.rd .SY_RX e.stream) e.mark = true) :
    h.couchArrive e = h.increment e.obj e.value := by
  unfold couchArrive
  simp only [hinit, hrun, hf, hshared, hrange, hmark, bne_self_eq_false, Bool.not_true, Bool.or_self, Bool.false_eq_true, if_false, if_true]

theorem couchArrive_waits (h : Hw) (e : CouchReq) (hinit : h.syncInit = false) (hrun : h.run.on = true) (hf : e.fbeat % 2 ^ 32 = h.run.f % 2 ^ 32)
    (hshared : h.isShared e.obj = true) (hrange : h.inSyncRange e.hoop e.obj = true) (hmark : reached (h.rd .SY_RX e.stream) e.mark = false)
    (hroom : h.couchPending.length < 256) : h.couchArrive e = (h.setCouchPending (h.couchPending ++ [e])).showCouch := by
  have hfull : (h.couchPending.length == 256) = false := by rw [beq_eq_false_iff_ne]; omega
  unfold couchArrive
  simp only [hinit, hrun, hf, hshared, hrange, hmark, hfull, bne_self_eq_false, Bool.not_true, Bool.or_self, Bool.false_eq_true, if_false]
  rfl

/-- The number of waiting requests shows. -/
theorem get_showCouch (h : Hw) (hroom : h.couchPending.length < 512) : h.showCouch.get F.SY_COUCH_PENDING = h.couchPending.length := by
  unfold showCouch
  simp (disch := decide) only [get_put_apart, get_put_same]
  exact Nat.mod_eq_of_lt hroom

theorem couchPending_showCouch (h : Hw) : h.showCouch.couchPending = h.couchPending := by
  unfold showCouch
  rw [put_couchPending, put_couchPending]

theorem only_showCouch (h : Hw) (x : List CouchReq) :
    h.Only { (h.setCouchPending x).showCouch with couchPending := h.couchPending } [(.SY_COUCH, 0)] := by
  have hbase : h.Only { h.setCouchPending x with couchPending := h.couchPending } [(.SY_COUCH, 0)] := Only.refl h _
  have hfirst (v : Nat) : h.Only { (h.setCouchPending x).put F.SY_COUCH_PENDING v with couchPending := h.couchPending } [(.SY_COUCH, 0)] :=
    Only.put hbase F.SY_COUCH_PENDING v 0 (List.mem_singleton.mpr rfl)
  have hsecond (v p : Nat) :
      h.Only { ((h.setCouchPending x).put F.SY_COUCH_PENDING v).put F.SY_COUCH_PEAK p with couchPending := h.couchPending } [(.SY_COUCH, 0)] :=
    Only.put (hfirst v) F.SY_COUCH_PEAK p 0 (List.mem_singleton.mpr rfl)
  unfold showCouch
  exact hsecond _ _

/-! Hand-sets. -/

/-- An object that the debug port sets. -/
def handSetRegs (h : Hw) (g v : Nat) : Hw := ((h.wr .SY_VALUE g v).wr .SY_COMMITTED g v).put F.SY_STATUS_HAND_SET 1 g

/-- The block with other contexts marked. -/
def setDebugged (h : Hw) (d : Tab Nat) : Hw := { h with debugged := d }

theorem setDebugged_self (h : Hw) : h.setDebugged h.debugged = h := rfl

theorem setDebugged_setDebugged (h : Hw) (d e : Tab Nat) : (h.setDebugged d).setDebugged e = h.setDebugged e := rfl

theorem rd_setDebugged (h : Hw) (d : Tab Nat) (r : Reg) (i : Nat) : (h.setDebugged d).rd r i = h.rd r i := rfl

theorem on_setDebugged (h : Hw) (d : Tab Nat) (f : Fld) (i : Nat) : (h.setDebugged d).on f i = h.on f i := rfl

theorem foldl_setDebugged {α : Type} (xs : List α) (f : Hw → α → Hw) (hf : ∀ x y, ∃ d, f x y = x.setDebugged d) (h : Hw) :
    ∃ d, xs.foldl f h = h.setDebugged d := by
  induction xs generalizing h with
  | nil => exact ⟨h.debugged, (setDebugged_self h).symm⟩
  | cons y ys ih =>
    obtain ⟨d, hd⟩ := hf h y
    obtain ⟨d', hd'⟩ := ih (f h y)
    exact ⟨d', by rw [List.foldl_cons, hd', hd, setDebugged_setDebugged]⟩

/-- A hand-set marks contexts as DEBUGGED, and changes its object's registers. -/
theorem handSet_debug (h : Hw) (g v : Nat) (hinit : h.syncInit = false) (hmay : h.mayHandSet g = true) (hnone : h.syncIncs = []) :
    ∃ d, h.handSet .debug g v = (h.handSetRegs g (v % 2 ^ 32)).setDebugged d := by
  unfold handSet
  simp only [hinit, hmay, settleIncs_of_none h hnone, bne_self_eq_false, Bool.not_true, Bool.or_self, Bool.false_eq_true, if_false, setFlag]
  split
  · exact ⟨_, (setDebugged_self (h.handSetRegs g (v % 2 ^ 32))).symm⟩
  · refine foldl_setDebugged _ _ (fun x y => ?_) (h.handSetRegs g (v % 2 ^ 32))
    split
    · exact ⟨_, rfl⟩
    · exact ⟨_, (setDebugged_self x).symm⟩

theorem handSetRegs_registers (h : Hw) (g v : Nat) (hv : v < 2 ^ 32) :
    (h.handSetRegs g v).rd .SY_VALUE g = v ∧ (h.handSetRegs g v).rd .SY_COMMITTED g = v ∧ (h.handSetRegs g v).on F.SY_STATUS_HAND_SET g = true := by
  unfold handSetRegs
  refine ⟨?_, ?_, on_put_same _ _ _ _ (by decide)⟩
  · rw [rd_put_reg _ _ _ _ _ _ (by decide), rd_wr_reg _ _ _ _ _ _ (by decide), rd_wr_same]
    exact Nat.mod_eq_of_lt hv
  · rw [rd_put_reg _ _ _ _ _ _ (by decide), rd_wr_same]
    exact Nat.mod_eq_of_lt hv

theorem only_handSetRegs (h : Hw) (g v : Nat) : h.Only (h.handSetRegs g v) [(.SY_VALUE, g), (.SY_COMMITTED, g), (.SY_STATUS, g)] := by
  unfold handSetRegs
  refine (((Only.refl h _).wr .SY_VALUE g v ?_).wr .SY_COMMITTED g v ?_).put F.SY_STATUS_HAND_SET 1 g ?_
  all_goals simp [F.SY_STATUS_HAND_SET]

theorem only_setDebugged {h h' : Hw} {ks : List (Reg × Nat)} (ho : h.Only h' ks) (d : Tab Nat) : h.Only { h'.setDebugged d with debugged := h.debugged } ks := by
  obtain ⟨hrest, hrd⟩ := ho
  exact ⟨congrArg (fun x : Hw => { x with debugged := h.debugged }) hrest, hrd⟩

/-! The zeroing of the unit. -/

/-- The registers of the sync unit's objects and streams back at their reset values. -/
def clearSync (h : Hw) : Hw := (((h.clearReg .SY_VALUE).clearReg .SY_COMMITTED).clearReg .SY_WMARK).clearReg .SY_RX

/-- The sync unit with nothing pending and its zeroing due. -/
def syncZeroing (h : Hw) (t : Nat) : Hw := { h with syncIncs := [], couchPending := [], syncInitDue := some t }

theorem rd_clearSync (h : Hw) (g : Nat) :
    h.clearSync.rd .SY_VALUE g = 0 ∧ h.clearSync.rd .SY_COMMITTED g = 0 ∧ h.clearSync.rd .SY_WMARK g = 0 ∧ h.clearSync.rd .SY_RX g = 0 := by
  unfold clearSync
  refine ⟨?_, ?_, ?_, ?_⟩
  · rw [rd_clearReg_other _ _ _ _ (by decide), rd_clearReg_other _ _ _ _ (by decide), rd_clearReg_other _ _ _ _ (by decide), rd_clearReg_same]
    rfl
  · rw [rd_clearReg_other _ _ _ _ (by decide), rd_clearReg_other _ _ _ _ (by decide), rd_clearReg_same]
    rfl
  · rw [rd_clearReg_other _ _ _ _ (by decide), rd_clearReg_same]
    rfl
  · rw [rd_clearReg_same]
    rfl

theorem get_clearReg (h : Hw) (r : Reg) (f : Fld) (i : Nat) (hf : f.reg ≠ r) : (h.clearReg r).get f i = h.get f i :=
  congrArg (bits f.lo f.w) (rd_clearReg_other h r f.reg i hf)

theorem ticks_clearReg (h : Hw) (r : Reg) : (h.clearReg r).ticks = h.ticks := rfl

theorem syncZeroing_eq (h : Hw) :
    { h with syncIncs := [], couchPending := [], syncInitDue := some (h.after 16384) } = h.syncZeroing (h.after 16384) := rfl

theorem writeSyCtrl_enables (h : Hw) (v : Nat) (hoff : h.on F.SY_CTRL_ENABLE = false) (hen : bit 0 v = true) (hplan : h.hasPlan = true) :
    h.writeSyCtrl v = ((((h.put F.SY_CTRL_ENABLE 1).put F.SY_CTRL_INIT 1).clearSync.syncZeroing (h.ticks + 4 * 16384)).showCouch).put F.SY_COUCH_PEAK 0 := by
  have hafter : ((h.put F.SY_CTRL_ENABLE 1).put F.SY_CTRL_INIT 1).clearSync.after 16384 = h.ticks + 4 * 16384 := by
    rw [after, clearSync, ticks_clearReg, ticks_clearReg, ticks_clearReg, ticks_clearReg, put_ticks, put_ticks]
  have hpos : (!h.on F.SY_CTRL_ENABLE && bit 0 v) = true := by rw [hoff, hen]; rfl
  have hneg : ¬(!h.hasPlan) = true := by rw [hplan]; decide
  rw [← hafter]
  exact (if_pos hpos).trans ((if_neg hneg).trans (congrArg (fun x : Hw => x.showCouch.put F.SY_COUCH_PEAK 0) (syncZeroing_eq _)))

theorem writeSyCtrl_refuses (h : Hw) (v : Nat) (hoff : h.on F.SY_CTRL_ENABLE = false) (hen : bit 0 v = true) (hplan : h.hasPlan = false) :
    h.writeSyCtrl v = h.refuse Rc.CFG_SY_DEPENDS F.SY_USTATUS_REASON 0 0x91 := by
  unfold writeSyCtrl
  simp only [hoff, hen, hplan, Bool.not_false, Bool.and_self, if_true]

theorem rd_showCouch (h : Hw) (r : Reg) (i : Nat) (hr : r ≠ .SY_COUCH) : h.showCouch.rd r i = h.rd r i := by
  unfold showCouch
  rw [rd_put_reg _ _ _ _ _ _ hr, rd_put_reg _ _ _ _ _ _ hr]

theorem on_showCouch (h : Hw) (f : Fld) (i : Nat) (hf : f.reg ≠ .SY_COUCH) : h.showCouch.on f i = h.on f i :=
  congrArg (fun x => bits f.lo f.w x == 1) (rd_showCouch h f.reg i hf)

theorem rd_syncZeroing (h : Hw) (t : Nat) (r : Reg) (i : Nat) : (h.syncZeroing t).rd r i = h.rd r i := rfl

theorem on_syncZeroing (h : Hw) (t : Nat) (f : Fld) (i : Nat) : (h.syncZeroing t).on f i = h.on f i := rfl

theorem on_clearSync (h : Hw) (f : Fld) (i : Nat) (hf : f.reg ∉ [Reg.SY_VALUE, .SY_COMMITTED, .SY_WMARK, .SY_RX]) : h.clearSync.on f i = h.on f i := by
  simp only [List.mem_cons, List.not_mem_nil, or_false, not_or] at hf
  obtain ⟨hvalue, hcommitted, hwmark, hrx⟩ := hf
  unfold clearSync
  rw [on_eq_get, get_clearReg _ _ _ _ hrx, get_clearReg _ _ _ _ hwmark, get_clearReg _ _ _ _ hcommitted, get_clearReg _ _ _ _ hvalue, on_eq_get]

/-- The sync unit with the end of its zeroing. -/
def setSyncInitDue (h : Hw) (t : Option Nat) : Hw := { h with syncInitDue := t }

theorem syncIncs_showCouch (h : Hw) : h.showCouch.syncIncs = h.syncIncs := by
  unfold showCouch
  rw [put_syncIncs, put_syncIncs]

theorem syncInitDue_showCouch (h : Hw) : h.showCouch.syncInitDue = h.syncInitDue := by
  unfold showCouch
  rw [put_syncInitDue, put_syncInitDue]

end Hw

/-- Settles O37: each command takes the branch that its hypotheses select; a zeroed register reads its reset value, 0. -/
theorem syncUnitCommandsTakeEffect : Obligations.SyncUnitCommandsTakeEffect := by
  unfold Obligations.SyncUnitCommandsTakeEffect
  refine ⟨fun s o v m st hp fb haclk hinit hrun hfb hshared hrange => ?couch, fun s o v htakes hinit hmay hnone => ?set, fun s a o v htakes hinit ha => ?refused,
    fun s a v htakes hoff => ?enable, fun s t haclk hdue => ?done⟩
  case couch =>
    obtain ⟨e, he, hexec⟩ : ∃ e : CouchReq, e = { dest := s.hw.get F.LK_ADDR_ADDR, obj := o, value := v, mark := m, stream := st, hoop := hp, fbeat := fb } ∧
        exec (.couchArrival o v m st hp fb) s = s.leads (s.hw.couchArrive e) := by
      refine ⟨_, rfl, ?_⟩
      refine (State.answers_clocked s _ haclk).trans ?_
      exact rfl
    have hobj : e.obj = o := by rw [he]
    have hvalue : e.value = v := by rw [he]
    have hmk : e.mark = m := by rw [he]
    have hst : e.stream = st := by rw [he]
    have hbeat : e.fbeat % 2 ^ 32 = s.hw.run.f % 2 ^ 32 := by rw [he]; exact hfb
    have hsh : s.hw.isShared e.obj = true := by rw [hobj, hshared]
    have hrg : s.hw.inSyncRange e.hoop e.obj = true := by rw [he]; exact hrange
    refine ⟨fun hmark => ?_, fun hmark hroom => ?_⟩
    · rw [s.hw.couchArrive_applies e hinit hrun hbeat hsh hrg (by rw [hst, hmk, hmark]), hobj, hvalue, Hw.increment, hshared, if_pos rfl] at hexec
      exact hexec
    · rw [s.hw.couchArrive_waits e hinit hrun hbeat hsh hrg (by rw [hst, hmk, hmark]) hroom] at hexec
      have hlen : (s.hw.couchPending ++ [e]).length = s.hw.couchPending.length + 1 := List.length_append
      refine ⟨_, e, hexec, Hw.couchPending_showCouch _, hobj, hvalue, hmk, hst, ?_, s.hw.only_showCouch _⟩
      rw [Hw.get_showCouch _ (by rw [Hw.setCouchPending, hlen]; omega), Hw.setCouchPending, hlen]
  case set =>
    have hexec := State.answers_writeNamed s .debug .SY_VALUE o v.toNat (fun h => h.handSet .debug o _) htakes rfl
    obtain ⟨d, hd⟩ := s.hw.handSet_debug o (v.toNat % 2 ^ 32) hinit hmay hnone
    rw [hd, Nat.mod_mod, Nat.mod_eq_of_lt v.isLt] at hexec
    obtain ⟨hval, hcom, hset⟩ := s.hw.handSetRegs_registers o v.toNat v.isLt
    exact ⟨_, hexec, (Hw.rd_setDebugged _ _ _ _).trans hval, (Hw.rd_setDebugged _ _ _ _).trans hcom, (Hw.on_setDebugged _ _ _ _).trans hset,
      Hw.only_setDebugged (s.hw.only_handSetRegs o v.toNat) d⟩
  case refused =>
    have hexec := State.answers_writeNamed s a .SY_VALUE o v.toNat (fun h => h.handSet a o _) htakes rfl
    have ha' : (a != .debug) = true := by rw [bne_iff_ne]; exact ha
    refine hexec.trans ?_
    unfold Hw.handSet
    simp only [hinit, ha', Bool.true_or, Bool.false_eq_true, if_false, if_true]
  case enable =>
    have hexec := State.answers_writeNamed s a .SY_CTRL 0 (withFld F.SY_CTRL_ENABLE 1 v.toNat) (·.writeSyCtrl _) htakes rfl
    have hen : bit 0 (withFld F.SY_CTRL_ENABLE 1 v.toNat % 2 ^ 32) = true := bit_setWord F.SY_CTRL_ENABLE v.toNat rfl (by decide)
    refine ⟨fun hplan => ?_, fun hplan => ?_⟩
    · rw [s.hw.writeSyCtrl_enables _ hoff hen hplan] at hexec
      refine ⟨_, hexec, ?_, ?_, ?_, ?_, ?_, fun g => ?_⟩
      · rw [Hw.on_put_reg _ _ _ _ _ _ (by decide), Hw.on_showCouch _ _ _ (by decide), Hw.on_syncZeroing, Hw.on_clearSync _ _ _ (by decide)]
        simp (disch := decide) only [Hw.on_put_apart, Hw.on_put_same]
        rfl
      · rw [Hw.on_put_reg _ _ _ _ _ _ (by decide), Hw.on_showCouch _ _ _ (by decide), Hw.on_syncZeroing, Hw.on_clearSync _ _ _ (by decide),
          Hw.on_put_same _ _ _ _ (by decide)]
        rfl
      · rw [Hw.put_syncInitDue, Hw.syncInitDue_showCouch, Hw.syncZeroing]
      · rw [Hw.put_syncIncs, Hw.syncIncs_showCouch, Hw.syncZeroing]
      · rw [Hw.put_couchPending, Hw.couchPending_showCouch, Hw.syncZeroing]
      · have hkeep (r : Reg) (hr : r ≠ .SY_COUCH) := Hw.rd_put_reg (((s.hw.put F.SY_CTRL_ENABLE 1).put F.SY_CTRL_INIT 1).clearSync.syncZeroing
          (s.hw.ticks + 4 * 16384)).showCouch F.SY_COUCH_PEAK 0 0 g r hr
        obtain ⟨hvalue, hcommitted, hwmark, hrx⟩ := ((s.hw.put F.SY_CTRL_ENABLE 1).put F.SY_CTRL_INIT 1).rd_clearSync g
        refine ⟨?_, ?_, ?_, ?_⟩
        · rw [hkeep _ (by decide), Hw.rd_showCouch _ _ _ (by decide), Hw.rd_syncZeroing, hvalue]
        · rw [hkeep _ (by decide), Hw.rd_showCouch _ _ _ (by decide), Hw.rd_syncZeroing, hcommitted]
        · rw [hkeep _ (by decide), Hw.rd_showCouch _ _ _ (by decide), Hw.rd_syncZeroing, hwmark]
        · rw [hkeep _ (by decide), Hw.rd_showCouch _ _ _ (by decide), Hw.rd_syncZeroing, hrx]
    · rw [s.hw.writeSyCtrl_refuses _ hoff hen hplan] at hexec
      exact hexec
  case done =>
    have hexec := s.answers_clocked (·.syncInitDone) haclk
    have hend : s.hw.syncInitDone = ((s.hw.elapse t).setSyncInitDue none).put F.SY_CTRL_INIT 0 := by
      unfold Hw.syncInitDone
      rw [hdue]
      rfl
    rw [hend] at hexec
    refine ⟨_, hexec, ?_, Hw.on_put_same _ _ _ _ (by decide), ?_, ?_⟩
    · rw [Hw.put_ticks]
      rfl
    · rw [Hw.put_syncInitDue]
      rfl
    · exact Hw.Only.put (h' := { (s.hw.elapse t).setSyncInitDue none with ticks := s.hw.ticks, syncInitDue := s.hw.syncInitDue }) (Hw.Only.refl s.hw _)
        F.SY_CTRL_INIT 0 0 (List.mem_singleton.mpr rfl)

end Sys2Proof.Machine
end

section
/-! Proofs about the sequencer's registers (R137, R139, R140, R170). -/

namespace Sys2Proof.Machine

theorem State.answers_atCoreMem (s : State) (c : Nat) (f : Mem → Hw → Hw) (haclk : s.hw.clocks.aclk = true) (hc : c < s.hw.physCores) :
    s.answers (atCore c (fun w => w.onHwMem f)) = s.leads (f s.mem s.hw) := s.answers_of _ (fun w => w.onHwMem f) _ (atCore_of c _ s.work haclk hc) rfl

theorem onlyCores_onSeq {h h' : Hw} {ks : List (Reg × Nat)} (ho : onlyCores h h' ks) (c : Nat) (f : Seq → Seq) :
    onlyCores h (h'.onSeq c f) ks := onlyCores_onCore ho c _

namespace Hw

theorem on_onSeq (h : Hw) (c : Nat) (f : Seq → Seq) (g : Fld) (i : Nat) : (h.onSeq c f).on g i = h.on g i := rfl

theorem ticks_onSeq (h : Hw) (c : Nat) (f : Seq → Seq) : (h.onSeq c f).ticks = h.ticks := rfl

theorem ctl_onSeq (h : Hw) (c : Nat) (f : Seq → Seq) : (h.onSeq c f).ctl = h.ctl := rfl

/-! A published TAIL. -/

/-- The published pieces that lie in a valid bank's block. -/
def bankedPieces (h : Hw) (c old new : Nat) : List (Nat × Nat) :=
  (blockPieces 1000000 old (old + (new + 2 ^ 32 - old) % 2 ^ 32)).filter (fun p =>
    h.bankValid c (bankOf p.1) && h.bankPos c (bankOf p.1) == blockStart p.1)

theorem writeTail_accepted (h : Hw) (c v : Nat) (hacc : h.tailRefused c v = false) :
    h.writeTail c v = (h.put F.CR_SEQ_RING_TAIL_POS (v % 2 ^ 32) c).onSeq c (fun s => { s with copies := s.copies ++
      ((h.put F.CR_SEQ_RING_TAIL_POS (v % 2 ^ 32) c).bankedPieces c (h.get F.CR_SEQ_RING_TAIL_POS c) (v % 2 ^ 32)).map (fun p =>
        (p.1, p.2, (h.put F.CR_SEQ_RING_TAIL_POS (v % 2 ^ 32) c).after 32)) }) := by
  unfold writeTail
  exact if_neg (by rw [hacc]; decide)

theorem writeTail_refused (h : Hw) (c v : Nat) (href : h.tailRefused c v = true) : h.writeTail c v = h.seqRefuse c Rc.CFG_SEQ_RING_FULL := by
  unfold writeTail
  exact if_pos href

theorem publish_unstaged (h : Hw) (c v : Nat) (hphys : h.physOf c = c) (hstage : h.on F.DP_STAGE_VALID c = false) : h.publish c v = h.writeTail c v := by
  unfold publish
  rw [hphys]
  cases hacc : h.tailRefused c v
  · have hkeep : (h.writeTail c v).on F.DP_STAGE_VALID c = false := by
      rw [writeTail_accepted _ _ _ hacc, on_onSeq, on_put_reg _ _ _ _ _ _ (by decide), hstage]
    exact if_pos (by rw [hkeep, Bool.not_false, Bool.or_true])
  · exact if_pos (by rw [hacc]; rfl)

theorem bankValid_put (h : Hw) (f : Fld) (v i c k : Nat) (hf : f.reg ≠ .CR_SEQ_BANK) : (h.put f v i).bankValid c k = h.bankValid c k := by
  unfold bankValid
  rw [on_put_reg _ _ _ _ _ _ hf.symm, on_put_reg _ _ _ _ _ _ hf.symm]

theorem bankPos_put (h : Hw) (f : Fld) (v i c k : Nat) (h0 : f.reg ≠ .CR_SEQ_BANK0_POS) (h1 : f.reg ≠ .CR_SEQ_BANK1_POS) :
    (h.put f v i).bankPos c k = h.bankPos c k := by
  unfold bankPos
  rw [get_put_reg _ _ _ _ _ _ h0.symm, get_put_reg _ _ _ _ _ _ h1.symm]

theorem bankedPieces_put (h : Hw) (c v old new : Nat) : (h.put F.CR_SEQ_RING_TAIL_POS v c).bankedPieces c old new = h.bankedPieces c old new := by
  have hvalid := h.bankValid_put F.CR_SEQ_RING_TAIL_POS v c c
  have hpos := h.bankPos_put F.CR_SEQ_RING_TAIL_POS v c c
  unfold bankedPieces
  refine congrArg (fun f => List.filter f _) (funext fun p => ?_)
  rw [hvalid _ (by decide), hpos _ (by decide) (by decide)]

theorem bankedPieces_invalid (h : Hw) (c old new : Nat) (h0 : h.on F.CR_SEQ_BANK_VALID0 c = false) (h1 : h.on F.CR_SEQ_BANK_VALID1 c = false) :
    h.bankedPieces c old new = [] := by
  have hvalid (k : Nat) : h.bankValid c k = false := by
    unfold bankValid
    rw [h0, h1, ite_self]
  unfold bankedPieces
  refine List.filter_eq_nil_iff.mpr fun p _ => ?_
  rw [hvalid, Bool.false_and]
  decide

theorem blockPieces_oneBlock (n lo hi : Nat) (hlt : lo < hi) (hhi : hi ≤ blockStart lo + 1024) : blockPieces (n + 2) lo hi = [(lo, hi)] := by
  have hcut : min hi (blockStart lo + 1024) = hi := Nat.min_eq_left hhi
  rw [blockPieces.eq_def]
  simp only [if_neg (Nat.not_le_of_lt hlt), hcut, blockPieces, if_pos (Nat.le_refl hi)]

theorem bankedPieces_oneBlock (h : Hw) (c old new : Nat) (hlt : old < new) (hhi : new ≤ blockStart old + 1024) (hnew : new < 2 ^ 32)
    (hvalid : h.bankValid c (bankOf old) = true) (hpos : h.bankPos c (bankOf old) = blockStart old) : h.bankedPieces c old new = [(old, new)] := by
  have hspan : old + (new + 2 ^ 32 - old) % 2 ^ 32 = new := by omega
  unfold bankedPieces
  rw [hspan, blockPieces_oneBlock 999998 old new hlt hhi, List.filter_cons_of_pos (by rw [hvalid, hpos]; simp), List.filter_nil]

theorem tailRefused_of_within (h : Hw) (c v : Nat) (hv : v < 2 ^ 32) (hlow : h.get F.CR_SEQ_RING_TAIL_POS c ≤ v)
    (hhigh : v < h.get F.CR_SEQ_RING_TAIL_POS c + 2 ^ 31) (hchead : h.get F.CR_SEQ_RING_CHEAD_POS c ≤ v)
    (hring : v - h.get F.CR_SEQ_RING_CHEAD_POS c ≤ h.ringSize c / 32) : h.tailRefused c v = false := by
  have hback : (v + 2 ^ 32 - h.get F.CR_SEQ_RING_TAIL_POS c) % 2 ^ 32 < 2 ^ 31 := by omega
  have hfull : (v + 2 ^ 32 - h.get F.CR_SEQ_RING_CHEAD_POS c) % 2 ^ 32 ≤ h.ringSize c / 32 := by omega
  unfold tailRefused
  rw [Nat.mod_eq_of_lt hv]
  simp only [ge_iff_le, gt_iff_lt, decide_eq_false (Nat.not_le_of_lt hback), decide_eq_false (Nat.not_lt_of_le hfull), Bool.or_self]

theorem tailRefused_of_past (h : Hw) (c v : Nat) (hv : v < 2 ^ 32)
    (hpast : (v + 2 ^ 32 - h.get F.CR_SEQ_RING_TAIL_POS c) % 2 ^ 32 ≥ 2 ^ 31 ∨
      (v + 2 ^ 32 - h.get F.CR_SEQ_RING_CHEAD_POS c) % 2 ^ 32 > h.ringSize c / 32) : h.tailRefused c v = true := by
  unfold tailRefused
  rw [Nat.mod_eq_of_lt hv, Bool.or_eq_true, decide_eq_true_eq, decide_eq_true_eq]
  exact hpast

/-! A bank load's start and end, and the end of a published copy. -/

theorem seq_setBank (h : Hw) (c k d : Nat) (valid grant : Bool) : (h.setBank c k valid grant).seq d = h.seq d := by
  unfold setBank
  split <;> rw [seq_put, seq_put]

theorem ticks_setBank (h : Hw) (c k : Nat) (valid grant : Bool) : (h.setBank c k valid grant).ticks = h.ticks := by
  unfold setBank
  split <;> rw [put_ticks, put_ticks]

theorem get_setBank_reg (h : Hw) (c k : Nat) (valid grant : Bool) (f : Fld) (i : Nat) (hf : f.reg ≠ .CR_SEQ_BANK) :
    (h.setBank c k valid grant).get f i = h.get f i := by
  unfold setBank
  split <;> rw [get_put_reg _ _ _ _ _ _ hf, get_put_reg _ _ _ _ _ _ hf]

theorem flag_mod_two (b : Bool) : (flag b % 2 ^ 1 == 1) = b := by cases b <;> rfl

theorem bankValid_setBank_same (h : Hw) (c k : Nat) (valid grant : Bool) : (h.setBank c k valid grant).bankValid c k = valid := by
  unfold setBank bankValid
  split
  · simp (disch := decide) only [on_eq_get, get_put_apart, get_put_same]
    exact flag_mod_two valid
  · simp (disch := decide) only [on_eq_get, get_put_apart, get_put_same]
    exact flag_mod_two valid

/-- A bank whose load starts. -/
def loading (s : Seq) (k done : Nat) : Seq :=
  { s with loadDue := Tab.insert s.loadDue k done, badPos := s.badPos.filter (fun p => bankOf p != k), bank0 := if k == 0 then [] else s.bank0,
           bank1 := if k == 1 then [] else s.bank1, copies := s.copies.filter (fun x => bankOf x.1 != k) }

theorem seq_startLoad (h : Hw) (c k pos : Nat) (grant : Bool) (done : Nat) : (h.startLoad c k pos grant done).seq c = loading (h.seq c) k done := by
  unfold startLoad
  rw [seq_onSeq_same]
  refine congrArg (fun s => loading s k done) ?_
  split <;> rw [seq_put, seq_setBank]

theorem get_startLoad (h : Hw) (c k pos : Nat) (grant : Bool) (done : Nat) (f : Fld) (i : Nat)
    (hf : f.reg ≠ .CR_SEQ_BANK) (h0 : f.reg ≠ .CR_SEQ_BANK0_POS) (h1 : f.reg ≠ .CR_SEQ_BANK1_POS) : (h.startLoad c k pos grant done).get f i = h.get f i := by
  unfold startLoad
  rw [get_onSeq]
  split
  · rw [get_put_reg _ _ _ _ _ _ h0, get_setBank_reg _ _ _ _ _ _ _ hf]
  · rw [get_put_reg _ _ _ _ _ _ h1, get_setBank_reg _ _ _ _ _ _ _ hf]

theorem bankValid_startLoad_same (h : Hw) (c k pos : Nat) (grant : Bool) (done : Nat) : (h.startLoad c k pos grant done).bankValid c k = false := by
  have hset := h.bankValid_setBank_same c k false grant
  unfold startLoad
  rw [bankValid, on_onSeq, on_onSeq, ← bankValid]
  split
  · rw [bankValid_put _ _ _ _ _ _ (by decide), hset]
  · rw [bankValid_put _ _ _ _ _ _ (by decide), hset]

theorem bankValid_setBank_off (h : Hw) (c k j : Nat) (grant : Bool) (hoff : h.bankValid c j = false) : (h.setBank c k false grant).bankValid c j = false := by
  unfold setBank bankValid
  by_cases hj : (j == 0) = true
  · rw [bankValid, if_pos hj, on_eq_get] at hoff
    rw [if_pos hj]
    split
    · simp (disch := decide) only [on_eq_get, get_put_apart, get_put_same]
      rfl
    · simp (disch := decide) only [on_eq_get, get_put_apart, hoff]
  · rw [bankValid, if_neg hj, on_eq_get] at hoff
    rw [if_neg hj]
    split
    · simp (disch := decide) only [on_eq_get, get_put_apart, hoff]
    · simp (disch := decide) only [on_eq_get, get_put_apart, get_put_same]
      rfl

theorem bankValid_startLoad_off (h : Hw) (c k j pos : Nat) (grant : Bool) (done : Nat) (hoff : h.bankValid c j = false) :
    (h.startLoad c k pos grant done).bankValid c j = false := by
  have hset := h.bankValid_setBank_off c k j grant hoff
  unfold startLoad
  rw [bankValid, on_onSeq, on_onSeq, ← bankValid]
  split
  · rw [bankValid_put _ _ _ _ _ _ (by decide), hset]
  · rw [bankValid_put _ _ _ _ _ _ (by decide), hset]

/-- The registers of a sequencer put in service. -/
def seqServedRegs (h : Hw) (c t : Nat) : Hw :=
  (((((h.put F.CR_SEQ_CTRL_ENABLE 1 c).put F.CR_SEQ_STATUS_STATE 1 c).put F.CR_SEQ_RING_HEAD_POS t c).put F.CR_SEQ_RING_CHEAD_POS t c).put
    F.CR_SEQ_SLACKMIN_MIN 0xFFFF c)

/-- A sequencer at rest that keeps its checkpoint, its counters' events and its comparators. -/
def seqFresh (h : Hw) (c : Nat) : Hw :=
  h.onSeq c (fun s => { checkpoint := { s.checkpoint with }, sel := s.sel, cm := s.cm, boundRun := h.runNumber })

/-- Both banks of a core loading from a position. -/
def loadsBoth (h : Hw) (c t : Nat) : Hw :=
  (h.startLoad c (bankOf t) (blockStart t) true (h.after 154)).startLoad c (1 - bankOf t) ((blockStart t + 1024) % 2 ^ 32) true
    ((h.startLoad c (bankOf t) (blockStart t) true (h.after 154)).after 154)

theorem writeSeqCtrl_enables (h : Hw) (c v : Nat) (hoff : h.on F.CR_SEQ_CTRL_ENABLE c = false) (hen : bit 0 v = true)
    (hlow : 16 ≤ h.get F.CR_SEQ_RING_SIZE_LOG2 c) (hhigh : h.get F.CR_SEQ_RING_SIZE_LOG2 c ≤ 24)
    (halign : h.get F.CR_SEQ_RING_BASE_BASE c * 4096 % 2 ^ h.get F.CR_SEQ_RING_SIZE_LOG2 c = 0)
    (hin : h.get F.CR_SEQ_RING_BASE_BASE c * 4096 + 2 ^ h.get F.CR_SEQ_RING_SIZE_LOG2 c ≤ h.scratchSize) (hmac : h.on F.CR_MAC_CTRL_ENABLE c = true) :
    h.writeSeqCtrl c v = ((h.seqServedRegs c (h.get F.CR_SEQ_RING_TAIL_POS c)).seqFresh c).loadsBoth c (h.get F.CR_SEQ_RING_TAIL_POS c) := by
  have hpos : (!h.on F.CR_SEQ_CTRL_ENABLE c && bit 0 v) = true := by rw [hoff, hen]; rfl
  unfold writeSeqCtrl
  refine (if_pos hpos).trans ((if_neg ?_).trans ((if_neg ?_).trans rfl))
  · simp only [halign, bne_self_eq_false, Bool.or_false, Bool.or_eq_true, decide_eq_true_eq, not_or, Nat.not_lt]
    exact ⟨⟨hlow, hhigh⟩, hin⟩
  · rw [hmac]
    decide

theorem writeSeqCtrl_disables (h : Hw) (c v : Nat) (hon : h.on F.CR_SEQ_CTRL_ENABLE c = true) (hen : bit 0 v = false) :
    h.writeSeqCtrl c v = ((h.put F.CR_SEQ_CTRL_ENABLE 0 c).put F.CR_SEQ_STATUS_STATE 0 c).onSeq c
      (fun s => { s with bound := false, seg := none, loops := [], skip := .none }) := by
  have hneg : ¬(!h.on F.CR_SEQ_CTRL_ENABLE c && bit 0 v) = true := by rw [hon]; simp
  have hpos : (h.on F.CR_SEQ_CTRL_ENABLE c && !bit 0 v) = true := by rw [hon, hen]; rfl
  unfold writeSeqCtrl
  exact (if_neg hneg).trans ((if_pos hpos).trans rfl)

theorem loadsBoth_banks (h : Hw) (c t k : Nat) (hk : k < 2) : (h.loadsBoth c t).bankValid c k = false := by
  have hbank : k = bankOf t ∨ k = 1 - bankOf t := by unfold bankOf; omega
  unfold loadsBoth
  rcases hbank with hb | hb
  · rw [hb]
    exact bankValid_startLoad_off _ _ _ _ _ _ _ (bankValid_startLoad_same _ _ _ _ _ _)
  · rw [hb]
    exact bankValid_startLoad_same _ _ _ _ _ _

theorem ticks_startLoad (h : Hw) (c k pos : Nat) (grant : Bool) (done : Nat) : (h.startLoad c k pos grant done).ticks = h.ticks := by
  unfold startLoad
  rw [ticks_onSeq]
  split <;> rw [put_ticks, ticks_setBank]

theorem loadDue_loadsBoth (h : Hw) (c t k : Nat) (hk : k < 2) : Tab.find? ((h.loadsBoth c t).seq c).loadDue k = some (h.ticks + 4 * 154) := by
  have hbank : k = bankOf t ∧ k ≠ 1 - bankOf t ∨ k = 1 - bankOf t := by unfold bankOf; omega
  have hdone : (h.startLoad c (bankOf t) (blockStart t) true (h.after 154)).after 154 = h.ticks + 4 * 154 := by rw [after, ticks_startLoad]
  unfold loadsBoth
  rw [seq_startLoad, seq_startLoad, hdone]
  rcases hbank with ⟨hb, hne⟩ | hb
  · exact (Tab.find?_insert_other _ _ _ _ hne).trans (hb ▸ Tab.find?_insert_same _ _ _)
  · exact hb ▸ Tab.find?_insert_same _ _ _

theorem bound_loadsBoth (h : Hw) (c t : Nat) : ((h.loadsBoth c t).seq c).bound = (h.seq c).bound := by
  unfold loadsBoth
  rw [seq_startLoad, seq_startLoad]
  rfl

theorem get_loadsBoth (h : Hw) (c t : Nat) (f : Fld) (i : Nat) (hf : f.reg ≠ .CR_SEQ_BANK) (h0 : f.reg ≠ .CR_SEQ_BANK0_POS)
    (h1 : f.reg ≠ .CR_SEQ_BANK1_POS) : (h.loadsBoth c t).get f i = h.get f i := by
  unfold loadsBoth
  rw [get_startLoad _ _ _ _ _ _ _ _ hf h0 h1, get_startLoad _ _ _ _ _ _ _ _ hf h0 h1]

theorem seqServedRegs_registers (h : Hw) (c t : Nat) (ht : t < 2 ^ 32) :
    (h.seqServedRegs c t).get F.CR_SEQ_CTRL_ENABLE c = 1 ∧ (h.seqServedRegs c t).get F.CR_SEQ_STATUS_STATE c = 1 ∧
      (h.seqServedRegs c t).get F.CR_SEQ_RING_HEAD_POS c = t ∧ (h.seqServedRegs c t).get F.CR_SEQ_RING_CHEAD_POS c = t ∧
      (h.seqServedRegs c t).get F.CR_SEQ_SLACKMIN_MIN c = 0xFFFF := by
  have hmod : t % 2 ^ 32 = t := Nat.mod_eq_of_lt ht
  unfold seqServedRegs
  simp (disch := decide) only [get_put_reg, get_put_same]
  exact ⟨rfl, rfl, hmod, hmod, rfl⟩

theorem ticks_seqServedRegs (h : Hw) (c t : Nat) : (h.seqServedRegs c t).ticks = h.ticks := by
  unfold seqServedRegs
  rw [put_ticks, put_ticks, put_ticks, put_ticks, put_ticks]

theorem get_seqFresh (h : Hw) (c : Nat) (f : Fld) (i : Nat) : (h.seqFresh c).get f i = h.get f i := rfl

theorem ticks_seqFresh (h : Hw) (c : Nat) : (h.seqFresh c).ticks = h.ticks := rfl

theorem bound_seqFresh (h : Hw) (c : Nat) : ((h.seqFresh c).seq c).bound = false := by
  unfold seqFresh
  rw [seq_onSeq_same]

/-! The ring's words. -/

theorem find?_keyed {α : Type} (ks : List Nat) (f : Nat → α) (p : Nat) (hp : p ∈ ks) : Tab.find? (ks.map (fun k => (k, f k))) p = some (f p) := by
  induction ks with
  | nil => exact absurd hp List.not_mem_nil
  | cons k ks ih =>
    rw [List.map_cons, Tab.find?]
    by_cases hk : p = k
    · rw [hk, if_pos (beq_self_eq_true k)]
    · rw [if_neg (by simpa using hk), ih ((List.mem_cons.mp hp).resolve_left hk)]

theorem find?_foldl_keyed {α : Type} (ks : List Nat) (f : Nat → α) (b : Tab α) (p : Nat) (hp : p ∈ ks ∨ Tab.find? b p = some (f p)) :
    Tab.find? ((ks.map (fun k => (k, f k))).foldl (fun b e => Tab.insert b e.1 e.2) b) p = some (f p) := by
  induction ks generalizing b with
  | nil => exact hp.resolve_left List.not_mem_nil
  | cons k ks ih =>
    rw [List.map_cons, List.foldl_cons]
    refine ih _ ?_
    by_cases hk : p = k
    · exact .inr (by rw [hk, Tab.find?_insert_same])
    · rw [Tab.find?_insert_other _ _ _ _ hk]
      exact hp.imp_left (fun hm => (List.mem_cons.mp hm).resolve_left hk)

/-- The word of the ring at a position. -/
def ringWord (h : Hw) (m : Mem) (c p : Nat) : InstrWord := BitVec.ofNat 256 (m.le Area.block (h.ringAddr c p) 32)

theorem ringWords_eq (h : Hw) (m : Mem) (c lo hi : Nat) :
    h.ringWords m c lo hi = ((List.range (hi - lo)).map (fun i => lo + i)).map (fun p => (p, h.ringWord m c p)) := by
  rw [List.map_map]
  rfl

theorem mem_positions (lo hi p : Nat) (hlo : lo ≤ p) (hhi : p < hi) : p ∈ (List.range (hi - lo)).map (fun i => lo + i) :=
  List.mem_map.mpr ⟨p - lo, List.mem_range.mpr (by omega), by omega⟩

theorem find?_ringWords (h : Hw) (m : Mem) (c lo hi p : Nat) (hlo : lo ≤ p) (hhi : p < hi) :
    Tab.find? (h.ringWords m c lo hi) p = some (h.ringWord m c p) := by
  rw [ringWords_eq]
  exact find?_keyed _ _ p (mem_positions lo hi p hlo hhi)

theorem find?_addRingWords (h : Hw) (m : Mem) (c lo hi p : Nat) (b : Tab InstrWord) (hlo : lo ≤ p) (hhi : p < hi) :
    Tab.find? ((h.ringWords m c lo hi).foldl (fun b e => Tab.insert b e.1 e.2) b) p = some (h.ringWord m c p) := by
  rw [ringWords_eq]
  exact find?_foldl_keyed _ _ b p (.inl (mem_positions lo hi p hlo hhi))

theorem ringBad_of_clean (h : Hw) (c lo hi : Nat) (hbad : h.badWords = []) : h.ringBad c lo hi = h := by
  unfold ringBad
  exact if_pos (by rw [hbad]; rfl)

/-- A sequencer whose copied positions join their bank. -/
def copied (s : Seq) (k : Nat) (ws : Tab InstrWord) (rest : List (Nat × Nat × Nat)) : Seq :=
  { s with copies := rest, bank0 := if k == 0 then ws.foldl (fun b e => Tab.insert b e.1 e.2) s.bank0 else s.bank0,
           bank1 := if k == 1 then ws.foldl (fun b e => Tab.insert b e.1 e.2) s.bank1 else s.bank1 }

theorem copyDone_eq (h : Hw) (m : Mem) (c lo hi t : Nat) (rest : List (Nat × Nat × Nat)) (hbad : h.badWords = [])
    (hcopies : (h.seq c).copies = (lo, hi, t) :: rest) :
    h.copyDone m c = (h.elapse t).onSeq c (fun s => copied s (bankOf lo) (h.ringWords m c lo hi) rest) := by
  have hclean : (h.elapse t).ringBad c lo hi = h.elapse t := ringBad_of_clean _ _ _ _ hbad
  unfold copyDone
  rw [hcopies]
  simp only [hclean]
  rfl

/-- A sequencer whose bank holds the words loaded. -/
def loaded (s : Seq) (k : Nat) (ws : Tab InstrWord) : Seq :=
  { s with loadDue := Tab.erase s.loadDue k, bank0 := if k == 0 then ws else s.bank0, bank1 := if k == 1 then ws else s.bank1 }

/-- The published positions of the block that a bank loads. -/
def publishedOf (h : Hw) (c k : Nat) : Nat :=
  if (h.get F.CR_SEQ_RING_TAIL_POS c + 2 ^ 32 - h.bankPos c k) % 2 ^ 32 < 2 ^ 31 then
    min 1024 ((h.get F.CR_SEQ_RING_TAIL_POS c + 2 ^ 32 - h.bankPos c k) % 2 ^ 32)
  else 0

/-- A bank load's end in the registers and the sequencer. -/
def bankServed (h : Hw) (m : Mem) (c k t : Nat) : Hw :=
  ((h.elapse t).onSeq c (fun s => loaded s k (h.ringWords m c (h.bankPos c k) (h.bankPos c k + h.publishedOf c k)))).setBank c k true false

/-- Issue no earlier than a tick. -/
def issueAfter (s : Seq) (t : Nat) : Seq := { s with nextIssue := max s.nextIssue t }

/-- What the bank that has become valid lets go on. -/
def bankReleases (h : Hw) (c k : Nat) : Hw :=
  let h := if h.waitsFor c k then h.onSeq c (fun s => issueAfter s (h.afterCycle 1)) else h
  if (h.seq c).restart && h.bankValid c 0 && h.bankValid c 1 then
    (h.put F.CR_SEQ_STATUS_STATE 1 c).onSeq c (fun s => { s with restart := false })
  else h

theorem bankLoaded_eq (h : Hw) (m : Mem) (c k t : Nat) (hbad : h.badWords = []) (hdue : Tab.find? (h.seq c).loadDue k = some t) :
    h.bankLoaded m c k = (h.bankServed m c k t).bankReleases c k := by
  have hloaded : h.bankLoaded m c k =
      (((((h.elapse t).onSeq c (fun s => loaded s k (h.ringWords m c (h.bankPos c k) (h.bankPos c k + h.publishedOf c k))))).ringBad c (h.bankPos c k)
        (h.bankPos c k + h.publishedOf c k)).setBank c k true false).bankReleases c k := by
    unfold bankLoaded
    rw [hdue]
    rfl
  have hclean : ((h.elapse t).onSeq c (fun s => loaded s k (h.ringWords m c (h.bankPos c k) (h.bankPos c k + h.publishedOf c k)))).badWords = [] := hbad
  rw [hloaded, ringBad_of_clean _ _ _ _ hclean]
  rfl

theorem bankReleases_eq (h : Hw) (c k : Nat) (hrun : (h.seq c).restart = false) :
    h.bankReleases c k = h ∨ ∃ u, h.bankReleases c k = h.onSeq c (fun s => issueAfter s u) := by
  unfold bankReleases
  split
  · have hstay : ((h.onSeq c (fun s => issueAfter s (h.afterCycle 1))).seq c).restart = false := by
      rw [seq_onSeq_same]
      exact hrun
    exact .inr ⟨_, if_neg (by rw [hstay]; exact Bool.false_ne_true)⟩
  · exact .inl (if_neg (by rw [hrun]; exact Bool.false_ne_true))

theorem seq_bankServed (h : Hw) (m : Mem) (c k t : Nat) :
    (h.bankServed m c k t).seq c = loaded (h.seq c) k (h.ringWords m c (h.bankPos c k) (h.bankPos c k + h.publishedOf c k)) := by
  unfold bankServed
  rw [seq_setBank, seq_onSeq_same]
  rfl

theorem bankServed_end (h : Hw) (m : Mem) (c k t : Nat) :
    (h.bankServed m c k t).ticks = max h.ticks t ∧ (h.bankServed m c k t).bankValid c k = true := by
  unfold bankServed
  exact ⟨ticks_setBank _ _ _ _ _, bankValid_setBank_same _ _ _ _ _⟩

/-- After a bank load: the tick, the bank valid, the load no longer due, and the bank's words. -/
theorem bankLoaded_leaves (h : Hw) (m : Mem) (c k t : Nat) (hbad : h.badWords = []) (hdue : Tab.find? (h.seq c).loadDue k = some t)
    (hrun : (h.seq c).restart = false) :
    (h.bankLoaded m c k).ticks = max h.ticks t ∧ (h.bankLoaded m c k).bankValid c k = true ∧ ∃ n,
      (h.bankLoaded m c k).seq c = { loaded (h.seq c) k (h.ringWords m c (h.bankPos c k) (h.bankPos c k + h.publishedOf c k)) with nextIssue := n } := by
  obtain ⟨hticks, hvalid⟩ := h.bankServed_end m c k t
  have hstay : ((h.bankServed m c k t).seq c).restart = false := by
    rw [seq_bankServed]
    exact hrun
  rw [bankLoaded_eq h m c k t hbad hdue]
  rcases bankReleases_eq _ c k hstay with heq | ⟨u, heq⟩
  · rw [heq]
    exact ⟨hticks, hvalid, _, seq_bankServed h m c k t⟩
  · rw [heq, ticks_onSeq, seq_onSeq_same, seq_bankServed]
    exact ⟨hticks, hvalid, _, rfl⟩

theorem bank_of_loaded (s : Seq) (k n : Nat) (ws : Tab InstrWord) (hk : k < 2) :
    (if k = 0 then ({ loaded s k ws with nextIssue := n } : Seq).bank0 else ({ loaded s k ws with nextIssue := n } : Seq).bank1) = ws := by
  obtain rfl | rfl : k = 0 ∨ k = 1 := by omega
  · rfl
  · rfl

theorem bank_of_copied (s : Seq) (p : Nat) (ws : Tab InstrWord) (rest : List (Nat × Nat × Nat)) :
    (if p / 1024 % 2 = 0 then (copied s (bankOf p) ws rest).bank0 else (copied s (bankOf p) ws rest).bank1) =
      ws.foldl (fun b e => Tab.insert b e.1 e.2) (if p / 1024 % 2 = 0 then s.bank0 else s.bank1) := by
  unfold copied bankOf
  obtain hb | hb : p / 1024 % 2 = 0 ∨ p / 1024 % 2 = 1 := by omega
  · rw [hb]
    rfl
  · rw [hb]
    rfl

end Hw

/-- Settles O31: a TAIL that is within its bounds is not refused, its pieces are the one block's positions or lie in no valid bank; the rest reads off
what each effect leaves in the sequencer and its registers. -/
theorem sequencerRegistersTakeEffect : Obligations.SequencerRegistersTakeEffect := by
  unfold Obligations.SequencerRegistersTakeEffect
  refine ⟨fun s a c v htakes hphys hstage => ?tail, fun s a c v htakes hv => ?bank, fun s a c v htakes hoff hlow hhigh halign hin hmac => ?enable,
    fun s a c v htakes hon => ?disable, fun s c lo hi t rest haclk hc hbad hcopies => ?copy, fun s c k t haclk hc hk hbad hdue hrun => ?load⟩
  case tail =>
    have hexec : exec (.ringTailWrite a c v) s = _ := State.answers_writeNamed s a .CR_SEQ_RING_TAIL c v.toNat (·.publish c _) htakes rfl
    have hlt : v.toNat < 2 ^ 32 := v.isLt
    rw [Nat.mod_eq_of_lt hlt, Hw.publish_unstaged _ _ _ hphys hstage] at hexec
    refine ⟨fun ⟨hle, hfwd, hhead, hring, h0, h1⟩ => ?_, fun old b hold hb hlt' hhi hhead hring hvalid hpos => ?_, fun hpast => ?_⟩
    · have hacc := s.hw.tailRefused_of_within c v.toNat hlt hle hfwd (by omega) hring
      rw [Hw.writeTail_accepted _ _ _ hacc, Hw.bankedPieces_put, Hw.bankedPieces_invalid _ _ _ _ h0 h1] at hexec
      refine ⟨_, hexec, ?_, ?_, ?_⟩
      · rw [Hw.get_onSeq, Hw.get_put_same _ _ _ _ (by decide), Nat.mod_eq_of_lt hlt]
        exact Nat.mod_eq_of_lt hlt
      · rw [Hw.seq_onSeq_same, Hw.seq_put, List.map_nil, List.append_nil]
      · exact onlyCores_onSeq (onlyCores_put (onlyCores_refl _ _) F.CR_SEQ_RING_TAIL_POS _ c (List.mem_singleton.mpr rfl)) _ _
    · have hblock : b = Hw.blockStart old := hb
      have hacc := s.hw.tailRefused_of_within c v.toNat hlt (by omega) (by omega) (by omega) hring
      rw [Hw.writeTail_accepted _ _ _ hacc, Hw.bankedPieces_put, ← hold, Nat.mod_eq_of_lt hlt, Hw.bankedPieces_oneBlock _ _ _ _ hlt' (hblock ▸ hhi) hlt hvalid
        (hblock ▸ hpos)] at hexec
      refine ⟨_, hexec, ?_, ?_⟩
      · rw [Hw.get_onSeq, Hw.get_put_same _ _ _ _ (by decide)]
        exact Nat.mod_eq_of_lt hlt
      · rw [Hw.seq_onSeq_same, Hw.seq_put, Hw.after, Hw.put_ticks]
        rfl
    · rw [Hw.writeTail_refused _ _ _ (s.hw.tailRefused_of_past c v.toNat hlt hpast)] at hexec
      exact hexec
  case bank =>
    have hexec : exec (.bankReloadRequest a c v) s = _ := State.answers_writeNamed s a .CR_SEQ_BANK c v.toNat (·.writeBank c _) htakes rfl
    rw [Nat.mod_eq_of_lt v.isLt] at hexec
    refine hexec.trans (congrArg s.leads (if_neg ?_))
    simpa using hv
  case enable =>
    have hexec : exec (.sequencerEnable a c v) s = _ :=
      State.answers_writeNamed s a .CR_SEQ_CTRL c (withFld F.CR_SEQ_CTRL_ENABLE 1 v.toNat) (·.writeSeqCtrl c _) htakes rfl
    rw [Hw.writeSeqCtrl_enables _ _ _ hoff (bit_setWord F.CR_SEQ_CTRL_ENABLE v.toNat rfl (by decide)) hlow hhigh halign hin hmac] at hexec
    have htail : s.hw.get F.CR_SEQ_RING_TAIL_POS c < 2 ^ 32 := bits_lt _ _ _
    obtain ⟨hen, hstate, hhead, hchead, hslack⟩ := s.hw.seqServedRegs_registers c (s.hw.get F.CR_SEQ_RING_TAIL_POS c) htail
    have hget (f : Fld) := Hw.get_loadsBoth ((s.hw.seqServedRegs c (s.hw.get F.CR_SEQ_RING_TAIL_POS c)).seqFresh c) c (s.hw.get F.CR_SEQ_RING_TAIL_POS c) f c
    have hbank (k : Nat) := Hw.loadsBoth_banks ((s.hw.seqServedRegs c (s.hw.get F.CR_SEQ_RING_TAIL_POS c)).seqFresh c) c (s.hw.get F.CR_SEQ_RING_TAIL_POS c) k
    refine ⟨_, hexec, ?_, ?_, ?_, ?_, ?_, hbank 0 (by decide), hbank 1 (by decide), fun k hk => ?_, ?_⟩
    · rw [Hw.on_eq_get, hget _ (by decide) (by decide) (by decide), Hw.get_seqFresh, hen]
      rfl
    · rw [hget _ (by decide) (by decide) (by decide), Hw.get_seqFresh, hstate]
    · rw [hget _ (by decide) (by decide) (by decide), Hw.get_seqFresh, hhead]
    · rw [hget _ (by decide) (by decide) (by decide), Hw.get_seqFresh, hchead]
    · rw [hget _ (by decide) (by decide) (by decide), Hw.get_seqFresh, hslack]
    · rw [Hw.loadDue_loadsBoth _ _ _ _ hk, Hw.ticks_seqFresh, Hw.ticks_seqServedRegs]
    · rw [Hw.bound_loadsBoth, Hw.bound_seqFresh]
  case disable =>
    have hexec : exec (.sequencerDisable a c v) s = _ :=
      State.answers_writeNamed s a .CR_SEQ_CTRL c (withFld F.CR_SEQ_CTRL_ENABLE 0 v.toNat) (·.writeSeqCtrl c _) htakes rfl
    rw [Hw.writeSeqCtrl_disables _ _ _ hon (bit_clearWord F.CR_SEQ_CTRL_ENABLE v.toNat rfl (by decide))] at hexec
    refine ⟨_, hexec, ?_, ?_, ?_, ?_, ?_⟩
    · rw [Hw.on_onSeq, Hw.on_put_reg _ _ _ _ _ _ (by decide), Hw.on_put_same _ _ _ _ (by decide)]
      rfl
    · rw [Hw.get_onSeq, Hw.get_put_same _ _ _ _ (by decide)]
      rfl
    · rw [Hw.seq_onSeq_same]
    · rw [Hw.seq_onSeq_same]
    · refine onlyCores_onSeq (onlyCores_put (onlyCores_put (onlyCores_refl _ _) F.CR_SEQ_CTRL_ENABLE _ c ?_) F.CR_SEQ_STATUS_STATE _ c ?_) _ _
      all_goals simp [F.CR_SEQ_CTRL_ENABLE, F.CR_SEQ_STATUS_STATE]
  case copy =>
    have hexec : exec (.publishedCopyDone c) s = _ := s.answers_atCoreMem c (fun m h => h.copyDone m c) haclk hc
    rw [Hw.copyDone_eq _ _ _ _ _ _ _ hbad hcopies] at hexec
    refine ⟨_, hexec, Hw.ticks_onSeq _ _ _, ?_, Hw.ctl_onSeq _ _ _, fun p hlo hhi => ?_⟩
    · rw [Hw.seq_onSeq_same]
      rfl
    · rw [Hw.seq_onSeq_same, Hw.bank_of_copied]
      exact Hw.find?_addRingWords _ _ _ _ _ _ _ hlo hhi
  case load =>
    have hexec : exec (.bankLoadDone c k) s = _ := s.answers_atCoreMem c (fun m h => h.bankLoaded m c k) haclk hc
    obtain ⟨hticks, hvalid, n, hseq⟩ := s.hw.bankLoaded_leaves s.mem c k t hbad hdue hrun
    refine ⟨_, hexec, hticks, hvalid, ?_, fun p hlo hhi htail hwin => ?_⟩
    · rw [hseq]
      exact Tab.find?_erase_same _ _
    · have hpub : p < s.hw.bankPos c k + s.hw.publishedOf c k := by
        unfold Hw.publishedOf
        rw [if_pos (by omega)]
        omega
      rw [hseq, Hw.bank_of_loaded _ _ _ _ hk]
      exact Hw.find?_ringWords _ _ _ _ _ p hlo hpub

end Sys2Proof.Machine
end

section
/-! Proofs about the memories' registers (R206, R209, R212, R217, R226). -/

namespace Sys2Proof.Machine

/-- A register's write that zeroes a part of a memory. -/
theorem State.answers_writeNamed_clear (s : State) (a : Agent) (r : Reg) (i v area addr n : Nat) (h' : Hw) (h : s.hw.Takes a r i)
    (hf : Hw.regWrite a { reg := r, idx := i, outer := i, hi := false } (v % 2 ^ 32) 0 s.work = (s.work.clear area addr n).onHw (fun _ => h')) :
    s.answers (Hw.writeNamed a r i v) = .next { s with hw := h'.settled, mem := s.mem.clear area addr n } := by
  unfold State.answers
  rw [Hw.writeNamed_of_takes _ _ _ _ _ h, hf]
  rfl

namespace Hw

/-- A core's matrix memory with its zeroing due. -/
def mmZeroing (h : Hw) (c t : Nat) : Hw :=
  { h with mmInitDue := Tab.insert h.mmInitDue c t, badWords := h.badWords.filter (fun p => p.1 / 2 ^ 32 != c) }

/-- The registers of a matrix memory whose zeroing begins. -/
def mmServed (h : Hw) (c : Nat) : Hw := (h.put F.CR_MM_CTRL_ENABLE 1 c).put F.CR_MM_STATUS_INIT 1 c

theorem mmZeroing_eq (h g : Hw) (c t : Nat) (hdue : g.mmInitDue = h.mmInitDue) (hbad : g.badWords = h.badWords) :
    { g with mmInitDue := Tab.insert h.mmInitDue c t, badWords := h.badWords.filter (fun p => p.1 / 2 ^ 32 != c) } = g.mmZeroing c t := by
  rw [mmZeroing, hdue, hbad]

theorem writeMmCtrl_enables (w : Work) (c v : Nat) (hoff : w.hw.on F.CR_MM_CTRL_ENABLE c = false) (hen : bit 0 v = true) :
    writeMmCtrl c v w = (w.clear (Area.matrix c) 0 w.hw.matrixSize).onHw (fun _ => (w.hw.mmServed c).mmZeroing c (w.hw.ticks + 4 * 4096)) := by
  have hsize : (w.hw.put F.CR_MM_CTRL_ENABLE 1 c).matrixSize = w.hw.matrixSize := by rw [matrixSize, put_build, matrixSize]
  have hafter : (w.hw.put F.CR_MM_CTRL_ENABLE 1 c).after 4096 = w.hw.ticks + 4 * 4096 := by rw [after, put_ticks]
  have hzero := mmZeroing_eq (w.hw.put F.CR_MM_CTRL_ENABLE 1 c) (w.hw.mmServed c) c ((w.hw.put F.CR_MM_CTRL_ENABLE 1 c).after 4096)
    (put_mmInitDue _ _ _ _) (put_badWords _ _ _ _)
  rw [← hafter, ← hsize, ← hzero]
  unfold writeMmCtrl
  rw [hoff, hen]
  rfl

theorem mmServed_registers (h : Hw) (c : Nat) : (h.mmServed c).on F.CR_MM_CTRL_ENABLE c = true ∧ (h.mmServed c).on F.CR_MM_STATUS_INIT c = true := by
  unfold mmServed
  simp (disch := decide) only [on_eq_get, get_put_reg, get_put_same]
  decide

theorem mmZeroing_fields (h : Hw) (c t : Nat) (f : Fld) (i : Nat) :
    (h.mmZeroing c t).on f i = h.on f i ∧ Tab.find? (h.mmZeroing c t).mmInitDue c = some t := ⟨rfl, Tab.find?_insert_same _ _ _⟩

theorem only_mmServed (h : Hw) (c t : Nat) :
    h.Only { (h.mmServed c).mmZeroing c t with mmInitDue := h.mmInitDue, badWords := h.badWords } [(.CR_MM_CTRL, c), (.CR_MM_STATUS, c)] := by
  obtain ⟨hrest, hrd⟩ : h.Only (h.mmServed c) [(.CR_MM_CTRL, c), (.CR_MM_STATUS, c)] := by
    unfold mmServed
    refine ((Only.refl h _).put F.CR_MM_CTRL_ENABLE _ c ?_).put F.CR_MM_STATUS_INIT _ c ?_
    all_goals simp [F.CR_MM_CTRL_ENABLE, F.CR_MM_STATUS_INIT]
  exact ⟨congrArg (fun x : Hw => { x with mmInitDue := h.mmInitDue, badWords := h.badWords }) hrest, hrd⟩

/-! Block memory and its cache. -/

/-- Block memory with its zeroing due. -/
def bmZeroing (h : Hw) (t : Nat) : Hw :=
  { h with bmInitDue := some t, cache := [], plru := [], badWords := h.badWords.filter (fun p => p.1 / 2 ^ 32 != 0x40) }

/-- The fields of MP_BM_CTRL as a write puts them. -/
def bmRegs (h : Hw) (units lg en : Nat) : Hw := ((h.put F.MP_BM_CTRL_SCRATCH_UNITS units).put F.MP_BM_CTRL_SCRUB_LOG2 lg).put F.MP_BM_CTRL_ENABLE en

theorem build_bmRegs (h : Hw) (units lg en : Nat) : (h.bmRegs units lg en).build = h.build := by
  unfold bmRegs
  rw [put_build, put_build, put_build]

theorem ticks_bmRegs (h : Hw) (units lg en : Nat) : (h.bmRegs units lg en).ticks = h.ticks := by
  unfold bmRegs
  rw [put_ticks, put_ticks, put_ticks]

theorem invalDue_bmRegs (h : Hw) (units lg en : Nat) : (h.bmRegs units lg en).invalDue = h.invalDue := by
  unfold bmRegs
  rw [put_invalDue, put_invalDue, put_invalDue]

/-- The registers of block memory put in service. -/
def bmServed (h : Hw) (units lg : Nat) : Hw := (h.bmRegs units lg 1).put F.MP_BM_STATUS_INIT 1

theorem bmZeroing_eq (h g : Hw) (t : Nat) (hbad : g.badWords = h.badWords) :
    { g with bmInitDue := some t, cache := [], plru := [], badWords := h.badWords.filter (fun p => p.1 / 2 ^ 32 != 0x40) } = g.bmZeroing t := by
  rw [bmZeroing, hbad]

theorem bmZero_eq (w : Work) :
    bmZero w = (w.clear Area.block 0 (w.hw.build.blockmemMib * 1048576)).onHw
      (fun _ => (w.hw.put F.MP_BM_STATUS_INIT 1).bmZeroing (w.hw.after (w.hw.build.blockmemMib * 64))) := by
  have hzero := bmZeroing_eq w.hw (w.hw.put F.MP_BM_STATUS_INIT 1) (w.hw.after (w.hw.build.blockmemMib * 64)) (put_badWords _ _ _ _)
  rw [← hzero]
  rfl

theorem onHw_hw (w : Work) (f : Hw → Hw) : (w.onHw f).hw = f w.hw := rfl

theorem onHw_congr (w : Work) (f g : Hw → Hw) (hfg : f w.hw = g w.hw) : w.onHw f = w.onHw g := congrArg (fun x : Hw => ({ w with hw := x } : Work)) hfg

theorem onHw_onHw (w : Work) (f g : Hw → Hw) : (w.onHw f).onHw g = w.onHw (fun h => g (f h)) := rfl

theorem onHw_applyIf_false (w : Work) (f : Hw → Hw) : w.onHw (fun h => applyIf (false && h.invalDue.isNone) f h) = w := rfl

theorem onHw_clear_onHw (w : Work) (f : Hw → Hw) (area addr n : Nat) (g : Hw) :
    ((w.onHw f).clear area addr n).onHw (fun _ => g) = (w.clear area addr n).onHw (fun _ => g) := rfl

theorem writeBmCtrl_enables (w : Work) (v : Nat) (hoff : w.hw.on F.MP_BM_CTRL_ENABLE = false) (hen : bit 0 v = true) (hinval : bit 1 v = false)
    (hscrub : 8 ≤ bits 16 4 v) (hunits : bits 8 6 v ≠ 0) (hfit : bits 8 6 v ≤ w.hw.build.blockmemMib / 8) (hports : w.hw.build.sizeGib ≠ 0) :
    writeBmCtrl v w = (w.clear Area.block 0 (w.hw.build.blockmemMib * 1048576)).onHw
      (fun _ => (w.hw.bmServed (bits 8 6 v) (bits 16 4 v)).bmZeroing (w.hw.ticks + 4 * (w.hw.build.blockmemMib * 64))) := by
  have hstart : (!w.hw.on F.MP_BM_CTRL_ENABLE && bit 0 v) = true := by rw [hoff, hen]; rfl
  have hexec : writeBmCtrl v w = bmZero (w.onHw (fun h => h.bmRegs (bits 8 6 v) (bits 16 4 v) 1)) := by
    unfold writeBmCtrl
    refine (if_neg (by rw [hoff]; exact Bool.false_ne_true)).trans ((if_neg (Nat.not_lt_of_le hscrub)).trans ?_)
    refine (congrArg (fun x : Work => x.onHw (fun h => applyIf (bit 1 v && h.invalDue.isNone) (fun h => h.startInval) h))
      ((if_pos hstart).trans ((if_neg ?_).trans (if_neg ?_)))).trans ?_
    · simpa only [Bool.or_eq_true, beq_iff_eq, decide_eq_true_eq, hunits, false_or] using Nat.not_lt_of_le hfit
    · simpa using hports
    · rw [hinval, onHw_onHw]
      exact onHw_applyIf_false _ _
  rw [hexec, bmZero_eq, onHw_hw, onHw_clear_onHw, after, build_bmRegs, ticks_bmRegs, bmServed]

theorem bmServed_registers (h : Hw) (units lg : Nat) (hu : units < 2 ^ 6) (hl : lg < 2 ^ 4) :
    (h.bmServed units lg).on F.MP_BM_CTRL_ENABLE = true ∧ (h.bmServed units lg).on F.MP_BM_STATUS_INIT = true ∧
      (h.bmServed units lg).get F.MP_BM_CTRL_SCRATCH_UNITS = units ∧ (h.bmServed units lg).get F.MP_BM_CTRL_SCRUB_LOG2 = lg := by
  unfold bmServed bmRegs
  simp (disch := decide) only [on_eq_get, get_put_reg, get_put_apart, get_put_same]
  exact ⟨rfl, rfl, Nat.mod_eq_of_lt hu, Nat.mod_eq_of_lt hl⟩

theorem bmZeroing_fields (h : Hw) (t : Nat) :
    (∀ f i, (h.bmZeroing t).on f i = h.on f i) ∧ (∀ f i, (h.bmZeroing t).get f i = h.get f i) ∧ (h.bmZeroing t).cache = [] ∧
      (h.bmZeroing t).bmInitDue = some t := ⟨fun _ _ => rfl, fun _ _ => rfl, rfl, rfl⟩

/-- An invalidation of the cache that has started. -/
def invaling (h : Hw) (t : Nat) : Hw := { h with cache := [], invalDue := some t, txns := h.txns.map (fun x => { x with alloc := false }) }

theorem startInval_eq (h : Hw) : h.startInval = (h.put F.MP_BM_CTRL_INVAL 1).invaling (h.after h.cacheSets) := by
  rw [invaling, put_txns]
  rfl

theorem writeBmCtrl_invalidates (w : Work) (v : Nat) (hon : w.hw.on F.MP_BM_CTRL_ENABLE = true) (hinval : bit 1 v = true) (hscrub : 8 ≤ bits 16 4 v)
    (hunits : bits 8 6 v = w.hw.get F.MP_BM_CTRL_SCRATCH_UNITS) (hnone : w.hw.invalDue = none) :
    writeBmCtrl v w = w.onHw (fun h => (h.bmRegs (bits 8 6 v) (bits 16 4 v) (flag (bit 0 v))).startInval) := by
  have hkeep : ¬(w.hw.on F.MP_BM_CTRL_ENABLE && bits 8 6 v != w.hw.get F.MP_BM_CTRL_SCRATCH_UNITS) = true := by
    rw [hunits, bne_self_eq_false, Bool.and_false]
    exact Bool.false_ne_true
  have hdue (n : Nat) : (true && (w.hw.bmRegs (bits 8 6 v) (bits 16 4 v) n).invalDue.isNone) = true := by
    rw [invalDue_bmRegs, hnone]
    rfl
  unfold writeBmCtrl
  refine (if_neg hkeep).trans ((if_neg (Nat.not_lt_of_le hscrub)).trans ?_)
  refine (congrArg (fun x : Work => x.onHw (fun h => applyIf (bit 1 v && h.invalDue.isNone) (fun h => h.startInval) h))
    (if_neg (by rw [hon]; exact Bool.false_ne_true))).trans ?_
  rw [hinval, onHw_onHw, onHw_onHw]
  exact onHw_congr _ _ _ (if_pos (hdue _))

theorem startInval_leaves (h : Hw) : h.startInval.on F.MP_BM_CTRL_INVAL = true ∧ h.startInval.cache = [] ∧ (∃ t, h.startInval.invalDue = some t) ∧
    ∀ t, t ∈ h.startInval.txns → t.alloc = false := by
  rw [startInval_eq]
  refine ⟨on_put_same h F.MP_BM_CTRL_INVAL 1 0 (by decide), rfl, ⟨_, rfl⟩, fun t ht => ?_⟩
  obtain ⟨x, -, hx⟩ := List.mem_map.mp ht
  rw [← hx]

/-! The error log and the commit table. -/

/-- The block with another error log. -/
def setErrLog (h : Hw) (x : List ErrEntry) : Hw := { h with errLog := x }

theorem popError_eq (h : Hw) : h.popError = (h.setErrLog (h.errLog.drop 1)).put F.MP_ERR_STATUS_COUNT (h.errLog.drop 1).length := rfl

theorem writeCt_size (h : Hw) (n v : Nat) :
    h.writeCt n 4 v = if h.ctEntryOk { (Tab.find? h.ctHeld n).getD (h.ctEntry n) with size := v } then
      { h with ctHeld := Tab.insert h.ctHeld n { (Tab.find? h.ctHeld n).getD (h.ctEntry n) with size := v } }
      else h.refuse Rc.CFG_CT_ENTRY F.MP_BM_STATUS_REASON 0 0x60 := rfl

end Hw

/-- The SIZE word of a commit-table entry reaches the entry's write. -/
theorem State.commitTable_size (s : State) (a : Agent) (n off : Nat) (v : Word) (p : Place) (hn : n < 4096) (hoff : off = (Reg.desc .MP_CT_BUF0).base + 0x20 * n + 16)
    (hserved : s.hw.served off = true) (ha : a ≠ .debug) (hmb : Hw.isMailbox off = false) (hplace : placeOf off = some p) (hreg : p.reg = .MP_CT_SIZE)
    (hidx : p.idx = n) (hhi : p.hi = false) (hbuilt : s.hw.built p = true) (hmay : Hw.mayWrite a p.reg = true) :
    exec (.commitTableEntryWrite a n 4 v) s = s.leads (s.hw.writeCt n 4 v.toNat) := by
  have hbound : (n < 4096 && 4 < 8) = true := by simpa using hn
  have hat : (Reg.desc .MP_CT_BUF0).base + 0x20 * n + 4 * 4 = off := hoff.symm
  refine s.answers_of _ (fun w => w.onHw (fun h => h.writeCt n 4 v.toNat)) _ ((if_pos hbound).trans ?_) rfl
  have hal : off % 4 = 0 := by
    have hbase : (Reg.desc .MP_CT_BUF0).base = 0x2210000 := rfl
    omega
  rw [hat, Hw.ctlWrite_of_takes s.work a off v.toNat 0 p hal hserved (fun hd => absurd hd ha) hmb hplace hbuilt hmay, Nat.mod_eq_of_lt v.isLt]
  obtain ⟨r, i, o, hi⟩ := p
  subst hreg hidx hhi
  have hword : (Reg.desc .MP_CT_SIZE).base % 0x20 / 4 + flag false = 4 := by decide
  have hwrite : Hw.regWrite a { reg := Reg.MP_CT_SIZE, idx := i, outer := o, hi := false } v.toNat 0 s.work =
      s.work.onHw (fun h => h.writeCt i ((Reg.desc .MP_CT_SIZE).base % 0x20 / 4 + flag false) v.toNat) := rfl
  rw [hwrite, hword]

/-- Settles O42: each write takes the branch that its hypotheses select, and zeroing is the one write to a memory that it makes. -/
theorem memoryRegistersTakeEffect : Obligations.MemoryRegistersTakeEffect := by
  unfold Obligations.MemoryRegistersTakeEffect
  refine ⟨fun s a c v htakes hoff => ?mm, fun s a v htakes hoff hscrub hunits hfit hports hinval => ?bm,
    fun s a v htakes hon hen hscrub hunits hnone => ?inval, fun s a htakes => ?pop, ?ct⟩
  case mm =>
    have hexec : exec (.matrixMemoryEnable a c v) s = _ := s.answers_writeNamed_clear a .CR_MM_CTRL c (withFld F.CR_MM_CTRL_ENABLE 1 v.toNat) _ _ _ _ htakes
      (Hw.writeMmCtrl_enables s.work c _ hoff (bit_setWord F.CR_MM_CTRL_ENABLE v.toNat rfl (by decide)))
    obtain ⟨hen, hinit⟩ := s.hw.mmServed_registers c
    obtain ⟨-, hdue⟩ := (s.hw.mmServed c).mmZeroing_fields c (s.hw.ticks + 4 * 4096) F.CR_MM_CTRL_ENABLE c
    exact ⟨_, hexec, hen, hinit, hdue, s.hw.only_mmServed c _⟩
  case bm =>
    have hu : bits 8 6 (withFld F.MP_BM_CTRL_ENABLE 1 v.toNat % 2 ^ 32) = bits 8 6 v.toNat := bits_withFld_apart _ _ _ _ _ (by decide) (by decide)
    have hl : bits 16 4 (withFld F.MP_BM_CTRL_ENABLE 1 v.toNat % 2 ^ 32) = bits 16 4 v.toNat := bits_withFld_apart _ _ _ _ _ (by decide) (by decide)
    have hi : bit 1 (withFld F.MP_BM_CTRL_ENABLE 1 v.toNat % 2 ^ 32) = bit 1 v.toNat := bit_withFld_apart _ _ _ _ (by decide) (by decide)
    have hwrite := Hw.writeBmCtrl_enables s.work _ hoff (bit_setWord F.MP_BM_CTRL_ENABLE v.toNat rfl (by decide)) (hi.trans hinval) (hl ▸ hscrub)
      (hu ▸ hunits) (hu ▸ hfit) hports
    rw [hu, hl] at hwrite
    have hexec : exec (.blockMemoryEnable a v) s = _ :=
      s.answers_writeNamed_clear a .MP_BM_CTRL 0 (withFld F.MP_BM_CTRL_ENABLE 1 v.toNat) _ _ _ _ htakes hwrite
    obtain ⟨hen, hinit, hru, hrl⟩ := s.hw.bmServed_registers (bits 8 6 v.toNat) (bits 16 4 v.toNat) (bits_lt _ _ _) (bits_lt _ _ _)
    obtain ⟨hon, hget, hcache, hdue⟩ := (s.hw.bmServed (bits 8 6 v.toNat) (bits 16 4 v.toNat)).bmZeroing_fields (s.hw.ticks + 4 * (s.hw.build.blockmemMib * 64))
    exact ⟨_, hexec, (hon _ _).trans hen, (hon _ _).trans hinit, (hget _ _).trans hru, (hget _ _).trans hrl, hcache, hdue⟩
  case inval =>
    have hu : bits 8 6 (withFld F.MP_BM_CTRL_INVAL 1 v.toNat % 2 ^ 32) = bits 8 6 v.toNat := bits_withFld_apart _ _ _ _ _ (by decide) (by decide)
    have hl : bits 16 4 (withFld F.MP_BM_CTRL_INVAL 1 v.toNat % 2 ^ 32) = bits 16 4 v.toNat := bits_withFld_apart _ _ _ _ _ (by decide) (by decide)
    have hwrite := Hw.writeBmCtrl_invalidates s.work _ hon (bit_setWord F.MP_BM_CTRL_INVAL v.toNat rfl (by decide)) (hl ▸ hscrub) (hu.trans hunits) hnone
    have hexec : exec (.cacheInvalidate a v) s = _ :=
      State.answers_writeNamed s a .MP_BM_CTRL 0 (withFld F.MP_BM_CTRL_INVAL 1 v.toNat) _ htakes hwrite
    exact ⟨_, hexec, Hw.startInval_leaves _⟩
  case pop =>
    have hexec : exec (.errorLogPop a) s = _ := State.answers_writeNamed s a .MP_ERR_POP 0 0 (·.popError) htakes rfl
    rw [Hw.popError_eq] at hexec
    refine ⟨_, hexec, Hw.put_errLog _ _ _ _, ?_, Hw.only_put s.hw F.MP_ERR_STATUS_COUNT _ 0⟩
    rw [Hw.get_put_same _ _ _ _ (by decide), List.length_drop]
  case ct =>
    intro s a n off v p hn hoff hserved ha hmb hplace hreg hidx hhi hbuilt hmay e
    have hexec := s.commitTable_size a n off v p hn hoff hserved ha hmb hplace hreg hidx hhi hbuilt hmay
    rw [Hw.writeCt_size] at hexec
    refine ⟨fun hok => ?_, fun hbad => ?_⟩
    · exact hexec.trans (congrArg s.leads (if_pos hok))
    · exact hexec.trans (congrArg s.leads (if_neg (Bool.eq_false_iff.mp hbad)))

end Sys2Proof.Machine
end

section
/-! The tambours' registers: a field of a tambour lies in its core's register or in the gather tambour's. -/

namespace Sys2Proof.Machine
namespace Hw

theorem tField_lo (t : Nat) (f : Fld) : (tField t f).1.lo = f.lo := by
  unfold tField
  split <;> rfl

theorem tField_w (t : Nat) (f : Fld) : (tField t f).1.w = f.w := by
  unfold tField
  split <;> rfl

theorem tGet_tPut_same (h : Hw) (t : Nat) (f : Fld) (v : Nat) (hf : f.lo + f.w ≤ 8 * f.reg.desc.size ∧ f.lo + f.w ≤ 8 * (gtReg f.reg).desc.size) :
    (h.tPut t f v).tGet t f = v % 2 ^ f.w := by
  unfold tGet tPut tField
  split
  · exact get_put_same h _ v _ hf.2
  · exact get_put_same h _ v _ hf.1

theorem tGet_tPut_apart (h : Hw) (t : Nat) (f g : Fld) (v : Nat) (hr : g.reg = f.reg)
    (hf : g.lo + g.w ≤ 8 * f.reg.desc.size ∧ g.lo + g.w ≤ 8 * (gtReg f.reg).desc.size) (hd : g.lo + g.w ≤ f.lo ∨ f.lo + f.w ≤ g.lo) :
    (h.tPut t f v).tGet t g = h.tGet t g := by
  unfold tGet tPut tField
  split
  · exact get_put_apart h _ _ v _ (congrArg gtReg hr) hf.2 hd
  · exact get_put_apart h _ _ v _ hr hf.1 hd

theorem tGet_tPut_reg (h : Hw) (t u : Nat) (f g : Fld) (v : Nat)
    (hr : g.reg ≠ f.reg ∧ gtReg g.reg ≠ gtReg f.reg ∧ g.reg ≠ gtReg f.reg ∧ gtReg g.reg ≠ f.reg) : (h.tPut t f v).tGet u g = h.tGet u g := by
  obtain ⟨hcc, hgg, hcg, hgc⟩ := hr
  unfold tGet tPut tField
  split <;> split
  · exact get_put_reg h _ _ v _ _ hgg
  · exact get_put_reg h _ _ v _ _ hcg
  · exact get_put_reg h _ _ v _ _ hgc
  · exact get_put_reg h _ _ v _ _ hcc

theorem rd_tPut (h : Hw) (t : Nat) (f : Fld) (v : Nat) (r : Reg) (i : Nat) (hr : r ≠ f.reg ∧ r ≠ gtReg f.reg) : (h.tPut t f v).rd r i = h.rd r i := by
  unfold tPut tField
  split
  · exact rd_put_reg h _ v _ _ _ hr.2
  · exact rd_put_reg h _ v _ _ _ hr.1

theorem get_tPut (h : Hw) (t : Nat) (f g : Fld) (v i : Nat) (hr : g.reg ≠ f.reg ∧ g.reg ≠ gtReg f.reg) : (h.tPut t f v).get g i = h.get g i :=
  congrArg (bits g.lo g.w) (rd_tPut h t f v g.reg i hr)

theorem tGet_lt (h : Hw) (t : Nat) (f : Fld) : h.tGet t f < 2 ^ f.w := by
  have hlt := bits_lt (tField t f).1.lo (tField t f).1.w (h.rd (tField t f).1.reg (tField t f).2)
  rw [tField_w] at hlt
  unfold tGet get
  rw [tField_w]
  exact hlt

theorem tOn_eq_tGet (h : Hw) (t : Nat) (f : Fld) : h.tOn t f = (h.tGet t f == 1) := rfl

theorem tState_eq_tGet (h : Hw) (t : Nat) : h.tState t = h.tGet t F.TB_STATUS_STATE := rfl

theorem setTState_eq_tPut (h : Hw) (t s : Nat) : h.setTState t s = h.tPut t F.TB_STATUS_STATE s := rfl

@[simp] theorem ticks_tPut (h : Hw) (t : Nat) (f : Fld) (v : Nat) : (h.tPut t f v).ticks = h.ticks := put_ticks _ _ _ _

@[simp] theorem build_tPut (h : Hw) (t : Nat) (f : Fld) (v : Nat) : (h.tPut t f v).build = h.build := put_build _ _ _ _

@[simp] theorem tams_tPut (h : Hw) (t : Nat) (f : Fld) (v : Nat) : (h.tPut t f v).tams = h.tams := put_tams _ _ _ _

@[simp] theorem keys_tPut (h : Hw) (t : Nat) (f : Fld) (v : Nat) : (h.tPut t f v).keys = h.keys := put_keys _ _ _ _

@[simp] theorem faultLog_tPut (h : Hw) (t : Nat) (f : Fld) (v : Nat) : (h.tPut t f v).faultLog = h.faultLog := put_faultLog _ _ _ _

theorem tCells_tPut (h : Hw) (t u : Nat) (f : Fld) (v : Nat) : (h.tPut t f v).tCells u = h.tCells u := by rw [tCells, build_tPut, tCells]

theorem only_tPut {h h' : Hw} {ks : List (Reg × Nat)} (ho : h.Only h' ks) (t : Nat) (f : Fld) (v : Nat)
    (hk : ((tField t f).1.reg, (tField t f).2) ∈ ks) : h.Only (h'.tPut t f v) ks := ho.put _ v _ hk

/-! A tambour's own state. -/

theorem tam_onTam_same (h : Hw) (t : Nat) (f : Tambour → Tambour) : (h.onTam t f).tam t = f (h.tam t) := Tab.getD_modify_same _ _ _ _

theorem tGet_onTam (h : Hw) (t u : Nat) (f : Tambour → Tambour) (g : Fld) : (h.onTam t f).tGet u g = h.tGet u g := rfl

theorem rd_onTam (h : Hw) (t : Nat) (f : Tambour → Tambour) (r : Reg) (i : Nat) : (h.onTam t f).rd r i = h.rd r i := rfl

theorem ticks_onTam (h : Hw) (t : Nat) (f : Tambour → Tambour) : (h.onTam t f).ticks = h.ticks := rfl

theorem faultLog_onTam (h : Hw) (t : Nat) (f : Tambour → Tambour) : (h.onTam t f).faultLog = h.faultLog := rfl

theorem tam_tPut (h : Hw) (t u : Nat) (f : Fld) (v : Nat) : (h.tPut t f v).tam u = h.tam u := by rw [tam, tams_tPut, tam]

/-! A list of registers written one after another. -/

/-- The registers that a list of keys names, written in order. -/
def wrAll (h : Hw) (ns : List Nat) (k : Nat → Reg × Nat) (v : Nat → Nat) : Hw := ns.foldl (fun h n => h.wr (k n).1 (k n).2 (v n)) h

theorem rd_wrAll_mem (h : Hw) (ns : List Nat) (k : Nat → Reg × Nat) (v : Nat → Nat) (m : Nat) (hinj : ∀ n ∈ ns, k n = k m → n = m)
    (hm : m ∈ ns ∨ h.rd (k m).1 (k m).2 = v m % 2 ^ (8 * (k m).1.desc.size)) :
    (h.wrAll ns k v).rd (k m).1 (k m).2 = v m % 2 ^ (8 * (k m).1.desc.size) := by
  induction ns generalizing h with
  | nil => exact hm.resolve_left List.not_mem_nil
  | cons n ns ih =>
    refine ih _ (fun n' hn' => hinj n' (List.mem_cons_of_mem _ hn')) ?_
    by_cases hk : k n = k m
    · have hn := hinj n List.mem_cons_self hk
      exact .inr (by rw [hn, rd_wr_same])
    · refine (hm.imp_left (fun hmem => ?_)).imp_right (fun hrd => ?_)
      · exact (List.mem_cons.mp hmem).resolve_left (fun he => hk (by rw [he]))
      · rw [rd_wr_other _ _ _ _ _ _ (fun he => hk (by rw [← Prod.eta (k n), ← Prod.eta (k m), he])), hrd]

theorem rd_wrAll_other (h : Hw) (ns : List Nat) (k : Nat → Reg × Nat) (v : Nat → Nat) (r : Reg) (i : Nat) (hk : ∀ n ∈ ns, (r, i) ≠ k n) :
    (h.wrAll ns k v).rd r i = h.rd r i := by
  induction ns generalizing h with
  | nil => rfl
  | cons n ns ih =>
    refine (ih _ (fun m hm => hk m (List.mem_cons_of_mem _ hm))).trans ?_
    exact rd_wr_other _ _ _ _ _ _ (hk n List.mem_cons_self)

theorem wrAll_keeps {α : Type} (P : Hw → α) (hP : ∀ g r i v, P (wr g r i v) = P g) (h : Hw) (ns : List Nat) (k : Nat → Reg × Nat) (v : Nat → Nat) :
    P (h.wrAll ns k v) = P h := by
  induction ns generalizing h with
  | nil => rfl
  | cons n ns ih => exact (ih _).trans (hP _ _ _ _)

/-! A tambour's functions. -/

/-- The register of a tambour's function, with its index. -/
def fnAt (t n : Nat) : Reg × Nat := if t == gatherTambour then (.GT_FN, n) else (.TB_FN, sub t 16 n)

/-- A tambour's function entries written. -/
def setFns (h : Hw) (t : Nat) (v : Nat → Nat) : Hw := h.wrAll (List.range 16) (fnAt t) v

theorem setFns_eq (h : Hw) (t : Nat) (v : Nat → Nat) :
    (List.range 16).foldl (fun h n => if t == gatherTambour then h.wr .GT_FN n (v n) else h.wr .TB_FN (sub t 16 n) (v n)) h = h.setFns t v := by
  unfold setFns wrAll fnAt
  congr 1
  funext g n
  split <;> rfl

theorem fnAt_inj (t n m : Nat) (he : fnAt t n = fnAt t m) : n = m := by
  unfold fnAt sub at he
  split at he
  · exact (Prod.mk.inj he).2
  · exact Nat.add_left_cancel (Prod.mk.inj he).2

theorem fnAt_reg (t n : Nat) (r : Reg) (i : Nat) (hr : r ≠ .TB_FN ∧ r ≠ .GT_FN) : (r, i) ≠ fnAt t n := by
  unfold fnAt
  split
  · exact fun he => hr.2 (Prod.mk.inj he).1
  · exact fun he => hr.1 (Prod.mk.inj he).1

theorem fnAt_size (t n : Nat) : 8 * (fnAt t n).1.desc.size = 32 := by
  unfold fnAt
  split <;> rfl

theorem tFn_eq (h : Hw) (t : Nat) (f : Fld) (n : Nat) (hf : f.reg = .TB_FN) : h.tFn t f n = bits f.lo f.w (h.rd (fnAt t n).1 (fnAt t n).2) := by
  unfold tFn fnAt
  split
  · rfl
  · rw [get, hf]

theorem rd_setFns (h : Hw) (t : Nat) (v : Nat → Nat) (n : Nat) (hn : n < 16) : (h.setFns t v).rd (fnAt t n).1 (fnAt t n).2 = v n % 2 ^ 32 := by
  have hsame := rd_wrAll_mem h (List.range 16) (fnAt t) v n (fun m _ he => fnAt_inj t m n he) (.inl (List.mem_range.mpr hn))
  rw [fnAt_size] at hsame
  exact hsame

theorem rd_setFns_other (h : Hw) (t : Nat) (v : Nat → Nat) (r : Reg) (i : Nat) (hr : r ≠ .TB_FN ∧ r ≠ .GT_FN) : (h.setFns t v).rd r i = h.rd r i :=
  rd_wrAll_other h _ _ v r i (fun n _ => fnAt_reg t n r i hr)

theorem ticks_setFns (h : Hw) (t : Nat) (v : Nat → Nat) : (h.setFns t v).ticks = h.ticks := wrAll_keeps Hw.ticks wr_ticks h _ _ v

theorem faultLog_setFns (h : Hw) (t : Nat) (v : Nat → Nat) : (h.setFns t v).faultLog = h.faultLog := wrAll_keeps Hw.faultLog wr_faultLog h _ _ v

theorem tGet_of_rd (h g : Hw) (t : Nat) (f : Fld) (hrd : ∀ i, g.rd f.reg i = h.rd f.reg i) (hgt : ∀ i, g.rd (gtReg f.reg) i = h.rd (gtReg f.reg) i) :
    g.tGet t f = h.tGet t f := by
  unfold tGet tField get
  split
  · rw [hgt]
  · rw [hrd]

theorem tGet_setFns (h : Hw) (t u : Nat) (v : Nat → Nat) (f : Fld) (hf : (f.reg ≠ .TB_FN ∧ f.reg ≠ .GT_FN) ∧ gtReg f.reg ≠ .TB_FN ∧ gtReg f.reg ≠ .GT_FN) :
    (h.setFns t v).tGet u f = h.tGet u f :=
  tGet_of_rd h _ u f (fun i => rd_setFns_other h t v _ i hf.1) (fun i => rd_setFns_other h t v _ i hf.2)

/-- The word of a tambour's identity written. -/
def setTId (h : Hw) (t v : Nat) : Hw := h.wr (tField t F.TB_ID_HOOP).1.reg (tField t F.TB_ID_HOOP).2 v

theorem setTId_eq (h : Hw) (t v : Nat) : h.wr (if t == gatherTambour then .GT_ID else .TB_ID) (if t == gatherTambour then 0 else t) v = h.setTId t v := by
  unfold setTId tField
  split <;> rfl

theorem rd_setTId_other (h : Hw) (t v : Nat) (r : Reg) (i : Nat) (hr : r ≠ .TB_ID ∧ r ≠ .GT_ID) : (h.setTId t v).rd r i = h.rd r i := by
  unfold setTId tField
  split
  · exact rd_wr_reg _ _ _ _ _ _ hr.2
  · exact rd_wr_reg _ _ _ _ _ _ hr.1

theorem tGet_setTId (h : Hw) (t u v : Nat) (f : Fld) (hf : (f.reg ≠ .TB_ID ∧ f.reg ≠ .GT_ID) ∧ gtReg f.reg ≠ .TB_ID ∧ gtReg f.reg ≠ .GT_ID) :
    (h.setTId t v).tGet u f = h.tGet u f :=
  tGet_of_rd h _ u f (fun i => rd_setTId_other h t v _ i hf.1) (fun i => rd_setTId_other h t v _ i hf.2)

theorem hoop_setTId (h : Hw) (t v : Nat) : (h.setTId t v).tGet t F.TB_ID_HOOP = v % 4096 := by
  have hword (x : Nat) : bits 0 12 (x % 2 ^ 32) = x % 4096 := by unfold bits; omega
  unfold setTId tGet get
  rw [rd_wr_same, tField_lo, tField_w]
  unfold tField
  split
  · exact hword v
  · exact hword v

end Hw
end Sys2Proof.Machine
end

section
/-! Proofs about the tambours' control (R246 to R250, R257). -/

namespace Sys2Proof.Machine
namespace Hw

/-! Clearing. -/

/-- A tambour whose clearing has begun. -/
def clearing (h : Hw) (t due : Nat) : Hw := (((h.setFns t (fun _ => 0)).setTId t 0).setTState t tClearing).onTam t (fun _ => { clearDue := some due })

theorem startClearing_eq (h : Hw) (t : Nat) :
    h.startClearing t = h.clearing t (h.ticks + (if h.tState t = 1 then 176 else 0) + ceilDiv (h.tCells t * 28) 512 * 8) := by
  have hticks : ((h.setFns t (fun _ => 0)).setTId t 0).ticks = h.ticks := by rw [setTId, wr_ticks, ticks_setFns]
  have hwait : (if (h.tState t == tLoading) = true then 4 * 44 else 0) = if h.tState t = 1 then 176 else 0 := by
    simp only [tLoading, beq_iff_eq]
  unfold startClearing
  rw [setFns_eq h t (fun _ => 0)]
  simp only [setTId_eq, hticks, hwait]
  rfl

theorem fnAt_cases (t n : Nat) : (fnAt t n).1 = .TB_FN ∨ (fnAt t n).1 = .GT_FN := by
  unfold fnAt
  split
  · exact .inr rfl
  · exact .inl rfl

theorem clearing_registers (h : Hw) (t due : Nat) :
    (h.clearing t due).tState t = 7 ∧ (h.clearing t due).tGet t F.TB_ID_HOOP = 0 ∧ (∀ f, f < 16 → (h.clearing t due).tFn t F.TB_FN_DEFINED f = 0) ∧
      (h.clearing t due).tam t = { clearDue := some due } := by
  unfold clearing
  rw [tam_onTam_same, tState_eq_tGet, tGet_onTam, tGet_onTam, setTState_eq_tPut]
  refine ⟨tGet_tPut_same _ _ _ _ (by decide), ?_, fun f hf => ?_, rfl⟩
  · rw [tGet_tPut_reg _ _ _ _ _ _ (by decide), hoop_setTId]
  · have hreg : ∀ r, r = (fnAt t f).1 → (r ≠ F.TB_STATUS_STATE.reg ∧ r ≠ gtReg F.TB_STATUS_STATE.reg) ∧ r ≠ .TB_ID ∧ r ≠ .GT_ID := by
      intro r hr
      obtain rfl | rfl : r = .TB_FN ∨ r = .GT_FN := hr ▸ fnAt_cases t f
      · decide
      · decide
    obtain ⟨hstate, hid⟩ := hreg _ rfl
    rw [tFn_eq _ _ _ _ rfl, rd_onTam, rd_tPut _ _ _ _ _ _ hstate, rd_setTId_other _ _ _ _ _ hid, rd_setFns _ _ _ _ hf]
    rfl

theorem tGet_clearing (h : Hw) (t due : Nat) (f : Fld) (hstate : f.reg ≠ .TB_STATUS ∧ gtReg f.reg ≠ .GT_STATUS ∧ f.reg ≠ .GT_STATUS ∧ gtReg f.reg ≠ .TB_STATUS)
    (hid : (f.reg ≠ .TB_ID ∧ f.reg ≠ .GT_ID) ∧ gtReg f.reg ≠ .TB_ID ∧ gtReg f.reg ≠ .GT_ID)
    (hfn : (f.reg ≠ .TB_FN ∧ f.reg ≠ .GT_FN) ∧ gtReg f.reg ≠ .TB_FN ∧ gtReg f.reg ≠ .GT_FN) : (h.clearing t due).tGet t f = h.tGet t f := by
  unfold clearing
  rw [tGet_onTam, setTState_eq_tPut, tGet_tPut_reg _ _ _ _ _ _ hstate, tGet_setTId _ _ _ _ _ hid, tGet_setFns _ _ _ _ _ hfn]

theorem ticks_clearing (h : Hw) (t due : Nat) : (h.clearing t due).ticks = h.ticks := by
  unfold clearing
  rw [ticks_onTam, setTState_eq_tPut, ticks_tPut, setTId, wr_ticks, ticks_setFns]

theorem faultLog_clearing (h : Hw) (t due : Nat) : (h.clearing t due).faultLog = h.faultLog := by
  unfold clearing
  rw [faultLog_onTam, setTState_eq_tPut, faultLog_tPut, setTId, wr_faultLog, faultLog_setFns]

/-! A write of the control register. -/

/-- The registers of a tambour whose load begins. -/
def tLoads (h : Hw) (t : Nat) : Hw :=
  ((((h.tPut t F.TB_CTRL_ENABLE 1).tPut t F.TB_STATUS_STATE tLoading).tPut t F.TB_STATUS_UNCORR 0).tPut t F.TB_TOGGLES_COUNT 0).tPut t F.TB_CORR_COUNT 0

/-- A tambour that loads an image. -/
def imageLoading (h : Hw) (t : Nat) (b : List Byte) (signed : Bool) (due : Nat) : Hw :=
  h.onTam t (fun _ => { image := b, signed := signed, loadDue := some due })

/-- The image that a tambour's registers name. -/
def imageAt (h : Hw) (m : Mem) (t : Nat) : List Byte :=
  h.physBytes m 0 (h.tGet t F.TB_IMAGE_ADDR * 64) (Tim.size (h.physBytes m 0 (h.tGet t F.TB_IMAGE_ADDR * 64) 256))

/-- What a write of the control register without RELEASE and STOP does. -/
theorem writeTbCtrl_plain (h : Hw) (m : Mem) (t v : Nat) (hex : h.tExists t = true) (hrel : bit 1 v = false) (hstop : bit 2 v = false) :
    h.writeTbCtrl m t v =
      if !h.tOn t F.TB_CTRL_ENABLE && bit 0 v then
        if h.tCheck m t != 0 then h.tRefuse t (h.tCheck m t)
        else (h.tLoads t).imageLoading t (h.imageAt m t) ((h.tLoads t).tSigned (h.imageAt m t)) (h.after (ceilDiv (h.imageAt m t).length 16 + 49500))
      else if h.tOn t F.TB_CTRL_ENABLE && !bit 0 v then
        if h.tState t == tLoading || h.tState t == tLoaded then (h.tPut t F.TB_CTRL_ENABLE 0).startClearing t else h.tPut t F.TB_CTRL_ENABLE 0
      else h := by
  unfold writeTbCtrl
  refine (if_neg (by rw [hex]; exact Bool.false_ne_true)).trans ?_
  exact (if_neg (by rw [hstop]; exact Bool.false_ne_true)).trans (if_neg (by rw [hrel]; exact Bool.false_ne_true))

/-- What a write of the control register with ENABLE as it stands and RELEASE does. -/
theorem writeTbCtrl_release (h : Hw) (m : Mem) (t v : Nat) (hex : h.tExists t = true) (hsame : bit 0 v = h.tOn t F.TB_CTRL_ENABLE) (hrel : bit 1 v = true)
    (hstop : bit 2 v = false) :
    h.writeTbCtrl m t v = if (h.tState t == tLoaded || h.tState t == tHeld) && !(h.tState t == tHeld && h.tOn t F.TB_STATUS_UNCORR) then
      h.tPut t F.TB_CTRL_RELEASE 1 else h.tRefuse t Rc.CFG_CONFLICT := by
  have hup : (!h.tOn t F.TB_CTRL_ENABLE && bit 0 v) = false := by rw [hsame]; exact Bool.not_and_self _
  have hdown : (h.tOn t F.TB_CTRL_ENABLE && !bit 0 v) = false := by rw [hsame]; exact Bool.and_not_self _
  unfold writeTbCtrl
  simp only [hex, hup, hdown, hrel, hstop, Bool.not_true, Bool.false_eq_true, if_false, if_true]

/-- What a write of the control register with ENABLE as it stands and STOP does. -/
theorem writeTbCtrl_stop (h : Hw) (m : Mem) (t v : Nat) (hex : h.tExists t = true) (hsame : bit 0 v = h.tOn t F.TB_CTRL_ENABLE) (hrel : bit 1 v = false)
    (hstop : bit 2 v = true) :
    h.writeTbCtrl m t v = if h.tState t == tRunning || h.tState t == tHeld then h.tPut t F.TB_CTRL_STOP 1 else h.tRefuse t Rc.CFG_CONFLICT := by
  have hup : (!h.tOn t F.TB_CTRL_ENABLE && bit 0 v) = false := by rw [hsame]; exact Bool.not_and_self _
  have hdown : (h.tOn t F.TB_CTRL_ENABLE && !bit 0 v) = false := by rw [hsame]; exact Bool.and_not_self _
  unfold writeTbCtrl
  simp only [hex, hup, hdown, hrel, hstop, Bool.not_true, Bool.false_eq_true, if_false, if_true]

theorem tSigned_tPut (h : Hw) (t : Nat) (f : Fld) (v : Nat) (b : List Byte)
    (hf : (.SC_STATE ≠ f.reg ∧ .SC_STATE ≠ gtReg f.reg) ∧ .SC_OPKEY ≠ f.reg ∧ .SC_OPKEY ≠ gtReg f.reg) : (h.tPut t f v).tSigned b = h.tSigned b := by
  have hkey (k : Nat) : (h.tPut t f v).opKey k = h.opKey k := by
    unfold opKey
    simp only [rd_tPut _ _ _ _ _ _ hf.2]
  unfold tSigned
  rw [hkey, keys_tPut, get_tPut _ _ _ _ _ _ hf.1]

theorem tSigned_tLoads (h : Hw) (t : Nat) (b : List Byte) : (h.tLoads t).tSigned b = h.tSigned b := by
  unfold tLoads
  rw [tSigned_tPut _ _ _ _ _ (by decide), tSigned_tPut _ _ _ _ _ (by decide), tSigned_tPut _ _ _ _ _ (by decide), tSigned_tPut _ _ _ _ _ (by decide),
    tSigned_tPut _ _ _ _ _ (by decide)]

theorem tLoads_registers (h : Hw) (t : Nat) :
    (h.tLoads t).tGet t F.TB_CTRL_ENABLE = 1 ∧ (h.tLoads t).tGet t F.TB_STATUS_STATE = 1 ∧ (h.tLoads t).tGet t F.TB_STATUS_UNCORR = 0 ∧
      (h.tLoads t).tGet t F.TB_TOGGLES_COUNT = 0 ∧ (h.tLoads t).tGet t F.TB_CORR_COUNT = 0 := by
  unfold tLoads
  simp (disch := decide) only [tGet_tPut_reg, tGet_tPut_apart, tGet_tPut_same]
  decide

/-- The registers of the fields named of a tambour. -/
def tRegs (t : Nat) (fs : List Fld) : List (Reg × Nat) := fs.map (fun f => ((tField t f).1.reg, (tField t f).2))

theorem mem_tRegs (t : Nat) (f g : Fld) (fs : List Fld) (hg : g ∈ fs) (hr : f.reg = g.reg) : ((tField t f).1.reg, (tField t f).2) ∈ tRegs t fs := by
  refine List.mem_map.mpr ⟨g, hg, ?_⟩
  unfold tField
  split
  · simp only [hr]
  · simp only [hr]

theorem only_tPut_of {h h' : Hw} {t : Nat} {fs : List Fld} (ho : h.Only h' (tRegs t fs)) (f g : Fld) (v : Nat) (hg : g ∈ fs) (hr : f.reg = g.reg) :
    h.Only (h'.tPut t f v) (tRegs t fs) := only_tPut ho t f v (mem_tRegs t f g fs hg hr)

theorem only_tams {h h' : Hw} {ks : List (Reg × Nat)} (ho : h.Only h' ks) (t : Nat) (f : Tambour → Tambour) : h.Only { h'.onTam t f with tams := h.tams } ks := by
  obtain ⟨hrest, hrd⟩ := ho
  exact ⟨congrArg (fun x : Hw => { x with tams := h.tams }) hrest, hrd⟩

theorem only_elapse_tams {h h' : Hw} {n : Nat} {ks : List (Reg × Nat)} (ho : (h.elapse n).Only h' ks) (t : Nat) (f : Tambour → Tambour) :
    h.Only { h'.onTam t f with ticks := h.ticks, tams := h.tams } ks := by
  obtain ⟨hrest, hrd⟩ := ho
  exact ⟨congrArg (fun x : Hw => { x with ticks := h.ticks, tams := h.tams }) hrest, hrd⟩

theorem only_tLoads (h : Hw) (t : Nat) : h.Only (h.tLoads t) (tRegs t [F.TB_CTRL_ENABLE, F.TB_STATUS_STATE, F.TB_TOGGLES_COUNT, F.TB_CORR_COUNT]) := by
  unfold tLoads
  refine only_tPut_of (only_tPut_of (only_tPut_of (only_tPut_of (only_tPut_of (Only.refl h _) F.TB_CTRL_ENABLE F.TB_CTRL_ENABLE _ ?_ rfl)
    F.TB_STATUS_STATE F.TB_STATUS_STATE _ ?_ rfl) F.TB_STATUS_UNCORR F.TB_STATUS_STATE _ ?_ rfl) F.TB_TOGGLES_COUNT F.TB_TOGGLES_COUNT _ ?_ rfl)
    F.TB_CORR_COUNT F.TB_CORR_COUNT _ ?_ rfl
  all_goals simp

theorem imageLoading_of_tLoads (h : Hw) (t : Nat) (b : List Byte) (signed : Bool) (due : Nat) :
    ((h.tLoads t).imageLoading t b signed due).tOn t F.TB_CTRL_ENABLE = true ∧ ((h.tLoads t).imageLoading t b signed due).tState t = 1 ∧
      ((h.tLoads t).imageLoading t b signed due).tOn t F.TB_STATUS_UNCORR = false ∧ ((h.tLoads t).imageLoading t b signed due).tGet t F.TB_TOGGLES_COUNT = 0 ∧
      ((h.tLoads t).imageLoading t b signed due).tGet t F.TB_CORR_COUNT = 0 ∧
      ((h.tLoads t).imageLoading t b signed due).tam t = { image := b, signed := signed, loadDue := some due } ∧
      h.Only { (h.tLoads t).imageLoading t b signed due with tams := h.tams }
        (tRegs t [F.TB_CTRL_ENABLE, F.TB_STATUS_STATE, F.TB_TOGGLES_COUNT, F.TB_CORR_COUNT]) := by
  obtain ⟨hen, hst, huncorr, htog, hcorr⟩ := h.tLoads_registers t
  have honly := only_tams (h.only_tLoads t) t (fun _ => { image := b, signed := signed, loadDue := some due })
  unfold imageLoading
  rw [tState_eq_tGet, tOn_eq_tGet, tOn_eq_tGet, tGet_onTam, tGet_onTam, tGet_onTam, tGet_onTam, tGet_onTam, tam_onTam_same, hen, hst, huncorr, htog, hcorr]
  exact ⟨rfl, rfl, rfl, rfl, rfl, rfl, honly⟩

/-! The ends of the sequences. -/

/-- The word of a function's entry in an image. -/
def fnWord (b : List Byte) (f : Nat) : Nat := leAt (80 + 8 * f) 2 b % 1024 + leAt (82 + 8 * f) 1 b % 8 * 1024

/-- The word of an image's identity. -/
def idWord (b : List Byte) : Nat := Tim.hoop b + Tim.cls b * 4096 + (Nat.log2 (Tim.fdiv b) - 3) * 8192

/-- A tambour whose image is loaded. -/
def imageLoaded (h : Hw) (t : Nat) (b : List Byte) : Hw :=
  ((((h.setTState t tLoaded).onTam t (fun k => { image := k.image.take (k.image.length - 96) })).setTId t (idWord b)).setFns t (fnWord b))

theorem tLoadDone_signed (h : Hw) (t due : Nat) (hdue : (h.tam t).loadDue = some due) (hsig : (h.tam t).signed = true) :
    h.tLoadDone t = (h.elapse due).imageLoaded t (h.tam t).image := by
  unfold tLoadDone imageLoaded
  rw [hdue, ← setFns_eq, ← setTId_eq]
  exact if_neg (by rw [hsig]; exact Bool.false_ne_true)

theorem tLoadDone_unsigned (h : Hw) (t due : Nat) (hdue : (h.tam t).loadDue = some due) (hsig : (h.tam t).signed = false) :
    h.tLoadDone t = (((h.elapse due).tPut t F.TB_CTRL_ENABLE 0).startClearing t).tRefuse t Rc.CFG_TB_SIGNATURE := by
  unfold tLoadDone
  rw [hdue]
  exact if_pos (by rw [hsig]; rfl)

theorem fnWord_fields (b : List Byte) (f : Nat) :
    bits 0 10 (fnWord b f % 2 ^ 32) = leAt (80 + 8 * f) 2 b % 1024 ∧ bits 11 1 (fnWord b f % 2 ^ 32) = bits 1 1 (leAt (82 + 8 * f) 1 b) := by
  unfold fnWord bits
  constructor <;> omega

theorem imageLoaded_registers (h : Hw) (t : Nat) (b : List Byte) :
    (h.imageLoaded t b).tState t = 2 ∧ (h.imageLoaded t b).tGet t F.TB_ID_HOOP = Tim.hoop b % 4096 ∧
      (∀ f, f < 16 → (h.imageLoaded t b).tFn t F.TB_FN_LATENCY f = leAt (80 + 8 * f) 2 b % 1024 ∧
        (h.imageLoaded t b).tFn t F.TB_FN_FIXED f = bits 1 1 (leAt (82 + 8 * f) 1 b)) ∧ (h.imageLoaded t b).ticks = h.ticks := by
  unfold imageLoaded
  refine ⟨?_, ?_, fun f hf => ?_, ?_⟩
  · rw [tState_eq_tGet, tGet_setFns _ _ _ _ _ (by decide), tGet_setTId _ _ _ _ _ (by decide), tGet_onTam, setTState_eq_tPut, tGet_tPut_same _ _ _ _ (by decide)]
    rfl
  · rw [tGet_setFns _ _ _ _ _ (by decide), hoop_setTId]
    unfold idWord
    omega
  · rw [tFn_eq _ _ _ _ rfl, tFn_eq _ _ _ _ rfl, rd_setFns _ _ _ _ hf]
    exact fnWord_fields b f
  · rw [ticks_setFns, setTId, wr_ticks, ticks_onTam, setTState_eq_tPut, ticks_tPut]

theorem tRefuse_logged (h : Hw) (t code : Nat) (hc : code / 0x1000 = 1) (hroom : h.faultLog.length < 1024) :
    ∃ e, h.tRefuse t code = (h.tPut t F.TB_STATUS_REASON code).setFaultLog (h.faultLog ++ [e]) ∧ e.code = code :=
  ⟨_, refuse_cfg h code _ _ _ hc hroom, rfl⟩

theorem tGet_setFaultLog (h : Hw) (x : List FaultEntry) (t : Nat) (f : Fld) : (h.setFaultLog x).tGet t f = h.tGet t f := rfl

theorem ticks_setFaultLog (h : Hw) (x : List FaultEntry) : (h.setFaultLog x).ticks = h.ticks := rfl

theorem tClearDone_eq (h : Hw) (t due : Nat) (hdue : (h.tam t).clearDue = some due) :
    h.tClearDone t = ((h.elapse due).setTState t tEmpty).onTam t (fun _ => {}) := by
  unfold tClearDone
  rw [hdue]

/-- A tambour with no sequence due. -/
def seqEnded (k : Tambour) : Tambour := { k with seqDue := none }

theorem tSequenceEnd_eq (h : Hw) (t due : Nat) (hdue : (h.tam t).seqDue = some due) :
    h.tSequenceEnd t = if h.tState t == tReleasing then ((h.elapse due).onTam t seqEnded).setTState t tRunning
      else if h.tState t == tStopping then (if h.tOn t F.TB_CTRL_ENABLE then ((h.elapse due).onTam t seqEnded).setTState t tLoaded
        else ((h.elapse due).onTam t seqEnded).startClearing t)
      else (h.elapse due).onTam t seqEnded := by
  unfold tSequenceEnd
  rw [hdue]
  rfl

theorem tSequenceEnd_leaves (h : Hw) (t due : Nat) (hdue : (h.tam t).seqDue = some due) :
    (h.tSequenceEnd t).ticks = max h.ticks due ∧ ((h.tSequenceEnd t).tam t).seqDue = none ∧ (h.tState t = 3 → (h.tSequenceEnd t).tState t = 4) ∧
      (h.tState t = 6 → h.tOn t F.TB_CTRL_ENABLE = true → (h.tSequenceEnd t).tState t = 2) ∧
      (h.tState t = 6 → h.tOn t F.TB_CTRL_ENABLE = false → (h.tSequenceEnd t).tState t = 7) := by
  have hnone : (((h.elapse due).onTam t seqEnded).tam t).seqDue = none := by rw [tam_onTam_same, seqEnded]
  have hmoved (x : Nat) : (((h.elapse due).onTam t seqEnded).setTState t x).ticks = max h.ticks due ∧
      ((((h.elapse due).onTam t seqEnded).setTState t x).tam t).seqDue = none ∧ (((h.elapse due).onTam t seqEnded).setTState t x).tState t = x % 2 ^ 3 := by
    rw [setTState_eq_tPut, tam_tPut, ticks_tPut]
    exact ⟨rfl, hnone, tGet_tPut_same _ _ _ _ (by decide)⟩
  rw [tSequenceEnd_eq h t due hdue]
  split
  · next hrel =>
    obtain ⟨ht, hs, hx⟩ := hmoved tRunning
    have hst : h.tState t = 3 := beq_iff_eq.mp hrel
    exact ⟨ht, hs, fun _ => hx, fun h6 => absurd h6 (by omega), fun h6 => absurd h6 (by omega)⟩
  · next hrel =>
    have h3 : h.tState t ≠ 3 := fun he => hrel (beq_iff_eq.mpr he)
    split
    · next hstop =>
      have hst : h.tState t = 6 := beq_iff_eq.mp hstop
      split
      · next hen =>
        obtain ⟨ht, hs, hx⟩ := hmoved tLoaded
        exact ⟨ht, hs, fun he => absurd he h3, fun _ _ => hx, fun _ hoff => absurd hen (by rw [hoff]; exact Bool.false_ne_true)⟩
      · next hen =>
        rw [startClearing_eq]
        obtain ⟨hx, -, -, htam⟩ := ((h.elapse due).onTam t seqEnded).clearing_registers t
          (((h.elapse due).onTam t seqEnded).ticks + (if ((h.elapse due).onTam t seqEnded).tState t = 1 then 176 else 0) +
            ceilDiv (((h.elapse due).onTam t seqEnded).tCells t * 28) 512 * 8)
        exact ⟨ticks_clearing _ _ _, by rw [htam], fun he => absurd he h3, fun _ hon => absurd hon hen, fun _ _ => hx⟩
    · next hstop =>
      have h6 : h.tState t ≠ 6 := fun he => hstop (beq_iff_eq.mpr he)
      exact ⟨rfl, hnone, fun he => absurd he h3, fun he => absurd he h6, fun he => absurd he h6⟩

end Hw

/-- A write of a tambour's control register reaches the tambour. -/
theorem State.answers_tbCtrl (s : State) (a : Agent) (t v : Nat) (htakes : tamTakes s a t) :
    .next (s.after (Hw.writeNamed a (Hw.tField t F.TB_CTRL_ENABLE).1.reg (Hw.tField t F.TB_CTRL_ENABLE).2 v s.work)) =
      s.leads (s.hw.writeTbCtrl s.mem t (v % 2 ^ 32)) := by
  obtain ⟨htake, -⟩ := htakes
  rw [Hw.writeNamed_of_takes _ _ _ _ _ htake]
  by_cases ht : (t == gatherTambour) = true
  · have heq : t = 17 := by simpa [gatherTambour] using ht
    rw [heq]
    rfl
  · have hfield : Hw.tField t F.TB_CTRL_ENABLE = (F.TB_CTRL_ENABLE, t) := if_neg ht
    rw [hfield]
    rfl

theorem State.answers_atTambour (s : State) (t : Nat) (f : Hw → Hw) (haclk : s.hw.clocks.aclk = true) (hex : s.hw.tExists t = true) :
    s.answers (atTambour t (fun w => w.onHw f)) = s.leads (f s.hw) := s.answers_of _ (fun w => w.onHw f) _ (atTambour_of t _ s.work haclk hex) rfl

/-- ENABLE as it stands, in the word of a RELEASE or a STOP. -/
theorem bits_commandWord (h : Hw) (t n : Nat) (hn : n = 2 ∨ n = 4) :
    bit 0 ((n + h.tGet t F.TB_CTRL_ENABLE) % 2 ^ 32) = h.tOn t F.TB_CTRL_ENABLE ∧
      bit 1 ((n + h.tGet t F.TB_CTRL_ENABLE) % 2 ^ 32) = bit 1 n ∧ bit 2 ((n + h.tGet t F.TB_CTRL_ENABLE) % 2 ^ 32) = bit 2 n := by
  have hen : h.tGet t F.TB_CTRL_ENABLE < 2 := Hw.tGet_lt h t F.TB_CTRL_ENABLE
  rw [Hw.tOn_eq_tGet]
  generalize h.tGet t F.TB_CTRL_ENABLE = e at hen
  rcases hn with rfl | rfl
  · rcases (show e = 0 ∨ e = 1 by omega) with rfl | rfl <;> decide
  · rcases (show e = 0 ∨ e = 1 by omega) with rfl | rfl <;> decide

/-- A write that enables a tambour out of service. -/
theorem State.tambourEnable_write (s : State) (a : Agent) (t : Nat) (v : Word) (htakes : tamTakes s a t) (hoff : s.hw.tOn t F.TB_CTRL_ENABLE = false)
    (hrel : bit 1 v.toNat = false) (hstop : bit 2 v.toNat = false) :
    exec (.tambourEnable a t v) s = s.leads (if s.hw.tCheck s.mem t != 0 then s.hw.tRefuse t (s.hw.tCheck s.mem t)
      else (s.hw.tLoads t).imageLoading t (s.hw.imageAt s.mem t) (s.hw.tSigned (s.hw.imageAt s.mem t))
        (s.hw.after (ceilDiv (s.hw.imageAt s.mem t).length 16 + 49500))) := by
  have hr : bit 1 (withFld F.TB_CTRL_ENABLE 1 v.toNat % 2 ^ 32) = false := (bit_withFld_apart _ _ _ _ (by decide) (by decide)).trans hrel
  have hs : bit 2 (withFld F.TB_CTRL_ENABLE 1 v.toNat % 2 ^ 32) = false := (bit_withFld_apart _ _ _ _ (by decide) (by decide)).trans hstop
  have hb : bit 0 (withFld F.TB_CTRL_ENABLE 1 v.toNat % 2 ^ 32) = true := bit_setWord F.TB_CTRL_ENABLE v.toNat rfl (by decide)
  have hexec : exec (.tambourEnable a t v) s = _ := s.answers_tbCtrl a t (withFld F.TB_CTRL_ENABLE 1 v.toNat) htakes
  rw [Hw.writeTbCtrl_plain _ _ _ _ htakes.2 hr hs, if_pos (by rw [hoff, hb]; rfl), Hw.tSigned_tLoads] at hexec
  exact hexec

/-- Settles O44: the control writes by the branch that ENABLE, RELEASE and STOP select, the sequences by what is due. -/
theorem tamboursLoadReleaseAndStop : Obligations.TamboursLoadReleaseAndStop := by
  unfold Obligations.TamboursLoadReleaseAndStop
  refine ⟨?enable, fun s a t v htakes hon hrel hstop => ?disable, fun s a t htakes => ?act, fun s t due haclk hex => ?ends⟩
  case enable =>
    intro s a t v htakes hoff hrel hstop b
    have hexec := s.tambourEnable_write a t v htakes hoff hrel hstop
    refine ⟨fun hok => ?_, fun hbad => ?_⟩
    · rw [if_neg (by simpa using hok)] at hexec
      exact ⟨_, hexec, s.hw.imageLoading_of_tLoads t b _ _⟩
    · rw [if_pos (by simpa using hbad)] at hexec
      exact hexec
  case disable =>
    have hr : bit 1 (withFld F.TB_CTRL_ENABLE 0 v.toNat % 2 ^ 32) = false := (bit_withFld_apart _ _ _ _ (by decide) (by decide)).trans hrel
    have hs : bit 2 (withFld F.TB_CTRL_ENABLE 0 v.toNat % 2 ^ 32) = false := (bit_withFld_apart _ _ _ _ (by decide) (by decide)).trans hstop
    have hup : ¬(!s.hw.tOn t F.TB_CTRL_ENABLE && bit 0 (withFld F.TB_CTRL_ENABLE 0 v.toNat % 2 ^ 32)) = true := by
      rw [hon]
      exact Bool.false_ne_true
    have hdown : (s.hw.tOn t F.TB_CTRL_ENABLE && !bit 0 (withFld F.TB_CTRL_ENABLE 0 v.toNat % 2 ^ 32)) = true := by
      have hb : bit 0 (withFld F.TB_CTRL_ENABLE 0 v.toNat % 2 ^ 32) = false := bit_clearWord F.TB_CTRL_ENABLE v.toNat rfl (by decide)
      rw [hon, hb]
      rfl
    have hexec : exec (.tambourDisable a t v) s = _ := s.answers_tbCtrl a t (withFld F.TB_CTRL_ENABLE 0 v.toNat) htakes
    rw [Hw.writeTbCtrl_plain _ _ _ _ htakes.2 hr hs, if_neg hup, if_pos hdown] at hexec
    refine ⟨fun h1 h2 => ?_, fun hload => ?_⟩
    · rw [if_neg (by simpa [Hw.tLoading, Hw.tLoaded] using And.intro h1 h2)] at hexec
      exact hexec
    · rw [if_pos (by simpa [Hw.tLoading, Hw.tLoaded] using hload), Hw.startClearing_eq, Hw.ticks_tPut, Hw.tCells_tPut,
        Hw.tState_eq_tGet, Hw.tGet_tPut_reg _ _ _ _ _ _ (by decide), ← Hw.tState_eq_tGet] at hexec
      obtain ⟨hst, hid, hfn, htam⟩ := (s.hw.tPut t F.TB_CTRL_ENABLE 0).clearing_registers t
        (s.hw.ticks + (if s.hw.tState t = 1 then 176 else 0) + ceilDiv (s.hw.tCells t * 28) 512 * 8)
      refine ⟨_, hexec, ?_, hst, htam, hfn, hid⟩
      rw [Hw.tOn_eq_tGet, Hw.tGet_clearing _ _ _ _ (by decide) (by decide) (by decide), Hw.tGet_tPut_same _ _ _ _ (by decide)]
      rfl
  case act =>
    obtain ⟨hr0, hr1, hr2⟩ := bits_commandWord s.hw t 2 (.inl rfl)
    obtain ⟨hs0, hs1, hs2⟩ := bits_commandWord s.hw t 4 (.inr rfl)
    have hrelease : exec (.tambourRelease a t) s = _ := s.answers_tbCtrl a t (2 + s.hw.tGet t F.TB_CTRL_ENABLE) htakes
    have hstop : exec (.tambourStop a t) s = _ := s.answers_tbCtrl a t (4 + s.hw.tGet t F.TB_CTRL_ENABLE) htakes
    rw [Hw.writeTbCtrl_release _ _ _ _ htakes.2 hr0 hr1 hr2] at hrelease
    rw [Hw.writeTbCtrl_stop _ _ _ _ htakes.2 hs0 hs1 hs2] at hstop
    refine ⟨fun hst => ?_, fun h2 h5 => ?_, fun hst => ?_, fun h4 h5 => ?_⟩
    · refine hrelease.trans (congrArg s.leads (if_pos ?_))
      rcases hst with h2 | ⟨h5, hun⟩
      · simp [h2, Hw.tLoaded, Hw.tHeld]
      · simp [h5, hun, Hw.tLoaded, Hw.tHeld]
    · refine hrelease.trans (congrArg s.leads (if_neg ?_))
      by_cases h : s.hw.tState t = 5
      · simp [h, h5 h, Hw.tLoaded, Hw.tHeld]
      · simp [h, h2, Hw.tLoaded, Hw.tHeld]
    · refine hstop.trans (congrArg s.leads (if_pos ?_))
      simpa [Hw.tRunning, Hw.tHeld] using hst
    · refine hstop.trans (congrArg s.leads (if_neg ?_))
      simpa [Hw.tRunning, Hw.tHeld] using And.intro h4 h5
  case ends =>
    refine ⟨fun hdue hsig => ?_, fun hdue hsig hroom => ?_, fun hdue => ?_, fun hdue => ?_⟩
    · have hexec : exec (.tambourLoadDone t) s = _ := s.answers_atTambour t (fun h => h.tLoadDone t) haclk hex
      rw [Hw.tLoadDone_signed _ _ _ hdue hsig] at hexec
      obtain ⟨hst, hid, hfn, hticks⟩ := (s.hw.elapse due).imageLoaded_registers t (s.hw.tam t).image
      exact ⟨_, hexec, hticks, hst, hid, hfn⟩
    · have hexec : exec (.tambourLoadDone t) s = _ := s.answers_atTambour t (fun h => h.tLoadDone t) haclk hex
      rw [Hw.tLoadDone_unsigned _ _ _ hdue hsig, Hw.startClearing_eq] at hexec
      obtain ⟨due', hdue'⟩ : ∃ due', due' = ((s.hw.elapse due).tPut t F.TB_CTRL_ENABLE 0).ticks +
        (if ((s.hw.elapse due).tPut t F.TB_CTRL_ENABLE 0).tState t = 1 then 176 else 0) +
        ceilDiv (((s.hw.elapse due).tPut t F.TB_CTRL_ENABLE 0).tCells t * 28) 512 * 8 := ⟨_, rfl⟩
      rw [← hdue'] at hexec
      obtain ⟨hst, -, -, -⟩ := ((s.hw.elapse due).tPut t F.TB_CTRL_ENABLE 0).clearing_registers t due'
      have hlog : (((s.hw.elapse due).tPut t F.TB_CTRL_ENABLE 0).clearing t due').faultLog = s.hw.faultLog := by
        rw [Hw.faultLog_clearing, Hw.faultLog_tPut]
        rfl
      obtain ⟨e, he, hcode⟩ := (((s.hw.elapse due).tPut t F.TB_CTRL_ENABLE 0).clearing t due').tRefuse_logged t Rc.CFG_TB_SIGNATURE rfl (by rwa [hlog])
      rw [he, hlog] at hexec
      refine ⟨_, hexec, ?_, ?_, ?_, ?_, e, rfl, hcode⟩
      · rw [Hw.ticks_setFaultLog, Hw.ticks_tPut, Hw.ticks_clearing, Hw.ticks_tPut]
        rfl
      · rw [Hw.tState_eq_tGet, Hw.tGet_setFaultLog, Hw.tGet_tPut_apart _ _ F.TB_STATUS_REASON F.TB_STATUS_STATE _ rfl (by decide) (by decide),
          ← Hw.tState_eq_tGet, hst]
      · rw [Hw.tOn_eq_tGet, Hw.tGet_setFaultLog, Hw.tGet_tPut_reg _ _ _ _ _ _ (by decide), Hw.tGet_clearing _ _ _ _ (by decide) (by decide) (by decide),
          Hw.tGet_tPut_same _ _ _ _ (by decide)]
        rfl
      · rw [Hw.tGet_setFaultLog, Hw.tGet_tPut_same _ _ _ _ (by decide)]
        rfl
    · have hexec : exec (.tambourClearDone t) s = _ := s.answers_atTambour t (fun h => h.tClearDone t) haclk hex
      rw [Hw.tClearDone_eq _ _ _ hdue, Hw.setTState_eq_tPut] at hexec
      refine ⟨_, hexec, ?_, ?_, Hw.tam_onTam_same _ _ _, ?_⟩
      · rw [Hw.ticks_onTam, Hw.ticks_tPut]
        rfl
      · rw [Hw.tState_eq_tGet, Hw.tGet_onTam, Hw.tGet_tPut_same _ _ _ _ (by decide)]
        rfl
      · exact Hw.only_elapse_tams (Hw.only_tPut (Hw.Only.refl (s.hw.elapse due) _) t F.TB_STATUS_STATE Hw.tEmpty (List.mem_singleton.mpr rfl)) t _
    · have hexec : exec (.tambourSequenceEnd t) s = _ := s.answers_atTambour t (fun h => h.tSequenceEnd t) haclk hex
      exact ⟨_, hexec, s.hw.tSequenceEnd_leaves t due hdue⟩

end Sys2Proof.Machine
end

section
/-! What falls due by itself writes the registers of the units that it concerns, and no other. -/

namespace Sys2Proof.Machine
namespace Hw

/-- A register reads as before at every index. -/
def KeepsReg (r : Reg) (h h' : Hw) : Prop := ∀ i, h'.rd r i = h.rd r i

/-- The block with other increments pending. -/
def setSyncIncs (h : Hw) (x : List (Nat × Nat × Nat)) : Hw := { h with syncIncs := x }

/-- The block with nothing pending in the sync unit. -/
def dropSync (h : Hw) : Hw := { h with syncIncs := [], couchPending := [] }

/-- The block without the allocations and the pool rows of a core's transfers. -/
def dropTransfers (h : Hw) (c : Nat) : Hw :=
  { h with
    txns := h.txns.map (fun (t : PortTxn) => if t.core == c then { t with alloc := false } else t),
    poolRows := h.poolRows.filter (fun r => r.core != c) }

/-- The block with no payload on its way to a slot, a partner or the gather tambour. -/
def dropPayloads (h : Hw) : Hw := { h with poolRows := [], combineSent := [], txSlots := [] }

section
variable {r : Reg}

theorem KeepsReg.refl (h : Hw) : KeepsReg r h h := fun _ => rfl

theorem KeepsReg.trans {h h1 h2 : Hw} (ha : KeepsReg r h h1) (hb : KeepsReg r h1 h2) : KeepsReg r h h2 := fun i => (hb i).trans (ha i)

theorem KeepsReg.put {h h' : Hw} (hk : KeepsReg r h h') (f : Fld) (v i : Nat) (hf : r ≠ f.reg) : KeepsReg r h (h'.put f v i) :=
  fun j => (rd_put_reg h' f v i j r hf).trans (hk j)

theorem KeepsReg.wr {h h' : Hw} (hk : KeepsReg r h h') (q : Reg) (i v : Nat) (hq : r ≠ q) : KeepsReg r h (h'.wr q i v) :=
  fun j => (rd_wr_reg h' q r v i j hq).trans (hk j)

theorem KeepsReg.clearReg {h h' : Hw} (hk : KeepsReg r h h') (q : Reg) (hq : r ≠ q) : KeepsReg r h (h'.clearReg q) :=
  fun j => (rd_clearReg_other h' q r j hq).trans (hk j)

theorem KeepsReg.foldl {α : Type} (f : Hw → α → Hw) (hf : ∀ h x, KeepsReg r h (f h x)) (xs : List α) (h : Hw) : KeepsReg r h (xs.foldl f h) := by
  induction xs generalizing h with
  | nil => exact KeepsReg.refl h
  | cons x xs ih => exact (hf h x).trans (ih (f h x))

theorem KeepsReg.folded {α : Type} {h h' : Hw} (hk : KeepsReg r h h') (f : Hw → α → Hw) (hf : ∀ h x, KeepsReg r h (f h x)) (xs : List α) :
    KeepsReg r h (xs.foldl f h') := hk.trans (KeepsReg.foldl f hf xs h')

theorem KeepsReg.ite {h h1 h2 : Hw} {p : Prop} [Decidable p] (ha : KeepsReg r h h1) (hb : KeepsReg r h h2) : KeepsReg r h (if p then h1 else h2) := by
  split
  · exact ha
  · exact hb

theorem KeepsReg.onCore {h h' : Hw} (hk : KeepsReg r h h') (c : Nat) (f : Core → Core) : KeepsReg r h (h'.onCore c f) := hk.trans fun _ => rfl

theorem KeepsReg.onSeq {h h' : Hw} (hk : KeepsReg r h h') (c : Nat) (f : Seq → Seq) : KeepsReg r h (h'.onSeq c f) := hk.onCore c _

theorem KeepsReg.onArr {h h' : Hw} (hk : KeepsReg r h h') (c : Nat) (f : ArrayUnit → ArrayUnit) : KeepsReg r h (h'.onArr c f) := hk.onCore c _

theorem KeepsReg.setFaultLog {h h' : Hw} (hk : KeepsReg r h h') (x : List FaultEntry) : KeepsReg r h (h'.setFaultLog x) := hk.trans fun _ => rfl

theorem KeepsReg.setRun {h h' : Hw} (hk : KeepsReg r h h') (x : Run) : KeepsReg r h (h'.setRun x) := hk.trans fun _ => rfl

theorem KeepsReg.setAb {h h' : Hw} (hk : KeepsReg r h h') (x : AbortState) : KeepsReg r h (h'.setAb x) := hk.trans fun _ => rfl

/-- Two blocks with the same listed registers, of one build. -/
theorem KeepsReg.ofCtl {h h' g : Hw} (hk : KeepsReg r h h') (hctl : g.ctl = h'.ctl) (hbuild : g.build = h'.build) (hinteg : g.integ = h'.integ) :
    KeepsReg r h g := fun i => by
  rw [← hk i, rd, rd, hctl, hbuild, hinteg]

theorem KeepsReg.dropSync {h h' : Hw} (hk : KeepsReg r h h') : KeepsReg r h h'.dropSync := hk.trans fun _ => rfl

theorem KeepsReg.dropTransfers {h h' : Hw} (hk : KeepsReg r h h') (c : Nat) : KeepsReg r h (h'.dropTransfers c) := hk.trans fun _ => rfl

theorem KeepsReg.dropPayloads {h h' : Hw} (hk : KeepsReg r h h') : KeepsReg r h h'.dropPayloads := hk.trans fun _ => rfl

theorem KeepsReg.applyIf {h h' : Hw} (hk : KeepsReg r h h') (b : Bool) (f : Hw → Hw) (hf : ∀ g, KeepsReg r g (f g)) : KeepsReg r h (applyIf b f h') := by
  unfold Sys2Proof.applyIf
  split
  · exact hk.trans (hf h')
  · exact hk

end

/-- The registers that what falls due by itself may write. -/
def settledRegs : List Reg :=
  [.CR_SEQ_BANK, .CR_SEQ_BANK0_POS, .CR_SEQ_BANK1_POS, .CR_SEQ_STATUS, .CR_SEQ_RING_HEAD, .CR_SEQ_S, .CR_SEQ_CT, .FT_STATUS, .FT_ATTEMPT, .FT_REPLAY,
   .FT_LOG_STATUS, .MP_ERR_STATUS, .CR_MM_STATUS, .MP_BM_STATUS, .MP_STATUS, .CR_ARR_STATUS, .CR_ARR_FAULT, .CR_ARR_STOPMAX, .SY_VALUE, .SY_STATUS,
   .SY_USTATUS, .SY_WMARK, .SY_RX, .SY_COUCH, .MP_CT_FLAGS, .BB_DISCARD, .EN_OVERHEAD, .EN_REPLAY]

section
variable {r : Reg} (hr : r ∉ settledRegs)
include hr

theorem ne_settledReg {q : Reg} (hq : q ∈ settledRegs) : r ≠ q := fun he => hr (he ▸ hq)

theorem keeps_logFault (h : Hw) (e : FaultEntry) : KeepsReg r h (h.logFault e) := by
  unfold logFault incSat
  split
  · exact (KeepsReg.refl h).setFaultLog _
  · exact ((KeepsReg.refl h).put _ _ _ (ne_settledReg hr (by decide))).setFaultLog _

theorem keeps_abortRegs (h : Hw) (abandoned : Bool) (code attempt beat : Nat) : KeepsReg r h (h.abortRegs abandoned code attempt beat) := by
  unfold abortRegs
  refine ((((((KeepsReg.refl h).put F.FT_STATUS_STATE _ _ ?_).put F.FT_STATUS_READY _ _ ?_).put F.FT_STATUS_REASON _ _ ?_).put
    F.FT_ATTEMPT_CODE _ _ ?_).put F.FT_ATTEMPT_ATTEMPT _ _ ?_).put F.FT_REPLAY_BEAT _ _ ?_
  all_goals exact ne_settledReg hr (by decide)

theorem keeps_beginAbort (h : Hw) (code : Nat) (src : Src) : KeepsReg r h (h.beginAbort code src) := by
  by_cases hgo : h.run.on = true ∧ h.ab.on = false
  · obtain ⟨hrun, hab⟩ := hgo
    obtain ⟨ab, beat, heq, -⟩ := h.beginAbort_eq code src hrun hab
    rw [heq]
    exact KeepsReg.trans (h1 := (h.setAb ab).setRun { h.run with faulted := true }) (fun _ => rfl) (keeps_abortRegs hr _ _ _ _ _)
  · have hstop : (h.ab.on || !h.run.on) = true := by
      cases hon : h.ab.on <;> cases hrun : h.run.on <;> simp_all
    have hsame : h.beginAbort code src = h := by
      unfold beginAbort
      exact if_pos hstop
    rw [hsame]
    exact KeepsReg.refl h

theorem keeps_raised (h : Hw) (code : Nat) (src : Src) (hreason : src.reason = none) : KeepsReg r h (h.raise code src) := by
  unfold raise
  simp only [hreason]
  refine KeepsReg.ite (KeepsReg.ite ?_ ?_) (keeps_logFault hr h _)
  · exact (keeps_logFault hr h _).setRun _
  · exact (keeps_logFault hr h _).trans (keeps_beginAbort hr _ _ _)

theorem keeps_raise (h : Hw) (code : Nat) (src : Src) (hreason : ∀ f i, src.reason = some (f, i) → r ≠ f.reg) : KeepsReg r h (h.raise code src) := by
  cases hs : src.reason with
  | none => exact keeps_raised hr h code src hs
  | some p =>
    obtain ⟨f, i⟩ := p
    have hput := (KeepsReg.refl h).put f code i (hreason f i hs)
    unfold raise
    simp only [hs]
    refine KeepsReg.ite (KeepsReg.ite ?_ ?_) (hput.trans (keeps_logFault hr _ _))
    · exact (hput.trans (keeps_logFault hr _ _)).setRun _
    · exact (hput.trans (keeps_logFault hr _ _)).trans (keeps_beginAbort hr _ _ _)

theorem keeps_refuse (h : Hw) (code : Nat) (f : Fld) (i unit : Nat) (hf : f.reg ∈ settledRegs) : KeepsReg r h (h.refuse code f i unit) := by
  unfold refuse
  refine keeps_raise hr h code _ (fun g j hg => ?_)
  obtain ⟨rfl, rfl⟩ : f = g ∧ i = j := by simpa using hg
  exact ne_settledReg hr hf

/-! Bank loads. -/

theorem keeps_setBank (h : Hw) (c k : Nat) (valid grant : Bool) : KeepsReg r h (h.setBank c k valid grant) := by
  have hbank : r ≠ .CR_SEQ_BANK := ne_settledReg hr (by decide)
  unfold setBank
  split
  · exact ((KeepsReg.refl h).put _ _ _ hbank).put _ _ _ hbank
  · exact ((KeepsReg.refl h).put _ _ _ hbank).put _ _ _ hbank

theorem keeps_startLoad (h : Hw) (c k pos : Nat) (grant : Bool) (done : Nat) : KeepsReg r h (h.startLoad c k pos grant done) := by
  have hset := keeps_setBank hr h c k false grant
  unfold startLoad
  exact KeepsReg.onSeq (KeepsReg.ite (hset.put _ _ _ (ne_settledReg hr (by decide))) (hset.put _ _ _ (ne_settledReg hr (by decide)))) _ _

theorem keeps_judgeBank (h : Hw) (c : Nat) : KeepsReg r h (h.judgeBank c) := by
  unfold judgeBank
  split
  · exact KeepsReg.refl h
  · rename_i t v _
    split
    · exact KeepsReg.refl h
    · have hone (g : Hw) (k : Nat) : KeepsReg r g (if g.inWindow c k then g.seqRefuse c Rc.CFG_SEQ_BANK_BUSY else
          g.startLoad c k (g.bankPos c k) true (t + 4 * 153)) := by
        split
        · exact keeps_refuse hr g _ _ _ _ (by decide)
        · exact keeps_startLoad hr g _ _ _ _ _
      exact KeepsReg.applyIf (KeepsReg.applyIf ((KeepsReg.refl h).onSeq c _) _ _ fun g => hone g 0) _ _ fun g => hone g 1

theorem keeps_judgeBanks (h : Hw) : KeepsReg r h h.judgeBanks := KeepsReg.foldl _ (keeps_judgeBank hr) _ h

/-! Reads of uncorrectable words. -/

theorem keeps_logError (h : Hw) (unit symbols agent whereAt : Nat) : KeepsReg r h (h.logError unit symbols agent whereAt) := by
  have herr : r ≠ .MP_ERR_STATUS := ne_settledReg hr (by decide)
  unfold logError incSat setFlag
  split
  · exact KeepsReg.trans (h1 := h.setErrLog _) (fun _ => rfl) ((KeepsReg.refl _).put _ _ _ herr)
  · exact ((KeepsReg.refl h).put _ _ _ herr).put _ _ _ herr

theorem keeps_uncorrectable (h : Hw) (unit agent whereAt : Nat) : KeepsReg r h (h.uncorrectable unit agent whereAt) := by
  have hlog := keeps_logError hr h unit 0xFF agent whereAt
  have hflag : KeepsReg r h (if unit ≤ 0x10 then (h.logError unit 0xFF agent whereAt).setFlag F.CR_MM_STATUS_UNCORR unit
      else if unit == 0x40 then (h.logError unit 0xFF agent whereAt).setFlag F.MP_BM_STATUS_UNCORR
      else if 0x50 ≤ unit && unit ≤ 0x5F then (h.logError unit 0xFF agent whereAt).setFlag F.MP_STATUS_UNCORR (unit - 0x50)
      else h.logError unit 0xFF agent whereAt) :=
    KeepsReg.ite (hlog.put _ _ _ (ne_settledReg hr (by decide))) (KeepsReg.ite (hlog.put _ _ _ (ne_settledReg hr (by decide)))
      (KeepsReg.ite (hlog.put _ _ _ (ne_settledReg hr (by decide))) hlog))
  unfold uncorrectable
  exact KeepsReg.ite hflag (hflag.ofCtl rfl rfl rfl)

theorem keeps_arrayFault (h : Hw) (c kind row col : Nat) : KeepsReg r h (h.arrayFault c kind row col) := by
  have hplaced : KeepsReg r h ((if h.on F.CR_ARR_STATUS_FAULT c then h
      else h.wr .CR_ARR_FAULT c (row % 1024 + col % 64 * 2 ^ 10 + kind % 8 * 2 ^ 16)).put F.CR_ARR_STATUS_FAULT 1 c) := by
    refine KeepsReg.put ?_ _ _ _ (ne_settledReg hr (by decide))
    split
    · exact KeepsReg.refl h
    · exact (KeepsReg.refl h).wr _ _ _ (ne_settledReg hr (by decide))
  unfold arrayFault
  refine hplaced.trans (keeps_raise hr _ _ _ (fun f i hf => ?_))
  obtain ⟨rfl, -⟩ : F.CR_ARR_STATUS_REASON = f ∧ c = i := by simpa [arrSrc, coreSrc] using hf
  exact ne_settledReg hr (by decide)

theorem keeps_settleReads (h : Hw) (c : Nat) : KeepsReg r h (h.settleReads c) := by
  have hone (g : Hw) (x : Nat × Nat × Nat × Nat × Nat) : KeepsReg r g
      { ({ g with ticks := x.1 }.uncorrectable c 0 x.2.2.2.2).arrayFault c x.2.1 x.2.2.1 x.2.2.2.1 with ticks := g.ticks } := by
    have hthen : KeepsReg r g { g with ticks := x.1 } := fun _ => rfl
    exact ((hthen.trans (keeps_uncorrectable hr _ _ _ _)).trans (keeps_arrayFault hr _ _ _ _ _)).ofCtl rfl rfl rfl
  unfold settleReads
  exact KeepsReg.ite (KeepsReg.refl h) (KeepsReg.folded ((KeepsReg.refl h).onArr c _) _ hone _)

theorem keeps_settleAllReads (h : Hw) : KeepsReg r h h.settleAllReads := KeepsReg.foldl _ (keeps_settleReads hr) _ h

/-! Increments. -/

theorem keeps_applyInc (h : Hw) (g v : Nat) : KeepsReg r h (h.applyInc g v) := by
  unfold applyInc setFlag
  dsimp only
  split
  · exact (KeepsReg.refl h).wr _ _ _ (ne_settledReg hr (by decide))
  · refine (((KeepsReg.refl h).wr .SY_VALUE _ _ (ne_settledReg hr (by decide))).put F.SY_STATUS_OVERFLOW _ _ (ne_settledReg hr (by decide))).trans
      (keeps_raise hr _ _ _ (fun f i hf => ?_))
    obtain ⟨rfl, -⟩ : F.SY_USTATUS_REASON = f ∧ 0 = i := by simpa [sySrc] using hf
    exact ne_settledReg hr (by decide)

theorem keeps_settleIncs (h : Hw) : KeepsReg r h h.settleIncs := by
  have hone (g : Hw) (x : Nat × Nat × Nat) : KeepsReg r g { { g with ticks := x.2.2 }.applyInc x.1 x.2.1 with ticks := g.ticks } := by
    have hthen : KeepsReg r g { g with ticks := x.2.2 } := fun _ => rfl
    exact (hthen.trans (keeps_applyInc hr _ _ _)).ofCtl rfl rfl rfl
  exact KeepsReg.folded (h' := h.setSyncIncs (h.syncIncs.filter (fun x => h.ticks < x.2.2))) (fun _ => rfl) _ hone (h.syncIncs.filter (fun x => x.2.2 ≤ h.ticks))

/-! The abort cycle's discards. -/

theorem keeps_abortSeq (h : Hw) (c : Nat) : KeepsReg r h (h.abortSeq c) := by
  have hs (k : Nat) (v : Nat → Nat) (g : Hw) (i : Nat) : KeepsReg r g (g.wr .CR_SEQ_S (sub c k i) (v i)) :=
    (KeepsReg.refl g).wr _ _ _ (ne_settledReg hr (by decide))
  have hct (k : Nat) (v : Nat → Nat) (g : Hw) (i : Nat) : KeepsReg r g (g.wr .CR_SEQ_CT (sub c k i) (v i)) :=
    (KeepsReg.refl g).wr _ _ _ (ne_settledReg hr (by decide))
  have hregs := KeepsReg.folded (KeepsReg.folded ((KeepsReg.refl h).onCore c (fun k => { k with
    queues := k.queues.filter (fun q => 0x10 ≤ q.1), descs := [], drn := [], vec := [], mac := none })) _ (hs 16 ((h.seq c).checkpoint.s.getD · 0)) (List.range 16))
    _ (hct 8 ((h.seq c).checkpoint.ct.getD · 0)) (List.range 8)
  unfold abortSeq
  refine KeepsReg.ite (KeepsReg.refl h) ?_
  exact (((hregs.onSeq c _).put _ _ _ (ne_settledReg hr (by decide))).trans (keeps_startLoad hr _ _ _ _ _ _)).trans (keeps_startLoad hr _ _ _ _ _ _)

theorem keeps_arrStopped (h : Hw) (c : Nat) : KeepsReg r h (h.arrStopped c) := by
  unfold arrStopped
  refine KeepsReg.ite (KeepsReg.refl h) ?_
  split
  · exact KeepsReg.refl h
  · exact ((KeepsReg.refl h).put _ _ _ (ne_settledReg hr (by decide))).onArr _ _

theorem keeps_stopArray (h : Hw) (c : Nat) (drop discard : Bool) : KeepsReg r h (h.stopArray c drop discard) := by
  unfold stopArray
  exact ((KeepsReg.refl h).onArr c _).trans (keeps_arrStopped hr _ c)

omit hr in
theorem keeps_quietBobbins (h : Hw) (c : Nat) (all : Bool) : KeepsReg r h (h.quietBobbins c all) := by
  unfold quietBobbins
  exact KeepsReg.ite (KeepsReg.refl h) ((KeepsReg.refl h).onCore c _)

theorem keeps_abortBobbins (h : Hw) (c : Nat) : KeepsReg r h (h.abortBobbins c) := by
  have hone (n : Nat → Nat) (g : Hw) (b : Nat) : KeepsReg r g (if n b == 0 then g else g.inc F.BB_DISCARD_COUNT (n b) (sub c 8 b)) :=
    KeepsReg.ite (KeepsReg.refl g) ((KeepsReg.refl g).put _ _ _ (ne_settledReg hr (by decide)))
  unfold abortBobbins
  exact (((KeepsReg.folded (KeepsReg.refl h) _ (hone _) _).onCore c _).dropTransfers c).trans (keeps_quietBobbins _ c false)

theorem keeps_abortCore (h : Hw) (c : Nat) : KeepsReg r h (h.abortCore c) := by
  have hseq := keeps_abortSeq hr h c
  unfold abortCore
  exact (KeepsReg.ite hseq (hseq.trans (keeps_stopArray hr _ c true true))).trans (keeps_abortBobbins hr _ c)

theorem keeps_showCouch (h : Hw) : KeepsReg r h h.showCouch := by
  have hcouch : r ≠ .SY_COUCH := ne_settledReg hr (by decide)
  unfold showCouch
  exact ((KeepsReg.refl h).put _ _ _ hcouch).put _ _ _ hcouch

theorem keeps_syncAbort (h : Hw) : KeepsReg r h h.syncAbort := by
  have hone (g : Hw) (i : Nat) : KeepsReg r g ((g.wr .SY_VALUE i (g.rd .SY_COMMITTED i)).wr .SY_WMARK i 0) :=
    ((KeepsReg.refl g).wr _ _ _ (ne_settledReg hr (by decide))).wr _ _ _ (ne_settledReg hr (by decide))
  unfold syncAbort
  exact ((KeepsReg.foldl _ hone _ h).dropSync.clearReg .SY_RX (ne_settledReg hr (by decide))).trans (keeps_showCouch hr _)

theorem keeps_dropPending (h : Hw) : KeepsReg r h h.dropPending :=
  KeepsReg.foldl _ (fun g _ => (KeepsReg.refl g).put _ _ _ (ne_settledReg hr (by decide))) _ h

theorem keeps_energyAbort (h : Hw) : KeepsReg r h h.energyAbort := by
  unfold energyAbort showAccounts onEnergy
  exact (((KeepsReg.refl h).ofCtl rfl rfl rfl).wr _ _ _ (ne_settledReg hr (by decide))).wr _ _ _ (ne_settledReg hr (by decide))

omit hr in
theorem keeps_spareDecision (h : Hw) : KeepsReg r h h.spareDecision := by
  unfold spareDecision
  split
  · exact fun _ => rfl
  · split
    · exact fun _ => rfl
    · split <;> exact fun _ => rfl

theorem keeps_settleAbort (h : Hw) : KeepsReg r h h.settleAbort := by
  have hcores := KeepsReg.folded ((KeepsReg.refl h).setAb { h.ab with fresh := false }) _ (keeps_abortCore hr) (h.cores.map (·.1))
  unfold settleAbort
  refine KeepsReg.ite (KeepsReg.refl h) ?_
  exact ((((hcores.trans (keeps_syncAbort hr _)).trans (keeps_dropPending hr _)).trans (keeps_energyAbort hr _)).trans (keeps_spareDecision _)).dropPayloads

/-- What falls due by itself leaves every other register as it was. -/
theorem keeps_settled (h : Hw) : KeepsReg r h h.settled :=
  (((keeps_judgeBanks hr h).trans (keeps_settleAllReads hr _)).trans (keeps_settleIncs hr _)).trans (keeps_settleAbort hr _)

end
end Hw
end Sys2Proof.Machine
end

section
/-! Refutations: the state of a request context changes at the next beat (R16, R17), so that no command shows it admitted at once. -/

namespace Sys2Proof.Machine

/-- The state of a context that a command shows. -/
def shownCtxState (i : Instr) (s : State) (x : Nat) : Nat :=
  match exec i s with
  | .next t => t.hw.ctxState x
  | _ => 0

/-- What falls due by itself changes no context's state: the state shown is that of the effect. -/
theorem shownCtxState_of_leads (i : Instr) (s : State) (x : Nat) (h' : Hw) (m : Mem) (hexec : exec i s = .next { s with hw := h'.settled, mem := m }) :
    shownCtxState i s x = h'.ctxState x := by
  have hkeeps := Hw.keeps_settled (r := .CTX_STATE) (by decide) h' x
  unfold shownCtxState
  rw [hexec]
  exact congrArg (bits F.CTX_STATE_STATE.lo F.CTX_STATE_STATE.w) hkeeps

/-- A running block whose queue 0 holds one entry, and whose Dispatcher has staged context 0 for it. -/
def entryStaged : State :=
  { hw := (((({ clocks := { aclk := true, pclk := true, mclk := true } } : Hw).put F.SQ_CTRL_ENABLE 1).put F.SQ_STATUS_STATE 1).put F.SQ_TAILSEEN_COUNT 1).put
      F.DP_TAKE_CTX_VALID 1 }

/-- Refutes O46: DP_TAKE of the entry staged for context 0 leaves the context's state at FREE until the next beat; its transition is only noted. -/
theorem not_submissionRegistersTakeEffect : ¬ Obligations.SubmissionRegistersTakeEffect := by
  unfold Obligations.SubmissionRegistersTakeEffect
  rintro ⟨-, -, -, htake, -⟩
  obtain ⟨hstaged, -⟩ := htake entryStaged .dispatcher 0 0 0 (by decide +kernel) (by decide +kernel) (by decide +kernel)
  obtain ⟨h', t, hexec, -, hstate, -⟩ := hstaged (by decide +kernel) (by decide +kernel) (by decide +kernel)
  have hshown := shownCtxState_of_leads _ _ 0 _ _ hexec
  have hfree : shownCtxState (.dispatchTake .dispatcher 0) entryStaged 0 = 0 := by decide +kernel
  omega

/-- A running block whose Dispatcher runs its firmware, with armature entry 0 valid for graph 0 and one launch allowed. -/
def armatureReady : State :=
  { hw := ((({ clocks := { aclk := true, pclk := true, mclk := true }, procs := { dispatcher := { locked := true, running := true } } } : Hw).put F.ARM_CFG_VALID 1).put
      F.ARM_CFG_MAXOUT 1) }

/-- Refutes O48: the launch of armature entry 0 leaves its context's state at FREE until the next beat; its transition is only noted. -/
theorem not_queueEntriesTakeEffect : ¬ Obligations.QueueEntriesTakeEffect := by
  unfold Obligations.QueueEntriesTakeEffect
  rintro ⟨-, -, harm, -⟩
  obtain ⟨hlaunch, -⟩ := harm armatureReady 0 0 0 (by decide +kernel) (by decide +kernel) (by decide +kernel) (by decide +kernel) (by decide +kernel)
  obtain ⟨h', hexec, hstate, -⟩ := hlaunch (by decide +kernel) (by decide +kernel) (by decide +kernel)
  have hshown := shownCtxState_of_leads _ _ 0 _ _ hexec
  have hfree : shownCtxState (.armatureLaunch 0 0) armatureReady 0 = 0 := by decide +kernel
  omega

end Sys2Proof.Machine
end

section
/-! Proofs about the queue scanner (R272, R273). -/

namespace Sys2Proof.Machine
namespace Hw

/-- A raise by a source outside the run, in a run or not: the code is placed and logged, and no run aborts. -/
theorem raise_unbound (h : Hw) (code : Nat) (src : Src) (f : Fld) (i : Nat) (hreason : src.reason = some (f, i)) (hin : src.inRun = false)
    (hcode : powerAbortCodes.contains code = false) :
    h.raise code src = (h.put f code i).logFault ((h.put f code i).unboundEntry code src) := by
  have hresp : (responseOf code false src.refusal src.halting == 2) = false := by
    rw [beq_eq_false_iff_ne]
    exact responseOf_unbound_ne_abort code src.refusal src.halting
  unfold raise
  simp only [hreason, hin, hcode, Bool.or_self, Bool.and_false, hresp, Bool.false_eq_true, if_false]
  rfl

theorem get_logFault (h : Hw) (e : FaultEntry) (f : Fld) (i : Nat) (hf : f.reg ≠ .FT_LOG_STATUS) : (h.logFault e).get f i = h.get f i := by
  unfold logFault incSat
  split
  · rw [get_setFaultLog]
  · rw [get_setFaultLog, get_put_reg _ _ _ _ _ _ hf]

theorem rd_logFault (h : Hw) (e : FaultEntry) (r : Reg) (i : Nat) (hr : r ≠ .FT_LOG_STATUS) : (h.logFault e).rd r i = h.rd r i := by
  unfold logFault incSat
  split
  · rw [rd_setFaultLog]
  · rw [rd_setFaultLog, rd_put_reg _ _ _ _ _ _ hr]

/-! The parts of the scanner's effects. -/

theorem submit_onSub (h : Hw) (f : Submission → Submission) : (h.onSub f).submit = f h.submit := rfl

theorem rd_onSub (h : Hw) (f : Submission → Submission) (r : Reg) (i : Nat) : (h.onSub f).rd r i = h.rd r i := rfl

theorem only_onSub {h h' : Hw} {ks : List (Reg × Nat)} (ho : h.Only { h' with submit := h.submit } ks) (f : Submission → Submission) :
    h.Only { h'.onSub f with submit := h.submit } ks := ho

theorem onSub_congr (h : Hw) (f g : Submission → Submission) (hfg : f h.submit = g h.submit) : h.onSub f = h.onSub g :=
  congrArg (fun x => ({ h with submit := x } : Hw)) hfg

/-- A scanner whose visit of a queue has begun. -/
def scanned (s : Submission) (q due : Nat) : Submission := { s with scanAt := q + 1, visitDue := due, sweepStart := s.sweepStart, reads := s.reads ++ [q] }

theorem scanVisit_eq (h : Hw) (q : Nat) (hpclk : h.clocks.pclk = true) (hen : h.on F.SQ_SCAN_CTRL_ENABLE = true) (hroom : h.submit.reads.length < 16)
    (hnext : ((List.range 4096).filter (fun q => h.on F.SQ_CTRL_ENABLE q && (h.sqState q == 1 || h.sqState q == 2))).find? (fun k => h.submit.scanAt ≤ k) = some q)
    (hnew : q ∉ h.submit.reads) :
    h.scanVisit = (h.elapse h.submit.visitDue).onSub (fun s => scanned s q (max h.ticks h.submit.visitDue + 16)) := by
  have hgo : ¬(!h.on F.SQ_SCAN_CTRL_ENABLE || decide (h.submit.reads.length ≥ 16)) = true := by
    simpa [hen] using hroom
  have hread : h.submit.reads.contains q = false := by simpa using hnew
  have hsame : (h.elapse h.submit.visitDue).submit = h.submit := rfl
  unfold scanVisit
  refine (if_neg hgo).trans ?_
  simp only [hsame, hnext, hpclk, Option.some_or, Option.isNone_some, Bool.false_eq_true, if_false, if_true]
  refine onSub_congr _ _ _ ?_
  simp only [hsame, hread, Bool.false_eq_true, if_false]
  rfl

/-- A tail word read: the queue is no longer among the reads in flight. -/
def tailReadOut (s : Submission) (q : Nat) : Submission := { s with reads := s.reads.filter (· != q) }

/-- A queue listed as ready. -/
def readied (s : Submission) (q : Nat) : Submission := { s with ready := if s.ready.contains q then s.ready else s.ready ++ [q] }

theorem mem_readied (s : Submission) (q : Nat) : q ∈ (readied s q).ready := by
  unfold readied
  split
  · rename_i hc
    simpa using hc
  · exact List.mem_append_right _ (List.mem_singleton.mpr rfl)

theorem not_mem_tailReadOut (s : Submission) (q : Nat) : q ∉ (tailReadOut s q).reads := by
  simp [tailReadOut]

theorem physBytes_onSub (h : Hw) (f : Submission → Submission) (m : Mem) (hoop pa n : Nat) : (h.onSub f).physBytes m hoop pa n = h.physBytes m hoop pa n := rfl

theorem queueHoop_onSub (h : Hw) (f : Submission → Submission) (q : Nat) : (h.onSub f).queueHoop q = h.queueHoop q := rfl

theorem on_onSub (h : Hw) (f : Submission → Submission) (g : Fld) (i : Nat) : (h.onSub f).on g i = h.on g i := rfl

/-- The tail word that a read of a queue's tail returns. -/
def tailWord (h : Hw) (m : Mem) (q : Nat) : Nat := leNat (h.physBytes m ((h.queueHoop q).getD 0) (h.rd .SQ_TAILADDR q) 4)

/-- A changed tail word stored, and its queue listed. -/
def tailStored (h : Hw) (q tail : Nat) : Hw :=
  (((h.onSub (fun s => tailReadOut s q)).wr .SQ_TAILSEEN q tail).onSub (fun s => readied s q)).showReady

theorem tailRead_same (h : Hw) (m : Mem) (q : Nat) (hin : q ∈ h.submit.reads) (hsame : h.tailWord m q = h.rd .SQ_TAILSEEN q) :
    h.tailRead m q = h.onSub (fun s => tailReadOut s q) := by
  have hread : ¬(!h.submit.reads.contains q) = true := by simpa using hin
  unfold tailRead
  refine (if_neg hread).trans (if_pos ?_)
  rw [physBytes_onSub, queueHoop_onSub, rd_onSub, rd_onSub, ← tailWord, hsame, beq_self_eq_true, Bool.or_true]

theorem tailRead_changed (h : Hw) (m : Mem) (q : Nat) (hin : q ∈ h.submit.reads) (hen : h.on F.SQ_CTRL_ENABLE q = true)
    (hnew : h.tailWord m q ≠ h.rd .SQ_TAILSEEN q) :
    h.tailRead m q = if (h.tailWord m q + 2 ^ 32 - (h.tailStored q (h.tailWord m q)).rd .SQ_HEAD q) % 2 ^ 32 > (h.tailStored q (h.tailWord m q)).sqSize q then
        ((h.tailStored q (h.tailWord m q)).setSqState q 3).raise Rc.SYN_QUEUE_OVERRUN { unit := 0x97, reason := some (F.SQ_STATUS_REASON, q) }
      else h.tailStored q (h.tailWord m q) := by
  have hread : ¬(!h.submit.reads.contains q) = true := by simpa using hin
  unfold tailRead
  refine (if_neg hread).trans (if_neg ?_)
  rw [physBytes_onSub, queueHoop_onSub, rd_onSub, rd_onSub, on_onSub, ← tailWord, hen]
  simpa using hnew

theorem rd_showReady (h : Hw) (r : Reg) (i : Nat) (hr : r ≠ .SQ_READY) : h.showReady.rd r i = h.rd r i := by
  unfold showReady
  split
  · exact rd_wr_reg _ _ _ _ _ _ hr
  · exact rd_wr_reg _ _ _ _ _ _ hr

theorem submit_showReady (h : Hw) : h.showReady.submit = h.submit := by
  unfold showReady
  split <;> exact wr_submit _ _ _ _

theorem showReady_of_mem (h : Hw) (q : Nat) (hq : q ∈ h.submit.ready) : h.showReady = h.wr .SQ_READY 0 (h.submit.ready.headD 0) := by
  unfold showReady
  split
  · rename_i hnil
    exact absurd hq (by rw [hnil]; exact List.not_mem_nil)
  · rename_i hcons
    rw [hcons]
    rfl

theorem rd_tailStored (h : Hw) (q tail : Nat) (r : Reg) (i : Nat) (hseen : r ≠ .SQ_TAILSEEN) (hready : r ≠ .SQ_READY) :
    (h.tailStored q tail).rd r i = h.rd r i := by
  unfold tailStored
  rw [rd_showReady _ _ _ hready, rd_onSub, rd_wr_reg _ _ _ _ _ _ hseen, rd_onSub]

theorem get_tailStored (h : Hw) (q tail : Nat) (f : Fld) (i : Nat) (hseen : f.reg ≠ .SQ_TAILSEEN) (hready : f.reg ≠ .SQ_READY) :
    (h.tailStored q tail).get f i = h.get f i := congrArg (bits f.lo f.w) (rd_tailStored h q tail f.reg i hseen hready)

theorem tailSeen_tailStored (h : Hw) (q tail : Nat) : (h.tailStored q tail).rd .SQ_TAILSEEN q = tail % 2 ^ 32 := by
  unfold tailStored
  rw [rd_showReady _ _ _ (by decide), rd_onSub, rd_wr_same]
  rfl

theorem submit_tailStored (h : Hw) (q tail : Nat) : (h.tailStored q tail).submit = readied (tailReadOut h.submit q) q := by
  unfold tailStored
  rw [submit_showReady, submit_onSub, wr_submit, submit_onSub]

theorem only_wr_of (h : Hw) {h' : Hw} {ks : List (Reg × Nat)} (ho : h.Only { h' with submit := h.submit } ks) (r : Reg) (i v : Nat) (hk : (r, i) ∈ ks) :
    h.Only { h'.wr r i v with submit := h.submit } ks := ho.wr r i v hk

theorem tailStored_shown (h : Hw) (q tail : Nat) :
    h.tailStored q tail = (((h.onSub (fun s => tailReadOut s q)).wr .SQ_TAILSEEN q tail).onSub (fun s => readied s q)).wr .SQ_READY 0
      ((readied (tailReadOut h.submit q) q).ready.headD 0) := by
  have hsub : (((h.onSub (fun s => tailReadOut s q)).wr .SQ_TAILSEEN q tail).onSub (fun s => readied s q)).submit = readied (tailReadOut h.submit q) q := by
    rw [submit_onSub, wr_submit, submit_onSub]
  have hmem : q ∈ (((h.onSub (fun s => tailReadOut s q)).wr .SQ_TAILSEEN q tail).onSub (fun s => readied s q)).submit.ready := by
    rw [hsub]
    exact mem_readied _ q
  unfold tailStored
  rw [showReady_of_mem _ q hmem, hsub]

theorem only_tailStored (h : Hw) (q tail : Nat) : h.Only { h.tailStored q tail with submit := h.submit } [(.SQ_TAILSEEN, q), (.SQ_READY, 0)] := by
  rw [tailStored_shown]
  have hbase : h.Only { h with submit := h.submit } [(.SQ_TAILSEEN, q), (.SQ_READY, 0)] := Only.refl h _
  refine only_wr_of h (only_onSub (only_wr_of h (only_onSub hbase _) _ _ _ ?_) _) _ _ _ ?_
  all_goals simp

theorem readyQueue_tailStored (h : Hw) (q tail : Nat) :
    (h.tailStored q tail).get F.SQ_READY_QUEUE = (readied (tailReadOut h.submit q) q).ready.headD 0 % 4096 := by
  have hbits (x : Nat) : bits 0 12 (x % 2 ^ 32) = x % 4096 := by unfold bits; omega
  rw [tailStored_shown]
  exact (congrArg (bits 0 12) (rd_wr_same _ .SQ_READY 0 _)).trans (hbits _)

end Hw

/-- Settles O47: a visit by the queue that the scan finds, a tail read by whether its word has changed and how far ahead it is. -/
theorem theScannerListsReadyQueues : Obligations.TheScannerListsReadyQueues := by
  unfold Obligations.TheScannerListsReadyQueues
  refine ⟨fun s q haclk hpclk hen hroom hnext hnew => ?visit, fun s q tail haclk hin hen htail => ?read, fun s a q r rest htakes hready => ?pop⟩
  case visit =>
    have hexec : exec .queueScanVisit s = _ := s.answers_clocked (·.scanVisit) haclk
    rw [s.hw.scanVisit_eq q hpclk hen hroom hnext hnew] at hexec
    exact ⟨_, hexec, rfl, rfl, rfl, rfl, rfl⟩
  case read =>
    have hexec : exec (.tailReadDone q) s = s.leads (s.hw.tailRead s.mem q) :=
      s.answers_of _ (fun w => w.onHwMem (fun m h => h.tailRead m q)) _ (clocked_of _ s.work haclk) rfl
    have htail' : s.hw.tailWord s.mem q = tail := htail.symm
    refine ⟨fun hsame => ?_, fun hnew hnear => ?_, fun hnew hfar => ?_⟩
    · rw [s.hw.tailRead_same s.mem q hin (htail'.trans hsame)] at hexec
      exact ⟨_, hexec, rfl, rfl, Hw.not_mem_tailReadOut _ _⟩
    · have hsize : (s.hw.tailStored q tail).sqSize q = s.hw.sqSize q := by
        rw [Hw.sqSize, Hw.get_tailStored _ _ _ _ _ (by decide) (by decide), ← Hw.sqSize]
      rw [s.hw.tailRead_changed s.mem q hin hen (by rw [htail']; exact hnew), htail', hsize, Hw.rd_tailStored _ _ _ _ _ (by decide) (by decide),
        if_neg (Nat.not_lt_of_le hnear)] at hexec
      have hsub := s.hw.submit_tailStored q tail
      refine ⟨_, hexec, s.hw.tailSeen_tailStored q tail, ?_, ?_, ?_, ?_, s.hw.only_tailStored q tail⟩
      · rw [hsub]
        exact Hw.mem_readied _ q
      · rw [hsub]
        exact Hw.not_mem_tailReadOut s.hw.submit q
      · exact Hw.get_tailStored _ _ _ _ _ (by decide) (by decide)
      · rw [hsub]
        exact s.hw.readyQueue_tailStored q tail
    · have hsize : (s.hw.tailStored q tail).sqSize q = s.hw.sqSize q := by
        rw [Hw.sqSize, Hw.get_tailStored _ _ _ _ _ (by decide) (by decide), ← Hw.sqSize]
      rw [s.hw.tailRead_changed s.mem q hin hen (by rw [htail']; exact hnew), htail', hsize, Hw.rd_tailStored _ _ _ _ _ (by decide) (by decide),
        if_pos hfar, Hw.raise_unbound _ _ _ _ _ rfl rfl (by decide)] at hexec
      refine ⟨_, hexec, ?_, ?_, ?_⟩
      · rw [Hw.rd_logFault _ _ _ _ (by decide), Hw.rd_put_reg _ _ _ _ _ _ (by decide), Hw.setSqState, Hw.rd_put_reg _ _ _ _ _ _ (by decide)]
        exact s.hw.tailSeen_tailStored q tail
      · rw [Hw.sqState, Hw.get_logFault _ _ _ _ (by decide), Hw.setSqState]
        simp (disch := decide) only [Hw.get_put_apart, Hw.get_put_same]
        rfl
      · rw [Hw.get_logFault _ _ _ _ (by decide), Hw.get_put_same _ _ _ _ (by decide)]
        rfl
  case pop =>
    have hexec : exec (.readyListPop a) s = _ := State.answers_writeNamed s a .SQ_READY_POP 0 0 (·.readyPop) htakes rfl
    have hpop : s.hw.readyPop = (s.hw.onSub (fun x => { x with ready := x.ready.drop 1 })).wr .SQ_READY 0 r := by
      have hrest : (s.hw.onSub (fun x => { x with ready := x.ready.drop 1 })).submit.ready = r :: rest := by
        rw [Hw.submit_onSub, hready]
        rfl
      unfold Hw.readyPop Hw.showReady
      rw [hrest]
    rw [hpop] at hexec
    refine ⟨_, hexec, ?_, Hw.rd_wr_same _ _ _ _, Hw.only_wr_of s.hw (Hw.only_onSub (Hw.Only.refl s.hw _) _) _ _ _ (List.mem_singleton.mpr rfl)⟩
    rw [Hw.wr_submit, Hw.submit_onSub, hready]
    rfl

end Sys2Proof.Machine
end

section
/-! Proofs about the link unit's registers (R302, R303, R310, R312, R313, R316). -/

namespace Sys2Proof.Machine
namespace Hw

theorem link_put (h : Hw) (f : Fld) (v i : Nat) : (h.put f v i).link = h.link := rfl

theorem lp_put (h : Hw) (f : Fld) (v i p : Nat) : (h.put f v i).lp p = h.lp p := by rw [lp, link_put, lp]

theorem lp_onLp_same (h : Hw) (p : Nat) (f : LinkPort → LinkPort) : (h.onLp p f).lp p = f (h.lp p) := Tab.getD_modify_same _ _ _ _

theorem get_onLp (h : Hw) (p : Nat) (f : LinkPort → LinkPort) (g : Fld) (i : Nat) : (h.onLp p f).get g i = h.get g i := rfl

theorem on_onLp (h : Hw) (p : Nat) (f : LinkPort → LinkPort) (g : Fld) (i : Nat) : (h.onLp p f).on g i = h.on g i := rfl

theorem only_onLp {h h' : Hw} {ks : List (Reg × Nat)} (ho : h.Only h' ks) (p : Nat) (f : LinkPort → LinkPort) :
    h.Only { h'.onLp p f with link := h.link } ks := by
  obtain ⟨hrest, hrd⟩ := ho
  exact ⟨congrArg (fun x : Hw => { x with link := h.link }) hrest, hrd⟩

/-- The registers of a port put in service. -/
def lpServed (h : Hw) (p u : Nat) : Hw :=
  ((((h.put F.LK_P_CTRL_UCIE u p).put F.LK_P_CTRL_ENABLE 1 p).put F.LK_P_STATUS_STATE lpTrain p).put F.LK_P_STATUS_DEGRADED 0 p).put F.LK_P_LANEMAP_SPARE_OK 1 p

/-- A port as its enable leaves it. -/
def lpTraining (h : Hw) (p sp : Nat) : Hw :=
  h.onLp p (fun k => { egress := k.egress, neighbour := k.neighbour, rxSpare := sp, txSpare := sp, lastHeard := h.time.beat })

theorem writeLpCtrl_enables (h : Hw) (p v : Nat) (hoff : h.on F.LK_P_CTRL_ENABLE p = false) (hu : flag (bit 1 v) = h.get F.LK_P_CTRL_UCIE p)
    (hen : bit 0 v = true) (hlk : h.on F.LK_CTRL_ENABLE = true) :
    h.writeLpCtrl p v = (h.lpServed p (flag (bit 1 v))).lpTraining p (h.get F.LK_P_LANEMAP_SPARE p) := by
  have hsp : (((h.put F.LK_P_CTRL_UCIE (flag (bit 1 v)) p).put F.LK_P_CTRL_ENABLE 1 p).put F.LK_P_STATUS_STATE lpTrain p |>.put F.LK_P_STATUS_DEGRADED 0 p).get
      F.LK_P_LANEMAP_SPARE p = h.get F.LK_P_LANEMAP_SPARE p := by
    simp (disch := decide) only [get_put_reg]
  have hlk' : ¬(!(h.put F.LK_P_CTRL_UCIE (flag (bit 1 v)) p).on F.LK_CTRL_ENABLE) = true := by
    rw [on_put_reg _ _ _ _ _ _ (by decide), hlk]
    exact Bool.false_ne_true
  have hsame : ¬(flag (bit 1 v) != h.get F.LK_P_CTRL_UCIE p && (h.on F.LK_P_CTRL_ENABLE p || !h.on F.LK_P_CTRL_UCIE_CAP p)) = true := by
    rw [hu, bne_self_eq_false]
    exact Bool.false_ne_true
  have hgo : (!h.on F.LK_P_CTRL_ENABLE p && bit 0 v) = true := by rw [hoff, hen]; rfl
  rw [← hsp]
  unfold writeLpCtrl
  exact (if_neg hsame).trans ((if_pos hgo).trans (if_neg hlk'))

theorem writeLpCtrl_depends (h : Hw) (p v : Nat) (hoff : h.on F.LK_P_CTRL_ENABLE p = false) (hu : flag (bit 1 v) = h.get F.LK_P_CTRL_UCIE p)
    (hen : bit 0 v = true) (hlk : h.on F.LK_CTRL_ENABLE = false) :
    h.writeLpCtrl p v = (h.put F.LK_P_CTRL_UCIE (flag (bit 1 v)) p).lpRefuse p Rc.CFG_LK_DEPENDS := by
  have hlk' : (!(h.put F.LK_P_CTRL_UCIE (flag (bit 1 v)) p).on F.LK_CTRL_ENABLE) = true := by
    rw [on_put_reg _ _ _ _ _ _ (by decide), hlk]
    rfl
  have hsame : ¬(flag (bit 1 v) != h.get F.LK_P_CTRL_UCIE p && (h.on F.LK_P_CTRL_ENABLE p || !h.on F.LK_P_CTRL_UCIE_CAP p)) = true := by
    rw [hu, bne_self_eq_false]
    exact Bool.false_ne_true
  have hgo : (!h.on F.LK_P_CTRL_ENABLE p && bit 0 v) = true := by rw [hoff, hen]; rfl
  unfold writeLpCtrl
  exact (if_neg hsame).trans ((if_pos hgo).trans (if_pos hlk'))

theorem lpServed_registers (h : Hw) (p u : Nat) :
    (h.lpServed p u).get F.LK_P_CTRL_ENABLE p = 1 ∧ (h.lpServed p u).get F.LK_P_STATUS_STATE p = 1 ∧ (h.lpServed p u).get F.LK_P_STATUS_DEGRADED p = 0 ∧
      (h.lpServed p u).get F.LK_P_LANEMAP_SPARE_OK p = 1 ∧ (h.lpServed p u).get F.LK_P_LANEMAP_SPARE p = h.get F.LK_P_LANEMAP_SPARE p := by
  unfold lpServed
  simp (disch := decide) only [get_put_reg, get_put_apart, get_put_same]
  exact ⟨rfl, rfl, rfl, rfl, trivial⟩

theorem lp_lpServed (h : Hw) (p u : Nat) : (h.lpServed p u).lp p = h.lp p := by
  unfold lpServed
  rw [lp_put, lp_put, lp_put, lp_put, lp_put]

theorem time_lpServed (h : Hw) (p u : Nat) : (h.lpServed p u).time = h.time := by
  unfold lpServed
  rw [put_time, put_time, put_time, put_time, put_time]

theorem only_lpServed (h : Hw) (p u : Nat) : h.Only (h.lpServed p u) [(.LK_P_CTRL, p), (.LK_P_STATUS, p), (.LK_P_LANEMAP, p)] := by
  unfold lpServed
  refine (((((Only.refl h _).put F.LK_P_CTRL_UCIE _ p ?_).put F.LK_P_CTRL_ENABLE _ p ?_).put F.LK_P_STATUS_STATE _ p ?_).put F.LK_P_STATUS_DEGRADED _ p ?_).put
    F.LK_P_LANEMAP_SPARE_OK _ p ?_
  all_goals simp [F.LK_P_CTRL_UCIE, F.LK_P_CTRL_ENABLE, F.LK_P_STATUS_STATE, F.LK_P_STATUS_DEGRADED, F.LK_P_LANEMAP_SPARE_OK]

/-- The registers of a port taken out of service. -/
def lpUnserved (h : Hw) (p u : Nat) : Hw :=
  ((((h.put F.LK_P_CTRL_UCIE u p).put F.LK_P_CTRL_ENABLE 0 p).put F.LK_P_STATUS_STATE lpOff p).put F.LK_P_STATUS_LOCK 0 p).put F.LK_P_LANEMAP_PENDING 0 p

/-- The block with the beats from which ports are whole. -/
def setSwitchWhole (h : Hw) (x : Tab Nat) : Hw := { h with switchWhole := x }

/-- A port with its lanes unlocked and its queue empty. -/
def silenced (k : LinkPort) : LinkPort := { k with lanes := List.replicate 5 {}, egress := [], rxSwitch := none, txSwitch := none }

theorem writeLpCtrl_disables (h : Hw) (p v : Nat) (hon : h.on F.LK_P_CTRL_ENABLE p = true) (hu : flag (bit 1 v) = h.get F.LK_P_CTRL_UCIE p)
    (hen : bit 0 v = false) : ∃ x, h.writeLpCtrl p v = ((h.lpUnserved p (flag (bit 1 v))).onLp p silenced).setSwitchWhole x := by
  have hsame : ¬(flag (bit 1 v) != h.get F.LK_P_CTRL_UCIE p && (h.on F.LK_P_CTRL_ENABLE p || !h.on F.LK_P_CTRL_UCIE_CAP p)) = true := by
    rw [hu, bne_self_eq_false]
    exact Bool.false_ne_true
  have hup : ¬(!h.on F.LK_P_CTRL_ENABLE p && bit 0 v) = true := by rw [hon]; exact Bool.false_ne_true
  have hdown : (h.on F.LK_P_CTRL_ENABLE p && !bit 0 v) = true := by rw [hon, hen]; rfl
  unfold writeLpCtrl
  exact ⟨_, (if_neg hsame).trans ((if_neg hup).trans ((if_pos hdown).trans rfl))⟩

theorem lpUnserved_registers (h : Hw) (p u : Nat) :
    (h.lpUnserved p u).get F.LK_P_CTRL_ENABLE p = 0 ∧ (h.lpUnserved p u).get F.LK_P_STATUS_STATE p = 0 ∧ (h.lpUnserved p u).get F.LK_P_STATUS_LOCK p = 0 ∧
      (h.lpUnserved p u).get F.LK_P_LANEMAP_PENDING p = 0 := by
  unfold lpUnserved
  simp (disch := decide) only [get_put_reg, get_put_apart, get_put_same]
  exact ⟨rfl, rfl, rfl, rfl⟩

theorem only_lpUnserved (h : Hw) (p u : Nat) : h.Only (h.lpUnserved p u) [(.LK_P_CTRL, p), (.LK_P_STATUS, p), (.LK_P_LANEMAP, p)] := by
  unfold lpUnserved
  refine (((((Only.refl h _).put F.LK_P_CTRL_UCIE _ p ?_).put F.LK_P_CTRL_ENABLE _ p ?_).put F.LK_P_STATUS_STATE _ p ?_).put F.LK_P_STATUS_LOCK _ p ?_).put
    F.LK_P_LANEMAP_PENDING _ p ?_
  all_goals simp [F.LK_P_CTRL_UCIE, F.LK_P_CTRL_ENABLE, F.LK_P_STATUS_STATE, F.LK_P_STATUS_LOCK, F.LK_P_LANEMAP_PENDING]

theorem only_silenced {h h' : Hw} {ks : List (Reg × Nat)} (ho : h.Only h' ks) (p : Nat) (x : Tab Nat) :
    h.Only { (h'.onLp p silenced).setSwitchWhole x with link := h.link, switchWhole := h.switchWhole } ks := by
  obtain ⟨hrest, hrd⟩ := ho
  exact ⟨congrArg (fun x : Hw => { x with link := h.link, switchWhole := h.switchWhole }) hrest, hrd⟩

theorem get_setSwitchWhole (h : Hw) (x : Tab Nat) (f : Fld) (i : Nat) : (h.setSwitchWhole x).get f i = h.get f i := rfl

theorem lp_setSwitchWhole (h : Hw) (x : Tab Nat) (p : Nat) : (h.setSwitchWhole x).lp p = h.lp p := rfl

theorem writeLpCtrl_ucie (h : Hw) (p v : Nat) (hu : bit 1 v = true) (hoff : h.on F.LK_P_CTRL_ENABLE p = false)
    (hcap : h.on F.LK_P_CTRL_UCIE_CAP p = true) (hen : bit 0 v = false) : h.writeLpCtrl p v = h.put F.LK_P_CTRL_UCIE 1 p := by
  unfold writeLpCtrl
  simp only [hu, hoff, hcap, hen, flag, Bool.not_true, Bool.or_self, Bool.and_false, Bool.false_and, Bool.false_eq_true, if_false, if_true]

theorem writeLpCtrl_ucieRefused (h : Hw) (p v : Nat) (hu : bit 1 v = true) (hno : h.on F.LK_P_CTRL_UCIE p = false)
    (hbad : h.on F.LK_P_CTRL_ENABLE p = true ∨ h.on F.LK_P_CTRL_UCIE_CAP p = false) : h.writeLpCtrl p v = h.lpRefuse p Rc.CFG_LK_UCIE := by
  have hne : (flag true != h.get F.LK_P_CTRL_UCIE p) = true := by
    rw [bne_iff_ne]
    intro he
    rw [on_eq_get, ← he] at hno
    exact absurd hno (by decide)
  have hstop : (h.on F.LK_P_CTRL_ENABLE p || !h.on F.LK_P_CTRL_UCIE_CAP p) = true := by
    rcases hbad with hb | hb
    · rw [hb, Bool.true_or]
    · rw [hb, Bool.not_false, Bool.or_true]
  unfold writeLpCtrl
  exact if_pos (by rw [hu, hne, hstop]; rfl)

/-! Client bindings. -/

theorem clientOk_mod (h : Hw) (c v : Nat) : h.clientOk c (v % 2 ^ 32) = h.clientOk c v := by
  have hport : bits 12 5 (v % 2 ^ 32) = bits 12 5 v := bits_mod _ _ _ _ (by decide)
  have hkey : v % 2 ^ 32 % 2 ^ 17 = v % 2 ^ 17 := Nat.mod_mod_of_dvd _ (by decide)
  unfold clientOk
  rw [hport, hkey]

theorem writeClient_refused (h : Hw) (c v : Nat) (hen : bit 31 v = true) (hbad : h.clientOk c v = false) : h.writeClient c v = h.lkRefuse Rc.CFG_LK_CLIENT := by
  unfold writeClient
  exact if_pos (by rw [hen, hbad]; rfl)

theorem writeClient_bound (h : Hw) (c v : Nat) (hen : bit 31 v = true) (hok : h.clientOk c v = true) :
    h.writeClient c v = if h.on F.LK_CLIENT_ENABLE c then h.wr .LK_CLIENT c (v % 2 ^ 17 + 2 ^ 31)
      else (h.wr .LK_CLIENT c (v % 2 ^ 17 + 2 ^ 31)).wr .LK_CLIENT_TAIL c (h.rd .SQ_HEAD (h.get F.LK_CLIENT_QUEUE_QUEUE c)) := by
  have hhead (x : Nat) : (h.wr .LK_CLIENT c x).rd .SQ_HEAD ((h.wr .LK_CLIENT c x).get F.LK_CLIENT_QUEUE_QUEUE c) =
      h.rd .SQ_HEAD (h.get F.LK_CLIENT_QUEUE_QUEUE c) := by
    rw [get_wr_reg _ _ _ _ _ _ (by decide), rd_wr_reg _ _ _ _ _ _ (by decide)]
  have hword : v % 2 ^ 17 + flag (bit 31 v) * 2 ^ 31 = v % 2 ^ 17 + 2 ^ 31 := by rw [hen]; rfl
  unfold writeClient
  refine (if_neg (by rw [hok, Bool.not_true, Bool.and_false]; exact Bool.false_ne_true)).trans ?_
  rw [hword]
  by_cases hon : h.on F.LK_CLIENT_ENABLE c = true
  · rw [if_pos hon]
    exact if_neg (by rw [hon, Bool.not_true, Bool.and_false]; exact Bool.false_ne_true)
  · rw [if_neg hon]
    refine (if_pos (by rw [hen, Bool.eq_false_iff.mpr hon]; rfl)).trans ?_
    rw [hhead]

end Hw

/-- Settles O49: each write takes the branch that its hypotheses select. -/
theorem linkRegistersTakeEffect : Obligations.LinkRegistersTakeEffect := by
  unfold Obligations.LinkRegistersTakeEffect
  refine ⟨fun s a p v htakes hoff hu => ?enable, fun s a p v htakes hon hu => ?disable, fun s a p v htakes hno => ?ucie,
    fun s a i v r k w hr hk hw htakes => ?route, fun s a v htakes => ?address, fun s a c v htakes => ?client⟩
  case enable =>
    have hexec : exec (.linkPortEnable a p v) s = _ :=
      State.answers_writeNamed s a .LK_P_CTRL p (withFld F.LK_P_CTRL_ENABLE 1 v.toNat) (fun h => h.writeLpCtrl p _) htakes rfl
    have hbit : bit 1 (withFld F.LK_P_CTRL_ENABLE 1 v.toNat % 2 ^ 32) = bit 1 v.toNat := bit_withFld_apart _ _ _ _ (by decide) (by decide)
    have hen : bit 0 (withFld F.LK_P_CTRL_ENABLE 1 v.toNat % 2 ^ 32) = true := bit_setWord F.LK_P_CTRL_ENABLE v.toNat rfl (by decide)
    refine ⟨fun hlk => ?_, fun hlk => ?_⟩
    · rw [s.hw.writeLpCtrl_enables p _ hoff (by rw [hbit, hu]) hen hlk, hbit, Hw.lpTraining, Hw.time_lpServed] at hexec
      obtain ⟨hserved, hstate, hdeg, hok, hsp⟩ := s.hw.lpServed_registers p (flag (bit 1 v.toNat))
      refine ⟨_, hexec, ?_, ?_, ?_, ?_, ?_, ?_, Hw.only_onLp (s.hw.only_lpServed p _) p _⟩
      · rw [Hw.on_onLp, Hw.on_eq_get, hserved]
        rfl
      · rw [Hw.lpState, Hw.get_onLp, hstate]
      · rw [Hw.on_onLp, Hw.on_eq_get, hdeg]
        rfl
      · rw [Hw.on_onLp, Hw.on_eq_get, hok]
        rfl
      · rw [Hw.get_onLp, hsp]
      · rw [Hw.lp_onLp_same, Hw.lp_lpServed]
    · rw [s.hw.writeLpCtrl_depends p _ hoff (by rw [hbit, hu]) hen hlk, hbit] at hexec
      exact hexec
  case disable =>
    have hexec : exec (.linkPortDisable a p v) s = _ :=
      State.answers_writeNamed s a .LK_P_CTRL p (withFld F.LK_P_CTRL_ENABLE 0 v.toNat) (fun h => h.writeLpCtrl p _) htakes rfl
    have hbit : bit 1 (withFld F.LK_P_CTRL_ENABLE 0 v.toNat % 2 ^ 32) = bit 1 v.toNat := bit_withFld_apart _ _ _ _ (by decide) (by decide)
    obtain ⟨x, hx⟩ := s.hw.writeLpCtrl_disables p _ hon (by rw [hbit, hu]) (bit_clearWord F.LK_P_CTRL_ENABLE v.toNat rfl (by decide))
    rw [hx] at hexec
    obtain ⟨hserved, hstate, hlock, hpend⟩ := s.hw.lpUnserved_registers p (flag (bit 1 (withFld F.LK_P_CTRL_ENABLE 0 v.toNat % 2 ^ 32)))
    refine ⟨_, hexec, ?_, ?_, ?_, ?_, ?_, ?_, Hw.only_silenced (s.hw.only_lpUnserved p _) p x⟩
    · rw [Hw.on_eq_get, Hw.get_setSwitchWhole, Hw.get_onLp, hserved]
      rfl
    · rw [Hw.lpState, Hw.get_setSwitchWhole, Hw.get_onLp, hstate]
    · rw [Hw.get_setSwitchWhole, Hw.get_onLp, hlock]
    · rw [Hw.on_eq_get, Hw.get_setSwitchWhole, Hw.get_onLp, hpend]
      rfl
    · rw [Hw.lp_setSwitchWhole, Hw.lp_onLp_same, Hw.silenced]
    · rw [Hw.lp_setSwitchWhole, Hw.lp_onLp_same, Hw.silenced]
  case ucie =>
    have hexec : exec (.ucieBind a p v) s = _ :=
      State.answers_writeNamed s a .LK_P_CTRL p (withFld F.LK_P_CTRL_UCIE 1 v.toNat) (fun h => h.writeLpCtrl p _) htakes rfl
    have hbit : bit 0 (withFld F.LK_P_CTRL_UCIE 1 v.toNat % 2 ^ 32) = bit 0 v.toNat := bit_withFld_apart _ _ _ _ (by decide) (by decide)
    have hset : bit 1 (withFld F.LK_P_CTRL_UCIE 1 v.toNat % 2 ^ 32) = true := bit_setWord F.LK_P_CTRL_UCIE v.toNat rfl (by decide)
    refine ⟨fun hoff hcap hen => ?_, fun hbad => ?_⟩
    · rw [s.hw.writeLpCtrl_ucie p _ hset hoff hcap (hbit.trans hen)] at hexec
      exact hexec
    · rw [s.hw.writeLpCtrl_ucieRefused p _ hset hno hbad] at hexec
      exact hexec
  case route =>
    have hexec : exec (.routeTableWrite a i v) s = s.leads (s.hw.writeRoute i v.toNat) := by
      rw [hr, hk] at htakes
      by_cases hi : i < 256
      · rw [if_pos hi, if_pos hi] at htakes
        have hnamed := State.answers_writeNamed s a .LK_GRT i v.toNat (fun h => h.writeRoute i _) htakes rfl
        rw [Nat.mod_eq_of_lt v.isLt] at hnamed
        refine Eq.trans ?_ hnamed
        show s.answers (Hw.writeNamed a (if i < 256 then .LK_GRT else .LK_MRT) (if i < 256 then i else i - 256) v.toNat) = _
        rw [if_pos hi, if_pos hi]
      · rw [if_neg hi, if_neg hi] at htakes
        have hnamed := State.answers_writeNamed s a .LK_MRT (i - 256) v.toNat (fun h => h.writeRoute (256 + (i - 256)) _) htakes rfl
        rw [Nat.mod_eq_of_lt v.isLt, show 256 + (i - 256) = i by omega] at hnamed
        refine Eq.trans ?_ hnamed
        show s.answers (Hw.writeNamed a (if i < 256 then .LK_GRT else .LK_MRT) (if i < 256 then i else i - 256) v.toNat) = _
        rw [if_neg hi, if_neg hi]
    refine hw ▸ ⟨fun hport hplan => ?_, fun hport hplan => ?_, fun hport => ?_⟩
    · refine hexec.trans (congrArg s.leads ((if_neg (Nat.not_le_of_lt hport)).trans ((if_neg (by rw [hplan]; exact Bool.false_ne_true)).trans ?_)))
      rw [hr, hk]
      split <;> rfl
    · exact hexec.trans (congrArg s.leads ((if_neg (Nat.not_le_of_lt hport)).trans (if_pos hplan)))
    · exact hexec.trans (congrArg s.leads (if_pos hport))
  case address =>
    have hexec : exec (.fabricAddressWrite a v) s = _ := State.answers_writeNamed s a .LK_ADDR 0 v.toNat (·.writeLkAddr _) htakes rfl
    rw [Nat.mod_eq_of_lt v.isLt] at hexec
    refine ⟨fun hplan => ?_, fun hplan => ?_⟩
    · exact hexec.trans (congrArg s.leads (if_neg (by rw [hplan]; exact Bool.false_ne_true)))
    · exact hexec.trans (congrArg s.leads (if_pos hplan))
  case client =>
    have hexec : exec (.clientBindingWrite a c v) s = _ :=
      State.answers_writeNamed s a .LK_CLIENT c (withFld F.LK_CLIENT_ENABLE 1 v.toNat) (fun h => h.writeClient c _) htakes rfl
    have hen : bit 31 (withFld F.LK_CLIENT_ENABLE 1 v.toNat % 2 ^ 32) = true := bit_setWord F.LK_CLIENT_ENABLE v.toNat rfl (by decide)
    have hlow : withFld F.LK_CLIENT_ENABLE 1 v.toNat % 2 ^ 32 % 2 ^ 17 = v.toNat % 2 ^ 17 := by
      have hb := bits_withFld_apart F.LK_CLIENT_ENABLE 0 17 1 v.toNat (by decide) (by decide)
      simpa [bits] using hb
    have hword : (v.toNat % 2 ^ 17 + 2 ^ 31) % 2 ^ 32 = v.toNat % 2 ^ 17 + 2 ^ 31 := by omega
    refine ⟨fun hok => ?_, fun hbad => ?_⟩
    · rw [s.hw.writeClient_bound c _ hen (by rw [Hw.clientOk_mod, hok]), hlow] at hexec
      refine ⟨_, hexec, ?_, fun hfresh => ?_, ?_⟩
      · split
        · exact (Hw.rd_wr_same _ _ _ _).trans hword
        · rw [Hw.rd_wr_reg _ _ _ _ _ _ (by decide)]
          exact (Hw.rd_wr_same _ _ _ _).trans hword
      · rw [if_neg (by rw [hfresh]; exact Bool.false_ne_true)]
        exact Hw.rd_wr_same _ _ _ _
      · split
        · exact (Hw.Only.refl s.hw _).wr .LK_CLIENT c _ (by simp)
        · exact ((Hw.Only.refl s.hw _).wr .LK_CLIENT c _ (by simp)).wr .LK_CLIENT_TAIL c _ (by simp)
    · rw [s.hw.writeClient_refused c _ hen (by rw [Hw.clientOk_mod, hbad])] at hexec
      exact hexec

end Sys2Proof.Machine
end

section
/-! Proofs about hoops, windows, keys and the lifecycle (R366 to R376, R387). -/

namespace Sys2Proof.Machine
namespace Hw

/-! Values that a commit is to apply (R366). -/

/-- A word of a hoop record is held. -/
def holdWord (h : Hw) (k v : Nat) : Hw := { h with hoopHeld := Tab.insert h.hoopHeld k v }

/-- A window is held. -/
def holdWindow (h : Hw) (k : Nat) (w : Option Window) : Hw := { h with windowsHeld := Tab.insert h.windowsHeld k w }

/-- A key slot is held. -/
def holdKey (h : Hw) (n : Nat) (k : KeySlot) : Hw := { h with keysHeld := Tab.insert h.keysHeld n k }

theorem hoopHeld_holdWord (h : Hw) (k v : Nat) : (h.holdWord k v).hoopHeld = Tab.insert h.hoopHeld k v := rfl

theorem rd_holdWord (h : Hw) (k v : Nat) (r : Reg) (i : Nat) : (h.holdWord k v).rd r i = h.rd r i := rfl

theorem keysHeld_holdKey (h : Hw) (n : Nat) (k : KeySlot) : (h.holdKey n k).keysHeld = Tab.insert h.keysHeld n k := rfl

theorem rd_holdKey (h : Hw) (n : Nat) (k : KeySlot) (r : Reg) (i : Nat) : (h.holdKey n k).rd r i = h.rd r i := rfl

theorem get_holdKey (h : Hw) (n : Nat) (k : KeySlot) (f : Fld) (i : Nat) : (h.holdKey n k).get f i = h.get f i := rfl

theorem only_holdKey {h h' : Hw} {ks : List (Reg × Nat)} (ho : h.Only h' ks) (n : Nat) (k : KeySlot) :
    h.Only { h'.holdKey n k with keysHeld := h.keysHeld } ks := by
  obtain ⟨hrest, hrd⟩ := ho
  exact ⟨congrArg (fun x : Hw => { x with keysHeld := h.keysHeld }) hrest, hrd⟩

theorem windowsHeld_holdWindow (h : Hw) (k : Nat) (w : Option Window) : (h.holdWindow k w).windowsHeld = Tab.insert h.windowsHeld k w := rfl

theorem windows_holdWindow (h : Hw) (k : Nat) (w : Option Window) : (h.holdWindow k w).windows = h.windows := rfl

theorem newHoopWord_holdWord_same (h : Hw) (n w v : Nat) : (h.holdWord (n * 4 + w) v).newHoopWord n w = v := by
  rw [newHoopWord, hoopHeld_holdWord, Tab.find?_insert_same, Option.getD_some]

theorem newHoopWord_holdWord_other (h : Hw) (n k w v : Nat) (hne : n * 4 + w ≠ k) : (h.holdWord k v).newHoopWord n w = h.newHoopWord n w := by
  rw [newHoopWord, newHoopWord, hoopHeld_holdWord, Tab.find?_insert_other _ _ _ _ hne, rd_holdWord]

theorem newKey_holdKey_same (h : Hw) (n : Nat) (k : KeySlot) : (h.holdKey n k).newKey n = k := by
  rw [newKey, keysHeld_holdKey, Tab.find?_insert_same, Option.getD_some]

theorem newWindow_holdWindow_same (h : Hw) (n i : Nat) (w : Option Window) : (h.holdWindow (n * 16 + i) w).newWindow n i = w := by
  rw [newWindow, windowsHeld_holdWindow, Tab.find?_insert_same, Option.getD_some]

theorem newWindow_holdWindow_other (h : Hw) (n i j : Nat) (w : Option Window) (hne : i ≠ j) :
    (h.holdWindow (n * 16 + j) w).newWindow n i = h.newWindow n i := by
  rw [newWindow, newWindow, windowsHeld_holdWindow, Tab.find?_insert_other _ _ _ _ (by omega), windows_holdWindow]

/-- What neither a field's write nor the fault log's list changes, a logged fault leaves. -/
theorem logFault_keeps {α : Type} (g : Hw → α) (hput : ∀ (h : Hw) (f : Fld) (v i : Nat), g (h.put f v i) = g h)
    (hlog : ∀ (h : Hw) (l : List FaultEntry), g (h.setFaultLog l) = g h) (h : Hw) (e : FaultEntry) : g (h.logFault e) = g h := by
  unfold logFault incSat
  split
  · rw [hlog]
  · rw [hlog, hput]

theorem hoopHeld_logFault (h : Hw) (e : FaultEntry) : (h.logFault e).hoopHeld = h.hoopHeld :=
  logFault_keeps (fun x => x.hoopHeld) (fun _ _ _ _ => rfl) (fun _ _ => rfl) h e

theorem keysHeld_logFault (h : Hw) (e : FaultEntry) : (h.logFault e).keysHeld = h.keysHeld :=
  logFault_keeps (fun x => x.keysHeld) (fun _ _ _ _ => rfl) (fun _ _ => rfl) h e

theorem newHoopWord_logFault (h : Hw) (e : FaultEntry) (n w : Nat) : (h.logFault e).newHoopWord n w = h.newHoopWord n w := by
  have hreg : hoopReg w ≠ .FT_LOG_STATUS := by
    unfold hoopReg
    split <;> decide
  rw [newHoopWord, newHoopWord, hoopHeld_logFault, rd_logFault _ _ _ _ hreg]

theorem settleHoops_held (h : Hw) (hplan : h.hasPlan = true) : h.settleHoops = h := if_pos hplan

theorem settleHoops_applied (h : Hw) (hplan : h.hasPlan = false) : h.settleHoops = h.applyHoops := if_neg (by rw [hplan]; exact Bool.false_ne_true)

/-- With nothing else held, a hoop word that is applied at once is written. -/
theorem applyHoops_holdWord (h : Hw) (n w v : Nat) (hw : w < 4) (hhoops : h.hoopHeld = []) (hwin : h.windowsHeld = []) (hkeys : h.keysHeld = []) :
    (h.holdWord (n * 4 + w) v).applyHoops = h.wr (hoopReg w) n v := by
  have hlist : (h.holdWord (n * 4 + w) v).hoopHeld = [(n * 4 + w, v)] := congrArg (fun t => Tab.insert t (n * 4 + w) v) hhoops
  have hdiv : (n * 4 + w) / 4 = n := by omega
  have hmod : (n * 4 + w) % 4 = w := by omega
  have hrest : { h.wr (hoopReg w) n v with hoopHeld := [], windowsHeld := [], keysHeld := [] } = h.wr (hoopReg w) n v := by
    obtain ⟨⟩ := h
    subst hhoops hwin hkeys
    rfl
  have hwinHeld : (h.holdWord (n * 4 + w) v).windowsHeld = [] := hwin
  have hkeysHeld : (h.holdWord (n * 4 + w) v).keysHeld = [] := hkeys
  unfold applyHoops
  rw [hlist]
  simp only [List.foldl_cons, List.foldl_nil, hdiv, hmod, wr_windowsHeld, wr_keysHeld, hwinHeld, hkeysHeld]
  exact hrest

theorem settleHoops_holdWord (h : Hw) (n w v : Nat) (hw : w < 4) (hplan : h.hasPlan = false) (hhoops : h.hoopHeld = []) (hwin : h.windowsHeld = [])
    (hkeys : h.keysHeld = []) : (h.holdWord (n * 4 + w) v).settleHoops = h.wr (hoopReg w) n v :=
  (settleHoops_applied (h.holdWord (n * 4 + w) v) hplan).trans (applyHoops_holdWord h n w v hw hhoops hwin hkeys)

/-! HP_CTRL (R373, R387). -/

theorem writeHpCtrl_opens (h : Hw) (n v : Nat) (hn : n < h.build.hoops) (hclosed : bit 0 (h.newHoopWord n 0) = false) (hv : bit 0 v = true)
    (hok : h.hoopRangesOk n (h.newHoopWord n 1) (h.newHoopWord n 2) (h.newHoopWord n 3) = true) :
    h.writeHpCtrl n v = (h.holdWord (n * 4) (v % 4)).settleHoops :=
  (if_neg (Nat.not_le.mpr hn)).trans ((if_pos (by rw [hclosed, hv]; rfl)).trans (if_pos hok))

theorem writeHpCtrl_openRefused (h : Hw) (n v : Nat) (hn : n < h.build.hoops) (hclosed : bit 0 (h.newHoopWord n 0) = false) (hv : bit 0 v = true)
    (hbad : h.hoopRangesOk n (h.newHoopWord n 1) (h.newHoopWord n 2) (h.newHoopWord n 3) = false) :
    h.writeHpCtrl n v = ((h.holdWord (n * 4) (v % 4 / 2 * 2 % 4)).settleHoops).hpRefuse n Rc.CFG_HP_RANGE :=
  (if_neg (Nat.not_le.mpr hn)).trans ((if_pos (by rw [hclosed, hv]; rfl)).trans (if_neg (by rw [hbad]; exact Bool.false_ne_true)))

/-- A valid window of a hoop is held as invalid. -/
def holdClosed (n : Nat) (h : Hw) (i : Nat) : Hw := if (h.newWindow n i).isSome then h.holdWindow (n * 16 + i) none else h

/-- What a closing hoop holds. -/
def hoopClosing (h : Hw) (n v : Nat) : Hw :=
  (List.range 16).foldl (holdClosed n) ((((h.holdWord (n * 4) v).holdWord (n * 4 + 2) 0).holdWord (n * 4 + 3) 0).holdKey n {})

theorem writeHpCtrl_busy (h : Hw) (n v : Nat) (hn : n < h.build.hoops) (hopen : bit 0 (h.newHoopWord n 0) = true) (hv : bit 0 v = false)
    (hbusy : h.hoopBusy n = true) : h.writeHpCtrl n v = h.hpRefuse n Rc.CFG_HP_BUSY :=
  (if_neg (Nat.not_le.mpr hn)).trans ((if_neg (by rw [hopen]; exact Bool.false_ne_true)).trans ((if_pos (by rw [hopen, hv]; rfl)).trans (if_pos hbusy)))

theorem writeHpCtrl_closes (h : Hw) (n v : Nat) (hn : n < h.build.hoops) (hopen : bit 0 (h.newHoopWord n 0) = true) (hv : bit 0 v = false)
    (hidle : h.hoopBusy n = false) : h.writeHpCtrl n v = (h.hoopClosing n (v % 4)).settleHoops :=
  (if_neg (Nat.not_le.mpr hn)).trans ((if_neg (by rw [hopen]; exact Bool.false_ne_true)).trans ((if_pos (by rw [hopen, hv]; rfl)).trans
    (if_neg (by rw [hidle]; exact Bool.false_ne_true))))

/-- What holding a window leaves, closing every window leaves. -/
theorem holdClosed_keeps {α : Type} (g : Hw → α) (hhold : ∀ (h : Hw) (k : Nat) (w : Option Window), g (h.holdWindow k w) = g h) (n : Nat)
    (is : List Nat) (h : Hw) : g (is.foldl (holdClosed n) h) = g h := by
  induction is generalizing h with
  | nil => rfl
  | cons i is ih =>
    rw [List.foldl_cons, ih]
    unfold holdClosed
    split
    · exact hhold _ _ _
    · rfl

theorem newWindow_holdClosed_same (n : Nat) (h : Hw) (i : Nat) : (holdClosed n h i).newWindow n i = none := by
  unfold holdClosed
  split
  case isTrue => exact newWindow_holdWindow_same _ _ _ _
  case isFalse hnone => exact Option.not_isSome_iff_eq_none.mp hnone

theorem newWindow_holdClosed_none (n : Nat) (h : Hw) (i j : Nat) (hnone : h.newWindow n j = none) : (holdClosed n h i).newWindow n j = none := by
  by_cases hij : j = i
  · rw [hij]
    exact newWindow_holdClosed_same n h i
  · unfold holdClosed
    split
    · rw [newWindow_holdWindow_other _ _ _ _ _ hij, hnone]
    · exact hnone

theorem newWindow_foldl_none (n : Nat) (is : List Nat) (h : Hw) (j : Nat) (hj : j ∈ is ∨ h.newWindow n j = none) :
    (is.foldl (holdClosed n) h).newWindow n j = none := by
  induction is generalizing h with
  | nil => exact hj.resolve_left List.not_mem_nil
  | cons i is ih =>
    refine ih _ ?_
    rcases hj with hmem | hnone
    · rcases List.mem_cons.mp hmem with rfl | hrest
      · exact Or.inr (newWindow_holdClosed_same n h j)
      · exact Or.inl hrest
    · exact Or.inr (newWindow_holdClosed_none n h i j hnone)

theorem ctl_holdWord (h : Hw) (k v : Nat) : (h.holdWord k v).ctl = h.ctl := rfl

theorem ctl_holdKey (h : Hw) (n : Nat) (k : KeySlot) : (h.holdKey n k).ctl = h.ctl := rfl

theorem ctl_holdWindow (h : Hw) (k : Nat) (w : Option Window) : (h.holdWindow k w).ctl = h.ctl := rfl

theorem windows_holdWord (h : Hw) (k v : Nat) : (h.holdWord k v).windows = h.windows := rfl

theorem windows_holdKey (h : Hw) (n : Nat) (k : KeySlot) : (h.holdKey n k).windows = h.windows := rfl

theorem keys_holdWord (h : Hw) (k v : Nat) : (h.holdWord k v).keys = h.keys := rfl

theorem keys_holdKey (h : Hw) (n : Nat) (k : KeySlot) : (h.holdKey n k).keys = h.keys := rfl

theorem keys_holdWindow (h : Hw) (k : Nat) (w : Option Window) : (h.holdWindow k w).keys = h.keys := rfl

theorem newHoopWord_holdKey (h : Hw) (n : Nat) (k : KeySlot) (m w : Nat) : (h.holdKey n k).newHoopWord m w = h.newHoopWord m w := rfl

theorem newHoopWord_holdWindow (h : Hw) (k : Nat) (x : Option Window) (m w : Nat) : (h.holdWindow k x).newHoopWord m w = h.newHoopWord m w := rfl

theorem newHoopWord_hoopClosing (h : Hw) (n v w : Nat) :
    (h.hoopClosing n v).newHoopWord n w = (((h.holdWord (n * 4) v).holdWord (n * 4 + 2) 0).holdWord (n * 4 + 3) 0).newHoopWord n w :=
  (holdClosed_keeps (fun x => x.newHoopWord n w) (fun x k y => newHoopWord_holdWindow x k y n w) n _ _).trans (newHoopWord_holdKey _ n {} n w)

theorem newKey_hoopClosing (h : Hw) (n v : Nat) : (h.hoopClosing n v).newKey n = {} :=
  (holdClosed_keeps (fun x => x.newKey n) (fun _ _ _ => rfl) n _ _).trans (newKey_holdKey_same _ n {})

theorem ctl_hoopClosing (h : Hw) (n v : Nat) : (h.hoopClosing n v).ctl = h.ctl := by
  rw [hoopClosing, holdClosed_keeps (fun x => x.ctl) (fun x k y => ctl_holdWindow x k y)]
  simp only [ctl_holdKey, ctl_holdWord]

theorem hasPlan_holdWord (h : Hw) (k v : Nat) : (h.holdWord k v).hasPlan = h.hasPlan := rfl

theorem hasPlan_holdWindow (h : Hw) (k : Nat) (w : Option Window) : (h.holdWindow k w).hasPlan = h.hasPlan := rfl

theorem hasPlan_holdKey (h : Hw) (n : Nat) (k : KeySlot) : (h.holdKey n k).hasPlan = h.hasPlan := rfl

theorem hasPlan_hoopClosing (h : Hw) (n v : Nat) : (h.hoopClosing n v).hasPlan = h.hasPlan := by
  rw [hoopClosing, holdClosed_keeps (fun x => x.hasPlan) (fun x k y => hasPlan_holdWindow x k y)]
  simp only [hasPlan_holdKey, hasPlan_holdWord]

theorem windows_hoopClosing (h : Hw) (n v : Nat) : (h.hoopClosing n v).windows = h.windows := by
  rw [hoopClosing, holdClosed_keeps (fun x => x.windows) (fun x k y => windows_holdWindow x k y)]
  simp only [windows_holdKey, windows_holdWord]

theorem keys_hoopClosing (h : Hw) (n v : Nat) : (h.hoopClosing n v).keys = h.keys := by
  rw [hoopClosing, holdClosed_keeps (fun x => x.keys) (fun x k y => keys_holdWindow x k y)]
  simp only [keys_holdKey, keys_holdWord]

theorem newWindow_hoopClosing (h : Hw) (n v i : Nat) (hi : i < 16) : (h.hoopClosing n v).newWindow n i = none :=
  newWindow_foldl_none n _ _ i (Or.inl (List.mem_range.mpr hi))

/-- A closing hoop holds its record invalid and its ranges empty. -/
theorem hoopClosing_record (h : Hw) (n v : Nat) (hv : bit 0 v = false) :
    bit 0 ((h.hoopClosing n v).newHoopWord n 0) = false ∧ (h.hoopClosing n v).newHoopWord n 2 = 0 ∧ (h.hoopClosing n v).newHoopWord n 3 = 0 := by
  refine ⟨?_, ?_, ?_⟩
  · rw [newHoopWord_hoopClosing, newHoopWord_holdWord_other _ _ _ _ _ (by omega), newHoopWord_holdWord_other _ _ _ _ _ (by omega)]
    exact (congrArg (bit 0) (newHoopWord_holdWord_same h n 0 v)).trans hv
  · rw [newHoopWord_hoopClosing, newHoopWord_holdWord_other _ _ _ _ _ (by omega), newHoopWord_holdWord_same]
  · rw [newHoopWord_hoopClosing, newHoopWord_holdWord_same]

/-! HP_CORES, HP_SYNC and HP_QUEUE (R369), and windows (R368). -/

/-- The word of a hoop's range register that a write leaves. -/
def rangeWord (k v : Nat) : Nat :=
  if k = 1 then bits 0 16 v else if k = 2 then bits 0 14 v + bits 16 15 v * 65536 else bits 0 12 v + bits 16 13 v * 65536

theorem writeHpRange_eq (h : Hw) (n k v : Nat) (hk : k ∈ [1, 2, 3]) (hn : n < h.build.hoops) :
    h.writeHpRange n k v =
      if bit 0 (h.newHoopWord n 0) && !h.hoopRangesOk n (if k = 1 then rangeWord k v else h.newHoopWord n 1)
          (if k = 2 then rangeWord k v else h.newHoopWord n 2) (if k = 3 then rangeWord k v else h.newHoopWord n 3) then h.hpRefuse n Rc.CFG_HP_RANGE
      else (h.holdWord (n * 4 + k) (rangeWord k v)).settleHoops := by
  simp only [List.mem_cons, List.not_mem_nil, or_false] at hk
  rcases hk with rfl | rfl | rfl
  · exact if_neg (Nat.not_le.mpr hn)
  · exact if_neg (Nat.not_le.mpr hn)
  · exact if_neg (Nat.not_le.mpr hn)

/-- The window that the staging registers describe. -/
def stagedWindow (h : Hw) : Window :=
  { vbase := h.rd .HP_WIN_VBASE 0, pbase := h.rd .HP_WIN_PBASE 0, size := h.rd .HP_WIN_SIZE 0 * 65536, read := bit 1 (h.rd .HP_WIN_ATTR 0),
    write := bit 2 (h.rd .HP_WIN_ATTR 0) }

/-- The key of the window that HP_WSEL names. -/
def selectedWindow (h : Hw) : Nat := h.get F.HP_WSEL_HOOP * 16 + h.get F.HP_WSEL_WINDOW

theorem applyWindow_eq (h : Hw) (hn : h.get F.HP_WSEL_HOOP < h.build.hoops) (hplan : h.hasPlan = true) :
    h.applyWindow =
      if !bit 0 (h.rd .HP_WIN_ATTR 0) then h.holdWindow h.selectedWindow none
      else if !h.windowOk h.selectedWindow h.stagedWindow then h.hpRefuse (h.get F.HP_WSEL_HOOP) Rc.CFG_HP_WINDOW
      else h.holdWindow h.selectedWindow (some h.stagedWindow) := by
  rw [← settleHoops_held (h.holdWindow h.selectedWindow none) hplan, ← settleHoops_held (h.holdWindow h.selectedWindow (some h.stagedWindow)) hplan]
  exact if_neg (Nat.not_le.mpr hn)

/-! Keys (R371, R372). -/

theorem keyWord_op (n op : Nat) (hop : op < 4) : bits 0 2 (withFld F.HP_KEYCMD_OP op (withFld F.HP_KEYCMD_HOOP n 0) % 2 ^ 32) = op :=
  (bits_withFld_same F.HP_KEYCMD_OP op _ (by decide)).trans (Nat.mod_eq_of_lt hop)

theorem keyWord_hoop (n op : Nat) (hn : n < 4096) : bits 16 12 (withFld F.HP_KEYCMD_OP op (withFld F.HP_KEYCMD_HOOP n 0) % 2 ^ 32) = n := by
  rw [bits_withFld_apart F.HP_KEYCMD_OP 16 12 _ _ (by decide) (by decide)]
  exact (bits_putBits 16 12 n 0).trans (Nat.mod_eq_of_lt hn)

theorem writeKeyCmd_erases (h : Hw) (m : Mem) (v n : Nat) (hop : bits 0 2 v = 2) (hn : bits 16 12 v = n) :
    h.writeKeyCmd m v = (h.put F.HP_KEYSTAT_REASON 0).eraseKey n := by
  unfold writeKeyCmd
  simp only [hop, hn]

theorem writeKeyCmd_installs (h : Hw) (m : Mem) (v n : Nat) (hop : bits 0 2 v = 1) (hn : bits 16 12 v = n) :
    h.writeKeyCmd m v = (h.put F.HP_KEYSTAT_REASON 0).installKey m n := by
  unfold writeKeyCmd
  simp only [hop, hn]

theorem eraseKey_held (h : Hw) (n : Nat) (hn : n < h.build.hoops) (hsweep : Tab.find? h.keySweep n = none) (hplan : h.hasPlan = true) :
    h.eraseKey n = h.holdKey n {} := by
  rw [← settleHoops_held (h.holdKey n {}) hplan]
  exact (if_neg (Nat.not_le.mpr hn)).trans (if_neg (by rw [hsweep]; exact Bool.false_ne_true))

/-- The blob is of the form that R371 asks for, for the hoop and its next sequence number. -/
def keyBlobOk (h : Hw) (n : Nat) (b : List Byte) : Prop := leAt 0 4 b = 0x4B570002 ∧ leAt 4 2 b = n ∧ leAt 8 4 b = h.rd .HP_KEYCNT n + 1

/-- The key slot that a blob's content K1‖K2 and its TPUB give. -/
def blobSlot (b k : List Byte) : KeySlot := { key := some (leNat (k.take 64)), tpub := sliceBytes 256 97 b }

theorem badScratch_clean (h : Hw) (addr n : Nat) (hclean : h.badWords = []) : h.badScratch addr n = none := by
  unfold badScratch
  rw [hclean]
  rfl

/-- An install that nothing keeps from reading its blob goes by the blob. -/
theorem installKey_reads (h : Hw) (m : Mem) (n : Nat) (hn : n < h.build.hoops) (hd3 : h.d3Entered = false) (hsweep : Tab.find? h.keySweep n = none)
    (hclean : h.badWords = []) (b : List Byte) (hb : m.read Area.block (h.rd .HP_KEYBLOB 0) 384 = b) :
    h.installKey m n =
      if leAt 0 4 b != 0x4B570002 || leAt 4 2 b != n || leAt 8 4 b != h.rd .HP_KEYCNT n + 1 then h.keyRefuse Rc.SEC_KEY_INVALID
      else match h.unwrapKey n b with
        | none => h.keyRefuse Rc.SEC_KEY_INVALID
        | some k =>
          if k.take 32 == (k.drop 32).take 32 || leAt 64 48 k != (Config.sha384 (sliceBytes 256 97 b)).toNat then h.keyRefuse Rc.SEC_KEY_INVALID
          else ((h.wr .HP_KEYCNT n (h.rd .HP_KEYCNT n + 1)).holdKey n (blobSlot b k)).settleHoops := by
  subst hb
  unfold installKey
  refine (if_neg (Nat.not_le.mpr hn)).trans ((if_neg (by rw [hd3]; exact Bool.false_ne_true)).trans
    ((if_neg (by rw [hsweep]; exact Bool.false_ne_true)).trans ?_))
  rw [badScratch_clean h _ _ hclean]
  rfl

theorem installKey_installs (h : Hw) (m : Mem) (n : Nat) (hn : n < h.build.hoops) (hd3 : h.d3Entered = false) (hsweep : Tab.find? h.keySweep n = none)
    (hclean : h.badWords = []) (hplan : h.hasPlan = true) (b k : List Byte) (hb : m.read Area.block (h.rd .HP_KEYBLOB 0) 384 = b)
    (hok : h.keyBlobOk n b) (hk : h.unwrapKey n b = some k) (hdiff : k.take 32 ≠ (k.drop 32).take 32)
    (hhash : leAt 64 48 k = (Config.sha384 (sliceBytes 256 97 b)).toNat) :
    h.installKey m n = (h.wr .HP_KEYCNT n (h.rd .HP_KEYCNT n + 1)).holdKey n (blobSlot b k) := by
  obtain ⟨hmagic, hhoop, hnext⟩ := hok
  have hplan' : ((h.wr .HP_KEYCNT n (h.rd .HP_KEYCNT n + 1)).holdKey n (blobSlot b k)).hasPlan = true := by
    have hget : ((h.wr .HP_KEYCNT n (h.rd .HP_KEYCNT n + 1)).holdKey n (blobSlot b k)).get F.TM_PRK_ACTIVE_BASE = h.get F.TM_PRK_ACTIVE_BASE :=
      get_wr_reg _ _ _ _ _ _ (by decide)
    rw [hasPlan, hget]
    exact hplan
  rw [installKey_reads h m n hn hd3 hsweep hclean b hb, hmagic, hhoop, hnext]
  simp only [bne_self_eq_false, Bool.or_self, Bool.false_eq_true, if_false, hk, hhash, Bool.or_false, beq_iff_eq, hdiff]
  exact settleHoops_held _ hplan'

theorem installKey_refuses (h : Hw) (m : Mem) (n : Nat) (hn : n < h.build.hoops) (hd3 : h.d3Entered = false) (hsweep : Tab.find? h.keySweep n = none)
    (hclean : h.badWords = []) (b : List Byte) (hb : m.read Area.block (h.rd .HP_KEYBLOB 0) 384 = b)
    (hbad : leAt 0 4 b ≠ 0x4B570002 ∨ leAt 4 2 b ≠ n ∨ leAt 8 4 b ≠ h.rd .HP_KEYCNT n + 1 ∨ h.unwrapKey n b = none) :
    h.installKey m n = h.keyRefuse Rc.SEC_KEY_INVALID := by
  rw [installKey_reads h m n hn hd3 hsweep hclean b hb]
  by_cases hform : (leAt 0 4 b != 0x4B570002 || leAt 4 2 b != n || leAt 8 4 b != h.rd .HP_KEYCNT n + 1) = true
  · exact if_pos hform
  · have hnone : h.unwrapKey n b = none := by
      simp only [Bool.or_eq_true, bne_iff_ne, not_or, Classical.not_not] at hform
      obtain ⟨⟨hmagic, hhoop⟩, hnext⟩ := hform
      rcases hbad with hbad | hbad | hbad | hbad
      · exact absurd hmagic hbad
      · exact absurd hhoop hbad
      · exact absurd hnext hbad
      · exact hbad
    rw [if_neg hform, hnone]

/-! What a key command's clearing of REASON leaves. -/

theorem hasPlan_put (h : Hw) (f : Fld) (v i : Nat) (hf : f.reg ≠ .TM_PRK_ACTIVE) : (h.put f v i).hasPlan = h.hasPlan := by
  rw [hasPlan, get_put_reg _ _ _ _ _ _ hf.symm, hasPlan]

theorem d3Entered_put (h : Hw) (f : Fld) (v i : Nat) (hdebug : f.reg ≠ .SC_DEBUG) (hstate : f.reg ≠ .SC_STATE) :
    (h.put f v i).d3Entered = h.d3Entered := by
  rw [d3Entered, get_put_reg _ _ _ _ _ _ hdebug.symm, get_put_reg _ _ _ _ _ _ hstate.symm, d3Entered]

theorem unwrapKey_put (h : Hw) (f : Fld) (v i n : Nat) (b : List Byte) (hstate : f.reg ≠ .SC_STATE) : (h.put f v i).unwrapKey n b = h.unwrapKey n b := by
  rw [unwrapKey, get_put_reg _ _ _ _ _ _ hstate.symm, unwrapKey, put_build]

theorem keyRefuse_eq (h : Hw) : ∃ e, h.keyRefuse Rc.SEC_KEY_INVALID = (h.put F.HP_KEYSTAT_REASON Rc.SEC_KEY_INVALID).logFault e :=
  ⟨_, raise_unbound h Rc.SEC_KEY_INVALID { unit := 0xE4, refusal := true, reason := some (F.HP_KEYSTAT_REASON, 0) } _ _ rfl rfl (by decide)⟩

theorem hpRefuse_eq (h : Hw) (n : Nat) : ∃ e, h.hpRefuse n Rc.CFG_HP_RANGE = (h.put F.HP_STATUS_REASON Rc.CFG_HP_RANGE n).logFault e :=
  ⟨_, raise_unbound h Rc.CFG_HP_RANGE { unit := 0xE4, refusal := true, reason := some (F.HP_STATUS_REASON, n) } _ _ rfl rfl (by decide)⟩

theorem newHoopWord_put (h : Hw) (f : Fld) (v i n w : Nat) (hf : hoopReg w ≠ f.reg) : (h.put f v i).newHoopWord n w = h.newHoopWord n w := by
  rw [newHoopWord, rd_put_reg _ _ _ _ _ _ hf, newHoopWord, put_hoopHeld]

/-- The sweep of a hoop leaves no line of the generation before the key slot's, and every other line. -/
def keysSwept (h : Hw) (n t : Nat) : Hw :=
  { (h.elapse t).cacheDrop (fun l => l.hoop == n && l.gen == (h.keyGen n + 1) % 4) with keySweep := Tab.erase h.keySweep n }

theorem keySweepDone_eq (h : Hw) (n t : Nat) (hsweep : Tab.find? h.keySweep n = some t) : h.keySweepDone n = h.keysSwept n t := by
  unfold keySweepDone
  rw [hsweep]
  rfl

theorem ticks_keysSwept (h : Hw) (n t : Nat) : (h.keysSwept n t).ticks = max h.ticks t := rfl

theorem keys_keysSwept (h : Hw) (n t : Nat) : (h.keysSwept n t).keys = h.keys := rfl

theorem keySweep_keysSwept (h : Hw) (n t : Nat) : (h.keysSwept n t).keySweep = Tab.erase h.keySweep n := rfl

theorem find?_keysSwept (h : Hw) (n t : Nat) : Tab.find? (h.keysSwept n t).keySweep n = none := by
  rw [keySweep_keysSwept, Tab.find?_erase_same]

theorem cache_keysSwept (h : Hw) (n t : Nat) :
    (h.keysSwept n t).cache = h.cache.filter (fun x => !(x.2.hoop == n && x.2.gen == (h.keyGen n + 1) % 4)) := rfl

theorem mem_cache_keysSwept (h : Hw) (n t : Nat) (l : Nat × CacheLine) :
    l ∈ (h.keysSwept n t).cache ↔ l ∈ h.cache ∧ ¬(l.2.hoop = n ∧ l.2.gen = (h.keyGen n + 1) % 4) := by
  rw [cache_keysSwept, List.mem_filter, Bool.not_eq_true', Bool.and_eq_false_iff, beq_eq_false_iff_ne, beq_eq_false_iff_ne]
  rw [Classical.not_and_iff_not_or_not]

/-! The lifecycle (R376). -/

/-- What the transition to a state erases and makes. -/
def lifecycleErasures (h : Hw) (target : Nat) : Hw :=
  match target with
  | 1 => ((h.makeDeviceKey 0).makeDeviceKey 1).eraseAllKeys
  | 3 => (((h.eraseAllKeys).clearReg .SC_OPKEY).clearReg .SC_DEVPUB).put F.FT_SVC_ADMITTED 0
  | _ => h

/-- A lifecycle command is of the form of Table 14-3, for this block and its nonce. -/
def lifecycleForm (h : Hw) (c : List Byte) : Bool :=
  leAt 0 4 c == 0x4C430002 && leAt 5 1 c < 2 && leAt 6 2 c == 0 && leAt 8 8 c == h.build.serial &&
    leAt 16 8 c == h.rd .SC_NONCE 0 && leAt 24 8 c == 0 && (sliceBytes 32 32 c).all (· == 0#8)

/-- The transition that a lifecycle command asks for is noted. -/
def lifecycleNoted (h : Hw) (target : Nat) : Hw := ((h.put F.SC_STATE_NEXT target).put F.SC_STATE_PENDING 1).freshNonce

theorem lifecycle_eq (h : Hw) (m : Mem) (c : List Byte) (hc : m.read Area.block (h.rd .SC_CMD 0) 256 = c) :
    h.lifecycle m =
      if !(h.rd .SC_CMD 0 + 256 ≤ h.scratchSize && (h.badScratch (h.rd .SC_CMD 0) 256).isNone) || !h.lifecycleForm c || h.on F.SC_STATE_PENDING ||
          !h.lifecycleSigned (leAt 4 1 c) c then (h.scRefuse Rc.SEC_LIFECYCLE).freshNonce
      else (h.lifecycleNoted (leAt 4 1 c)).lifecycleErasures (leAt 4 1 c) := by
  subst hc
  rfl

theorem lifecycle_taken (h : Hw) (m : Mem) (c : List Byte) (hc : m.read Area.block (h.rd .SC_CMD 0) 256 = c)
    (hin : h.rd .SC_CMD 0 + 256 ≤ h.scratchSize) (hclean : h.badWords = []) (hform : h.lifecycleForm c = true)
    (hidle : h.on F.SC_STATE_PENDING = false) (hsigned : h.lifecycleSigned (leAt 4 1 c) c = true) :
    h.lifecycle m = (h.lifecycleNoted (leAt 4 1 c)).lifecycleErasures (leAt 4 1 c) := by
  rw [lifecycle_eq h m c hc]
  refine if_neg ?_
  rw [badScratch_clean h _ _ hclean, hform, hidle, hsigned, decide_eq_true hin]
  exact Bool.false_ne_true

theorem lifecycle_refused (h : Hw) (m : Mem) (c : List Byte) (hc : m.read Area.block (h.rd .SC_CMD 0) 256 = c)
    (hbad : h.on F.SC_STATE_PENDING = true ∨ leAt 0 4 c ≠ 0x4C430002 ∨ leAt 16 8 c ≠ h.rd .SC_NONCE 0 ∨ h.lifecycleSigned (leAt 4 1 c) c = false) :
    h.lifecycle m = (h.scRefuse Rc.SEC_LIFECYCLE).freshNonce := by
  rw [lifecycle_eq h m c hc]
  refine if_pos ?_
  rcases hbad with hpending | hmagic | hnonce | hunsigned
  · rw [hpending, Bool.or_true, Bool.true_or]
  · have hform : h.lifecycleForm c = false := by
      unfold lifecycleForm
      rw [beq_eq_false_iff_ne.mpr hmagic]
      simp only [Bool.false_and]
    rw [hform, Bool.not_false, Bool.or_true, Bool.true_or, Bool.true_or]
  · have hform : h.lifecycleForm c = false := by
      unfold lifecycleForm
      rw [beq_eq_false_iff_ne.mpr hnonce]
      simp only [Bool.false_and, Bool.and_false]
    rw [hform, Bool.not_false, Bool.or_true, Bool.true_or, Bool.true_or]
  · rw [hunsigned, Bool.not_false, Bool.or_true]

theorem keepsReg_freshNonce (r : Reg) (h : Hw) (hr : r ≠ .SC_NONCE) : KeepsReg r h h.freshNonce := fun i => rd_wr_reg h .SC_NONCE r _ 0 i hr

theorem rd_draw (h : Hw) (n : Nat) (r : Reg) (i : Nat) : (h.draw n).rd r i = h.rd r i := rfl

theorem rd_eraseAllKeys (h : Hw) (r : Reg) (i : Nat) : h.eraseAllKeys.rd r i = h.rd r i := rfl

theorem keepsReg_makeDeviceKey (r : Reg) (h : Hw) (k : Nat) (hr : r ≠ .SC_DEVPUB) : KeepsReg r h (h.makeDeviceKey k) := by
  intro i
  unfold makeDeviceKey
  rw [rd_draw]
  exact KeepsReg.foldl _ (fun x j => (KeepsReg.refl x).wr .SC_DEVPUB _ _ hr) _ h i

theorem keepsReg_lifecycleErasures (h : Hw) (target : Nat) : KeepsReg .SC_STATE h (h.lifecycleErasures target) := by
  intro i
  unfold lifecycleErasures
  split
  · rw [rd_eraseAllKeys, keepsReg_makeDeviceKey .SC_STATE _ 1 (by decide) i, keepsReg_makeDeviceKey .SC_STATE _ 0 (by decide) i]
  · rw [rd_put_reg _ _ _ _ _ _ (by decide), rd_clearReg_other _ _ _ _ (by decide), rd_clearReg_other _ _ _ _ (by decide), rd_eraseAllKeys]
  · rfl

/-- No key slot holds a key after all keys are erased. -/
theorem key_eraseAllKeys (h : Hw) (n : Nat) : (Tab.getD h.eraseAllKeys.keys n {}).key = none := by
  unfold Tab.getD
  cases hfind : Tab.find? h.eraseAllKeys.keys n with
  | none => rfl
  | some k =>
    have hmem : (n, k) ∈ h.keys.map (fun p => (p.1, ({ gen := p.2.gen } : KeySlot))) := (List.mem_filter.mp (Tab.find?_mem _ _ _ hfind)).1
    obtain ⟨p, -, hp⟩ := List.mem_map.mp hmem
    rw [Option.getD_some, ← (Prod.mk.inj hp).2]

theorem keys_lifecycleErasures (h : Hw) (target : Nat) (ht : target = 1 ∨ target = 3) (n : Nat) :
    (Tab.getD (h.lifecycleErasures target).keys n {}).key = none := by
  rcases ht with rfl | rfl
  · exact key_eraseAllKeys _ n
  · exact key_eraseAllKeys h n

theorem scState_lifecycleNoted (h : Hw) (target : Nat) :
    (h.lifecycleNoted target).on F.SC_STATE_PENDING = true ∧ (h.lifecycleNoted target).get F.SC_STATE_NEXT = target % 4 ∧
      (h.lifecycleNoted target).get F.SC_STATE_STATE = h.get F.SC_STATE_STATE := by
  have hkeep (f : Fld) (hf : f.reg = .SC_STATE) :
      (h.lifecycleNoted target).get f 0 = ((h.put F.SC_STATE_NEXT target).put F.SC_STATE_PENDING 1).get f 0 :=
    congrArg (bits f.lo f.w) (keepsReg_freshNonce f.reg _ (by rw [hf]; decide) 0)
  refine ⟨?_, ?_, ?_⟩
  · rw [on_eq_get, hkeep _ rfl, get_put_same _ _ _ _ (by decide)]
    rfl
  · rw [hkeep _ rfl, get_put_apart _ F.SC_STATE_PENDING F.SC_STATE_NEXT _ _ rfl (by decide) (by decide), get_put_same _ _ _ _ (by decide)]
    rfl
  · rw [hkeep _ rfl, get_put_apart _ F.SC_STATE_PENDING F.SC_STATE_STATE _ _ rfl (by decide) (by decide),
      get_put_apart _ F.SC_STATE_NEXT F.SC_STATE_STATE _ _ rfl (by decide) (by decide)]

end Hw

/-! The commands. -/

theorem State.hoopOpen_writes (s : State) (a : Agent) (n : Nat) (v : Word) (htakes : s.hw.Takes a .HP_CTRL n) :
    exec (.hoopOpen a n v) s = s.leads (s.hw.writeHpCtrl n (withFld F.HP_CTRL_VALID 1 v.toNat % 2 ^ 32)) :=
  State.answers_writeNamed s a .HP_CTRL n (withFld F.HP_CTRL_VALID 1 v.toNat)
    (fun h => h.writeHpCtrl n (withFld F.HP_CTRL_VALID 1 v.toNat % 2 ^ 32)) htakes rfl

theorem State.hoopClose_writes (s : State) (a : Agent) (n : Nat) (v : Word) (htakes : s.hw.Takes a .HP_CTRL n) :
    exec (.hoopClose a n v) s = s.leads (s.hw.writeHpCtrl n (withFld F.HP_CTRL_VALID 0 v.toNat % 2 ^ 32)) :=
  State.answers_writeNamed s a .HP_CTRL n (withFld F.HP_CTRL_VALID 0 v.toNat)
    (fun h => h.writeHpCtrl n (withFld F.HP_CTRL_VALID 0 v.toNat % 2 ^ 32)) htakes rfl

theorem State.hoopRangeWrite_writes (s : State) (a : Agent) (n k : Nat) (v : Word) (hk : k ∈ [1, 2, 3]) (htakes : s.hw.Takes a (Hw.hoopReg k) n) :
    exec (.hoopRangeWrite a n k v) s = s.leads (s.hw.writeHpRange n k v.toNat) := by
  have hv : v.toNat % 2 ^ 32 = v.toNat := Nat.mod_eq_of_lt v.isLt
  simp only [List.mem_cons, List.not_mem_nil, or_false] at hk
  rw [← hv]
  rcases hk with rfl | rfl | rfl
  · exact State.answers_writeNamed s a .HP_CORES n v.toNat (fun h => h.writeHpRange n 1 (v.toNat % 2 ^ 32)) htakes rfl
  · exact State.answers_writeNamed s a .HP_SYNC n v.toNat (fun h => h.writeHpRange n 2 (v.toNat % 2 ^ 32)) htakes rfl
  · exact State.answers_writeNamed s a .HP_QUEUE n v.toNat (fun h => h.writeHpRange n 3 (v.toNat % 2 ^ 32)) htakes rfl

theorem State.windowApply_writes (s : State) (a : Agent) (htakes : s.hw.Takes a .HP_WIN_APPLY 0) :
    exec (.windowApply a) s = s.leads s.hw.applyWindow :=
  State.answers_writeNamed s a .HP_WIN_APPLY 0 0 (fun h => h.applyWindow) htakes rfl

theorem State.keyErase_writes (s : State) (a : Agent) (n : Nat) (htakes : s.hw.Takes a .HP_KEYCMD 0) (hn : n < 4096) :
    exec (.keyErase a n) s = s.leads ((s.hw.put F.HP_KEYSTAT_REASON 0).eraseKey n) := by
  rw [← Hw.writeKeyCmd_erases s.hw s.mem _ n (Hw.keyWord_op n 2 (by decide)) (Hw.keyWord_hoop n 2 hn)]
  exact State.answers_of s _ _ _ (Hw.writeNamed_of_takes _ _ _ _ _ htakes) rfl

theorem State.keyInstall_writes (s : State) (a : Agent) (n : Nat) (htakes : s.hw.Takes a .HP_KEYCMD 0) (hn : n < 4096) :
    exec (.keyInstall a n) s = s.leads ((s.hw.put F.HP_KEYSTAT_REASON 0).installKey s.mem n) := by
  rw [← Hw.writeKeyCmd_installs s.hw s.mem _ n (Hw.keyWord_op n 1 (by decide)) (Hw.keyWord_hoop n 1 hn)]
  exact State.answers_of s _ _ _ (Hw.writeNamed_of_takes _ _ _ _ _ htakes) rfl

theorem State.lifecycleCommand_writes (s : State) (a : Agent) (htakes : s.hw.Takes a .SC_CMDGO 0) :
    exec (.lifecycleCommand a) s = s.leads (s.hw.lifecycle s.mem) :=
  State.answers_of s _ _ _ (Hw.writeNamed_of_takes _ _ _ _ _ htakes) rfl

/-- The record word of a hoop that a write with VALID leaves. -/
theorem openWord (x : Nat) : withFld F.HP_CTRL_VALID 1 x % 2 ^ 32 % 4 = 1 + 2 * bits 1 1 x := by
  simp only [withFld, putBits, F.HP_CTRL_VALID, bits]
  omega

theorem closeWord_invalid (x : Nat) : bit 0 (withFld F.HP_CTRL_VALID 0 x % 2 ^ 32 % 4) = false := by
  simp only [withFld, putBits, F.HP_CTRL_VALID, bit, beq_eq_false_iff_ne]
  omega

/-- HOOP_OPEN with its checks passed. -/
theorem State.hoopOpen_opens (s : State) (a : Agent) (n : Nat) (v : Word) (htakes : s.hw.Takes a .HP_CTRL n) (hn : n < s.hw.build.hoops)
    (hclosed : bit 0 (s.hw.newHoopWord n 0) = false)
    (hok : s.hw.hoopRangesOk n (s.hw.newHoopWord n 1) (s.hw.newHoopWord n 2) (s.hw.newHoopWord n 3) = true) :
    exec (.hoopOpen a n v) s = s.leads (s.hw.holdWord (n * 4) (1 + 2 * bits 1 1 v.toNat)).settleHoops := by
  rw [State.hoopOpen_writes s a n v htakes, Hw.writeHpCtrl_opens s.hw n _ hn hclosed (bit_setWord F.HP_CTRL_VALID _ rfl (by decide)) hok, openWord]

theorem State.hoopOpen_atOnce (s : State) (a : Agent) (n : Nat) (v : Word) (htakes : s.hw.Takes a .HP_CTRL n) (hn : n < s.hw.build.hoops)
    (hclosed : bit 0 (s.hw.newHoopWord n 0) = false)
    (hok : s.hw.hoopRangesOk n (s.hw.newHoopWord n 1) (s.hw.newHoopWord n 2) (s.hw.newHoopWord n 3) = true)
    (hplan : s.hw.hasPlan = false) (hhoops : s.hw.hoopHeld = []) (hwin : s.hw.windowsHeld = []) (hkeys : s.hw.keysHeld = []) :
    ∃ h', exec (.hoopOpen a n v) s = s.leads h' ∧ h'.on F.HP_CTRL_VALID n = true ∧ s.hw.Only h' [(.HP_CTRL, n)] := by
  have hexec := State.hoopOpen_opens s a n v htakes hn hclosed hok
  rw [show n * 4 = n * 4 + 0 from rfl, Hw.settleHoops_holdWord s.hw n 0 _ (by decide) hplan hhoops hwin hkeys] at hexec
  refine ⟨_, hexec, ?_, (Hw.Only.refl s.hw _).wr _ _ _ List.mem_cons_self⟩
  have hget := Hw.get_wr_same s.hw F.HP_CTRL_VALID (1 + 2 * bits 1 1 v.toNat) n (by decide)
  have hone : bits 0 1 (1 + 2 * bits 1 1 v.toNat) = 1 := by
    simp only [bits]
    omega
  rw [Hw.on_eq_get]
  exact congrArg (· == 1) (hget.trans hone)

theorem State.hoopOpen_refused (s : State) (a : Agent) (n : Nat) (v : Word) (htakes : s.hw.Takes a .HP_CTRL n) (hn : n < s.hw.build.hoops)
    (hclosed : bit 0 (s.hw.newHoopWord n 0) = false)
    (hbad : s.hw.hoopRangesOk n (s.hw.newHoopWord n 1) (s.hw.newHoopWord n 2) (s.hw.newHoopWord n 3) = false) (hplan : s.hw.hasPlan = true) :
    ∃ h', exec (.hoopOpen a n v) s = s.leads h' ∧ h'.get F.HP_STATUS_REASON n = Rc.CFG_HP_RANGE ∧ bit 0 (h'.newHoopWord n 0) = false := by
  have hexec := State.hoopOpen_writes s a n v htakes
  rw [Hw.writeHpCtrl_openRefused s.hw n _ hn hclosed (bit_setWord F.HP_CTRL_VALID _ rfl (by decide)) hbad,
    Hw.settleHoops_held (s.hw.holdWord _ _) hplan] at hexec
  refine ⟨_, hexec, ?_, ?_⟩
  · obtain ⟨e, he⟩ := Hw.hpRefuse_eq (s.hw.holdWord (n * 4) (withFld F.HP_CTRL_VALID 1 v.toNat % 2 ^ 32 % 4 / 2 * 2 % 4)) n
    rw [he, Hw.get_logFault _ _ _ _ (by decide), Hw.get_put_same _ _ _ _ (by decide)]
    rfl
  · obtain ⟨e, he⟩ := Hw.hpRefuse_eq (s.hw.holdWord (n * 4) (withFld F.HP_CTRL_VALID 1 v.toNat % 2 ^ 32 % 4 / 2 * 2 % 4)) n
    have hword := Hw.newHoopWord_holdWord_same s.hw n 0 (withFld F.HP_CTRL_VALID 1 v.toNat % 2 ^ 32 % 4 / 2 * 2 % 4)
    rw [he, Hw.newHoopWord_logFault, Hw.newHoopWord_put _ _ _ _ _ _ (by decide)]
    refine (congrArg (bit 0) hword).trans ?_
    simp only [bit, beq_eq_false_iff_ne]
    omega

theorem State.hoopClose_closes (s : State) (a : Agent) (n : Nat) (v : Word) (htakes : s.hw.Takes a .HP_CTRL n) (hn : n < s.hw.build.hoops)
    (hopen : bit 0 (s.hw.newHoopWord n 0) = true) (hidle : s.hw.hoopBusy n = false) (hplan : s.hw.hasPlan = true) :
    exec (.hoopClose a n v) s = s.leads (s.hw.hoopClosing n (withFld F.HP_CTRL_VALID 0 v.toNat % 2 ^ 32 % 4)) := by
  have hkeep : (s.hw.hoopClosing n (withFld F.HP_CTRL_VALID 0 v.toNat % 2 ^ 32 % 4)).hasPlan = true := by
    have hrd : (s.hw.hoopClosing n (withFld F.HP_CTRL_VALID 0 v.toNat % 2 ^ 32 % 4)).hasPlan = s.hw.hasPlan :=
      Hw.hasPlan_hoopClosing _ _ _
    rw [hrd, hplan]
  rw [State.hoopClose_writes s a n v htakes, Hw.writeHpCtrl_closes s.hw n _ hn hopen (bit_clearWord F.HP_CTRL_VALID _ rfl (by decide)) hidle,
    Hw.settleHoops_held _ hkeep]

/-- A write of a range register by the hoop's record and the ranges as they would stand. -/
theorem State.hoopRangeWrite_eq (s : State) (a : Agent) (n k w : Nat) (v : Word) (hk : k ∈ [1, 2, 3]) (htakes : s.hw.Takes a (Hw.hoopReg k) n)
    (hn : n < s.hw.build.hoops) (hw : w = Hw.rangeWord k v.toNat) :
    exec (.hoopRangeWrite a n k v) s =
      s.leads (if bit 0 (s.hw.newHoopWord n 0) && !s.hw.hoopRangesOk n (if k = 1 then w else s.hw.newHoopWord n 1)
          (if k = 2 then w else s.hw.newHoopWord n 2) (if k = 3 then w else s.hw.newHoopWord n 3) then s.hw.hpRefuse n Rc.CFG_HP_RANGE
        else (s.hw.holdWord (n * 4 + k) w).settleHoops) := by
  rw [State.hoopRangeWrite_writes s a n k v hk htakes, Hw.writeHpRange_eq s.hw n k v.toNat hk hn, hw]

theorem State.windowApply_invalidates (s : State) (a : Agent) (htakes : s.hw.Takes a .HP_WIN_APPLY 0)
    (hn : s.hw.get F.HP_WSEL_HOOP < s.hw.build.hoops) (hplan : s.hw.hasPlan = true) (hoff : bit 0 (s.hw.rd .HP_WIN_ATTR 0) = false) :
    exec (.windowApply a) s = s.leads (s.hw.holdWindow s.hw.selectedWindow none) := by
  rw [State.windowApply_writes s a htakes, Hw.applyWindow_eq s.hw hn hplan, hoff, Bool.not_false, if_pos rfl]

theorem State.windowApply_applies (s : State) (a : Agent) (htakes : s.hw.Takes a .HP_WIN_APPLY 0)
    (hn : s.hw.get F.HP_WSEL_HOOP < s.hw.build.hoops) (hplan : s.hw.hasPlan = true) (hon : bit 0 (s.hw.rd .HP_WIN_ATTR 0) = true)
    (hok : s.hw.windowOk s.hw.selectedWindow s.hw.stagedWindow = true) :
    exec (.windowApply a) s = s.leads (s.hw.holdWindow s.hw.selectedWindow (some s.hw.stagedWindow)) := by
  rw [State.windowApply_writes s a htakes, Hw.applyWindow_eq s.hw hn hplan, hon, hok, Bool.not_true, if_neg Bool.false_ne_true,
    if_neg Bool.false_ne_true]

theorem State.windowApply_refused (s : State) (a : Agent) (htakes : s.hw.Takes a .HP_WIN_APPLY 0)
    (hn : s.hw.get F.HP_WSEL_HOOP < s.hw.build.hoops) (hplan : s.hw.hasPlan = true) (hon : bit 0 (s.hw.rd .HP_WIN_ATTR 0) = true)
    (hbad : s.hw.windowOk s.hw.selectedWindow s.hw.stagedWindow = false) :
    exec (.windowApply a) s = s.leads (s.hw.hpRefuse (s.hw.get F.HP_WSEL_HOOP) Rc.CFG_HP_WINDOW) := by
  rw [State.windowApply_writes s a htakes, Hw.applyWindow_eq s.hw hn hplan, hon, hbad, Bool.not_true, Bool.not_false, if_neg Bool.false_ne_true,
    if_pos rfl]

theorem State.keyErase_erases (s : State) (a : Agent) (n : Nat) (htakes : s.hw.Takes a .HP_KEYCMD 0) (hn : n < s.hw.build.hoops) (h12 : n < 4096)
    (hplan : s.hw.hasPlan = true) (hsweep : Tab.find? s.hw.keySweep n = none) :
    exec (.keyErase a n) s = s.leads ((s.hw.put F.HP_KEYSTAT_REASON 0).holdKey n {}) := by
  have hplan' : (s.hw.put F.HP_KEYSTAT_REASON 0).hasPlan = true := (Hw.hasPlan_put _ _ _ _ (by decide)).trans hplan
  rw [State.keyErase_writes s a n htakes h12, Hw.eraseKey_held _ n (by rw [Hw.put_build]; exact hn) (by rw [Hw.put_keySweep]; exact hsweep) hplan']

/-- An install whose blob is lawful, for the state as the command finds it. -/
theorem State.keyInstall_installs (s : State) (a : Agent) (n : Nat) (b k : List Byte) (htakes : s.hw.Takes a .HP_KEYCMD 0) (hn : n < s.hw.build.hoops)
    (h12 : n < 4096) (hplan : s.hw.hasPlan = true) (hsweep : Tab.find? s.hw.keySweep n = none) (hclean : s.hw.badWords = [])
    (hd3 : s.hw.d3Entered = false) (hb : b = s.mem.read Area.block (s.hw.rd .HP_KEYBLOB 0) 384) (hok : s.hw.keyBlobOk n b)
    (hk : s.hw.unwrapKey n b = some k) (hdiff : k.take 32 ≠ (k.drop 32).take 32)
    (hhash : leAt 64 48 k = (Config.sha384 (sliceBytes 256 97 b)).toNat) :
    exec (.keyInstall a n) s =
      s.leads (((s.hw.put F.HP_KEYSTAT_REASON 0).wr .HP_KEYCNT n (s.hw.rd .HP_KEYCNT n + 1)).holdKey n (Hw.blobSlot b k)) := by
  have hcnt : (s.hw.put F.HP_KEYSTAT_REASON 0).rd .HP_KEYCNT n = s.hw.rd .HP_KEYCNT n := Hw.rd_put_reg _ _ _ _ _ _ (by decide)
  have hblob : (s.hw.put F.HP_KEYSTAT_REASON 0).rd .HP_KEYBLOB 0 = s.hw.rd .HP_KEYBLOB 0 := Hw.rd_put_reg _ _ _ _ _ _ (by decide)
  have hok' : (s.hw.put F.HP_KEYSTAT_REASON 0).keyBlobOk n b := by
    rw [Hw.keyBlobOk, hcnt]
    exact hok
  rw [State.keyInstall_writes s a n htakes h12,
    Hw.installKey_installs _ s.mem n (by rw [Hw.put_build]; exact hn) ((Hw.d3Entered_put _ _ _ _ (by decide) (by decide)).trans hd3)
      (by rw [Hw.put_keySweep]; exact hsweep) (by rw [Hw.put_badWords]; exact hclean) ((Hw.hasPlan_put _ _ _ _ (by decide)).trans hplan) b k (by rw [hblob, hb]) hok' ((Hw.unwrapKey_put _ _ _ _ _ _ (by decide)).trans hk) hdiff hhash,
    hcnt]

theorem State.keyInstall_refuses (s : State) (a : Agent) (n : Nat) (b : List Byte) (htakes : s.hw.Takes a .HP_KEYCMD 0) (hn : n < s.hw.build.hoops)
    (h12 : n < 4096) (hsweep : Tab.find? s.hw.keySweep n = none) (hclean : s.hw.badWords = []) (hd3 : s.hw.d3Entered = false)
    (hb : b = s.mem.read Area.block (s.hw.rd .HP_KEYBLOB 0) 384)
    (hbad : leAt 0 4 b ≠ 0x4B570002 ∨ leAt 4 2 b ≠ n ∨ leAt 8 4 b ≠ s.hw.rd .HP_KEYCNT n + 1 ∨ s.hw.unwrapKey n b = none) :
    exec (.keyInstall a n) s = s.leads ((s.hw.put F.HP_KEYSTAT_REASON 0).keyRefuse Rc.SEC_KEY_INVALID) := by
  have hcnt : (s.hw.put F.HP_KEYSTAT_REASON 0).rd .HP_KEYCNT n = s.hw.rd .HP_KEYCNT n := Hw.rd_put_reg _ _ _ _ _ _ (by decide)
  have hblob : (s.hw.put F.HP_KEYSTAT_REASON 0).rd .HP_KEYBLOB 0 = s.hw.rd .HP_KEYBLOB 0 := Hw.rd_put_reg _ _ _ _ _ _ (by decide)
  rw [State.keyInstall_writes s a n htakes h12,
    Hw.installKey_refuses _ s.mem n (by rw [Hw.put_build]; exact hn) ((Hw.d3Entered_put _ _ _ _ (by decide) (by decide)).trans hd3)
      (by rw [Hw.put_keySweep]; exact hsweep) (by rw [Hw.put_badWords]; exact hclean) b (by rw [hblob, hb]) (by rw [hcnt, Hw.unwrapKey_put _ _ _ _ _ _ (by decide)]; exact hbad)]

/-- A lifecycle command that is taken notes its transition and makes its erasures. -/
theorem State.lifecycleCommand_taken (s : State) (a : Agent) (c : List Byte) (htakes : s.hw.Takes a .SC_CMDGO 0)
    (hc : c = s.mem.read Area.block (s.hw.rd .SC_CMD 0) 256) (hin : s.hw.rd .SC_CMD 0 + 256 ≤ s.hw.scratchSize) (hclean : s.hw.badWords = [])
    (hform : s.hw.lifecycleForm c = true) (hidle : s.hw.on F.SC_STATE_PENDING = false) (hsigned : s.hw.lifecycleSigned (leAt 4 1 c) c = true) :
    ∃ h', exec (.lifecycleCommand a) s = s.leads h' ∧ h'.on F.SC_STATE_PENDING = true ∧ h'.get F.SC_STATE_NEXT = leAt 4 1 c % 4 ∧
      h'.get F.SC_STATE_STATE = s.hw.get F.SC_STATE_STATE ∧ (leAt 4 1 c = 1 ∨ leAt 4 1 c = 3 → ∀ n, (Tab.getD h'.keys n {}).key = none) := by
  have hexec := State.lifecycleCommand_writes s a htakes
  rw [Hw.lifecycle_taken s.hw s.mem c hc.symm hin hclean hform hidle hsigned] at hexec
  have hkeep (f : Fld) (hf : f.reg = .SC_STATE) :
      ((s.hw.lifecycleNoted (leAt 4 1 c)).lifecycleErasures (leAt 4 1 c)).get f 0 = (s.hw.lifecycleNoted (leAt 4 1 c)).get f 0 := by
    rw [Hw.get, Hw.get, hf, Hw.keepsReg_lifecycleErasures]
  obtain ⟨hpending, hnext, hstate⟩ := Hw.scState_lifecycleNoted s.hw (leAt 4 1 c)
  refine ⟨_, hexec, ?_, ?_, ?_, fun ht n => Hw.keys_lifecycleErasures _ _ ht n⟩
  · rw [Hw.on_eq_get, hkeep _ rfl, ← Hw.on_eq_get, hpending]
  · rw [hkeep _ rfl, hnext]
  · rw [hkeep _ rfl, hstate]

/-- Settles O53: hoops, windows and keys by their held values, and the lifecycle by its command. -/
theorem hoopCommandsTakeEffect : Obligations.HoopCommandsTakeEffect := by
  unfold Obligations.HoopCommandsTakeEffect
  refine ⟨?_, ?_, ?_, ?_, ?_, ?_, ?_, ?_, ?_⟩
  · intro s a n v htakes hn hclosed hok
    refine ⟨fun hplan => ?_, fun hplan hhoops hwin hkeys => State.hoopOpen_atOnce s a n v htakes hn hclosed hok hplan hhoops hwin hkeys⟩
    rw [State.hoopOpen_opens s a n v htakes hn hclosed hok, Hw.settleHoops_held (s.hw.holdWord _ _) hplan]
    rfl
  · exact State.hoopOpen_refused
  · intro s a n v htakes hn hopen
    refine ⟨fun hbusy => ?_, fun hidle hplan => ?_⟩
    · rw [State.hoopClose_writes s a n v htakes, Hw.writeHpCtrl_busy s.hw n _ hn hopen (bit_clearWord F.HP_CTRL_VALID _ rfl (by decide)) hbusy]
    · obtain ⟨hword, hsync, hqueue⟩ := Hw.hoopClosing_record s.hw n (withFld F.HP_CTRL_VALID 0 v.toNat % 2 ^ 32 % 4) (closeWord_invalid _)
      exact ⟨_, State.hoopClose_closes s a n v htakes hn hopen hidle hplan, hword, hsync, hqueue, Hw.newKey_hoopClosing _ _ _,
        fun i hi => Hw.newWindow_hoopClosing _ _ _ i hi, Hw.ctl_hoopClosing _ _ _, Hw.windows_hoopClosing _ _ _, Hw.keys_hoopClosing _ _ _⟩
  · intro s a n k w v hk htakes hn hw
    have hexec := State.hoopRangeWrite_eq s a n k w v hk htakes hn hw
    have hk4 : k < 4 := by
      simp only [List.mem_cons, List.not_mem_nil, or_false] at hk
      omega
    refine ⟨fun hclosed hplan => ?_, fun hclosed hplan hhoops hwin hkeys => ?_, fun hopen hbad => ?_⟩
    · rw [hexec, hclosed, Bool.false_and, if_neg Bool.false_ne_true, Hw.settleHoops_held (s.hw.holdWord _ _) hplan]
      rfl
    · rw [hexec, hclosed, Bool.false_and, if_neg Bool.false_ne_true, Hw.settleHoops_holdWord s.hw n k w hk4 hplan hhoops hwin hkeys]
    · rw [hexec, hopen, hbad, Bool.not_false, Bool.and_true, if_pos rfl]
  · intro s a n i x w htakes hhoop hi hx hn hplan hw
    subst hhoop hi hx hw
    exact ⟨State.windowApply_invalidates s a htakes hn hplan, State.windowApply_applies s a htakes hn hplan, State.windowApply_refused s a htakes hn hplan⟩
  · intro s a n htakes hn h12 hplan hsweep
    refine ⟨_, State.keyErase_erases s a n htakes hn h12 hplan hsweep, Hw.newKey_holdKey_same _ _ _, ?_, ?_,
      Hw.only_holdKey (Hw.only_put s.hw F.HP_KEYSTAT_REASON 0 0) n {}⟩
    · rw [Hw.keys_holdKey, Hw.put_keys]
    · rw [Hw.get_holdKey, Hw.get_put_same _ _ _ _ (by decide)]
      rfl
  · intro s a n b k htakes hn h12 hplan hsweep hclean hd3 hb
    refine ⟨fun hmagic hhoop hnext hk hdiff hhash => ?_, fun hbad => ?_⟩
    · refine ⟨_, State.keyInstall_installs s a n b k htakes hn h12 hplan hsweep hclean hd3 hb ⟨hmagic, hhoop, hnext⟩ hk hdiff hhash,
        Hw.newKey_holdKey_same _ _ _, ?_, ?_, ?_⟩
      · rw [Hw.keys_holdKey, Hw.wr_keys, Hw.put_keys]
      · rw [Hw.rd_holdKey, Hw.rd_wr_same]
        rfl
      · rw [Hw.get_holdKey, Hw.get_wr_reg _ _ _ _ _ _ (by decide), Hw.get_put_same _ _ _ _ (by decide)]
        rfl
    · obtain ⟨e, he⟩ := Hw.keyRefuse_eq (s.hw.put F.HP_KEYSTAT_REASON 0)
      refine ⟨_, State.keyInstall_refuses s a n b htakes hn h12 hsweep hclean hd3 hb hbad, ?_, ?_, ?_⟩
      · rw [he, Hw.get_logFault _ _ _ _ (by decide), Hw.get_put_same _ _ _ _ (by decide)]
        rfl
      · rw [he, Hw.keysHeld_logFault, Hw.put_keysHeld, Hw.put_keysHeld]
      · rw [he, Hw.rd_logFault _ _ _ _ (by decide), Hw.rd_put_reg _ _ _ _ _ _ (by decide), Hw.rd_put_reg _ _ _ _ _ _ (by decide)]
  · intro s n t haclk hsweep
    have hexec : exec (.keySweepDone n) s = _ := State.answers_clocked s (fun h => h.keySweepDone n) haclk
    rw [Hw.keySweepDone_eq s.hw n t hsweep] at hexec
    exact ⟨_, hexec, Hw.ticks_keysSwept s.hw n t, Hw.find?_keysSwept s.hw n t, Hw.keys_keysSwept s.hw n t,
      fun l hl => ((Hw.mem_cache_keysSwept s.hw n t l).mp hl).2, fun l hl hother => (Hw.mem_cache_keysSwept s.hw n t l).mpr ⟨hl, hother⟩⟩
  · intro s a c htakes hc
    refine ⟨fun hin hclean hmagic hflags hzero hserial hnonce hzero' hpad hidle hsigned => ?_, fun hbad => ?_⟩
    · refine State.lifecycleCommand_taken s a c htakes hc hin hclean ?_ hidle hsigned
      unfold Hw.lifecycleForm
      simp only [hmagic, hflags, hzero, hserial, hnonce, hzero', hpad, beq_self_eq_true, decide_true, Bool.and_self]
    · rw [State.lifecycleCommand_writes s a htakes, Hw.lifecycle_refused s.hw s.mem c hc.symm hbad]

end Sys2Proof.Machine
end

section
/-! Proofs about clocks and resets (R388 to R394). -/

namespace Sys2Proof.Machine
namespace Hw

/-! Clocks and power state beside the registers. -/

theorem rd_onClocks (h : Hw) (f : Clocks → Clocks) (r : Reg) (i : Nat) : (h.onClocks f).rd r i = h.rd r i := rfl
theorem get_onClocks (h : Hw) (f : Clocks → Clocks) (g : Fld) (i : Nat) : (h.onClocks f).get g i = h.get g i := rfl
theorem clocks_onClocks (h : Hw) (f : Clocks → Clocks) : (h.onClocks f).clocks = f h.clocks := rfl
theorem rd_onPower (h : Hw) (f : Power → Power) (r : Reg) (i : Nat) : (h.onPower f).rd r i = h.rd r i := rfl
theorem get_onPower (h : Hw) (f : Power → Power) (g : Fld) (i : Nat) : (h.onPower f).get g i = h.get g i := rfl
theorem power_onPower (h : Hw) (f : Power → Power) : (h.onPower f).power = f h.power := rfl
theorem only_onClocks {h h' : Hw} {ks : List (Reg × Nat)} (ho : h.Only h' ks) (f : Clocks → Clocks) :
    h.Only { h'.onClocks f with clocks := h.clocks } ks := by
  obtain ⟨hrest, hrd⟩ := ho
  exact ⟨congrArg (fun x : Hw => { x with clocks := h.clocks }) hrest, hrd⟩

theorem only_onPower {h h' : Hw} {ks : List (Reg × Nat)} (ho : h.Only h' ks) (f : Power → Power) :
    h.Only { h'.onPower f with power := h.power } ks := by
  obtain ⟨hrest, hrd⟩ := ho
  exact ⟨congrArg (fun x : Hw => { x with power := h.power }) hrest, hrd⟩

/-! Time passing to a tick. -/

theorem ticks_plinthCount (h : Hw) (n : Nat) (haclk : h.clocks.aclk = false) : (h.plinthCount n).ticks = h.ticks + 44 * n := by
  unfold plinthCount
  rw [haclk, if_neg Bool.false_ne_true]

/-- Time that passes to a tick reaches it. -/
theorem le_ticks_passTo (h : Hw) (t : Nat) : t ≤ (h.passTo t).ticks := by
  unfold passTo
  split
  case isTrue => exact Nat.le_max_right _ _
  case isFalse hoff =>
    have haclk : h.clocks.aclk = false := Bool.eq_false_iff.mpr hoff
    have hceil : t - h.ticks ≤ ceilDiv (t - h.ticks) 44 * 44 := by
      unfold ceilDiv
      omega
    rw [ticks_plinthCount h _ haclk]
    omega

/-! CK_PLL, CK_DOM and CK_MON. -/

/-- A PLL whose lock has begun. -/
def pllLocking (h : Hw) : Hw := (h.put F.CK_PLL_START 1).onClocks (fun k => { k with lockDue := some (h.ticks + 44 * 16384) })

/-- A PLL that is stopped. -/
def pllStopped (h : Hw) : Hw := ((h.put F.CK_PLL_START 0).put F.CK_PLL_LOCKED 0).onClocks (fun k => { k with lockDue := none })

theorem writePll_starts (h : Hw) (hroot : h.onRoot = false) (hoff : h.on F.CK_PLL_START = false) : h.writePll 1 = h.pllLocking :=
  (if_neg (by rw [hroot]; exact Bool.false_ne_true)).trans ((if_pos rfl).trans (if_neg (by rw [hoff]; exact Bool.false_ne_true)))

theorem writePll_stops (h : Hw) (hroot : h.onRoot = false) : h.writePll 0 = h.pllStopped :=
  (if_neg (by rw [hroot]; exact Bool.false_ne_true)).trans (if_neg (by decide))

theorem writePll_refused (h : Hw) (v : Nat) (hroot : h.onRoot = true) : h.writePll v = h.ckRefuse Rc.CFG_CK_SWITCH := if_pos hroot

theorem pllLocking_facts (h : Hw) :
    h.pllLocking.on F.CK_PLL_START = true ∧ h.pllLocking.clocks.lockDue = some (h.ticks + 44 * 16384) ∧
      h.Only { h.pllLocking with clocks := h.clocks } [(.CK_PLL, 0)] := by
  refine ⟨?_, rfl, only_onClocks (only_put h F.CK_PLL_START 1 0) _⟩
  rw [on_eq_get, pllLocking, get_onClocks, get_put_same _ _ _ _ (by decide)]
  rfl

theorem pllStopped_facts (h : Hw) :
    h.pllStopped.on F.CK_PLL_START = false ∧ h.pllStopped.on F.CK_PLL_LOCKED = false ∧ h.pllStopped.clocks.lockDue = none ∧
      h.Only { h.pllStopped with clocks := h.clocks } [(.CK_PLL, 0)] := by
  refine ⟨?_, ?_, rfl, only_onClocks ((only_put h F.CK_PLL_START 0 0).put F.CK_PLL_LOCKED 0 0 List.mem_cons_self) _⟩
  · rw [on_eq_get, pllStopped, get_onClocks, get_put_apart _ F.CK_PLL_LOCKED F.CK_PLL_START _ _ rfl (by decide) (by decide),
      get_put_same _ _ _ _ (by decide)]
    rfl
  · rw [on_eq_get, pllStopped, get_onClocks, get_put_same _ _ _ _ (by decide)]
    rfl

/-- A PLL that has locked. -/
def pllInLock (h : Hw) (t : Nat) : Hw := ((h.passTo t).put F.CK_PLL_LOCKED 1).onClocks (fun k => { k with lockDue := none })

theorem pllLocked_eq (h : Hw) (t : Nat) (hdue : h.clocks.lockDue = some t) : h.pllLocked = h.pllInLock t := by
  unfold pllLocked
  rw [hdue]
  rfl

theorem pllInLock_facts (h : Hw) (t : Nat) :
    t ≤ (h.pllInLock t).ticks ∧ (h.pllInLock t).on F.CK_PLL_LOCKED = true ∧ (h.pllInLock t).clocks.lockDue = none := by
  refine ⟨le_ticks_passTo h t, ?_, rfl⟩
  rw [on_eq_get, pllInLock, get_onClocks, get_put_same _ _ _ _ (by decide)]
  rfl

/-- The word of CK_DOM while a domain's switch is under way. -/
def switchWord (d : Nat) (run : Bool) (x : Nat) : Nat := putBits d 1 (flag run) (putBits (4 + d) 1 1 x)

theorem rd_wr_ckDom (h : Hw) (v : Nat) : (h.wr .CK_DOM 0 v).rd .CK_DOM 0 = v % 2 ^ 32 := rd_wr_same h .CK_DOM 0 v

/-- A domain whose switch has begun. -/
def switching (h : Hw) (d : Nat) (run : Bool) : Hw :=
  (h.wr .CK_DOM 0 (switchWord d run (h.rd .CK_DOM 0))).onClocks (fun k => { k with switches := Tab.insert k.switches d (h.switchTick, run) })

/-- The domains whose bit a word changes are the one domain that it changes. -/
theorem filter_named (p : Nat → Bool) (d : Nat) (hd : d < 3) (hp : p d = true) (hothers : ∀ e, e < 3 → e ≠ d → p e = false) :
    (List.range 3).filter p = [d] := by
  have hrange : List.range 3 = [0, 1, 2] := rfl
  rw [hrange]
  obtain rfl | rfl | rfl : d = 0 ∨ d = 1 ∨ d = 2 := by omega
  · simp [hp, hothers 1, hothers 2]
  · simp [hp, hothers 0, hothers 2]
  · simp [hp, hothers 0, hothers 1]

/-- The domains that a write of one domain's bit names. -/
theorem named_one (d : Nat) (run : Bool) (old v : Nat) (hd : d < 3) (hsame : bit d v = run) (hothers : ∀ e, e < 3 → e ≠ d → bit e v = bit e old)
    (hne : bit d old ≠ run) : (List.range 3).filter (fun e => bit e v != bit e old) = [d] :=
  filter_named _ d hd (by rw [hsame]; exact bne_iff_ne.mpr hne.symm) (fun e he hed => by rw [hothers e he hed, bne_self_eq_false])

theorem writeDom_one (h : Hw) (d v : Nat) (run : Bool) (hd : d < 3) (hsame : bit d v = run)
    (hothers : ∀ e, e < 3 → e ≠ d → bit e v = bit e (h.rd .CK_DOM 0)) (hne : bit d (h.rd .CK_DOM 0) ≠ run) :
    h.writeDom v =
      if run && !h.on F.CK_PLL_LOCKED then h.ckRefuse Rc.CFG_CK_UNLOCKED
      else if bit (4 + d) (h.rd .CK_DOM 0) then h.ckRefuse Rc.CFG_CK_SWITCH
      else h.switching d run := by
  unfold writeDom
  simp only [named_one d run (h.rd .CK_DOM 0) v hd hsame hothers hne, List.any_cons, List.any_nil, Bool.or_false, List.foldl_cons, List.foldl_nil, hsame]
  rfl

theorem bit_putBits (b v x : Nat) : bit b (putBits b 1 v x) = (v % 2 == 1) := by
  rw [bit_eq_bits, bits_putBits, Nat.pow_one]

theorem bit_putBits_apart (b c v x : Nat) (hne : b ≠ c) : bit b (putBits c 1 v x) = bit b x := by
  rw [bit_eq_bits, bits_putBits_apart _ _ _ _ _ _ (by omega), bit_eq_bits]

theorem bit_mod (b n x : Nat) (hb : b < n) : bit b (x % 2 ^ n) = bit b x := by
  rw [bit_eq_bits, bits_mod _ _ _ _ (by omega), bit_eq_bits]

theorem switching_facts (h : Hw) (d : Nat) (run : Bool) (hd : d < 3) :
    bit d ((h.switching d run).rd .CK_DOM 0) = run ∧ bit (4 + d) ((h.switching d run).rd .CK_DOM 0) = true ∧
      Tab.find? (h.switching d run).clocks.switches d = some (h.switchTick, run) ∧ h.Only { h.switching d run with clocks := h.clocks } [(.CK_DOM, 0)] := by
  refine ⟨?_, ?_, Tab.find?_insert_same _ _ _, only_onClocks (only_wr h .CK_DOM 0 _) _⟩
  · rw [switching, rd_onClocks, rd_wr_ckDom, bit_mod d 32 _ (by omega), switchWord, bit_putBits]
    cases run <;> rfl
  · rw [switching, rd_onClocks, rd_wr_ckDom, bit_mod (4 + d) 32 _ (by omega), switchWord, bit_putBits_apart _ _ _ _ (by omega), bit_putBits]
    rfl

/-- The clocks with a domain on its new source. -/
def onSource (d : Nat) (root : Bool) (k : Clocks) : Clocks :=
  let k := { k with switches := Tab.erase k.switches d }
  if d == 0 then { k with aclk := root } else if d == 1 then { k with pclk := root } else { k with mclk := root }

theorem switches_onSource (d : Nat) (root : Bool) (k : Clocks) : (onSource d root k).switches = Tab.erase k.switches d := by
  unfold onSource
  split
  · rfl
  · split <;> rfl

theorem source_onSource (d : Nat) (root : Bool) (k : Clocks) :
    (if d = 0 then (onSource d root k).aclk else if d = 1 then (onSource d root k).pclk else (onSource d root k).mclk) = root := by
  by_cases h0 : d = 0
  · subst h0
    rfl
  · by_cases h1 : d = 1
    · subst h1
      rfl
    · have h0' : (d == 0) = false := beq_eq_false_iff_ne.mpr h0
      have h1' : (d == 1) = false := beq_eq_false_iff_ne.mpr h1
      rw [if_neg h0, if_neg h1]
      unfold onSource
      simp only [h0', h1', Bool.false_eq_true, if_false]

/-- A domain whose switch has ended. -/
def switched (h : Hw) (d t : Nat) (root : Bool) : Hw :=
  ((h.passTo t).wr .CK_DOM 0 (putBits (4 + d) 1 0 ((h.passTo t).rd .CK_DOM 0))).onClocks (onSource d root)

theorem switchEnd_eq (h : Hw) (d t : Nat) (root : Bool) (hdue : Tab.find? h.clocks.switches d = some (t, root)) : h.switchEnd d = h.switched d t root := by
  unfold switchEnd
  rw [hdue]
  rfl

theorem switched_facts (h : Hw) (d t : Nat) (root : Bool) (hd : d < 3) :
    t ≤ (h.switched d t root).ticks ∧ bit (4 + d) ((h.switched d t root).rd .CK_DOM 0) = false ∧
      Tab.find? (h.switched d t root).clocks.switches d = none ∧
      (if d = 0 then (h.switched d t root).clocks.aclk else if d = 1 then (h.switched d t root).clocks.pclk else (h.switched d t root).clocks.mclk) = root := by
  refine ⟨le_ticks_passTo h t, ?_, ?_, ?_⟩
  · rw [switched, rd_onClocks, rd_wr_ckDom, bit_mod (4 + d) 32 _ (by omega), bit_putBits]
    rfl
  · rw [switched, clocks_onClocks, switches_onSource, Tab.find?_erase_same]
  · rw [switched, clocks_onClocks]
    exact source_onSource d root _

/-- A clock monitor with a new setting. -/
def monSet (h : Hw) (x : Nat) : Hw := (h.wr .CK_MON 0 x).onClocks (fun k => { k with mon := x, monDue := some (markAt (h.ticks + 1) + 352) })

theorem writeMon_sets (h : Hw) (v : Nat) (hsource : bits 0 4 v ≤ 7) (hdiv : bits 4 5 v ≤ 17) (hlen : bits 16 16 v ≠ 0) :
    h.writeMon v = h.monSet (Nat.land v 0xFFFF01FF) := by
  unfold writeMon
  refine if_neg ?_
  rw [decide_eq_false (by omega), decide_eq_false (by omega), beq_eq_false_iff_ne.mpr hlen]
  exact Bool.false_ne_true

theorem writeMon_refused (h : Hw) (v : Nat) (hbad : 7 < bits 0 4 v ∨ 17 < bits 4 5 v ∨ bits 16 16 v = 0) : h.writeMon v = h.ckRefuse Rc.CFG_RANGE := by
  unfold writeMon
  refine if_pos ?_
  simp only [Bool.or_eq_true, decide_eq_true_eq, beq_iff_eq]
  omega

/-! Resets (Table 15-3). -/

theorem any_ctorIdx (rs : List Reg) (r : Reg) (i : Nat) : rs.any (fun q => q.ctorIdx == ctlKey r i % 512) = decide (r ∈ rs) := by
  rw [ctlKey_mod]
  by_cases hr : r ∈ rs
  · rw [decide_eq_true hr, List.any_eq_true]
    exact ⟨r, hr, beq_self_eq_true _⟩
  · rw [decide_eq_false hr, List.any_eq_false]
    intro q hq heq
    exact hr (ctorIdx_inj q r (by simpa using heq) ▸ hq)

/-- A state that keeps the values of these registers alone. -/
theorem rd_filtered (h n : Hw) (rs : List Reg) (hctl : n.ctl = h.ctl.filter (fun p => rs.any (fun q => q.ctorIdx == p.1 % 512))) (hbuild : n.build = h.build)
    (hinteg : n.integ = h.integ) (r : Reg) (i : Nat) : n.rd r i = if r ∈ rs then h.rd r i else resetValue h.build h.integ r i % 2 ^ 64 := by
  unfold rd
  rw [hctl, find?_filter_key h.ctl (fun k => rs.any (fun q => q.ctorIdx == k % 512)), hbuild, hinteg, any_ctorIdx]
  by_cases hr : r ∈ rs
  · rw [decide_eq_true hr, if_pos rfl, if_pos hr]
  · rw [decide_eq_false hr, if_neg Bool.false_ne_true, if_neg hr]

/-- The block with its fuses alone. -/
def fusesOnly (h : Hw) : Hw :=
  { build := h.build, integ := h.integ, draws := h.draws, ctl := h.ctl.filter (fun p => fuseRegs.any (fun r => r.ctorIdx == p.1 % 512)) }

theorem rd_fusesOnly (h : Hw) (r : Reg) (i : Nat) :
    h.fusesOnly.rd r i = if r ∈ fuseRegs then h.rd r i else resetValue h.build h.integ r i % 2 ^ 64 :=
  rd_filtered h h.fusesOnly fuseRegs rfl rfl rfl r i

/-- The lifecycle state that the fuses show once they are sensed again. -/
def sensedState (h : Hw) : Nat := if h.on F.SC_STATE_PENDING then h.get F.SC_STATE_NEXT else h.get F.SC_STATE_STATE

/-- The registers after PORZ. -/
def porzRegs (h : Hw) (state : Nat) : Hw :=
  ((h.fusesOnly.wr .SC_STATE 0 (state * 5)).resetLevel).wr .EN_CHAIN 0 (Config.trng h.draws).toNat

/-- What PORZ leaves beside the registers. -/
def porzHeld (n h : Hw) : Hw := { n.draw with mgmt := { certificate := h.mgmt.certificate }, power := { porzLow := true, bootDue := none } }

theorem cores_porzHeld (n h : Hw) : (n.porzHeld h).cores = n.cores := rfl
theorem clocks_porzHeld (n h : Hw) : (n.porzHeld h).clocks = n.clocks := rfl
theorem time_porzHeld (n h : Hw) : (n.porzHeld h).time = n.time := rfl
theorem tams_porzHeld (n h : Hw) : (n.porzHeld h).tams = n.tams := rfl

theorem porz_low (h : Hw) : h.porz false = (h.porzRegs h.sensedState).porzHeld h := rfl

theorem resetLevel_eq (h : Hw) : h.resetLevel = h.wr .SC_DEBUG 0 (if h.get F.SC_STATE_STATE == 0 then 3 else 0) := rfl

theorem rd_porzRegs (h : Hw) (state : Nat) (r : Reg) (i : Nat) (hr : r ∉ [Reg.SC_STATE, .SC_DEBUG, .EN_CHAIN]) :
    (h.porzRegs state).rd r i = h.fusesOnly.rd r i := by
  simp only [List.mem_cons, List.not_mem_nil, or_false, not_or] at hr
  obtain ⟨hstate, hdebug, hchain⟩ := hr
  rw [porzRegs, rd_wr_reg _ _ _ _ _ _ hchain, resetLevel_eq, rd_wr_reg _ _ _ _ _ _ hdebug, rd_wr_reg _ _ _ _ _ _ hstate]

theorem scState_porzRegs (h : Hw) (state : Nat) (hstate : state < 4) : (h.porzRegs state).get F.SC_STATE_STATE = state := by
  have hword := get_wr_same h.fusesOnly F.SC_STATE_STATE (state * 5) 0 (by decide)
  rw [porzRegs, get_wr_reg _ _ _ _ _ _ (by decide), resetLevel_eq, get_wr_reg _ _ _ _ _ _ (by decide)]
  refine hword.trans ?_
  simp only [F.SC_STATE_STATE, bits]
  omega

theorem untouched_porzRegs (h : Hw) (state : Nat) :
    (h.porzRegs state).cores = [] ∧ (h.porzRegs state).clocks = {} ∧ (h.porzRegs state).time.beat = 0 ∧ (h.porzRegs state).tams = [] := by
  have hwr : ∀ (x : Hw), x.resetLevel = x.wr .SC_DEBUG 0 (if x.get F.SC_STATE_STATE == 0 then 3 else 0) := fun x => rfl
  rw [porzRegs, hwr]
  simp only [wr_cores, wr_clocks, wr_time, wr_tams]
  exact ⟨rfl, rfl, rfl, rfl⟩

theorem get_lt (h : Hw) (f : Fld) (i : Nat) : h.get f i < 2 ^ f.w := bits_lt _ _ _

theorem sensedState_lt (h : Hw) : h.sensedState < 4 := by
  unfold sensedState
  split
  · exact get_lt h F.SC_STATE_NEXT 0
  · exact get_lt h F.SC_STATE_STATE 0

theorem porz_low_facts (h : Hw) :
    (h.porz false).power.porzLow = true ∧ (h.porz false).cores = [] ∧ (h.porz false).clocks.aclk = false ∧ (h.porz false).time.beat = 0 ∧
      (h.porz false).tams = [] ∧ (h.porz false).get F.TM_CTRL_ENABLE = 0 ∧ (h.porz false).get F.PL_BOOT_PHASE = 0 ∧
      (h.porz false).get F.SC_STATE_STATE = h.sensedState := by
  have hget (f : Fld) : ((h.porzRegs h.sensedState).porzHeld h).get f 0 = (h.porzRegs h.sensedState).get f 0 := rfl
  have hreset (f : Fld) (hf : f.reg ∉ [Reg.SC_STATE, .SC_DEBUG, .EN_CHAIN]) (hfuse : f.reg ∉ fuseRegs) :
      (h.porzRegs h.sensedState).get f 0 = bits f.lo f.w (resetValue h.build h.integ f.reg 0 % 2 ^ 64) := by
    rw [get, rd_porzRegs h _ _ _ hf, rd_fusesOnly, if_neg hfuse]
  obtain ⟨hcores, hclocks, htime, htams⟩ := untouched_porzRegs h h.sensedState
  rw [porz_low]
  refine ⟨rfl, ?_, ?_, ?_, ?_, ?_, ?_, ?_⟩
  · rw [cores_porzHeld, hcores]
  · rw [clocks_porzHeld, hclocks]
  · rw [time_porzHeld, htime]
  · rw [tams_porzHeld, htams]
  · have hval : resetValue h.build h.integ F.TM_CTRL_ENABLE.reg 0 = Reg.TM_CTRL.desc.resetv := rfl
    rw [hget, hreset _ (by decide) (by decide), hval]
    rfl
  · have hval : resetValue h.build h.integ F.PL_BOOT_PHASE.reg 0 = 0 := rfl
    rw [hget, hreset _ (by decide) (by decide), hval]
    rfl
  · rw [hget, scState_porzRegs h _ (sensedState_lt h)]

theorem porz_rises (h : Hw) (hlow : h.power.porzLow = true) :
    h.porz true = h.onPower (fun p => { p with porzLow := false, bootDue := some (h.ticks + 45056) }) :=
  (if_neg (by decide)).trans (if_pos hlow)

/-! Warm resets (R393). -/

theorem askWarm_awake (h : Hw) (cause : Nat) (hawake : h.power.sleeping = false) (hramp : h.power.ramp = none) : h.askWarm cause = h.startRamp .warm cause := by
  unfold askWarm
  rw [hawake, if_neg Bool.false_ne_true, hramp]

/-- The ramp that a state's loads give. -/
def rampOf (h : Hw) (goal : RampGoal) (cause : Nat) : Ramp :=
  let levels := (List.range h.physCores).foldl (fun a c => a + h.level c) 0
  let units := match goal with
    | .park => h.openGates.length
    | .sleep => h.openPorts.length + h.openLinks.length
    | _ => h.openGates.length + h.openPorts.length + h.openLinks.length
  { goal := goal, credits := 0, kPrime := if goal == .run then h.kNow else h.kDown (levels + h.uCredits * units), cause := cause }

theorem startRamp_eq (h : Hw) (goal : RampGoal) (cause : Nat) :
    h.startRamp goal cause = (h.put F.PW_STATE_BUSY 1).onPower (fun p => { p with ramp := some (h.rampOf goal cause), credits := 0 }) := rfl

/-- A started ramp: BUSY, its goal and cause, and nothing else. -/
theorem startRamp_facts (h : Hw) (g : RampGoal) (c : Nat) :
    (h.startRamp g c).on F.PW_STATE_BUSY = true ∧ (∃ r, (h.startRamp g c).power.ramp = some r ∧ r.goal = g ∧ r.cause = c ∧ r.credits = 0) ∧
      h.Only { h.startRamp g c with power := h.power } [(.PW_STATE, 0)] := by
  rw [startRamp_eq]
  refine ⟨?_, ⟨h.rampOf g c, rfl, rfl, rfl, rfl⟩, only_onPower (only_put h F.PW_STATE_BUSY 1 0) _⟩
  rw [on_eq_get, get_onPower, get_put_same _ _ _ _ (by decide)]
  rfl

theorem warmzLow_startRamp (h : Hw) (g : RampGoal) (c : Nat) : (h.startRamp g c).power.warmzLow = h.power.warmzLow := by
  rw [startRamp_eq, power_onPower, put_power]

theorem warmz_falls (h : Hw) (hporz : h.power.porzLow = false) (hhigh : h.power.warmzLow = false) :
    h.warmz false = (h.onPower (fun p => { p with warmzLow := true })).askWarm 1 := by
  unfold warmz
  rw [hporz, hhigh]
  rfl

/-- The boot of a warm reset is asked for where its reset is done. -/
def warmzRisen (h : Hw) : Hw :=
  if h.bootPhase == 0 && h.get F.PL_BOOT_CAUSE != 0 && !h.power.sleeping && h.power.ramp.isNone then
    h.onPower (fun p => { p with bootDue := some (h.ticks + 1024 * 44) })
  else h

theorem warmz_rises (h : Hw) (hporz : h.power.porzLow = false) (hlow : h.power.warmzLow = true) :
    h.warmz true = (h.onPower (fun p => { p with warmzLow := false })).warmzRisen := by
  unfold warmz
  rw [hporz, hlow]
  rfl

theorem warmzRisen_facts (h : Hw) : h.warmzRisen.power.warmzLow = h.power.warmzLow ∧ h.warmzRisen.ctl = h.ctl := by
  unfold warmzRisen
  split
  · exact ⟨rfl, rfl⟩
  · exact ⟨rfl, rfl⟩

/-- The boot ROM starts. -/
def romStarted (h : Hw) (t : Nat) : Hw := ((h.passTo t).setPhase 1).onPower (fun p => { p with bootDue := none })

theorem warmBootStart_eq (h : Hw) (t : Nat) (hdue : h.power.bootDue = some t) (hcause : h.get F.PL_BOOT_CAUSE ≠ 0) : h.warmBootStart = h.romStarted t := by
  unfold warmBootStart
  rw [hdue]
  exact if_neg (by rw [beq_eq_false_iff_ne.mpr hcause]; exact Bool.false_ne_true)

theorem romStarted_facts (h : Hw) (t : Nat) : t ≤ (h.romStarted t).ticks ∧ (h.romStarted t).bootPhase = 1 ∧ (h.romStarted t).power.bootDue = none := by
  refine ⟨le_ticks_passTo h t, ?_, rfl⟩
  rw [bootPhase, romStarted, get_onPower, setPhase, get_put_same _ _ _ _ (by decide)]
  rfl

/-! Core and tambour resets (R394). -/

/-- A set of cores with one dropped. -/
def dropCore (c x : Nat) : Nat := if bit c x then x - 2 ^ c else x

theorem bit_dropCore (c x : Nat) : bit c (dropCore c x) = false := by
  unfold dropCore
  split
  case isTrue hbit =>
    have hodd : x / 2 ^ c % 2 = 1 := by simpa [bit] using hbit
    have hdiv : (x - 2 ^ c) / 2 ^ c = x / 2 ^ c - 1 := by
      have := Nat.sub_mul_div x (2 ^ c) 1
      rwa [Nat.mul_one] at this
    rw [bit, hdiv, beq_eq_false_iff_ne]
    omega
  case isFalse hbit => exact Bool.eq_false_iff.mpr hbit

theorem dropCore_le (c x : Nat) : dropCore c x ≤ x := by
  unfold dropCore
  split
  · exact Nat.sub_le _ _
  · exact Nat.le_refl _

/-- The core service sets with a core dropped. -/
def setsWithout (h : Hw) (c : Nat) : Hw :=
  { h with scrubbed := dropCore c h.scrubbed, zeroed := dropCore c h.zeroed, admitNext := dropCore c h.admitNext }

theorem unadmit_eq (h : Hw) (c : Nat) :
    h.unadmit c = (h.setsWithout c).showClean.put F.FT_SVC_ADMITTED (dropCore c (h.get F.FT_SVC_ADMITTED)) := rfl

theorem cores_setsWithout (h : Hw) (c : Nat) : (h.setsWithout c).cores = h.cores := rfl

theorem cores_unadmit (h : Hw) (c : Nat) : (h.unadmit c).cores = h.cores := by
  rw [unadmit_eq, put_cores, showClean, put_cores, cores_setsWithout]

theorem admitted_unadmit (h : Hw) (c : Nat) : bit c ((h.unadmit c).get F.FT_SVC_ADMITTED) = false := by
  have hlt : dropCore c (h.get F.FT_SVC_ADMITTED) < 2 ^ 17 := Nat.lt_of_le_of_lt (dropCore_le _ _) (get_lt h F.FT_SVC_ADMITTED 0)
  have hsame : (h.unadmit c).get F.FT_SVC_ADMITTED = dropCore c (h.get F.FT_SVC_ADMITTED) % 2 ^ 17 := by
    rw [unadmit_eq]
    exact get_put_same _ F.FT_SVC_ADMITTED _ 0 (by decide)
  rw [hsame, Nat.mod_eq_of_lt hlt, bit_dropCore]

/-- A key of a core's register that a core reset returns to its reset value. -/
def coreKey (c k : Nat) : Bool := coreRegs.any (fun r => k % 512 == r.1.ctorIdx && k / 512 / r.2 == c)

theorem find?_clearCoreRegs (h : Hw) (c k : Nat) : Tab.find? (h.clearCoreRegs c).ctl k = if coreKey c k then none else Tab.find? h.ctl k := by
  have hfind := find?_filter_key h.ctl (fun k => !coreKey c k) k
  refine Eq.trans hfind ?_
  cases coreKey c k <;> rfl

theorem rd_clearCoreRegs_other (h : Hw) (c : Nat) (r : Reg) (i : Nat) (hr : r ∉ coreRegs.map (fun x => x.1)) : (h.clearCoreRegs c).rd r i = h.rd r i := by
  have hkey : coreKey c (ctlKey r i) = false := by
    unfold coreKey
    rw [List.any_eq_false]
    intro q hq heq
    rw [ctlKey_mod, Bool.and_eq_true] at heq
    exact hr (ctorIdx_inj r q.1 (by simpa using heq.1) ▸ List.mem_map_of_mem hq)
  unfold rd
  rw [find?_clearCoreRegs, hkey, if_neg Bool.false_ne_true]
  rfl

theorem rd_clearCoreRegs_seqCtrl (h : Hw) (c : Nat) : (h.clearCoreRegs c).rd .CR_SEQ_CTRL c = resetValue h.build h.integ .CR_SEQ_CTRL c % 2 ^ 64 := by
  have hkey : coreKey c (ctlKey .CR_SEQ_CTRL c) = true := by
    have hdiv : ctlKey .CR_SEQ_CTRL c / 512 / 1 = c := by
      have hlt : Reg.CR_SEQ_CTRL.ctorIdx < 512 := ctorIdx_lt _
      unfold ctlKey
      omega
    refine List.any_eq_true.mpr ⟨(.CR_SEQ_CTRL, 1), List.mem_cons_self, ?_⟩
    rw [ctlKey_mod, hdiv, beq_self_eq_true, beq_self_eq_true, Bool.and_self]
  unfold rd
  rw [find?_clearCoreRegs, hkey, if_pos rfl]
  rfl

/-- A core's transfers that allocate no line any more, and no gather row of it. -/
def dropFills (h : Hw) (c : Nat) : Hw :=
  { h with txns := h.txns.map (fun (t : PortTxn) => if t.core == c then { t with alloc := false } else t), poolRows := h.poolRows.filter (fun r => r.core != c) }

/-- A core as its reset leaves it. -/
def coreAsReset (k : Core) : Core := { inReset := false, debugHalt := k.debugHalt }

/-- A core that has been reset while no run is bound to it. -/
def coreWasReset (h : Hw) (c : Nat) : Hw := (((h.unadmit c).clearCoreRegs c).onCore c coreAsReset).dropFills c

theorem resetCore_eq (h : Hw) (c : Nat) (hc : c < h.physCores) (hfree : (h.seq c).bound = false) : h.resetCore c false = h.coreWasReset c := by
  have hfree' : (h.core c).seq.bound = false := hfree
  unfold resetCore
  refine (if_neg (Nat.not_le.mpr hc)).trans ?_
  simp only [hfree', Bool.false_eq_true, if_false]
  rfl

theorem cores_clearCoreRegs (h : Hw) (c : Nat) : (h.clearCoreRegs c).cores = h.cores := rfl
theorem core_dropFills (h : Hw) (c d : Nat) : (h.dropFills c).core d = h.core d := rfl
theorem rd_dropFills (h : Hw) (c : Nat) (r : Reg) (i : Nat) : (h.dropFills c).rd r i = h.rd r i := rfl

theorem core_of_cores (h h' : Hw) (hc : h'.cores = h.cores) (d : Nat) : h'.core d = h.core d := by
  rw [core, core, hc]

theorem coreWasReset_facts (h : Hw) (c : Nat) :
    (h.coreWasReset c).core c = { inReset := false, debugHalt := (h.core c).debugHalt } ∧ (h.coreWasReset c).admitted c = false ∧
      (h.coreWasReset c).on F.CR_SEQ_CTRL_ENABLE c = false ∧ (∀ d, d ≠ c → (h.coreWasReset c).core d = h.core d) := by
  have hcore (d : Nat) : ((h.unadmit c).clearCoreRegs c).core d = h.core d :=
    core_of_cores _ _ ((cores_clearCoreRegs _ c).trans (cores_unadmit h c)) d
  have hrd (r : Reg) (i : Nat) : (h.coreWasReset c).rd r i = ((h.unadmit c).clearCoreRegs c).rd r i := by
    rw [coreWasReset, rd_dropFills, rd_onCore]
  refine ⟨?_, ?_, ?_, fun d hd => ?_⟩
  · rw [coreWasReset, core_dropFills, core_onCore_same, hcore]
    rfl
  · rw [admitted, get, hrd, rd_clearCoreRegs_other _ _ _ _ (by decide), ← get]
    exact admitted_unadmit h c
  · rw [on_eq_get, get, hrd]
    have hval : resetValue (h.unadmit c).build (h.unadmit c).integ .CR_SEQ_CTRL c = 0 := rfl
    rw [show F.CR_SEQ_CTRL_ENABLE.reg = Reg.CR_SEQ_CTRL from rfl, rd_clearCoreRegs_seqCtrl, hval]
    rfl
  · rw [coreWasReset, core_dropFills, core_onCore_other _ _ _ _ hd, hcore]

/-- The numbers below n, with one of them in its place. -/
theorem range_split (n b : Nat) (hb : b < n) : List.range n = List.range b ++ b :: List.range' (b + 1) (n - b - 1) := by
  have hn : n = b + (n - b - 1 + 1) := by omega
  have hwhole : List.range' 0 n = List.range' 0 (b + (n - b - 1 + 1)) := congrArg (List.range' 0) hn
  rw [List.range_eq_range', List.range_eq_range', hwhole, ← List.range'_append_1, Nat.zero_add, List.range'_succ]

/-- A word that is one power of two names its bit. -/
theorem filter_bit_pow (n c : Nat) (hc : c < n) : (List.range n).filter (fun d => bit d (2 ^ c)) = [c] := by
  have hbit (d : Nat) : bit d (2 ^ c) = (d == c) := by
    rw [bit]
    rcases Nat.lt_trichotomy d c with hlt | rfl | hgt
    · have : 2 ^ c / 2 ^ d = 2 * 2 ^ (c - d - 1) := by
        rw [Nat.pow_div (by omega) (by decide), ← Nat.pow_succ']
        congr 1
        omega
      rw [this, Nat.mul_mod_right]
      exact (beq_eq_false_iff_ne.mpr (by omega)).symm
    · rw [Nat.div_self (Nat.two_pow_pos d), beq_self_eq_true d]
      rfl
    · rw [Nat.div_eq_of_lt (Nat.pow_lt_pow_right (by decide) hgt)]
      exact (beq_eq_false_iff_ne.mpr (by omega)).symm
  have hbefore : (List.range c).filter (fun d => d == c) = [] := List.filter_eq_nil_iff.mpr fun d hd => by
    rw [beq_iff_eq]
    exact Nat.ne_of_lt (List.mem_range.mp hd)
  have hafter : (List.range' (c + 1) (n - c - 1)).filter (fun d => d == c) = [] := List.filter_eq_nil_iff.mpr fun d hd => by
    rw [beq_iff_eq]
    exact Nat.ne_of_gt (List.mem_range'_1.mp hd).1
  simp only [hbit]
  rw [range_split n c hc, List.filter_append, hbefore, List.filter_cons_of_pos (p := fun d => d == c) (beq_self_eq_true c), hafter, List.nil_append]

/-- A tambour whose reset begins its clearing. -/
def tambourClearing (h : Hw) (t : Nat) : Hw := (((h.tPut t F.TB_CTRL_ENABLE 0).tPut t F.TB_CTRL_RELEASE 0).tPut t F.TB_CTRL_STOP 0).startClearing t

theorem tReset_idle (h : Hw) (t : Nat) (hidle : h.tState t = 0 ∨ h.tState t = 7) : h.tReset t = h := by
  refine if_pos ?_
  rcases hidle with hempty | hclearing
  · rw [hempty]
    simp only [tEmpty, beq_self_eq_true, Bool.or_true, Bool.true_or]
  · rw [hclearing]
    simp only [tClearing, beq_self_eq_true, Bool.or_true]

theorem tReset_clears (h : Hw) (t : Nat) (hex : h.tExists t = true) (hempty : h.tState t ≠ 0) (hclearing : h.tState t ≠ 7) (hrun : h.run.on = false) :
    h.tReset t = h.tambourClearing t := by
  have hcond : (!h.tExists t || h.tState t == tEmpty || h.tState t == tClearing) = false := by
    have hnotEmpty : (h.tState t == tEmpty) = false := beq_eq_false_iff_ne.mpr hempty
    have hnotClearing : (h.tState t == tClearing) = false := beq_eq_false_iff_ne.mpr hclearing
    rw [hex, hnotEmpty, hnotClearing]
    rfl
  have hsrc : (h.tSrc t).inRun = false := by
    unfold tSrc
    simp only [hrun, Bool.false_and]
  refine (if_neg (by rw [hcond]; exact Bool.false_ne_true)).trans ?_
  simp only [hsrc, Bool.false_eq_true, if_false]
  rfl

theorem tambourClearing_facts (h : Hw) (t : Nat) :
    (h.tambourClearing t).tState t = 7 ∧ (h.tambourClearing t).tOn t F.TB_CTRL_ENABLE = false ∧ (h.tambourClearing t).tOn t F.TB_CTRL_RELEASE = false ∧
      (h.tambourClearing t).tOn t F.TB_CTRL_STOP = false := by
  unfold tambourClearing
  rw [startClearing_eq]
  refine ⟨(clearing_registers _ _ _).1, ?_, ?_, ?_⟩
  · rw [tOn_eq_tGet, tGet_clearing _ _ _ _ (by decide) (by decide) (by decide)]
    simp (disch := decide) only [tGet_tPut_apart, tGet_tPut_same]
    rfl
  · rw [tOn_eq_tGet, tGet_clearing _ _ _ _ (by decide) (by decide) (by decide)]
    simp (disch := decide) only [tGet_tPut_apart, tGet_tPut_same]
    rfl
  · rw [tOn_eq_tGet, tGet_clearing _ _ _ _ (by decide) (by decide) (by decide)]
    simp (disch := decide) only [tGet_tPut_same]
    rfl

end Hw

/-! The commands. -/

theorem State.pllWrite (s : State) (a : Agent) (v : Nat) (hv : v % 2 ^ 32 = v) (htakes : s.hw.Takes a .CK_PLL 0) :
    s.answers (Hw.writeNamed a .CK_PLL 0 v) = s.leads (s.hw.writePll v) := by
  have hwrite : Hw.regWrite a { reg := .CK_PLL, idx := 0, outer := 0, hi := false } (v % 2 ^ 32) 0 s.work = s.work.onHw (fun h => h.writePll v) := by
    rw [hv]
    rfl
  exact State.answers_writeNamed s a .CK_PLL 0 v (fun h => h.writePll v) htakes hwrite

/-- A write of CK_DOM with one domain's bit as it is to be. -/
theorem State.domWrite (s : State) (a : Agent) (f : Fld) (run : Bool) (htakes : s.hw.Takes a .CK_DOM 0) :
    s.answers (fun w => Hw.writeNamed a .CK_DOM 0 (withFld f (flag run) (w.hw.rd .CK_DOM 0)) w) =
      s.leads (s.hw.writeDom (withFld f (flag run) (s.hw.rd .CK_DOM 0) % 2 ^ 32)) :=
  State.answers_of s _ _ _ (Hw.writeNamed_of_takes s.work a .CK_DOM 0 _ htakes) rfl

/-- A clock switch by its write of CK_DOM. -/
theorem domSwitches_of (s : State) (a : Agent) (i : Instr) (d : Nat) (run : Bool) (f : Fld) (hf : f.lo = d ∧ f.w = 1) (hd : d < 3)
    (hexec : exec i s = s.answers (fun w => Hw.writeNamed a .CK_DOM 0 (withFld f (flag run) (w.hw.rd .CK_DOM 0)) w)) : domSwitches s a i d run := by
  intro htakes hne
  obtain ⟨hlo, hw⟩ := hf
  have hsame : bit d (withFld f (flag run) (s.hw.rd .CK_DOM 0) % 2 ^ 32) = run := by
    have hfld := bits_withFld_same f (flag run) (s.hw.rd .CK_DOM 0) (by omega)
    rw [hlo, hw] at hfld
    rw [bit_eq_bits, hfld]
    cases run <;> rfl
  have hothers : ∀ e, e < 3 → e ≠ d → bit e (withFld f (flag run) (s.hw.rd .CK_DOM 0) % 2 ^ 32) = bit e (s.hw.rd .CK_DOM 0) :=
    fun e he hed => bit_withFld_apart f e _ _ (by omega) (by omega)
  rw [State.domWrite s a f run htakes, Hw.writeDom_one s.hw d _ run hd hsame hothers hne] at hexec
  refine ⟨fun hlock hidle => ?_, fun hrun hunlocked => ?_⟩
  · have hgo : (run && !s.hw.on F.CK_PLL_LOCKED) = false := by
      cases run with
      | false => rfl
      | true => rw [hlock rfl]; rfl
    rw [hgo, if_neg Bool.false_ne_true, hidle, if_neg Bool.false_ne_true] at hexec
    exact ⟨_, hexec, Hw.switching_facts s.hw d run hd⟩
  · rw [hexec, hrun, hunlocked, Bool.not_false, Bool.and_true, if_pos rfl]

theorem State.warmReset_asked (s : State) (a : Agent) (htakes : s.hw.Takes a .CK_RST 0) (hawake : s.hw.power.sleeping = false) (hramp : s.hw.power.ramp = none) :
    exec (.warmResetRequest a) s = s.leads ((s.hw.put F.CK_RST_WARM 1).startRamp .warm 2) := by
  have hask : s.hw.writeRst (withFld F.CK_RST_WARM 1 0 % 2 ^ 32) = (s.hw.put F.CK_RST_WARM 1).askWarm 2 := rfl
  rw [← Hw.askWarm_awake (s.hw.put F.CK_RST_WARM 1) 2 (by rw [Hw.put_power]; exact hawake) (by rw [Hw.put_power]; exact hramp), ← hask]
  exact State.answers_writeNamed s a .CK_RST 0 (withFld F.CK_RST_WARM 1 0) (fun h => h.writeRst (withFld F.CK_RST_WARM 1 0 % 2 ^ 32)) htakes rfl

theorem State.coreReset_resets (s : State) (a : Agent) (v : Word) (c : Nat) (htakes : s.hw.Takes a .CK_RST 0) (hc : c < 17) (hv : v.toNat = 2 ^ c)
    (hex : c < s.hw.physCores) (hfree : (s.hw.seq c).bound = false) : exec (.coreReset a v) s = s.leads (s.hw.coreWasReset c) := by
  have hword : withFld F.CK_RST_WARM 0 (2 ^ c) % 2 ^ 32 = 2 ^ c := by
    have hlt : 2 ^ c < 2 ^ 17 := Nat.pow_lt_pow_right (by decide) hc
    simp only [withFld, putBits, F.CK_RST_WARM]
    omega
  have hwarm : bit 17 (2 ^ c) = false := by
    have hlt : 2 ^ c < 2 ^ 17 := Nat.pow_lt_pow_right (by decide) hc
    rw [bit, Nat.div_eq_of_lt hlt]
    rfl
  have hwrite : s.hw.writeRst (2 ^ c) = s.hw.coreWasReset c := by
    unfold Hw.writeRst
    simp only [Hw.filter_bit_pow 17 c hc, List.foldl_cons, List.foldl_nil, hwarm, Bool.false_eq_true, if_false]
    exact Hw.resetCore_eq s.hw c hex hfree
  rw [← hwrite]
  refine State.answers_writeNamed s a .CK_RST 0 (withFld F.CK_RST_WARM 0 v.toNat) (fun h => h.writeRst (2 ^ c)) htakes ?_
  rw [hv, hword]
  rfl

theorem State.tambourReset_resets (s : State) (a : Agent) (v : Word) (t : Nat) (htakes : s.hw.Takes a .CK_RSTTB 0) (ht : t < 18) (hv : v.toNat = 2 ^ t) :
    exec (.tambourReset a v) s = s.leads (s.hw.tReset t) := by
  have hword : (2 ^ t) % 2 ^ 32 = 2 ^ t := Nat.mod_eq_of_lt (Nat.pow_lt_pow_right (by decide) (by omega))
  have hwrite : s.hw.writeRstTb (2 ^ t) = s.hw.tReset t := by
    unfold Hw.writeRstTb
    rw [Hw.filter_bit_pow 18 t ht, List.foldl_cons, List.foldl_nil]
  rw [← hwrite]
  refine State.answers_writeNamed s a .CK_RSTTB 0 v.toNat (fun h => h.writeRstTb (2 ^ t)) htakes ?_
  rw [hv, hword]
  rfl

/-- Settles O55: clocks and resets, by the equations of their writes and pins. -/
theorem clocksAndResetsTakeEffect : Obligations.ClocksAndResetsTakeEffect := by
  unfold Obligations.ClocksAndResetsTakeEffect
  refine ⟨?_, ?_, ?_, ?_, ?_, ?_, ?_, ?_, ?_, ?_, ?_⟩
  · intro s a htakes
    have hstart : exec (.pllStart a) s = _ := State.pllWrite s a 1 rfl htakes
    have hstop : exec (.pllStop a) s = _ := State.pllWrite s a 0 rfl htakes
    refine ⟨fun hroot hoff => ?_, fun hroot => ?_, fun hroot => ?_⟩
    · rw [Hw.writePll_starts s.hw hroot hoff] at hstart
      exact ⟨_, hstart, Hw.pllLocking_facts s.hw⟩
    · rw [Hw.writePll_stops s.hw hroot] at hstop
      exact ⟨_, hstop, Hw.pllStopped_facts s.hw⟩
    · rw [hstart, hstop, Hw.writePll_refused s.hw _ hroot, Hw.writePll_refused s.hw _ hroot]
      exact ⟨rfl, rfl⟩
  · intro s t hdue
    have hexec : exec .pllLocked s = _ := State.answers_onHw s (fun h => h.pllLocked)
    rw [Hw.pllLocked_eq s.hw t hdue] at hexec
    exact ⟨_, hexec, Hw.pllInLock_facts s.hw t⟩
  · intro s a run
    exact ⟨domSwitches_of s a _ 0 run F.CK_DOM_ACLK_RUN ⟨rfl, rfl⟩ (by decide) rfl, domSwitches_of s a _ 1 run F.CK_DOM_PCLK_ROOT ⟨rfl, rfl⟩ (by decide) rfl,
      domSwitches_of s a _ 2 run F.CK_DOM_MCLK_ROOT ⟨rfl, rfl⟩ (by decide) rfl⟩
  · intro s d t root hd hdue
    have hexec : exec (.domainSwitchDone d) s = _ := State.answers_onHw s (fun h => h.switchEnd d)
    rw [Hw.switchEnd_eq s.hw d t root hdue] at hexec
    exact ⟨_, hexec, Hw.switched_facts s.hw d t root hd⟩
  · intro s a v htakes
    have hv : v.toNat % 2 ^ 32 = v.toNat := Nat.mod_eq_of_lt v.isLt
    have hexec : exec (.clockMonitorWrite a v) s = s.leads (s.hw.writeMon v.toNat) := by
      refine State.answers_writeNamed s a .CK_MON 0 v.toNat (fun h => h.writeMon v.toNat) htakes ?_
      rw [hv]
      rfl
    refine ⟨fun hsource hdiv hlen => ?_, fun hbad => ?_⟩
    · rw [Hw.writeMon_sets s.hw _ hsource hdiv hlen] at hexec
      have hlt : Nat.land v.toNat 0xFFFF01FF < 2 ^ 32 := Nat.lt_of_le_of_lt Nat.and_le_left v.isLt
      have hrd : (s.hw.monSet (Nat.land v.toNat 0xFFFF01FF)).rd .CK_MON 0 = Nat.land v.toNat 0xFFFF01FF := by
        rw [Hw.monSet, Hw.rd_onClocks]
        exact (Hw.rd_wr_same s.hw .CK_MON 0 _).trans (Nat.mod_eq_of_lt hlt)
      exact ⟨_, hexec, hrd, rfl, Hw.only_onClocks (Hw.only_wr s.hw .CK_MON 0 _) _⟩
    · rw [hexec, Hw.writeMon_refused s.hw _ hbad]
  · intro s
    have hexec (x : Bool) : exec (.porz x) s = s.leads (s.hw.porz x) := State.answers_onHw s (fun h => h.porz x)
    refine ⟨⟨_, hexec false, Hw.porz_low_facts s.hw⟩, fun hlow => ?_⟩
    rw [hexec true, Hw.porz_rises s.hw hlow]
    rfl
  · intro s hporz
    have hexec (x : Bool) : exec (.warmz x) s = s.leads (s.hw.warmz x) := State.answers_onHw s (fun h => h.warmz x)
    refine ⟨fun hhigh hawake hramp => ?_, fun hlow => ?_⟩
    · have hfall := hexec false
      rw [Hw.warmz_falls s.hw hporz hhigh, Hw.askWarm_awake (s.hw.onPower (fun p => { p with warmzLow := true })) 1 hawake hramp] at hfall
      obtain ⟨hbusy, ⟨r, hr, hgoal, hcause, -⟩, -⟩ := Hw.startRamp_facts (s.hw.onPower (fun p => { p with warmzLow := true })) .warm 1
      exact ⟨_, r, hfall, (Hw.warmzLow_startRamp _ _ _).trans rfl, hr, hgoal, hcause, hbusy⟩
    · have hrise := hexec true
      rw [Hw.warmz_rises s.hw hporz hlow] at hrise
      obtain ⟨hwarmz, hctl⟩ := Hw.warmzRisen_facts (s.hw.onPower (fun p => { p with warmzLow := false }))
      exact ⟨_, hrise, hwarmz.trans rfl, hctl.trans rfl⟩
  · intro s a htakes hawake hramp
    obtain ⟨hbusy, ⟨r, hr, hgoal, hcause, -⟩, -⟩ := Hw.startRamp_facts (s.hw.put F.CK_RST_WARM 1) .warm 2
    refine ⟨_, r, State.warmReset_asked s a htakes hawake hramp, ?_, hr, hgoal, hcause, hbusy, ?_⟩
    · rw [Hw.startRamp_eq, Hw.on_eq_get, Hw.get_onPower, Hw.get_put_reg _ _ _ _ _ _ (by decide), Hw.get_put_same _ _ _ _ (by decide)]
      rfl
    · rw [Hw.startRamp_eq]
      exact Hw.only_onPower (((Hw.Only.refl s.hw _).put F.CK_RST_WARM 1 0 (by decide)).put F.PW_STATE_BUSY 1 0 (by decide)) _
  · intro s t hdue hcause
    have hexec : exec .warmResetBootStart s = _ := State.answers_onHw s (fun h => h.warmBootStart)
    rw [Hw.warmBootStart_eq s.hw t hdue hcause] at hexec
    exact ⟨_, hexec, Hw.romStarted_facts s.hw t⟩
  · intro s a v c htakes hc hv hex hfree
    exact ⟨_, State.coreReset_resets s a v c htakes hc hv hex hfree, Hw.coreWasReset_facts s.hw c⟩
  · intro s a v t htakes ht hv hex
    have hexec := State.tambourReset_resets s a v t htakes ht hv
    refine ⟨fun hidle => ?_, fun hempty hclearing hrun => ?_⟩
    · rw [hexec, Hw.tReset_idle s.hw t hidle]
    · rw [Hw.tReset_clears s.hw t hex hempty hclearing hrun] at hexec
      exact ⟨_, hexec, Hw.tambourClearing_facts s.hw t⟩

end Sys2Proof.Machine
end

section
/-! Proofs about power states, ramps, wake events and the governor (R395 to R402, R406, R445 to R447). -/

namespace Sys2Proof.Machine
namespace Hw

/-! What a raise leaves beside the registers, the fault log, the run and the abort. -/

/-- A projection that a field's write, the fault log's list, the run and the abort do not reach. -/
structure Aside {α : Type} (g : Hw → α) : Prop where
  put : ∀ (h : Hw) (f : Fld) (v i : Nat), g (h.put f v i) = g h
  log : ∀ (h : Hw) (l : List FaultEntry), g (h.setFaultLog l) = g h
  run : ∀ (h : Hw) (r : Run), g (h.setRun r) = g h
  ab : ∀ (h : Hw) (a : AbortState), g (h.setAb a) = g h

theorem Aside.logFault {α : Type} {g : Hw → α} (hg : Aside g) (h : Hw) (e : FaultEntry) : g (h.logFault e) = g h := logFault_keeps g hg.put hg.log h e

theorem Aside.beginAbort {α : Type} {g : Hw → α} (hg : Aside g) (h : Hw) (code : Nat) (src : Src) : g (h.beginAbort code src) = g h := by
  by_cases hgo : h.run.on = true ∧ h.ab.on = false
  · obtain ⟨hrun, hab⟩ := hgo
    obtain ⟨ab, beat, heq, -⟩ := h.beginAbort_eq code src hrun hab
    rw [heq]
    unfold abortRegs
    rw [hg.put, hg.put, hg.put, hg.put, hg.put, hg.put, hg.run, hg.ab]
  · have hstop : (h.ab.on || !h.run.on) = true := by
      cases hon : h.ab.on with
      | true => rfl
      | false =>
        cases hrun : h.run.on with
        | false => rfl
        | true => exact absurd ⟨hrun, hon⟩ hgo
    exact congrArg g (if_pos hstop)

/-- A raise with a reason field is the reason's write, and the raise without. -/
theorem raise_reason (h : Hw) (code : Nat) (src : Src) (f : Fld) (i : Nat) (hreason : src.reason = some (f, i)) :
    h.raise code src = (h.put f code i).raise code { src with reason := none } := by
  unfold raise
  simp only [hreason]
  rfl

theorem Aside.ite {α : Type} {g : Hw → α} {x : α} {p : Prop} [Decidable p] {h1 h2 : Hw} (ha : g h1 = x) (hb : g h2 = x) :
    g (if p then h1 else h2) = x := by
  split
  · exact ha
  · exact hb

theorem Aside.raised {α : Type} {g : Hw → α} (hg : Aside g) (h : Hw) (code : Nat) (src : Src) (hreason : src.reason = none) :
    g (h.raise code src) = g h := by
  unfold Hw.raise
  simp only [hreason]
  refine Aside.ite (Aside.ite ?_ ?_) (hg.logFault h _)
  · exact (hg.run _ _).trans (hg.logFault h _)
  · exact (hg.beginAbort _ _ _).trans (hg.logFault h _)

theorem Aside.raise {α : Type} {g : Hw → α} (hg : Aside g) (h : Hw) (code : Nat) (src : Src) : g (h.raise code src) = g h := by
  cases hs : src.reason with
  | none => exact hg.raised h code src hs
  | some p =>
    obtain ⟨f, i⟩ := p
    rw [raise_reason h code src f i hs, hg.raised _ _ _ rfl, hg.put]

theorem aside_power : Aside (fun h => h.power) := ⟨fun _ _ _ _ => rfl, fun _ _ => rfl, fun _ _ => rfl, fun _ _ => rfl⟩
theorem aside_energy : Aside (fun h => h.energy) := ⟨fun _ _ _ _ => rfl, fun _ _ => rfl, fun _ _ => rfl, fun _ _ => rfl⟩

/-- A field of a register that an abort does not write, once a raise has placed its reason. -/
theorem get_raise (h : Hw) (code : Nat) (src : Src) (f : Fld) (i : Nat) (hreason : src.reason = some (f, i)) (g : Fld) (j : Nat) (hg : g.reg ∉ settledRegs) :
    (h.raise code src).get g j = (h.put f code i).get g j := by
  rw [raise_reason h code src f i hreason]
  exact congrArg (bits g.lo g.w) (keeps_raised hg (h.put f code i) code { src with reason := none } rfl j)

/-! Warm resets and SLEEP (R383, R393). -/

theorem rd_bare (h : Hw) (rs : List Reg) (r : Reg) (i : Nat) :
    (h.bare rs).rd r i = if r ∈ rs then h.rd r i else resetValue h.build h.integ r i % 2 ^ 64 := rd_filtered h (h.bare rs) rs rfl rfl rfl r i

/-- A processor as a warm reset leaves it: its locked instruction memory alone. -/
def lockKept (p : Processor) : Processor := { code := p.code, locked := p.locked, fwMajor := p.fwMajor, fwMinor := p.fwMinor, entry := p.entry }

/-- Power state as a warm reset leaves it. -/
def warmPower (h : Hw) : Power :=
  { bootDue := if h.power.warmzLow then none else some (h.ticks + 1024 * 44), warmzLow := h.power.warmzLow, porzLow := h.power.porzLow,
    powerGood := h.power.powerGood, thermal := h.power.thermal }

/-- What a warm reset keeps beside the registers. -/
def warmKept (n h : Hw) : Hw :=
  { n with power := h.warmPower,
           procs := { dispatcher := lockKept h.procs.dispatcher, keeper := lockKept h.procs.keeper },
           energy := { chainStart := h.energy.chainStart }, tap := h.tap }

/-- The block after a warm reset, but for the registers that name it. -/
def warmBase (h : Hw) : Hw := (h.bare (plinthRegs ++ fuseRegs)).warmKept h

/-- The registers that a warm reset's cause is shown in. -/
def causeShown (h : Hw) (cause : Nat) : Hw := ((h.put F.PL_BOOT_PHASE 0).put F.PL_BOOT_CAUSE cause).resetLevel

theorem warmReset_eq (h : Hw) (cause : Nat) : h.warmReset cause = h.warmBase.causeShown cause := rfl

theorem causeShown_eq (h : Hw) (cause : Nat) : ∃ x, h.causeShown cause = ((h.put F.PL_BOOT_PHASE 0).put F.PL_BOOT_CAUSE cause).wr .SC_DEBUG 0 x := ⟨_, rfl⟩

theorem rd_causeShown (h : Hw) (cause : Nat) (r : Reg) (i : Nat) (hr : r ≠ .PL_BOOT ∧ r ≠ .SC_DEBUG) : (h.causeShown cause).rd r i = h.rd r i := by
  obtain ⟨x, hx⟩ := causeShown_eq h cause
  rw [hx, rd_wr_reg _ _ _ _ _ _ hr.2, rd_put_reg _ _ _ _ _ _ hr.1, rd_put_reg _ _ _ _ _ _ hr.1]

theorem boot_causeShown (h : Hw) (cause : Nat) :
    (h.causeShown cause).get F.PL_BOOT_CAUSE = cause % 16 ∧ (h.causeShown cause).get F.PL_BOOT_PHASE = 0 := by
  obtain ⟨x, hx⟩ := causeShown_eq h cause
  rw [hx, get_wr_reg _ _ _ _ _ _ (by decide), get_wr_reg _ _ _ _ _ _ (by decide)]
  refine ⟨get_put_same _ _ _ _ (by decide), ?_⟩
  rw [get_put_apart _ F.PL_BOOT_CAUSE F.PL_BOOT_PHASE _ _ rfl (by decide) (by decide), get_put_same _ _ _ _ (by decide)]
  rfl

theorem power_causeShown (h : Hw) (cause : Nat) : (h.causeShown cause).power = h.power := by
  obtain ⟨x, hx⟩ := causeShown_eq h cause
  rw [hx, wr_power, put_power, put_power]

theorem ticks_causeShown (h : Hw) (cause : Nat) : (h.causeShown cause).ticks = h.ticks := by
  obtain ⟨x, hx⟩ := causeShown_eq h cause
  rw [hx, wr_ticks, put_ticks, put_ticks]

theorem cores_causeShown (h : Hw) (cause : Nat) : (h.causeShown cause).cores = h.cores := by
  obtain ⟨x, hx⟩ := causeShown_eq h cause
  rw [hx, wr_cores, put_cores, put_cores]

theorem clocks_causeShown (h : Hw) (cause : Nat) : (h.causeShown cause).clocks = h.clocks := by
  obtain ⟨x, hx⟩ := causeShown_eq h cause
  rw [hx, wr_clocks, put_clocks, put_clocks]

theorem keys_causeShown (h : Hw) (cause : Nat) : (h.causeShown cause).keys = h.keys := by
  obtain ⟨x, hx⟩ := causeShown_eq h cause
  rw [hx, wr_keys, put_keys, put_keys]

theorem rd_warmBase (h : Hw) (r : Reg) (i : Nat) :
    h.warmBase.rd r i = if r ∈ plinthRegs ++ fuseRegs then h.rd r i else resetValue h.build h.integ r i % 2 ^ 64 := rd_bare h _ r i

/-- A warm reset: its cause, the ROM, and nothing left of the cores, the clocks and the keys. -/
theorem warmReset_facts (h : Hw) (cause : Nat) :
    (h.warmReset cause).get F.PL_BOOT_CAUSE = cause % 16 ∧ (h.warmReset cause).get F.PL_BOOT_PHASE = 0 ∧ (h.warmReset cause).cores = [] ∧
      (h.warmReset cause).clocks.aclk = false ∧ (h.warmReset cause).keys = [] ∧ (h.warmReset cause).get F.TM_CTRL_ENABLE = 0 := by
  obtain ⟨hcause, hphase⟩ := boot_causeShown h.warmBase cause
  rw [warmReset_eq, cores_causeShown, clocks_causeShown, keys_causeShown]
  refine ⟨hcause, hphase, rfl, rfl, rfl, ?_⟩
  have hval : resetValue h.build h.integ F.TM_CTRL_ENABLE.reg 0 = Reg.TM_CTRL.desc.resetv := rfl
  rw [get, rd_causeShown _ _ _ _ (by decide), rd_warmBase, if_neg (by decide), hval]
  rfl

theorem power_warmReset (h : Hw) (cause : Nat) :
    (h.warmReset cause).power.powerGood = h.power.powerGood ∧ (h.warmReset cause).ticks = h.ticks ∧
      (h.power.warmzLow = false → (h.warmReset cause).power.bootDue = some (h.ticks + 45056)) := by
  rw [warmReset_eq, power_causeShown, ticks_causeShown]
  refine ⟨rfl, rfl, fun hhigh => ?_⟩
  have hdue : h.warmBase.power.bootDue = if h.power.warmzLow then none else some (h.ticks + 1024 * 44) := rfl
  rw [hdue, hhigh, if_neg Bool.false_ne_true]

/-- The registers that SLEEP keeps. -/
def sleepRegs (h : Hw) : List Reg := plinthRegs ++ fuseRegs ++ (if h.get F.SC_DEBUG_LEVEL == 3 then [.SC_DEBUG, .SC_DEBUG_END] else [])

/-- What SLEEP keeps beside the registers. -/
def sleepKept (n h : Hw) (tripped : Bool) : Hw :=
  { n with
    power := { bootDue := none, sleeping := true, tripped := tripped, warmzLow := h.power.warmzLow, powerGood := h.power.powerGood, thermal := h.power.thermal },
    keys := h.keys, energy := { chainStart := h.energy.chainStart }, tap := h.tap }

/-- The registers that SLEEP writes. -/
def sleepShown (n : Hw) (tripped keepLevel : Bool) : Hw :=
  let n := if tripped then n.put F.PL_BOOT_CAUSE 4 else n
  if keepLevel then n else n.wr .SC_DEBUG 0 0

theorem enterSleep_eq (h : Hw) (tripped : Bool) :
    h.enterSleep tripped = ((h.bare h.sleepRegs).sleepKept h tripped).sleepShown tripped (h.get F.SC_DEBUG_LEVEL == 3) := rfl

/-- What the registers' writes do not reach, the writes of SLEEP leave. -/
theorem sleepShown_keeps {α : Type} (g : Hw → α) (hwr : ∀ (h : Hw) (r : Reg) (i v : Nat), g (h.wr r i v) = g h) (n : Hw) (tripped keepLevel : Bool) :
    g (n.sleepShown tripped keepLevel) = g n := by
  have hput (h : Hw) (f : Fld) (v : Nat) : g (h.put f v) = g h := hwr h _ _ _
  unfold sleepShown
  cases tripped with
  | true =>
    cases keepLevel with
    | true => exact hput _ _ _
    | false => exact (hwr _ _ _ _).trans (hput _ _ _)
  | false =>
    cases keepLevel with
    | true => rfl
    | false => exact hwr _ _ _ _

theorem rd_sleepShown (n : Hw) (tripped keepLevel : Bool) (r : Reg) (i : Nat) (hr : r ≠ .PL_BOOT ∧ r ≠ .SC_DEBUG) :
    (n.sleepShown tripped keepLevel).rd r i = n.rd r i := by
  unfold sleepShown
  cases tripped with
  | true =>
    cases keepLevel with
    | true => exact rd_put_reg _ _ _ _ _ _ hr.1
    | false => exact (rd_wr_reg _ _ _ _ _ _ hr.2).trans (rd_put_reg _ _ _ _ _ _ hr.1)
  | false =>
    cases keepLevel with
    | true => rfl
    | false => exact rd_wr_reg _ _ _ _ _ _ hr.2

theorem rd_sleepKept (n h : Hw) (tripped : Bool) (r : Reg) (i : Nat) : (n.sleepKept h tripped).rd r i = n.rd r i := rfl

theorem enterSleep_facts (h : Hw) (tripped : Bool) :
    (h.enterSleep tripped).power.sleeping = true ∧ (h.enterSleep tripped).power.tripped = tripped ∧ (h.enterSleep tripped).keys = h.keys ∧
      (h.enterSleep tripped).cores = [] ∧ (h.enterSleep tripped).clocks.aclk = false ∧ (∀ k, (h.enterSleep tripped).rd .PL_WAKE k = h.rd .PL_WAKE k) := by
  have hpower := sleepShown_keeps (fun x => x.power) (fun _ _ _ _ => rfl) ((h.bare h.sleepRegs).sleepKept h tripped) tripped (h.get F.SC_DEBUG_LEVEL == 3)
  have hkeys := sleepShown_keeps (fun x => x.keys) (fun _ _ _ _ => rfl) ((h.bare h.sleepRegs).sleepKept h tripped) tripped (h.get F.SC_DEBUG_LEVEL == 3)
  have hcores := sleepShown_keeps (fun x => x.cores) (fun _ _ _ _ => rfl) ((h.bare h.sleepRegs).sleepKept h tripped) tripped (h.get F.SC_DEBUG_LEVEL == 3)
  have hclocks := sleepShown_keeps (fun x => x.clocks) (fun _ _ _ _ => rfl) ((h.bare h.sleepRegs).sleepKept h tripped) tripped (h.get F.SC_DEBUG_LEVEL == 3)
  rw [enterSleep_eq]
  refine ⟨?_, ?_, hkeys.trans rfl, hcores.trans rfl, ?_, fun k => ?_⟩
  · exact (congrArg (fun p => p.sleeping) hpower).trans rfl
  · exact (congrArg (fun p => p.tripped) hpower).trans rfl
  · exact (congrArg (fun c => c.aclk) hclocks).trans rfl
  · have hmem : Reg.PL_WAKE ∈ h.sleepRegs := List.mem_append_left _ (by decide)
    rw [rd_sleepShown _ _ _ _ _ (by decide), rd_sleepKept, rd_bare, if_pos hmem]

/-! A falling rail (R393). -/

/-- The power-good inputs with a rail's dropped. -/
def railDropped (rail : Nat) (p : Power) : Power := { p with powerGood := dropCore rail p.powerGood }

theorem railFault_eq (h : Hw) (n : Nat) (hn : n < 8) (hawake : h.power.sleeping = false) (hporz : h.power.porzLow = false) (hen : h.on F.EN_RAIL_EN n = true) :
    h.railFault n = ((h.onPower (railDropped n)).raise Rc.PWR_RAIL_FAULT pwSrc).warmReset 3 := by
  refine if_neg ?_
  rw [decide_eq_false (Nat.not_le.mpr hn), hawake, hporz, hen]
  exact Bool.false_ne_true

theorem railFault_facts (h : Hw) (n : Nat) (hn : n < 8) (hawake : h.power.sleeping = false) (hporz : h.power.porzLow = false)
    (hen : h.on F.EN_RAIL_EN n = true) :
    (h.railFault n).get F.PL_BOOT_CAUSE = 3 ∧ (h.railFault n).get F.PL_BOOT_PHASE = 0 ∧ (h.railFault n).cores = [] ∧
      (h.railFault n).clocks.aclk = false ∧ bit n (h.railFault n).power.powerGood = false ∧ (h.railFault n).get F.TM_CTRL_ENABLE = 0 ∧
      (h.power.warmzLow = false → (h.railFault n).power.bootDue = some ((h.railFault n).ticks + 45056)) := by
  have hpower : ((h.onPower (railDropped n)).raise Rc.PWR_RAIL_FAULT pwSrc).power = railDropped n h.power := aside_power.raise _ _ _
  obtain ⟨hcause, hphase, hcores, haclk, -, htm⟩ := warmReset_facts ((h.onPower (railDropped n)).raise Rc.PWR_RAIL_FAULT pwSrc) 3
  obtain ⟨hgood, hticks, hdue⟩ := power_warmReset ((h.onPower (railDropped n)).raise Rc.PWR_RAIL_FAULT pwSrc) 3
  rw [railFault_eq h n hn hawake hporz hen]
  refine ⟨hcause, hphase, hcores, haclk, ?_, htm, fun hhigh => ?_⟩
  · rw [hgood, hpower]
    exact bit_dropCore n h.power.powerGood
  · rw [hticks]
    exact hdue (by rw [hpower]; exact hhigh)

/-! PW_REQ (Table 15-5). -/

/-- A tambour is at rest for a request: it does not exist, or is EMPTY or LOADED. -/
def atRest (h : Hw) (t : Nat) : Bool := !h.tExists t || h.tState t == tEmpty || h.tState t == tLoaded

theorem writePwReq_eq (h : Hw) (v : Nat) (hv : v < 3) (hidle : h.on F.PW_STATE_BUSY = false) :
    h.writePwReq v =
      if v == 0 && h.get F.PW_STATE_STATE == 2 then h.startRamp .run 0
      else if v == 1 && h.get F.PW_STATE_STATE < 2 && (List.range h.physCores).all (fun c => !h.on F.CR_SEQ_CTRL_ENABLE c && h.atRest c) then h.startRamp .park 0
      else if v == 2 && h.get F.PW_STATE_STATE == 2 && h.atRest gatherTambour then h.startRamp .sleep 0
      else h.pwRefuse Rc.CFG_PW_STATE := by
  have hcase : v = 0 ∨ v = 1 ∨ v = 2 := by omega
  rcases hcase with rfl | rfl | rfl
  · exact if_neg (by rw [hidle]; exact Bool.false_ne_true)
  · exact if_neg (by rw [hidle]; exact Bool.false_ne_true)
  · exact if_neg (by rw [hidle]; exact Bool.false_ne_true)

theorem writePwReq_run (h : Hw) (hidle : h.on F.PW_STATE_BUSY = false) (hpark : h.get F.PW_STATE_STATE = 2) : h.writePwReq 0 = h.startRamp .run 0 := by
  rw [writePwReq_eq h 0 (by decide) hidle, hpark]
  exact if_pos rfl

theorem writePwReq_runRefused (h : Hw) (hidle : h.on F.PW_STATE_BUSY = false) (hother : h.get F.PW_STATE_STATE ≠ 2) :
    h.writePwReq 0 = h.pwRefuse Rc.CFG_PW_STATE := by
  rw [writePwReq_eq h 0 (by decide) hidle, beq_eq_false_iff_ne.mpr hother]
  rfl

theorem writePwReq_park (h : Hw) (hidle : h.on F.PW_STATE_BUSY = false) (hstate : h.get F.PW_STATE_STATE < 2)
    (hrest : ∀ c, c < h.physCores → h.on F.CR_SEQ_CTRL_ENABLE c = false ∧ (h.tState c = 0 ∨ h.tState c = 2)) : h.writePwReq 1 = h.startRamp .park 0 := by
  have hall : (List.range h.physCores).all (fun c => !h.on F.CR_SEQ_CTRL_ENABLE c && h.atRest c) = true := by
    refine List.all_eq_true.mpr fun c hc => ?_
    obtain ⟨hoff, hstate⟩ := hrest c (List.mem_range.mp hc)
    have hr : h.atRest c = true := by
      unfold atRest
      rcases hstate with hempty | hloaded
      · rw [hempty]
        simp only [tEmpty, beq_self_eq_true, Bool.or_true, Bool.true_or]
      · rw [hloaded]
        simp only [tLoaded, beq_self_eq_true, Bool.or_true]
    rw [hoff, hr]
    rfl
  rw [writePwReq_eq h 1 (by decide) hidle, hall, decide_eq_true hstate]
  rfl

theorem writePwReq_parkRefused (h : Hw) (hidle : h.on F.PW_STATE_BUSY = false) (hstate : 2 ≤ h.get F.PW_STATE_STATE) :
    h.writePwReq 1 = h.pwRefuse Rc.CFG_PW_STATE := by
  rw [writePwReq_eq h 1 (by decide) hidle, decide_eq_false (Nat.not_lt.mpr hstate)]
  rfl

theorem writePwReq_sleep (h : Hw) (hidle : h.on F.PW_STATE_BUSY = false) (hpark : h.get F.PW_STATE_STATE = 2)
    (hrest : h.tExists gatherTambour = false ∨ h.tState gatherTambour = 0 ∨ h.tState gatherTambour = 2) : h.writePwReq 2 = h.startRamp .sleep 0 := by
  have hr : h.atRest gatherTambour = true := by
    unfold atRest
    rcases hrest with hnone | hempty | hloaded
    · rw [hnone]
      rfl
    · rw [hempty]
      simp only [tEmpty, beq_self_eq_true, Bool.or_true, Bool.true_or]
    · rw [hloaded]
      simp only [tLoaded, beq_self_eq_true, Bool.or_true]
  rw [writePwReq_eq h 2 (by decide) hidle, hpark, hr]
  rfl

theorem writePwReq_sleepRefused (h : Hw) (hidle : h.on F.PW_STATE_BUSY = false) (hother : h.get F.PW_STATE_STATE ≠ 2) :
    h.writePwReq 2 = h.pwRefuse Rc.CFG_PW_STATE := by
  rw [writePwReq_eq h 2 (by decide) hidle, beq_eq_false_iff_ne.mpr hother]
  rfl

/-! The end of a ramp (R395). -/

/-- No ramp is in progress. -/
def rampOver (h : Hw) : Hw := (h.put F.PW_STATE_BUSY 0).onPower (fun p => { p with ramp := none, credits := 0 })

/-- What a ramp leads to. -/
def rampLeads (h : Hw) (r : Ramp) : Hw :=
  match r.goal with
  | .park => h.put F.PW_STATE_STATE 2
  | .run => h.put F.PW_STATE_STATE (flag (h.get F.TM_STRETCH_CURRENT != 0))
  | .sleep => h.enterSleep false
  | .trip => h.enterSleep true
  | .warm => h.warmReset r.cause

theorem rampEnd_eq (h : Hw) (r : Ramp) (hramp : h.power.ramp = some r) (hover : h.rampDone r = true ∨ h.clocks.aclk = false) :
    h.rampEnd = h.rampOver.rampLeads r := by
  have hcond : (!(h.rampDone r || !h.clocks.aclk)) = false := by
    rcases hover with hdone | hstopped
    · rw [hdone]
      rfl
    · rw [hstopped, Bool.not_false, Bool.or_true]
      rfl
  unfold rampEnd
  rw [hramp]
  exact if_neg (by rw [hcond]; exact Bool.false_ne_true)

/-- PW_STATE after a ramp in service. -/
theorem rampOver_shown (h : Hw) (x : Nat) :
    (h.rampOver.put F.PW_STATE_STATE x).get F.PW_STATE_STATE = x % 4 ∧ (h.rampOver.put F.PW_STATE_STATE x).on F.PW_STATE_BUSY = false ∧
      (h.rampOver.put F.PW_STATE_STATE x).power.ramp = none ∧ h.Only { h.rampOver.put F.PW_STATE_STATE x with power := h.power } [(.PW_STATE, 0)] := by
  have honly := only_onPower ((only_put h F.PW_STATE_BUSY 0 0)) (fun p => { p with ramp := none, credits := 0 })
  refine ⟨get_put_same _ _ _ _ (by decide), ?_, rfl, honly.put F.PW_STATE_STATE x 0 List.mem_cons_self⟩
  rw [on_eq_get, get_put_apart _ F.PW_STATE_STATE F.PW_STATE_BUSY _ _ rfl (by decide) (by decide), rampOver, get_onPower, get_put_same _ _ _ _ (by decide)]
  rfl

theorem keys_rampOver (h : Hw) : h.rampOver.keys = h.keys := rfl
theorem rd_rampOver (h : Hw) (r : Reg) (i : Nat) (hr : r ≠ .PW_STATE) : h.rampOver.rd r i = h.rd r i := rd_put_reg h F.PW_STATE_BUSY 0 0 i r hr
theorem get_rampOver (h : Hw) (f : Fld) (i : Nat) (hf : f.reg ≠ .PW_STATE) : h.rampOver.get f i = h.get f i := congrArg (bits f.lo f.w) (rd_rampOver h f.reg i hf)

/-- SLEEP at the end of a ramp. -/
theorem enterSleep_rampOver (h : Hw) (tripped : Bool) :
    (h.rampOver.enterSleep tripped).power.sleeping = true ∧ (h.rampOver.enterSleep tripped).power.tripped = tripped ∧
      (h.rampOver.enterSleep tripped).keys = h.keys ∧ (h.rampOver.enterSleep tripped).cores = [] ∧ (h.rampOver.enterSleep tripped).clocks.aclk = false ∧
      (∀ k, (h.rampOver.enterSleep tripped).rd .PL_WAKE k = h.rd .PL_WAKE k) := by
  obtain ⟨hsleep, htrip, hkeys, hcores, haclk, hwake⟩ := enterSleep_facts h.rampOver tripped
  exact ⟨hsleep, htrip, hkeys.trans (keys_rampOver h), hcores, haclk, fun k => (hwake k).trans (rd_rampOver h .PL_WAKE k (by decide))⟩

/-! Wake events (R397, R446). -/

/-- A block that a comparator wakes. -/
def woken (h : Hw) (waker : Nat) : Hw := ((h.put F.PL_BOOT_CAUSE 5).put F.PL_BOOT_WAKER waker).onPower (fun p => { p with waking := true })

theorem wake_asleep (h : Hw) (waker : Nat) (hasleep : h.power.waking = false) : h.wake waker = h.woken waker :=
  if_neg (by rw [hasleep]; exact Bool.false_ne_true)

theorem woken_facts (h : Hw) (waker : Nat) (hw : waker < 256) :
    (h.woken waker).get F.PL_BOOT_CAUSE = 5 ∧ (h.woken waker).get F.PL_BOOT_WAKER = waker ∧ (h.woken waker).power.waking = true := by
  refine ⟨?_, ?_, rfl⟩
  · rw [woken, get_onPower, get_put_apart _ F.PL_BOOT_WAKER F.PL_BOOT_CAUSE _ _ rfl (by decide) (by decide), get_put_same _ _ _ _ (by decide)]
    rfl
  · rw [woken, get_onPower, get_put_same _ _ _ _ (by decide)]
    exact Nat.mod_eq_of_lt hw

theorem on_woken (h : Hw) (waker : Nat) (f : Fld) (i : Nat) (hf : f.reg ≠ .PL_BOOT) : (h.woken waker).on f i = h.on f i := by
  rw [on_eq_get, woken, get_onPower, get_put_reg _ _ _ _ _ _ hf, get_put_reg _ _ _ _ _ _ hf, on_eq_get]

theorem power_plinthCount (h : Hw) (n : Nat) : (h.plinthCount n).power = h.power := by
  unfold plinthCount
  split <;> rfl

theorem le_beat_plinthCount (h : Hw) (n : Nat) : h.time.beat ≤ (h.plinthCount n).time.beat := by
  unfold plinthCount
  split
  · exact Nat.le_refl _
  · exact Nat.le_add_right _ _

/-- The plinth's count reaches a beat. -/
def countedTo (h : Hw) (b : Nat) : Hw :=
  if h.time.beat < b then h.plinthCount (ceilDiv ((b - h.time.beat) * 1024 - h.time.plinthTicks) 44) else h

theorem countedTo_facts (h : Hw) (b : Nat) : (h.countedTo b).power = h.power ∧ h.time.beat ≤ (h.countedTo b).time.beat := by
  unfold countedTo
  split
  · exact ⟨power_plinthCount _ _, le_beat_plinthCount _ _⟩
  · exact ⟨rfl, Nat.le_refl _⟩

theorem time_woken (h : Hw) (waker : Nat) : (h.woken waker).time = h.time := rfl

theorem wakeBeat_eq (h : Hw) (k : Nat) (hk : k < 8) (hcan : h.canWake = true) (hen : h.on F.PL_WAKE_EN k = true) (hfired : h.on F.PL_WAKE_FIRED k = false) :
    h.wakeBeat k = ((h.countedTo (h.rd .PL_WAKE_BEAT k)).setFlag F.PL_WAKE_FIRED k).wake k := by
  refine if_neg ?_
  rw [decide_eq_false (Nat.not_le.mpr hk), hcan, hen, hfired]
  exact Bool.false_ne_true

theorem wakeBeat_facts (h : Hw) (k : Nat) (hk : k < 8) (hcan : h.canWake = true) (hasleep : h.power.waking = false) (hen : h.on F.PL_WAKE_EN k = true)
    (hfired : h.on F.PL_WAKE_FIRED k = false) :
    (h.wakeBeat k).on F.PL_WAKE_FIRED k = true ∧ (h.wakeBeat k).get F.PL_BOOT_CAUSE = 5 ∧ (h.wakeBeat k).get F.PL_BOOT_WAKER = k ∧
      (h.wakeBeat k).power.waking = true ∧ h.time.beat ≤ (h.wakeBeat k).time.beat := by
  obtain ⟨hpower, hbeat⟩ := countedTo_facts h (h.rd .PL_WAKE_BEAT k)
  have hasleep' : ((h.countedTo (h.rd .PL_WAKE_BEAT k)).setFlag F.PL_WAKE_FIRED k).power.waking = false := by
    rw [setFlag, put_power, hpower, hasleep]
  obtain ⟨hcause, hwaker, hwaking⟩ := woken_facts ((h.countedTo (h.rd .PL_WAKE_BEAT k)).setFlag F.PL_WAKE_FIRED k) k (by omega)
  rw [wakeBeat_eq h k hk hcan hen hfired, wake_asleep _ k hasleep']
  refine ⟨?_, hcause, hwaker, hwaking, ?_⟩
  · rw [on_woken _ _ _ _ (by decide), setFlag, on_eq_get, get_put_same _ _ _ _ (by decide)]
    rfl
  · rw [time_woken, setFlag, put_time]
    exact hbeat

/-- The 16 bytes of a frame that a comparator sees. -/
theorem getD_window (x : List Byte) (off j : Nat) (hj : j < 16) : ((x.drop off).take 16).getD j 0#8 = x.getD (off + j) 0#8 := by
  rw [List.getD_eq_getElem?_getD, List.getD_eq_getElem?_getD, List.getElem?_take_of_lt hj, List.getElem?_drop]

/-- A frame matches a comparator under its mask. -/
def frameMatches (h : Hw) (k : Nat) (x : List Byte) : Bool :=
  ((x.drop (h.get F.PL_FRAME_OFFSET k)).take 16).length == 16 && (List.range 16).all (fun j =>
    ((x.drop (h.get F.PL_FRAME_OFFSET k)).take 16).getD j 0#8 &&& (h.framePattern .PL_FRAME_MASK k).getD j 0#8 ==
      (h.framePattern .PL_FRAME_PATTERN k).getD j 0#8 &&& (h.framePattern .PL_FRAME_MASK k).getD j 0#8)

theorem frameMatches_of (h : Hw) (k : Nat) (x : List Byte) (hlen : h.get F.PL_FRAME_OFFSET k + 16 ≤ x.length)
    (hbytes : ∀ j, j < 16 → x.getD (h.get F.PL_FRAME_OFFSET k + j) 0#8 &&& (h.framePattern .PL_FRAME_MASK k).getD j 0#8 =
      (h.framePattern .PL_FRAME_PATTERN k).getD j 0#8 &&& (h.framePattern .PL_FRAME_MASK k).getD j 0#8) : h.frameMatches k x = true := by
  unfold frameMatches
  rw [Bool.and_eq_true]
  refine ⟨?_, List.all_eq_true.mpr fun j hj => ?_⟩
  · rw [List.length_take, List.length_drop, beq_iff_eq]
    omega
  · have hj16 : j < 16 := List.mem_range.mp hj
    rw [getD_window x _ j hj16, hbytes j hj16]
    exact beq_self_eq_true _

theorem wakeFrame_eq (h : Hw) (k : Nat) (x : List Byte) (hk : k < 4) (hcan : h.canWake = true) (hen : h.on F.PL_FRAME_EN k = true)
    (hmatch : h.frameMatches k x = true) : h.wakeFrame k x = (h.setFlag F.PL_FRAME_FIRED k).wake (8 + k) := by
  have heq : h.wakeFrame k x =
      if 4 ≤ k || !h.canWake || !h.on F.PL_FRAME_EN k || !h.frameMatches k x then h else (h.setFlag F.PL_FRAME_FIRED k).wake (8 + k) := rfl
  rw [heq]
  refine if_neg ?_
  rw [decide_eq_false (Nat.not_le.mpr hk), hcan, hen, hmatch]
  exact Bool.false_ne_true

theorem wakeFrame_facts (h : Hw) (k : Nat) (x : List Byte) (hk : k < 4) (hcan : h.canWake = true) (hasleep : h.power.waking = false)
    (hen : h.on F.PL_FRAME_EN k = true) (hmatch : h.frameMatches k x = true) :
    (h.wakeFrame k x).on F.PL_FRAME_FIRED k = true ∧ (h.wakeFrame k x).get F.PL_BOOT_CAUSE = 5 ∧ (h.wakeFrame k x).get F.PL_BOOT_WAKER = 8 + k ∧
      (h.wakeFrame k x).power.waking = true := by
  have hasleep' : (h.setFlag F.PL_FRAME_FIRED k).power.waking = false := by
    rw [setFlag, put_power, hasleep]
  rw [wakeFrame_eq h k x hk hcan hen hmatch, wake_asleep _ (8 + k) hasleep']
  refine ⟨?_, woken_facts _ (8 + k) (by omega)⟩
  rw [on_woken _ _ _ _ (by decide), setFlag, on_eq_get, get_put_same _ _ _ _ (by decide)]
  rfl

theorem wakeThermal_eq (h : Hw) (hcan : h.canWake = true) (hasleep : h.power.waking = false) (r : Nat × Nat) (hr : r ∈ h.readings)
    (hhot : h.get F.PL_THERM_WAKE ≤ r.2) : h.wakeThermal = h.woken 12 := by
  have hany : h.readings.any (fun r => h.get F.PL_THERM_WAKE ≤ r.2) = true := List.any_eq_true.mpr ⟨r, hr, decide_eq_true hhot⟩
  have hneg : h.wakeThermal = h.wake 12 := if_neg (by rw [hcan, hany]; exact Bool.false_ne_true)
  rw [hneg, wake_asleep h 12 hasleep]

/-- The core rail is back: the block is awake. -/
def awake (h : Hw) : Hw := (h.plinthCount 1000).onPower (fun p => { p with waking := false, sleeping := false, tripped := false })

theorem railGood_eq (h : Hw) (hwaking : h.power.waking = true) (hhigh : h.power.warmzLow = false) : h.railGood = h.awake.setPhase 1 := by
  have hwarmz : h.awake.power.warmzLow = false := by
    rw [awake, power_onPower, power_plinthCount]
    exact hhigh
  refine (if_neg (by rw [hwaking]; exact Bool.false_ne_true)).trans ?_
  exact if_neg (by rw [← awake, hwarmz]; exact Bool.false_ne_true)

theorem railGood_facts (h : Hw) : (h.awake.setPhase 1).bootPhase = 1 ∧ (h.awake.setPhase 1).power.waking = false ∧
    (h.awake.setPhase 1).power.sleeping = false ∧ (h.awake.setPhase 1).power.tripped = false := by
  refine ⟨?_, rfl, rfl, rfl⟩
  rw [bootPhase, setPhase, get_put_same _ _ _ _ (by decide)]
  rfl

/-! Thermal samples (R400, R401, R447). -/

/-- The power state with a thermal sample noted. -/
def sampled (xs : List Nat) (p : Power) : Power := { p with thermal := (List.range 64).map (fun n => xs.getD n 0 % 256) }

/-- PW_TMAX shows the hottest sensor. -/
def hottestShown (h : Hw) : Hw := (h.put F.PW_TMAX_HOTTEST h.hottest.1).put F.PW_TMAX_SENSOR h.hottest.2

/-- A ramp to a thermal trip is in progress. -/
def tripping (h : Hw) : Bool := match h.power.ramp with | some r => r.goal == .trip | none => false

/-- An enabled sensor reads at or above a threshold. -/
def hotAt (h : Hw) (t : Nat) : Bool := h.readings.any (fun r => t ≤ r.2)

/-- The emergency is shown and raised. -/
def emergencyRaised (h : Hw) : Hw := ((h.setFlag F.PW_STATUS_EMERG).raise Rc.PWR_THERMAL_EMERGENCY pwSrc).put F.PW_STATUS_THROTTLE 1

/-- The arrays are throttled. -/
def arraysStopped (h : Hw) : Hw := (h.cores.map (·.1)).foldl (fun h c => h.stopArray c false false) h

/-- What the enabled governor does with a sample. -/
def thermalActs (h : Hw) : Hw :=
  if h.hotAt (h.get F.PW_TTRIP_VALUE) && !h.tripping then (h.raise Rc.PWR_THERMAL_TRIP pwSrc).startRamp .trip 4
  else if h.hotAt (h.get F.PW_TEMERG_VALUE) && !h.on F.PW_STATUS_THROTTLE then h.emergencyRaised.arraysStopped
  else if h.on F.PW_STATUS_THROTTLE && !h.hotAt (h.get F.PW_TEMERG_VALUE - 5) then h.put F.PW_STATUS_THROTTLE 0
  else h

theorem thermalSample_eq (h : Hw) (xs : List Nat) :
    h.thermalSample xs =
      if (h.onPower (sampled xs)).power.sleeping || (h.onPower (sampled xs)).power.porzLow then h.onPower (sampled xs)
      else if !(h.onPower (sampled xs)).hottestShown.on F.PW_CTRL_ENABLE then (h.onPower (sampled xs)).hottestShown
      else (h.onPower (sampled xs)).hottestShown.thermalActs := rfl

theorem get_hottestShown (h : Hw) (f : Fld) (i : Nat) (hf : f.reg ≠ .PW_TMAX) : h.hottestShown.get f i = h.get f i := by
  rw [hottestShown, get_put_reg _ _ _ _ _ _ hf, get_put_reg _ _ _ _ _ _ hf]

theorem on_hottestShown (h : Hw) (f : Fld) (i : Nat) (hf : f.reg ≠ .PW_TMAX) : h.hottestShown.on f i = h.on f i := by
  rw [on_eq_get, get_hottestShown h f i hf, on_eq_get]

theorem power_hottestShown (h : Hw) : h.hottestShown.power = h.power := by rw [hottestShown, put_power, put_power]

theorem readings_hottestShown (h : Hw) : h.hottestShown.readings = h.readings := by
  have hrd : h.hottestShown.rd .PL_TSEN 0 = h.rd .PL_TSEN 0 := by
    rw [hottestShown, rd_put_reg _ _ _ _ _ _ (by decide), rd_put_reg _ _ _ _ _ _ (by decide)]
  unfold readings
  rw [hrd, power_hottestShown]

theorem on_onPower (h : Hw) (f : Power → Power) (g : Fld) (i : Nat) : (h.onPower f).on g i = h.on g i := rfl

theorem thermalSample_awake (h : Hw) (xs : List Nat) (hawake : h.power.sleeping = false) (hporz : h.power.porzLow = false) :
    h.thermalSample xs =
      if h.on F.PW_CTRL_ENABLE then (h.onPower (sampled xs)).hottestShown.thermalActs else (h.onPower (sampled xs)).hottestShown := by
  have hawake' : (h.onPower (sampled xs)).power.sleeping = false := hawake
  have hporz' : (h.onPower (sampled xs)).power.porzLow = false := hporz
  rw [thermalSample_eq, hawake', hporz', on_hottestShown _ _ _ (by decide), on_onPower, Bool.or_self, if_neg Bool.false_ne_true]
  cases h.on F.PW_CTRL_ENABLE with
  | true => rw [Bool.not_true, if_neg Bool.false_ne_true, if_pos rfl]
  | false => rw [Bool.not_false, if_pos rfl, if_neg Bool.false_ne_true]

theorem put_onPower (h : Hw) (f : Power → Power) (g : Fld) (v i : Nat) : (h.onPower f).put g v i = (h.put g v i).onPower f := rfl

theorem hottestShown_facts (h : Hw) (f : Power → Power) :
    (h.onPower f).hottestShown.get F.PW_TMAX_HOTTEST = (h.onPower f).hottest.1 % 256 ∧
      (h.onPower f).hottestShown.get F.PW_TMAX_SENSOR = (h.onPower f).hottest.2 % 64 ∧
      h.Only { (h.onPower f).hottestShown with power := h.power } [(.PW_TMAX, 0)] := by
  refine ⟨?_, ?_, ?_⟩
  · rw [hottestShown, get_put_apart _ F.PW_TMAX_SENSOR F.PW_TMAX_HOTTEST _ _ rfl (by decide) (by decide), get_put_same _ _ _ _ (by decide)]
    rfl
  · rw [hottestShown, get_put_same _ _ _ _ (by decide)]
    rfl
  · rw [hottestShown, put_onPower, put_onPower]
    exact only_onPower ((only_put h F.PW_TMAX_HOTTEST _ 0).put F.PW_TMAX_SENSOR _ 0 List.mem_cons_self) f

theorem keeps_arraysStopped {r : Reg} (hr : r ∉ settledRegs) (h : Hw) : KeepsReg r h h.arraysStopped :=
  KeepsReg.foldl _ (fun x c => keeps_stopArray hr x c false false) _ h

theorem emergencyRaised_facts (h : Hw) :
    h.emergencyRaised.on F.PW_STATUS_EMERG = true ∧ h.emergencyRaised.on F.PW_STATUS_THROTTLE = true ∧
      h.emergencyRaised.get F.PW_STATUS_REASON = Rc.PWR_THERMAL_EMERGENCY := by
  have hraise (g : Fld) (hg : g.reg ∉ settledRegs) :
      ((h.setFlag F.PW_STATUS_EMERG).raise Rc.PWR_THERMAL_EMERGENCY pwSrc).get g 0 =
        ((h.setFlag F.PW_STATUS_EMERG).put F.PW_STATUS_REASON Rc.PWR_THERMAL_EMERGENCY).get g 0 :=
    get_raise _ _ _ F.PW_STATUS_REASON 0 rfl g 0 hg
  unfold emergencyRaised
  refine ⟨?_, ?_, ?_⟩
  · rw [on_eq_get, get_put_apart _ F.PW_STATUS_THROTTLE F.PW_STATUS_EMERG _ _ rfl (by decide) (by decide), hraise _ (by decide),
      get_put_apart _ F.PW_STATUS_REASON F.PW_STATUS_EMERG _ _ rfl (by decide) (by decide), setFlag, get_put_same _ _ _ _ (by decide)]
    rfl
  · rw [on_eq_get, get_put_same _ _ _ _ (by decide)]
    rfl
  · rw [get_put_apart _ F.PW_STATUS_THROTTLE F.PW_STATUS_REASON _ _ rfl (by decide) (by decide), hraise _ (by decide), get_put_same _ _ _ _ (by decide)]
    rfl

/-- A sample at the emergency threshold throttles the arrays. -/
theorem thermalActs_emergency (h : Hw) (hcool : h.hotAt (h.get F.PW_TTRIP_VALUE) = false) (hhot : h.hotAt (h.get F.PW_TEMERG_VALUE) = true)
    (hfree : h.on F.PW_STATUS_THROTTLE = false) : h.thermalActs = h.emergencyRaised.arraysStopped := by
  unfold thermalActs
  rw [hcool, Bool.false_and, if_neg Bool.false_ne_true, hhot, hfree]
  exact if_pos rfl

theorem emergency_facts (h : Hw) :
    h.emergencyRaised.arraysStopped.on F.PW_STATUS_EMERG = true ∧ h.emergencyRaised.arraysStopped.on F.PW_STATUS_THROTTLE = true ∧
      h.emergencyRaised.arraysStopped.get F.PW_STATUS_REASON = Rc.PWR_THERMAL_EMERGENCY := by
  have hkeep (g : Fld) (hg : g.reg ∉ settledRegs) : h.emergencyRaised.arraysStopped.get g 0 = h.emergencyRaised.get g 0 :=
    congrArg (bits g.lo g.w) (keeps_arraysStopped hg h.emergencyRaised 0)
  obtain ⟨hemerg, hthrottle, hreason⟩ := emergencyRaised_facts h
  refine ⟨?_, ?_, ?_⟩
  · rw [on_eq_get, hkeep _ (by decide), ← on_eq_get, hemerg]
  · rw [on_eq_get, hkeep _ (by decide), ← on_eq_get, hthrottle]
  · rw [hkeep _ (by decide), hreason]

/-! The governor's enable and limits (R19, R395, R398, R406). -/

theorem writePwCtrl_eq (h : Hw) (v : Nat) (hv : bit 0 v = true) (hoff : h.on F.PW_CTRL_ENABLE = false) :
    h.writePwCtrl v =
      if rampBad (h.get F.PW_SLEW_VALUE) (h.get F.PW_SWING_VALUE) h.stepMa h.unitMa then h.pwRefuse Rc.CFG_PW_RAMP
      else if !(h.on F.CK_PLL_LOCKED && h.on F.CK_DOM_ACLK_RUN) then h.pwRefuse Rc.CFG_PW_DEPENDS
      else h.put F.PW_CTRL_ENABLE 1 :=
  if_pos (by rw [hv, hoff]; rfl)

/-- A limit is held for the next beat. -/
def limitHeld (h : Hw) (r : Reg) (x : Nat) : Hw := h.onPower (fun p => { p with limitNext := Tab.insert p.limitNext r.ctorIdx x })

/-- What a write of a limit does once it is judged against its bound. -/
def limitJudged (h : Hw) (r : Reg) (x : Nat) (ok : Bool) : Hw :=
  if !ok then h.pwRefuse Rc.CFG_RANGE
  else if rampBad (h.limitNewest .PW_SLEW) (h.limitNewest .PW_SWING) h.stepMa h.unitMa then h.pwRefuse Rc.CFG_PW_RAMP
  else h.limitHeld r x

theorem writeLimit_floor (h : Hw) (r : Reg) (v : Nat) (hr : r ∈ [Reg.PW_DOWN, .PW_VMIN, .PW_SMIN]) :
    h.writeLimit r v = h.limitJudged r (v % 65536) (decide (h.rd r 0 / 65536 ≤ v % 65536)) := by
  simp only [List.mem_cons, List.not_mem_nil, or_false] at hr
  rcases hr with rfl | rfl | rfl <;> rfl

theorem writeLimit_ceiling (h : Hw) (r : Reg) (v : Nat) (hr : r ∈ [Reg.PW_IMAX, .PW_VMAX, .PW_TEMERG, .PW_TTRIP, .PW_DUMMY]) :
    h.writeLimit r v = h.limitJudged r (v % 65536) (decide (v % 65536 ≤ h.rd r 0 / 65536)) := by
  simp only [List.mem_cons, List.not_mem_nil, or_false] at hr
  rcases hr with rfl | rfl | rfl | rfl | rfl <;> rfl

theorem writeLimit_eq (h : Hw) (r : Reg) (v : Nat) (hr : r ∈ limitRegs) (hother : r ∉ [Reg.PW_SLEW, .PW_SWING, .PW_TWARN]) :
    h.writeLimit r v = h.limitJudged r (v % 65536)
      (decide (if r ∈ [Reg.PW_DOWN, .PW_VMIN, .PW_SMIN] then h.rd r 0 / 65536 ≤ v % 65536 else v % 65536 ≤ h.rd r 0 / 65536)) := by
  by_cases hfloor : r ∈ [Reg.PW_DOWN, .PW_VMIN, .PW_SMIN]
  · rw [writeLimit_floor h r v hfloor]
    simp only [hfloor, if_true]
  · have hceiling : r ∈ [Reg.PW_IMAX, .PW_VMAX, .PW_TEMERG, .PW_TTRIP, .PW_DUMMY] := by
      simp only [limitRegs, List.mem_cons, List.not_mem_nil, or_false, not_or] at hr hother hfloor ⊢
      obtain ⟨hslew, hswing, hwarn⟩ := hother
      obtain ⟨hdown, hvmin, hsmin⟩ := hfloor
      rcases hr with hr | hr | hr | hr | hr | hr | hr | hr | hr | hr | hr
      · exact absurd hr hslew
      · exact absurd hr hswing
      · exact absurd hr hdown
      · exact Or.inl hr
      · exact absurd hr hvmin
      · exact Or.inr (Or.inl hr)
      · exact Or.inr (Or.inr (Or.inl hr))
      · exact Or.inr (Or.inr (Or.inr (Or.inl hr)))
      · exact absurd hr hwarn
      · exact absurd hr hsmin
      · exact Or.inr (Or.inr (Or.inr (Or.inr hr)))
    rw [writeLimit_ceiling h r v hceiling]
    simp only [hfloor, if_false]

theorem regWrite_limit (a : Agent) (r : Reg) (v : Nat) (w : Work) (hr : r ∈ limitRegs) :
    regWrite a { reg := r, idx := 0, outer := 0, hi := false } v 0 w = w.onHw (fun h => h.writeLimit r v) := by
  simp only [limitRegs, List.mem_cons, List.not_mem_nil, or_false] at hr
  rcases hr with rfl | rfl | rfl | rfl | rfl | rfl | rfl | rfl | rfl | rfl | rfl <;> rfl

/-! Telemetry (R402, R409, R445). -/

theorem energy_onEnergy (h : Hw) (f : EnergyUnit → EnergyUnit) : (h.onEnergy f).energy = f h.energy := rfl

/-- What no step of a fold changes, the fold leaves. -/
theorem foldl_keeps {α β γ : Type} (g : α → γ) (f : α → β → α) (hf : ∀ a x, g (f a x) = g a) (xs : List β) (a : α) : g (xs.foldl f a) = g a := by
  induction xs generalizing a with
  | nil => rfl
  | cons x xs ih => rw [List.foldl_cons, ih, hf]

/-- A rail's energy of the period, with the remainder carried. -/
def railStep (h : Hw) (num : Nat → Nat) (den : Nat) (st : EnergyUnit × Nat) (r : Nat) : EnergyUnit × Nat :=
  let e := st.1
  let x := num r * e.cycles * 10 + Tab.getD e.rho r 0
  let uj := x / den
  let k := h.get F.EN_RAIL_CLASS r
  ({ e with rho := Tab.put e.rho 0 r (x % den), byClass := e.byClass.set k (e.byClass.getD k 0 + uj) }, st.2 + uj)

/-- The rail energies of the period, and their sum. -/
def railsMeasured (h : Hw) (num : Nat → Nat) (den : Nat) : EnergyUnit × Nat :=
  h.railsOn.foldl (h.railStep num den) ({ h.energy with byClass := [0, 0, 0, 0] }, 0)

/-- An energy unit whose period is settled. -/
def periodSettled (estimated : Bool) (e : EnergyUnit) : EnergyUnit := { e with asked := false, settled := true, estimated := estimated }

theorem settleRails_eq (h : Hw) (num : Nat → Nat) (den : Nat) (estimated : Bool) :
    h.settleRails num den estimated =
      (h.onEnergy (fun _ => periodSettled estimated (h.railsMeasured num den).1)).inc F.EN_MEASURED_UJ (h.railsMeasured num den).2 := rfl

theorem missing_railsMeasured (h : Hw) (num : Nat → Nat) (den : Nat) : (h.railsMeasured num den).1.missing = h.energy.missing :=
  foldl_keeps (fun st : EnergyUnit × Nat => st.1.missing) (h.railStep num den) (fun _ _ => rfl) h.railsOn ({ h.energy with byClass := [0, 0, 0, 0] }, 0)

theorem energy_inc (h : Hw) (f : Fld) (n : Nat) : (h.inc f n).energy = h.energy := rfl
theorem get_inc_reg (h : Hw) (f g : Fld) (n j : Nat) (hg : g.reg ≠ f.reg) : (h.inc f n).get g j = h.get g j := get_put_reg h f g _ 0 j hg
theorem get_onEnergy (h : Hw) (f : EnergyUnit → EnergyUnit) (g : Fld) (i : Nat) : (h.onEnergy f).get g i = h.get g i := rfl

/-- The period is settled, with its energies still to be given. -/
theorem settleRails_energy (h : Hw) (num : Nat → Nat) (den : Nat) (estimated : Bool) :
    (h.settleRails num den estimated).energy.asked = false ∧ (h.settleRails num den estimated).energy.estimated = estimated ∧
      (h.settleRails num den estimated).energy.missing = h.energy.missing := by
  rw [settleRails_eq, energy_inc, energy_onEnergy]
  exact ⟨rfl, rfl, missing_railsMeasured h num den⟩

/-- The modelled dynamic energy of a period is given to the core rails. -/
def dynGiven (h : Hw) (d : Nat) : Hw :=
  if h.railsOn.any (fun r => h.get F.EN_RAIL_CLASS r == 0) then
    (h.onEnergy (fun e => { e with byClass := e.byClass.set 0 (e.byClass.getD 0 0 + d) })).inc F.EN_MEASURED_UJ d
  else h

/-- ESTIMATED is shown and the missing sample counted. -/
def missingCounted (h : Hw) : Hw := (h.setFlag F.EN_STATUS_ESTIMATED).onEnergy (fun e => { e with missing := e.missing + 1 })

theorem energyMissing_eq (h : Hw) :
    h.energyMissing = ((h.settleRails (fun r => h.get F.EN_RAIL_FALLBACK_MW r) (11 * 10 ^ 6) true).dynGiven h.dynUj).missingCounted := rfl

theorem dynGiven_energy (h : Hw) (d : Nat) :
    (h.dynGiven d).energy.asked = h.energy.asked ∧ (h.dynGiven d).energy.estimated = h.energy.estimated ∧ (h.dynGiven d).energy.missing = h.energy.missing := by
  unfold dynGiven
  split
  · rw [energy_inc, energy_onEnergy]
    exact ⟨rfl, rfl, rfl⟩
  · exact ⟨rfl, rfl, rfl⟩

theorem missingCounted_energy (h : Hw) :
    h.missingCounted.energy.asked = h.energy.asked ∧ h.missingCounted.energy.estimated = h.energy.estimated ∧
      h.missingCounted.energy.missing = h.energy.missing + 1 := ⟨rfl, rfl, rfl⟩

theorem energyMissing_facts (h : Hw) :
    h.energyMissing.on F.EN_STATUS_ESTIMATED = true ∧ h.energyMissing.energy.missing = h.energy.missing + 1 ∧ h.energyMissing.energy.asked = false ∧
      h.energyMissing.energy.estimated = true := by
  obtain ⟨hasked, hest, hmiss⟩ := settleRails_energy h (fun r => h.get F.EN_RAIL_FALLBACK_MW r) (11 * 10 ^ 6) true
  obtain ⟨hasked1, hest1, hmiss1⟩ := dynGiven_energy (h.settleRails (fun r => h.get F.EN_RAIL_FALLBACK_MW r) (11 * 10 ^ 6) true) h.dynUj
  obtain ⟨hasked2, hest2, hmiss2⟩ := missingCounted_energy ((h.settleRails (fun r => h.get F.EN_RAIL_FALLBACK_MW r) (11 * 10 ^ 6) true).dynGiven h.dynUj)
  rw [energyMissing_eq]
  refine ⟨?_, ?_, ?_, ?_⟩
  · rw [missingCounted, on_eq_get, get_onEnergy, setFlag, get_put_same _ _ _ _ (by decide)]
    rfl
  · rw [hmiss2, hmiss1, hmiss]
  · rw [hasked2, hasked1, hasked]
  · rw [hest2, hest1, hest]

theorem get_dynGiven (h : Hw) (d : Nat) (g : Fld) (i : Nat) (hg : g.reg ≠ .EN_MEASURED) : (h.dynGiven d).get g i = h.get g i := by
  unfold dynGiven
  split
  · rw [get_inc_reg _ _ _ _ _ hg, get_onEnergy]
  · rfl

theorem get_energyMissing (h : Hw) (g : Fld) (i : Nat) (hg : g.reg ≠ .EN_MEASURED ∧ g.reg ≠ .EN_STATUS) : h.energyMissing.get g i = h.get g i := by
  rw [energyMissing_eq, missingCounted, get_onEnergy, setFlag, get_put_reg _ _ _ _ _ _ hg.2, get_dynGiven _ _ _ _ hg.1, settleRails_eq,
    get_inc_reg _ _ _ _ _ hg.1, get_onEnergy]

theorem onCtrl_energyMissing (h : Hw) : h.energyMissing.on F.PW_CTRL_ENABLE = h.on F.PW_CTRL_ENABLE := by
  rw [on_eq_get, get_energyMissing _ _ _ (by decide), on_eq_get]

/-- The governor is told that telemetry is lost. -/
def teleLost (h : Hw) : Hw := (h.setFlag F.PW_STATUS_TELE).raise Rc.PWR_TELEMETRY_LOST pwSrc

theorem telemetryDeadline_eq (h : Hw) (hasked : h.energy.asked = true) (hbeat : 16 ≤ h.time.beat % 64) :
    h.telemetryDeadline = if 2 ≤ h.energyMissing.energy.missing && h.energyMissing.on F.PW_CTRL_ENABLE then h.energyMissing.teleLost else h.energyMissing :=
  if_neg (by rw [hasked, decide_eq_false (Nat.not_lt.mpr hbeat)]; exact Bool.false_ne_true)

theorem telemetryDeadline_idle (h : Hw) (hidle : h.energy.asked = false ∨ h.time.beat % 64 < 16) : h.telemetryDeadline = h := by
  refine if_pos ?_
  rcases hidle with hasked | hbeat
  · rw [hasked]
    rfl
  · rw [decide_eq_true hbeat, Bool.or_true]

theorem teleLost_facts (h : Hw) :
    h.teleLost.on F.EN_STATUS_ESTIMATED = h.on F.EN_STATUS_ESTIMATED ∧ h.teleLost.energy = h.energy ∧ h.teleLost.on F.PW_STATUS_TELE = true := by
  have hraise (g : Fld) (hg : g.reg ∉ settledRegs) :
      h.teleLost.get g 0 = ((h.setFlag F.PW_STATUS_TELE).put F.PW_STATUS_REASON Rc.PWR_TELEMETRY_LOST).get g 0 :=
    get_raise _ _ _ F.PW_STATUS_REASON 0 rfl g 0 hg
  refine ⟨?_, ?_, ?_⟩
  · rw [on_eq_get, hraise _ (by decide), get_put_reg _ _ _ _ _ _ (by decide), setFlag, get_put_reg _ _ _ _ _ _ (by decide), on_eq_get]
  · exact (aside_energy.raise (h.setFlag F.PW_STATUS_TELE) _ _).trans rfl
  · rw [on_eq_get, hraise _ (by decide), get_put_apart _ F.PW_STATUS_REASON F.PW_STATUS_TELE _ _ rfl (by decide) (by decide), setFlag,
      get_put_same _ _ _ _ (by decide)]
    rfl

/-- A sample missing at its deadline: estimated, counted, and lost to the governor where it is the second in a row. -/
theorem telemetryDeadline_facts (h : Hw) (hasked : h.energy.asked = true) (hbeat : 16 ≤ h.time.beat % 64) :
    h.telemetryDeadline.on F.EN_STATUS_ESTIMATED = true ∧ h.telemetryDeadline.energy.missing = h.energy.missing + 1 ∧
      h.telemetryDeadline.energy.asked = false ∧ h.telemetryDeadline.energy.estimated = true ∧
      (1 ≤ h.energy.missing → h.on F.PW_CTRL_ENABLE = true → h.telemetryDeadline.on F.PW_STATUS_TELE = true) := by
  obtain ⟨hest, hmiss, hasked', hestim⟩ := energyMissing_facts h
  rw [telemetryDeadline_eq h hasked hbeat]
  by_cases hlost : (decide (2 ≤ h.energyMissing.energy.missing) && h.energyMissing.on F.PW_CTRL_ENABLE) = true
  · obtain ⟨hest2, henergy, htele⟩ := teleLost_facts h.energyMissing
    rw [if_pos hlost, hest2, henergy]
    exact ⟨hest, hmiss, hasked', hestim, fun _ _ => htele⟩
  · rw [if_neg hlost]
    refine ⟨hest, hmiss, hasked', hestim, fun hone hon => absurd ?_ hlost⟩
    rw [onCtrl_energyMissing, hon, hmiss, decide_eq_true (by omega)]
    rfl

theorem telemetrySample_ignored (h : Hw) (vs as : List Nat) (hon : h.on F.EN_CTRL_ENABLE = true) (hidle : h.energy.asked = false) :
    h.telemetrySample vs as = h := if_pos (by rw [hon, hidle]; rfl)

theorem asked_limitCheck (h : Hw) (vs as : List Nat) : (h.limitCheck vs as).energy.asked = h.energy.asked := by
  have hset (x : Hw) : (((x.setFlag F.PW_STATUS_LIMIT).raise Rc.PWR_LIMIT pwSrc).onPower (fun p => { p with limitTerm := min 256 (p.limitTerm + 32) })).energy = x.energy :=
    (aside_energy.raise (x.setFlag F.PW_STATUS_LIMIT) _ _).trans rfl
  unfold limitCheck
  exact Aside.ite (g := fun x => x.energy.asked) ((congrArg (fun e => e.asked) (hset _)).trans rfl) rfl

theorem telemetrySample_checked (h : Hw) (vs as : List Nat) (hoff : h.on F.EN_CTRL_ENABLE = false) (hidle : h.energy.asked = false) :
    h.telemetrySample vs as = h.limitCheck vs as :=
  (if_neg (by rw [hoff]; exact Bool.false_ne_true)).trans (if_pos (by rw [asked_limitCheck, hidle]; rfl))

end Hw
/-! The commands. -/

theorem State.pwReqWrite (s : State) (a : Agent) (v : Nat) (hv : v < 3) (htakes : s.hw.Takes a .PW_REQ 0) :
    s.answers (Hw.writeNamed a .PW_REQ 0 v) = s.leads (s.hw.writePwReq v) := by
  have hmod : v % 2 ^ 32 = v := Nat.mod_eq_of_lt (by omega)
  have hwrite : Hw.regWrite a { reg := .PW_REQ, idx := 0, outer := 0, hi := false } (v % 2 ^ 32) 0 s.work = s.work.onHw (fun h => h.writePwReq v) := by
    rw [hmod]
    rfl
  exact State.answers_writeNamed s a .PW_REQ 0 v (fun h => h.writePwReq v) htakes hwrite

theorem State.limitWrite_judged (s : State) (a : Agent) (k : Nat) (r : Reg) (v : Word) (hk : Hw.limitRegs[k]? = some r) (htakes : s.hw.Takes a r 0)
    (hother : r ∉ [Reg.PW_SLEW, .PW_SWING, .PW_TWARN]) :
    exec (.limitWrite a k v) s = s.leads (s.hw.limitJudged r (v.toNat % 65536)
      (decide (if r ∈ [Reg.PW_DOWN, .PW_VMIN, .PW_SMIN] then s.hw.rd r 0 / 65536 ≤ v.toNat % 65536 else v.toNat % 65536 ≤ s.hw.rd r 0 / 65536))) := by
  have hmem : r ∈ Hw.limitRegs := List.mem_of_getElem? hk
  have hmod : v.toNat % 2 ^ 32 = v.toNat := Nat.mod_eq_of_lt v.isLt
  have hwrite : Hw.regWrite a { reg := r, idx := 0, outer := 0, hi := false } (v.toNat % 2 ^ 32) 0 s.work = s.work.onHw (fun h => h.writeLimit r v.toNat) := by
    rw [hmod]
    exact Hw.regWrite_limit a r v.toNat s.work hmem
  have hexec : exec (.limitWrite a k v) s = s.answers (Hw.writeNamed a r 0 v.toNat) := by
    have hunfold : exec (.limitWrite a k v) s = execLimitWrite a k v s := rfl
    rw [hunfold, execLimitWrite, hk]
  rw [hexec, ← Hw.writeLimit_eq s.hw r v.toNat hmem hother]
  exact State.answers_writeNamed s a r 0 v.toNat (fun h => h.writeLimit r v.toNat) htakes hwrite

theorem State.rampEnd_leads (s : State) (r : Ramp) (hramp : s.hw.power.ramp = some r) (hover : s.hw.rampDone r = true ∨ s.hw.clocks.aclk = false) :
    exec .rampEnd s = s.leads (s.hw.rampOver.rampLeads r) := by
  have hexec : exec .rampEnd s = s.leads s.hw.rampEnd := State.answers_onHw s (fun h => h.rampEnd)
  rw [hexec, Hw.rampEnd_eq s.hw r hramp hover]

/-- The end of a ramp, by its goal. -/
theorem State.rampEnd_ends (s : State) (r : Ramp) (hramp : s.hw.power.ramp = some r) (hover : s.hw.rampDone r = true ∨ s.hw.clocks.aclk = false) :
    (r.goal = .park → ∃ h', exec .rampEnd s = s.leads h' ∧ h'.get F.PW_STATE_STATE = 2 ∧ h'.on F.PW_STATE_BUSY = false ∧ h'.power.ramp = none ∧
      s.hw.Only { h' with power := s.hw.power } [(.PW_STATE, 0)]) ∧
    (r.goal = .run → ∃ h', exec .rampEnd s = s.leads h' ∧ h'.get F.PW_STATE_STATE = (if s.hw.get F.TM_STRETCH_CURRENT = 0 then 0 else 1) ∧
      h'.on F.PW_STATE_BUSY = false ∧ h'.power.ramp = none ∧ s.hw.Only { h' with power := s.hw.power } [(.PW_STATE, 0)]) ∧
    (r.goal = .sleep ∨ r.goal = .trip → ∃ h', exec .rampEnd s = s.leads h' ∧ h'.power.sleeping = true ∧ h'.power.tripped = (r.goal == .trip) ∧
      h'.keys = s.hw.keys ∧ h'.cores = [] ∧ h'.clocks.aclk = false ∧ (∀ k, h'.rd .PL_WAKE k = s.hw.rd .PL_WAKE k)) ∧
    (r.goal = .warm → ∃ h', exec .rampEnd s = s.leads h' ∧ h'.get F.PL_BOOT_CAUSE = r.cause % 16 ∧ h'.get F.PL_BOOT_PHASE = 0 ∧ h'.keys = [] ∧ h'.cores = []) := by
  have hexec := State.rampEnd_leads s r hramp hover
  unfold Hw.rampLeads at hexec
  refine ⟨fun hgoal => ?_, fun hgoal => ?_, fun hgoal => ?_, fun hgoal => ?_⟩
  · simp only [hgoal] at hexec
    exact ⟨_, hexec, Hw.rampOver_shown s.hw 2⟩
  · simp only [hgoal] at hexec
    obtain ⟨hstate, hbusy, hramp', honly⟩ := Hw.rampOver_shown s.hw (flag (s.hw.rampOver.get F.TM_STRETCH_CURRENT != 0))
    refine ⟨_, hexec, ?_, hbusy, hramp', honly⟩
    rw [hstate, Hw.get_rampOver _ _ _ (by decide)]
    by_cases hzero : s.hw.get F.TM_STRETCH_CURRENT = 0
    · rw [if_pos hzero, hzero]
      rfl
    · rw [if_neg hzero, bne_iff_ne.mpr hzero]
      rfl
  · rcases hgoal with hgoal | hgoal
    · simp only [hgoal] at hexec
      rw [hgoal]
      exact ⟨_, hexec, Hw.enterSleep_rampOver s.hw false⟩
    · simp only [hgoal] at hexec
      rw [hgoal]
      exact ⟨_, hexec, Hw.enterSleep_rampOver s.hw true⟩
  · simp only [hgoal] at hexec
    obtain ⟨hcause, hphase, hcores, -, hkeys, -⟩ := Hw.warmReset_facts s.hw.rampOver r.cause
    exact ⟨_, hexec, hcause, hphase, hkeys, hcores⟩

theorem State.thermalSample_leads (s : State) (xs : List Nat) (hawake : s.hw.power.sleeping = false) (hporz : s.hw.power.porzLow = false) :
    exec (.thermalSample xs) s =
      s.leads (if s.hw.on F.PW_CTRL_ENABLE then (s.hw.onPower (Hw.sampled xs)).hottestShown.thermalActs else (s.hw.onPower (Hw.sampled xs)).hottestShown) := by
  have hexec : exec (.thermalSample xs) s = s.leads (s.hw.thermalSample xs) := State.answers_onHw s (fun h => h.thermalSample xs)
  rw [hexec, Hw.thermalSample_awake s.hw xs hawake hporz]

/-- A sample at the emergency threshold, below the trip. -/
theorem State.thermalSample_emergency (s : State) (xs : List Nat) (hawake : s.hw.power.sleeping = false) (hporz : s.hw.power.porzLow = false)
    (r : Nat × Nat) (hr : r ∈ (s.hw.onPower (Hw.sampled xs)).readings) (hon : s.hw.on F.PW_CTRL_ENABLE = true) (hfree : s.hw.on F.PW_STATUS_THROTTLE = false)
    (hcool : ∀ x ∈ (s.hw.onPower (Hw.sampled xs)).readings, x.2 < s.hw.get F.PW_TTRIP_VALUE) (hhot : s.hw.get F.PW_TEMERG_VALUE ≤ r.2) :
    ∃ h', exec (.thermalSample xs) s = s.leads h' ∧ h'.on F.PW_STATUS_EMERG = true ∧ h'.on F.PW_STATUS_THROTTLE = true ∧
      h'.get F.PW_STATUS_REASON = Rc.PWR_THERMAL_EMERGENCY := by
  have hexec := State.thermalSample_leads s xs hawake hporz
  have htrip : (s.hw.onPower (Hw.sampled xs)).hottestShown.hotAt ((s.hw.onPower (Hw.sampled xs)).hottestShown.get F.PW_TTRIP_VALUE) = false := by
    rw [Hw.hotAt, Hw.readings_hottestShown, Hw.get_hottestShown _ _ _ (by decide), Hw.get_onPower, List.any_eq_false]
    intro x hx
    rw [decide_eq_true_eq]
    exact Nat.not_le.mpr (hcool x hx)
  have hemerg : (s.hw.onPower (Hw.sampled xs)).hottestShown.hotAt ((s.hw.onPower (Hw.sampled xs)).hottestShown.get F.PW_TEMERG_VALUE) = true := by
    rw [Hw.hotAt, Hw.readings_hottestShown, Hw.get_hottestShown _ _ _ (by decide), Hw.get_onPower, List.any_eq_true]
    exact ⟨r, hr, decide_eq_true hhot⟩
  have hfree' : (s.hw.onPower (Hw.sampled xs)).hottestShown.on F.PW_STATUS_THROTTLE = false := by
    rw [Hw.on_hottestShown _ _ _ (by decide), Hw.on_onPower, hfree]
  rw [hon, if_pos rfl, Hw.thermalActs_emergency _ htrip hemerg hfree'] at hexec
  exact ⟨_, hexec, Hw.emergency_facts _⟩

/-- Settles O56: power states by the ends of their ramps, wake events, the governor's limits and samples. -/
theorem powerCommandsTakeEffect : Obligations.PowerCommandsTakeEffect := by
  unfold Obligations.PowerCommandsTakeEffect
  refine ⟨?_, ?_, ?_, ?_, ?_, ?_, ?_, ?_, ?_, ?_, ?_⟩
  · intro s n hn hawake hporz hen
    exact ⟨_, State.answers_onHw s (fun h => h.railFault n), Hw.railFault_facts s.hw n hn hawake hporz hen⟩
  · intro s a htakes hidle
    have hrun : exec (.powerRequestRun a) s = _ := State.pwReqWrite s a 0 (by decide) htakes
    have hpark : exec (.powerRequestPark a) s = _ := State.pwReqWrite s a 1 (by decide) htakes
    have hsleep : exec (.powerRequestSleep a) s = _ := State.pwReqWrite s a 2 (by decide) htakes
    refine ⟨fun hstate => ?_, fun hstate hrest => ?_, fun hstate hrest => ?_, fun hstate => ⟨?_, ?_⟩, fun hstate => ?_⟩
    · rw [hrun, Hw.writePwReq_run s.hw hidle hstate]
    · rw [hpark, Hw.writePwReq_park s.hw hidle hstate hrest]
    · rw [hsleep, Hw.writePwReq_sleep s.hw hidle hstate hrest]
    · rw [hrun, Hw.writePwReq_runRefused s.hw hidle hstate]
    · rw [hsleep, Hw.writePwReq_sleepRefused s.hw hidle hstate]
    · rw [hpark, Hw.writePwReq_parkRefused s.hw hidle hstate]
  · exact Hw.startRamp_facts
  · exact State.rampEnd_ends
  · intro s k hcan hasleep
    refine ⟨fun hk hen hfired => ?_, fun x hk hen hlen hbytes => ?_, fun r hr hhot => ?_⟩
    · exact ⟨_, State.answers_onHw s (fun h => h.wakeBeat k), Hw.wakeBeat_facts s.hw k hk hcan hasleep hen hfired⟩
    · exact ⟨_, State.answers_onHw s (fun h => h.wakeFrame k x),
        Hw.wakeFrame_facts s.hw k x hk hcan hasleep hen (Hw.frameMatches_of s.hw k x hlen hbytes)⟩
    · have hexec : exec .wakeThermal s = s.leads s.hw.wakeThermal := State.answers_onHw s (fun h => h.wakeThermal)
      rw [Hw.wakeThermal_eq s.hw hcan hasleep r hr hhot] at hexec
      exact ⟨_, hexec, Hw.woken_facts s.hw 12 (by decide)⟩
  · intro s hwaking hhigh
    have hexec : exec .coreRailPowerGood s = s.leads s.hw.railGood := State.answers_onHw s (fun h => h.railGood)
    rw [Hw.railGood_eq s.hw hwaking hhigh] at hexec
    exact ⟨_, hexec, Hw.railGood_facts s.hw⟩
  · intro s xs hawake hporz
    refine ⟨fun hoff => ?_, fun r hr hon hfree hcool hhot => State.thermalSample_emergency s xs hawake hporz r hr hon hfree hcool hhot⟩
    have hexec := State.thermalSample_leads s xs hawake hporz
    rw [hoff, if_neg Bool.false_ne_true] at hexec
    exact ⟨_, hexec, Hw.power_hottestShown _, Hw.hottestShown_facts s.hw (Hw.sampled xs)⟩
  · intro s a v htakes hoff
    have hexec : exec (.governorEnable a v) s = s.leads (s.hw.writePwCtrl (withFld F.PW_CTRL_ENABLE 1 v.toNat % 2 ^ 32)) :=
      State.answers_writeNamed s a .PW_CTRL 0 (withFld F.PW_CTRL_ENABLE 1 v.toNat)
        (fun h => h.writePwCtrl (withFld F.PW_CTRL_ENABLE 1 v.toNat % 2 ^ 32)) htakes rfl
    rw [hexec, Hw.writePwCtrl_eq s.hw _ (bit_setWord F.PW_CTRL_ENABLE _ rfl (by decide)) hoff]
    refine ⟨fun hgood hlock hrun => ?_, fun hbad => ?_, fun hgood hdepends => ?_⟩
    · rw [hgood, if_neg Bool.false_ne_true, hlock, hrun, Bool.and_self, Bool.not_true, if_neg Bool.false_ne_true]
    · rw [hbad, if_pos rfl]
    · have hcond : (s.hw.on F.CK_PLL_LOCKED && s.hw.on F.CK_DOM_ACLK_RUN) = false := by
        rcases hdepends with hlock | hrun
        · rw [hlock, Bool.false_and]
        · rw [hrun, Bool.and_false]
      rw [hgood, if_neg Bool.false_ne_true, hcond, Bool.not_false, if_pos rfl]
  · intro s a k x b r v hk htakes hother hx hb hgood
    subst hx hb
    rw [State.limitWrite_judged s a k r v hk htakes hother]
    refine ⟨fun hok => ?_, fun hbad => ?_⟩
    · rw [decide_eq_true hok, Hw.limitJudged, Bool.not_true, if_neg Bool.false_ne_true, hgood, if_neg Bool.false_ne_true]
      rfl
    · rw [decide_eq_false hbad, Hw.limitJudged, Bool.not_false, if_pos rfl]
  · intro s vs as
    have hexec : exec (.telemetrySample vs as) s = s.leads (s.hw.telemetrySample vs as) := State.answers_onHw s (fun h => h.telemetrySample vs as)
    exact ⟨fun hon hidle => by rw [hexec, Hw.telemetrySample_ignored s.hw vs as hon hidle],
      fun hoff hidle => by rw [hexec, Hw.telemetrySample_checked s.hw vs as hoff hidle]⟩
  · intro s
    have hexec : exec .telemetryDeadline s = s.leads s.hw.telemetryDeadline := State.answers_onHw s (fun h => h.telemetryDeadline)
    exact ⟨fun hasked hbeat => ⟨_, hexec, Hw.telemetryDeadline_facts s.hw hasked hbeat⟩, fun hidle => by rw [hexec, Hw.telemetryDeadline_idle s.hw hidle]⟩

end Sys2Proof.Machine
end

section
/-! Proofs about the energy unit (R408 to R424). -/

namespace Sys2Proof.Machine
namespace Hw

/-! A complete sample (R408). -/

/-- What a check of limits does where a limit is passed. -/
def limitPassed (h : Hw) : Hw :=
  ((h.setFlag F.PW_STATUS_LIMIT).raise Rc.PWR_LIMIT pwSrc).onPower (fun p => { p with limitTerm := min 256 (p.limitTerm + 32) })

theorem choice_cases {α : Type} (p : Prop) [Decidable p] (x y : α) : (if p then x else y) = x ∨ (if p then x else y) = y := by
  by_cases hp : p
  · exact .inl (if_pos hp)
  · exact .inr (if_neg hp)

/-- A check of limits notes the block's current, and may pass a limit. -/
theorem limitCheck_cases (h : Hw) (vs as : List Nat) :
    ∃ f : Power → Power, h.limitCheck vs as = (h.onPower f).limitPassed ∨ h.limitCheck vs as = h.onPower f := by
  unfold limitCheck
  exact ⟨fun p => { p with lastMa := some (h.railsOn.foldl (fun a r => a + as.getD r 0) 0) }, choice_cases _ _ _⟩

theorem energy_onPower (h : Hw) (f : Power → Power) : (h.onPower f).energy = h.energy := rfl

theorem energy_limitPassed (h : Hw) : h.limitPassed.energy = h.energy :=
  (energy_onPower _ _).trans (aside_energy.raise (h.setFlag F.PW_STATUS_LIMIT) _ _)

theorem keeps_limitPassed {r : Reg} (hr : r ∉ settledRegs) (hpw : r ≠ .PW_STATUS) (h : Hw) : KeepsReg r h h.limitPassed := by
  intro i
  unfold limitPassed
  rw [rd_onPower, keeps_raise hr (h.setFlag F.PW_STATUS_LIMIT) _ _ (fun f j hf => by
    obtain ⟨rfl, -⟩ := Prod.mk.inj (Option.some.inj hf)
    exact hpw) i, setFlag, rd_put_reg _ _ _ _ _ _ hpw]

/-- A check of limits reaches neither the energy unit nor a register of it. -/
theorem limitCheck_energy (h : Hw) (vs as : List Nat) : (h.limitCheck vs as).energy = h.energy := by
  obtain ⟨f, hf | hf⟩ := limitCheck_cases h vs as
  · rw [hf, energy_limitPassed, energy_onPower]
  · rw [hf, energy_onPower]

theorem keeps_limitCheck {r : Reg} (hr : r ∉ settledRegs) (hpw : r ≠ .PW_STATUS) (h : Hw) (vs as : List Nat) : KeepsReg r h (h.limitCheck vs as) := by
  intro i
  obtain ⟨f, hf | hf⟩ := limitCheck_cases h vs as
  · rw [hf, keeps_limitPassed hr hpw _ i, rd_onPower]
  · rw [hf, rd_onPower]

theorem get_limitCheck (h : Hw) (vs as : List Nat) (f : Fld) (i : Nat) (hr : f.reg ∉ settledRegs) (hpw : f.reg ≠ .PW_STATUS) :
    (h.limitCheck vs as).get f i = h.get f i := congrArg (bits f.lo f.w) (keeps_limitCheck hr hpw h vs as i)

theorem railsOn_congr (h h' : Hw) (hk : KeepsReg .EN_RAIL h h') : h'.railsOn = h.railsOn := by
  have hon (r : Nat) : h'.on F.EN_RAIL_EN r = h.on F.EN_RAIL_EN r := by
    have hrd : h'.rd F.EN_RAIL_EN.reg r = h.rd F.EN_RAIL_EN.reg r := hk r
    rw [on_eq_get, on_eq_get, get, get, hrd]
  unfold railsOn
  simp only [hon]

/-- A rail's sample is shown. -/
def railShown (h : Hw) (r v i : Nat) : Hw := (h.wr .EN_RAIL_V r (v % 65536)).wr .EN_RAIL_I r (i % 2 ^ 32)

theorem energy_railShown (h : Hw) (r v i : Nat) : (h.railShown r v i).energy = h.energy := by rw [railShown, wr_energy, wr_energy]

theorem get_railShown (h : Hw) (r v i : Nat) (f : Fld) (j : Nat) (hf : f.reg ≠ .EN_RAIL_V ∧ f.reg ≠ .EN_RAIL_I) : (h.railShown r v i).get f j = h.get f j := by
  rw [railShown, get_wr_reg _ _ _ _ _ _ hf.2, get_wr_reg _ _ _ _ _ _ hf.1]

theorem keepsRail_railShown (h : Hw) (r v i : Nat) : KeepsReg .EN_RAIL h (h.railShown r v i) := fun j => by
  rw [railShown, rd_wr_reg _ _ _ _ _ _ (by decide), rd_wr_reg _ _ _ _ _ _ (by decide)]

theorem volts_railShown (h : Hw) (r v i : Nat) (hv : v < 65536) : (h.railShown r v i).get F.EN_RAIL_V_MV r = v := by
  have hsame := get_wr_same h F.EN_RAIL_V_MV (v % 65536) r (by decide)
  rw [railShown, get_wr_reg _ _ _ _ _ _ (by decide)]
  refine hsame.trans ?_
  simp only [bits, F.EN_RAIL_V_MV]
  omega

theorem amps_railShown (h : Hw) (r v i : Nat) (hi : i < 2 ^ 32) : (h.railShown r v i).get F.EN_RAIL_I_MA r = i := by
  have hsame := get_wr_same (h.wr .EN_RAIL_V r (v % 65536)) F.EN_RAIL_I_MA (i % 2 ^ 32) r (by decide)
  rw [railShown]
  refine hsame.trans ?_
  simp only [bits, F.EN_RAIL_I_MA]
  omega

theorem getD_replicate (v r : Nat) (hr : r < 8) : (List.replicate 8 v).getD r 0 = v := by
  rw [List.getD_eq_getElem?_getD, List.getElem?_replicate, if_pos hr, Option.getD_some]

/-- A settled period whose sample came. -/
def sampleSettled (h : Hw) : Hw :=
  (h.settleRails (fun r => h.get F.EN_RAIL_V_MV r * h.get F.EN_RAIL_I_MA r) (11 * 10 ^ 9) false).onEnergy (fun e => { e with missing := 0 })

theorem energySample_one (h : Hw) (v i r : Nat) (hasked : h.energy.asked = true) (hrails : h.railsOn = [r]) (hr : r < 8) :
    h.energySample (List.replicate 8 v) (List.replicate 8 i) = (h.railShown r v i).sampleSettled := by
  refine (if_neg (by rw [hasked]; exact Bool.false_ne_true)).trans ?_
  rw [hrails, List.foldl_cons, List.foldl_nil, getD_replicate v r hr, getD_replicate i r hr]
  rfl

/-- The energy of a period with one rail. -/
theorem railsMeasured_one (h : Hw) (num : Nat → Nat) (den r : Nat) (hrails : h.railsOn = [r]) :
    h.railsMeasured num den = h.railStep num den ({ h.energy with byClass := [0, 0, 0, 0] }, 0) r := by
  rw [railsMeasured, hrails, List.foldl_cons, List.foldl_nil]

theorem railStep_first (h : Hw) (num : Nat → Nat) (den r x : Nat)
    (hx : x = num r * h.energy.cycles * 10 + Tab.getD h.energy.rho r 0) :
    Tab.getD (h.railStep num den ({ h.energy with byClass := [0, 0, 0, 0] }, 0) r).1.rho r 0 = x % den ∧
      (h.railStep num den ({ h.energy with byClass := [0, 0, 0, 0] }, 0) r).1.byClass = [0, 0, 0, 0].set (h.get F.EN_RAIL_CLASS r) (x / den) ∧
      (h.railStep num den ({ h.energy with byClass := [0, 0, 0, 0] }, 0) r).2 = x / den := by
  subst hx
  unfold railStep
  refine ⟨Tab.getD_put_same _ _ _ _, ?_, Nat.zero_add _⟩
  have hzero (k : Nat) : ([0, 0, 0, 0] : List Nat).getD k 0 = 0 := by
    match k with
    | 0 | 1 | 2 | 3 => rfl
    | n + 4 => rfl
  simp only [hzero, Nat.zero_add]

theorem sampleSettled_facts (h : Hw) (r x : Nat) (hrails : h.railsOn = [r])
    (hx : x = h.get F.EN_RAIL_V_MV r * h.get F.EN_RAIL_I_MA r * h.energy.cycles * 10 + Tab.getD h.energy.rho r 0) :
    h.sampleSettled.get F.EN_MEASURED_UJ = (h.get F.EN_MEASURED_UJ + x / (11 * 10 ^ 9)) % 2 ^ 64 ∧
      Tab.getD h.sampleSettled.energy.rho r 0 = x % (11 * 10 ^ 9) ∧
      h.sampleSettled.energy.byClass = [0, 0, 0, 0].set (h.get F.EN_RAIL_CLASS r) (x / (11 * 10 ^ 9)) ∧ h.sampleSettled.energy.asked = false ∧
      h.sampleSettled.energy.settled = true ∧ h.sampleSettled.energy.missing = 0 := by
  obtain ⟨hrho, hby, hsum⟩ := railStep_first h (fun r => h.get F.EN_RAIL_V_MV r * h.get F.EN_RAIL_I_MA r) (11 * 10 ^ 9) r x hx
  have hone := railsMeasured_one h (fun r => h.get F.EN_RAIL_V_MV r * h.get F.EN_RAIL_I_MA r) (11 * 10 ^ 9) r hrails
  rw [← hone] at hrho hby hsum
  unfold sampleSettled
  rw [settleRails_eq, get_onEnergy, energy_onEnergy, energy_inc, energy_onEnergy]
  refine ⟨?_, hrho, hby, rfl, rfl, rfl⟩
  rw [inc, get_put_same _ _ _ _ (by decide), get_onEnergy, hsum]
  rfl

theorem get_sampleSettled (h : Hw) (f : Fld) (i : Nat) (hf : f.reg ≠ .EN_MEASURED) : h.sampleSettled.get f i = h.get f i := by
  rw [sampleSettled, get_onEnergy, settleRails_eq, get_inc_reg _ _ _ _ _ hf, get_onEnergy]

theorem telemetrySample_asked (h : Hw) (vs as : List Nat) (hasked : h.energy.asked = true) :
    h.telemetrySample vs as = (h.limitCheck vs as).energySample vs as :=
  if_neg (by rw [hasked, Bool.not_true, Bool.and_false]; exact Bool.false_ne_true)

/-- A complete sample of one rail settles the period. -/
theorem telemetrySample_facts (h : Hw) (v i r x : Nat) (hasked : h.energy.asked = true) (hrails : h.railsOn = [r]) (hv : v < 65536) (hi : i < 2 ^ 32)
    (hr : r < 8) (hx : x = v * i * h.energy.cycles * 10 + Tab.getD h.energy.rho r 0) :
    let h' := h.telemetrySample (List.replicate 8 v) (List.replicate 8 i)
    h'.get F.EN_RAIL_V_MV r = v ∧ h'.get F.EN_RAIL_I_MA r = i ∧ h'.get F.EN_MEASURED_UJ = (h.get F.EN_MEASURED_UJ + x / (11 * 10 ^ 9)) % 2 ^ 64 ∧
      Tab.getD h'.energy.rho r 0 = x % (11 * 10 ^ 9) ∧ h'.energy.byClass = [0, 0, 0, 0].set (h.get F.EN_RAIL_CLASS r) (x / (11 * 10 ^ 9)) ∧
      h'.energy.asked = false ∧ h'.energy.settled = true ∧ h'.energy.missing = 0 := by
  intro h'
  obtain ⟨g, hg⟩ : ∃ g, g = h.limitCheck (List.replicate 8 v) (List.replicate 8 i) := ⟨_, rfl⟩
  have henergy : g.energy = h.energy := by rw [hg, limitCheck_energy]
  have hget (f : Fld) (j : Nat) (hf : f.reg ∉ settledRegs) (hpw : f.reg ≠ .PW_STATUS) : g.get f j = h.get f j := by
    rw [hg, get_limitCheck h _ _ f j hf hpw]
  have hrails' : g.railsOn = [r] := by
    rw [hg, railsOn_congr h _ (keeps_limitCheck (by decide) (by decide) h _ _), hrails]
  have heq : h' = (g.railShown r v i).sampleSettled := by
    have hsample := energySample_one g v i r (by rw [henergy, hasked]) hrails' hr
    rw [hg] at hsample
    rw [hg]
    exact (telemetrySample_asked h _ _ hasked).trans hsample
  have hvolts := volts_railShown g r v i hv
  have hamps := amps_railShown g r v i hi
  have hclass' : (g.railShown r v i).get F.EN_RAIL_CLASS r = h.get F.EN_RAIL_CLASS r := by
    rw [get_railShown _ _ _ _ _ _ (by decide), hget _ _ (by decide) (by decide)]
  obtain ⟨hmeasured, hrho, hby, hrest⟩ := sampleSettled_facts (g.railShown r v i) r x
    ((railsOn_congr g _ (keepsRail_railShown g r v i)).trans hrails')
    (by rw [hvolts, hamps, energy_railShown, henergy]; exact hx)
  rw [heq]
  refine ⟨?_, ?_, ?_, hrho, ?_, hrest⟩
  · rw [get_sampleSettled _ _ _ (by decide), hvolts]
  · rw [get_sampleSettled _ _ _ (by decide), hamps]
  · rw [hmeasured, get_railShown _ _ _ _ _ _ (by decide), hget _ _ (by decide) (by decide)]
  · rw [hby, hclass']

/-! The division (R411 to R414). -/

/-- What the energy unit's change and a draw do not reach. -/
theorem giveShare_keeps {α : Type} (g : Hw → α) (henergy : ∀ (h : Hw) (f : EnergyUnit → EnergyUnit), g (h.onEnergy f) = g h) (hdraw : ∀ h : Hw, g h.draw = g h)
    (h : Hw) (cat o uj : Nat) : g (h.giveShare cat o uj) = g h := by
  unfold giveShare
  split
  · rfl
  · split
    · exact henergy _ _
    · refine (henergy _ _).trans ?_
      split
      · rfl
      · exact hdraw h

theorem splitBy_keeps {α : Type} (g : Hw → α) (henergy : ∀ (h : Hw) (f : EnergyUnit → EnergyUnit), g (h.onEnergy f) = g h) (hdraw : ∀ h : Hw, g h.draw = g h)
    (h : Hw) (weights into uj : Nat) : g (h.splitBy weights into uj) = g h :=
  foldl_keeps g (fun (x : Hw) (p : Nat × Nat) => x.giveShare into p.1 p.2) (fun x p => giveShare_keeps g henergy hdraw x into p.1 p.2) _ h

/-- The energy of the core rails that their modelled dynamic part takes. -/
def dynShare (h : Hw) : Nat := min (h.energy.byClass.getD 0 0) h.dynUj

/-- The energies of a period divided. -/
def divided (h : Hw) : Hw :=
  ((((h.splitBy 0 0 h.dynShare).splitBy 1 1 (h.energy.byClass.getD 0 0 - h.dynShare)).splitBy 1 1 (h.energy.byClass.getD 3 0)).splitBy 2 2
    (h.energy.byClass.getD 1 0)).splitBy 3 3 (h.energy.byClass.getD 2 0)

theorem time_divided (h : Hw) : h.divided.time = h.time := by
  have hsplit (x : Hw) (w i u : Nat) : (x.splitBy w i u).time = x.time := splitBy_keeps (fun y => y.time) (fun _ _ => rfl) (fun _ => rfl) x w i u
  unfold divided
  simp only [hsplit]

theorem showAccounts_energy (h : Hw) : h.showAccounts.energy = h.energy := by
  unfold showAccounts
  rw [wr_energy, wr_energy]

theorem accTotal_congr (h h' : Hw) (hacc : h'.energy.acc = h.energy.acc) (o : Nat) (comm : Bool) : h'.accTotal o comm = h.accTotal o comm := by
  unfold accTotal accOf
  rw [hacc]

theorem showAccounts_accounts (h : Hw) :
    h.showAccounts.rd .EN_OVERHEAD 0 = h.accTotal overheadEntry false % 2 ^ 64 ∧ h.showAccounts.rd .EN_REPLAY 0 = h.accTotal replayEntry false % 2 ^ 64 := by
  unfold showAccounts
  refine ⟨?_, rd_wr_same _ .EN_REPLAY 0 _⟩
  rw [rd_wr_reg _ _ _ _ _ _ (by decide)]
  exact rd_wr_same h .EN_OVERHEAD 0 _

theorem get_showAccounts (h : Hw) (f : Fld) (i : Nat) (hf : f.reg ≠ .EN_OVERHEAD ∧ f.reg ≠ .EN_REPLAY) : h.showAccounts.get f i = h.get f i := by
  unfold showAccounts
  rw [get_wr_reg _ _ _ _ _ _ hf.2, get_wr_reg _ _ _ _ _ _ hf.1]

theorem rd_showAccounts (h : Hw) (r : Reg) (i : Nat) (hr : r ≠ .EN_OVERHEAD ∧ r ≠ .EN_REPLAY) : h.showAccounts.rd r i = h.rd r i := by
  unfold showAccounts
  rw [rd_wr_reg _ _ _ _ _ _ hr.2, rd_wr_reg _ _ _ _ _ _ hr.1]

theorem apportion_idle (h : Hw) (hidle : h.energy.settled = false) : h.apportion = h := if_pos (by rw [hidle]; rfl)

/-- The entries that a period touched. -/
def entriesTouched (e : EnergyUnit) : List Nat := ((e.before.filter (fun p => p.2 != 0)).map (fun p => p.1 / 8)).eraseDups

/-- A count of periods by entry, one more for each entry touched. -/
def periodsNoted (os : List Nat) (t : Tab Nat) : Tab Nat := os.foldl (fun t o => Tab.insert t o (Tab.getD t o 0 + 1)) t

/-- The energy unit once its period is divided. -/
def periodDone (e : EnergyUnit) (last : Nat) (x : EnergyUnit) : EnergyUnit :=
  { x with
    before := [], settled := false, lastPeriod := last,
    marked := if e.estimated then periodsNoted (entriesTouched e) x.marked else x.marked,
    samples := if e.estimated then x.samples else periodsNoted (entriesTouched e) x.samples }

/-- A settled period is divided, its weights emptied, and the accounts shown. -/
theorem apportion_settled (h : Hw) (hsettled : h.energy.settled = true) :
    h.apportion = (h.divided.onEnergy (periodDone h.energy (h.divided.time.beat / 64))).showAccounts := by
  unfold apportion
  simp only [hsettled, Bool.not_true, Bool.false_eq_true, if_false]
  unfold divided dynShare periodDone periodsNoted entriesTouched
  rfl

theorem periodDone_facts (e x : EnergyUnit) (last : Nat) :
    (periodDone e last x).before = [] ∧ (periodDone e last x).settled = false ∧ (periodDone e last x).lastPeriod = last := ⟨rfl, rfl, rfl⟩

theorem apportion_facts (h : Hw) (hsettled : h.energy.settled = true) :
    h.apportion.energy.settled = false ∧ h.apportion.energy.before = [] ∧ h.apportion.energy.lastPeriod = h.time.beat / 64 ∧
      h.apportion.rd .EN_OVERHEAD 0 = h.apportion.accTotal overheadEntry false % 2 ^ 64 ∧
      h.apportion.rd .EN_REPLAY 0 = h.apportion.accTotal replayEntry false % 2 ^ 64 := by
  obtain ⟨f, hf⟩ : ∃ f, f = periodDone h.energy (h.divided.time.beat / 64) := ⟨_, rfl⟩
  obtain ⟨hbefore, hsettled', hlast⟩ := periodDone_facts h.energy h.divided.energy (h.divided.time.beat / 64)
  rw [← hf] at hbefore hsettled' hlast
  obtain ⟨hover, hreplay⟩ := showAccounts_accounts (h.divided.onEnergy f)
  have hacc (o : Nat) : (h.divided.onEnergy f).showAccounts.accTotal o false = (h.divided.onEnergy f).accTotal o false :=
    accTotal_congr _ _ (congrArg (fun e => e.acc) (showAccounts_energy _)) o false
  rw [apportion_settled h hsettled, ← hf, showAccounts_energy, energy_onEnergy, hacc, hacc]
  exact ⟨hsettled', hbefore, by rw [hlast, time_divided], hover, hreplay⟩

/-! EN_CTRL and the coefficients (R415, R420, R424). -/

/-- The energy unit with every accumulator, account and remainder zeroed. -/
def energyZeroed (ticks : Nat) (e : EnergyUnit) : EnergyUnit :=
  { e with now := [], before := [], acc := [], rho := [], began := ticks, asked := false, settled := false, missing := 0, resumed := true }

/-- The energy unit put in service. -/
def energyServed (h : Hw) : Hw :=
  ((((h.put F.EN_CTRL_ENABLE 1).wr .EN_MEASURED 0 0).clearReg .EN_ACCT).onEnergy
    (energyZeroed (((h.put F.EN_CTRL_ENABLE 1).wr .EN_MEASURED 0 0).clearReg .EN_ACCT).ticks)).showAccounts

/-- A rail of class CORE is sampled. -/
def coreRailOn (h : Hw) : Bool := (List.range 8).any (fun r => h.on F.EN_RAIL_EN r && h.get F.EN_RAIL_CLASS r == 0)

theorem writeEnCtrl_eq (h : Hw) (v : Nat) (hv : bit 0 v = true) (hoff : h.on F.EN_CTRL_ENABLE = false) :
    h.writeEnCtrl v =
      if !h.coreRailOn then h.enRefuse Rc.CFG_EN_RAIL
      else if !h.tmInService || h.rd .EN_SIGNBUF 0 + 288 > h.scratchSize then h.enRefuse Rc.CFG_EN_DEPENDS
      else h.energyServed :=
  if_pos (by rw [hv, hoff]; rfl)

theorem coreRailOn_false (h : Hw) (hnone : ∀ r, r < 8 → h.on F.EN_RAIL_EN r = true → h.get F.EN_RAIL_CLASS r ≠ 0) : h.coreRailOn = false := by
  refine List.any_eq_false.mpr fun r hr hboth => ?_
  rw [Bool.and_eq_true, beq_iff_eq] at hboth
  exact hnone r (List.mem_range.mp hr) hboth.1 hboth.2

theorem coreRailOn_true (h : Hw) (r : Nat) (hr : r < 8) (hon : h.on F.EN_RAIL_EN r = true) (hcore : h.get F.EN_RAIL_CLASS r = 0) : h.coreRailOn = true :=
  List.any_eq_true.mpr ⟨r, List.mem_range.mpr hr, by rw [hon, hcore]; rfl⟩

theorem accTotal_empty (h : Hw) (hacc : h.energy.acc = []) (o : Nat) (comm : Bool) : h.accTotal o comm = 0 := by
  have hentry (k : Nat) : h.accOf o k comm = 0 := by
    unfold accOf
    rw [hacc]
    rfl
  unfold accTotal
  simp only [hentry, Nat.add_zero]
  rfl

theorem energyServed_facts (h : Hw) :
    h.energyServed.on F.EN_CTRL_ENABLE = true ∧ h.energyServed.rd .EN_MEASURED 0 = 0 ∧ h.energyServed.rd .EN_OVERHEAD 0 = 0 ∧
      h.energyServed.rd .EN_REPLAY 0 = 0 ∧ (∀ n, h.energyServed.rd .EN_ACCT n = 0) ∧ h.energyServed.energy.acc = [] ∧ h.energyServed.energy.now = [] ∧
      h.energyServed.energy.rho = [] := by
  unfold energyServed
  obtain ⟨g, hg⟩ : ∃ g, g = ((h.put F.EN_CTRL_ENABLE 1).wr .EN_MEASURED 0 0).clearReg .EN_ACCT := ⟨_, rfl⟩
  have hacc : (g.onEnergy (energyZeroed g.ticks)).energy.acc = [] := rfl
  obtain ⟨hover, hreplay⟩ := showAccounts_accounts (g.onEnergy (energyZeroed g.ticks))
  have hrd (r : Reg) (i : Nat) : (g.onEnergy (energyZeroed g.ticks)).rd r i = g.rd r i := rfl
  rw [← hg, on_eq_get, get_showAccounts _ _ _ (by decide), get_onEnergy, rd_showAccounts _ _ _ (by decide), hrd, hover, hreplay,
    accTotal_empty _ hacc, accTotal_empty _ hacc, showAccounts_energy, energy_onEnergy]
  refine ⟨?_, ?_, rfl, rfl, fun n => ?_, rfl, rfl, rfl⟩
  · rw [hg, get_clearReg _ _ _ _ (by decide), get_wr_reg _ _ _ _ _ _ (by decide), get_put_same _ _ _ _ (by decide)]
    rfl
  · rw [hg, rd_clearReg_other _ _ _ _ (by decide), rd_wr_same]
    rfl
  · have hval : resetValue ((h.put F.EN_CTRL_ENABLE 1).wr .EN_MEASURED 0 0).build ((h.put F.EN_CTRL_ENABLE 1).wr .EN_MEASURED 0 0).integ .EN_ACCT n = 0 := rfl
    rw [rd_showAccounts _ _ _ (by decide), hrd, hg, rd_clearReg_same, hval, Nat.zero_mod]

/-- A coefficient is held for the next switch-over. -/
def calHeldAt (h : Hw) (e v : Nat) : Hw := h.onEnergy (fun x => { x with calHeld := Tab.insert x.calHeld e v })

theorem writeCal_held (h : Hw) (e v : Nat) (hopen : h.get F.SC_STATE_STATE ≠ 2) (he : e < 12 ∨ 16 ≤ e) : h.writeCal e v = h.calHeldAt e (v % 2 ^ 32) := by
  refine if_neg ?_
  rw [beq_eq_false_iff_ne.mpr hopen, Bool.false_or, Bool.and_eq_true, decide_eq_true_eq, decide_eq_true_eq]
  omega

theorem writeCal_ignored (h : Hw) (e v : Nat) (hno : h.get F.SC_STATE_STATE = 2 ∨ (12 ≤ e ∧ e < 16)) : h.writeCal e v = h := by
  refine if_pos ?_
  rcases hno with hsealed | ⟨hlow, hhigh⟩
  · rw [hsealed]
    rfl
  · rw [decide_eq_true hlow, decide_eq_true (by omega : e ≤ 15), Bool.and_self, Bool.or_true]

/-! Sampler records (R417 to R419). -/

/-- EN_SIGN names the record that is being made. -/
def signNamed (h : Hw) (x : Nat) (blk : Bool) : Hw := ((h.put F.EN_SIGN_CONTEXT x).put F.EN_SIGN_BLOCK (flag blk)).put F.EN_SIGN_GO 1

/-- A record is being signed. -/
def signing (h : Hw) (body : List Byte) (o : Nat) : Hw := h.onEnergy (fun e => { e with signing := some (body, o) })

/-- The accounts and their counts close with a BLOCK record. -/
def blockClosed (e : EnergyUnit) : EnergyUnit :=
  { e with acc := e.acc.filter (fun p => p.1 / 8 < 16384), marked := Tab.erase e.marked overheadEntry, samples := Tab.erase e.samples overheadEntry,
           blockEnd := e.lastPeriod * 64 }

theorem noFlags (v : Nat) (hflags : bits 16 2 v = 0) : bit 16 v = false ∧ bit 17 v = false := by
  simp only [bits, bit, beq_eq_false_iff_ne] at *
  omega

theorem writeEnSign_busy (h : Hw) (v : Nat) (hflags : bits 16 2 v = 0) (hgo : bit 15 v = true) (hbusy : h.on F.EN_SIGN_GO = true) :
    h.writeEnSign v = h.enRefuse Rc.CFG_EN_SIGN := by
  obtain ⟨h16, h17⟩ := noFlags v hflags
  unfold writeEnSign
  simp only [h16, h17, applyIf, hgo, Bool.not_true, Bool.false_eq_true, if_false, hbusy, Bool.true_or, if_true]

theorem writeEnSign_context (h : Hw) (v x : Nat) (hflags : bits 16 2 v = 0) (hgo : bit 15 v = true) (hblk : bit 14 v = false) (hx : bits 0 14 v = x)
    (hidle : h.on F.EN_SIGN_GO = false) (hstate : h.get F.CTX_STATE_STATE x = 3) (hnew : Tab.find? h.energy.produced x = none)
    (hdone : Tab.find? h.energy.commitPeriod x = none) :
    h.writeEnSign v = (h.signNamed x false).signing ((h.signNamed x false).recordBody false x) x := by
  obtain ⟨h16, h17⟩ := noFlags v hflags
  unfold writeEnSign
  simp only [h16, h17, applyIf, hgo, Bool.not_true, Bool.false_eq_true, if_false, hidle, hblk, hx, hstate, hnew, hdone, Bool.not_false, Bool.true_and,
    bne_self_eq_false, Option.isSome_none, Bool.or_self]
  rfl

/-- The energy unit once a BLOCK record is begun. -/
def blockSigning (h : Hw) (body : List Byte) : Hw := ((h.signing body overheadEntry).onEnergy blockClosed).showAccounts

theorem writeEnSign_block (h : Hw) (v : Nat) (hflags : bits 16 2 v = 0) (hgo : bit 15 v = true) (hblk : bit 14 v = true)
    (hidle : h.on F.EN_SIGN_GO = false) :
    h.writeEnSign v = (h.signNamed (bits 0 14 v) true).blockSigning ((h.signNamed (bits 0 14 v) true).recordBody true (bits 0 14 v)) := by
  obtain ⟨h16, h17⟩ := noFlags v hflags
  unfold writeEnSign
  simp only [h16, h17, applyIf, hgo, Bool.not_true, Bool.false_eq_true, if_false, hidle, hblk, Bool.false_and, Bool.or_self, if_true]
  rfl

theorem signNamed_facts (h : Hw) (x : Nat) (blk : Bool) (hx : x < 2 ^ 14) :
    (h.signNamed x blk).on F.EN_SIGN_GO = true ∧ (h.signNamed x blk).get F.EN_SIGN_CONTEXT = x ∧ (h.signNamed x blk).on F.EN_SIGN_BLOCK = blk ∧
      h.Only (h.signNamed x blk) [(.EN_SIGN, 0)] := by
  unfold signNamed
  refine ⟨?_, ?_, ?_, ((only_put h F.EN_SIGN_CONTEXT x 0).put F.EN_SIGN_BLOCK _ 0 List.mem_cons_self).put F.EN_SIGN_GO 1 0 List.mem_cons_self⟩
  · rw [on_eq_get, get_put_same _ _ _ _ (by decide)]
    rfl
  · rw [get_put_apart _ F.EN_SIGN_GO F.EN_SIGN_CONTEXT _ _ rfl (by decide) (by decide),
      get_put_apart _ F.EN_SIGN_BLOCK F.EN_SIGN_CONTEXT _ _ rfl (by decide) (by decide), get_put_same _ _ _ _ (by decide)]
    exact Nat.mod_eq_of_lt hx
  · rw [on_eq_get, get_put_apart _ F.EN_SIGN_GO F.EN_SIGN_BLOCK _ _ rfl (by decide) (by decide), get_put_same _ _ _ _ (by decide)]
    cases blk <;> rfl

theorem only_onEnergy {h h' : Hw} {ks : List (Reg × Nat)} (ho : h.Only h' ks) (f : EnergyUnit → EnergyUnit) :
    h.Only { h'.onEnergy f with energy := h.energy } ks := by
  obtain ⟨hrest, hrd⟩ := ho
  exact ⟨congrArg (fun x : Hw => { x with energy := h.energy }) hrest, hrd⟩

theorem signing_facts (h : Hw) (x : Nat) (hx : x < 2 ^ 14) (body : List Byte) :
    ((h.signNamed x false).signing body x).on F.EN_SIGN_GO = true ∧ ((h.signNamed x false).signing body x).get F.EN_SIGN_CONTEXT = x ∧
      ((h.signNamed x false).signing body x).on F.EN_SIGN_BLOCK = false ∧ (∃ b, ((h.signNamed x false).signing body x).energy.signing = some (b, x)) ∧
      h.Only { (h.signNamed x false).signing body x with energy := h.energy } [(.EN_SIGN, 0)] := by
  obtain ⟨hgo, hctx, hblk, honly⟩ := signNamed_facts h x false hx
  refine ⟨?_, ?_, ?_, ⟨body, rfl⟩, only_onEnergy honly _⟩
  · rw [on_eq_get, signing, get_onEnergy, ← on_eq_get, hgo]
  · rw [signing, get_onEnergy, hctx]
  · rw [on_eq_get, signing, get_onEnergy, ← on_eq_get, hblk]

/-- The accounts are empty once a BLOCK record closes them. -/
theorem accTotal_blockClosed (h : Hw) (o : Nat) (ho : 16384 ≤ o) : (h.onEnergy blockClosed).accTotal o false = 0 := by
  have hentry (k : Nat) (hk : k < 4) : (h.onEnergy blockClosed).accOf o k false = 0 := by
    have hfind : Tab.find? (h.energy.acc.filter (fun p => decide (p.1 / 8 < 16384))) (o * 8 + k * 2 + flag false) = none := by
      rw [find?_filter_key h.energy.acc (fun i => decide (i / 8 < 16384)), if_neg]
      rw [decide_eq_true_eq]
      have hflag : flag false = 0 := rfl
      omega
    have heq : (h.onEnergy blockClosed).accOf o k false = Tab.getD (h.energy.acc.filter (fun p => decide (p.1 / 8 < 16384))) (o * 8 + k * 2 + flag false) 0 := rfl
    rw [heq, Tab.getD, hfind, Option.getD_none]
  have hrange : List.range 4 = [0, 1, 2, 3] := rfl
  unfold accTotal
  rw [hrange]
  simp only [List.foldl_cons, List.foldl_nil, hentry 0 (by decide), hentry 1 (by decide), hentry 2 (by decide), hentry 3 (by decide)]

theorem blockSigning_facts (h : Hw) (x : Nat) (hx : x < 2 ^ 14) (body : List Byte) :
    ((h.signNamed x true).blockSigning body).on F.EN_SIGN_GO = true ∧ ((h.signNamed x true).blockSigning body).on F.EN_SIGN_BLOCK = true ∧
      ((h.signNamed x true).blockSigning body).energy.signing = some (body, overheadEntry) ∧
      ((h.signNamed x true).blockSigning body).accTotal overheadEntry false = 0 ∧ ((h.signNamed x true).blockSigning body).accTotal replayEntry false = 0 := by
  obtain ⟨hgo, -, hblk, -⟩ := signNamed_facts h x true hx
  have hacc (o : Nat) (ho : 16384 ≤ o) : ((h.signNamed x true).blockSigning body).accTotal o false = 0 :=
    (accTotal_congr _ _ (congrArg (fun e => e.acc) (showAccounts_energy _)) o false).trans (accTotal_blockClosed _ o ho)
  refine ⟨?_, ?_, ?_, hacc _ (by decide), hacc _ (by decide)⟩
  · rw [on_eq_get, blockSigning, get_showAccounts _ _ _ (by decide), get_onEnergy, signing, get_onEnergy, ← on_eq_get, hgo]
  · rw [on_eq_get, blockSigning, get_showAccounts _ _ _ (by decide), get_onEnergy, signing, get_onEnergy, ← on_eq_get, hblk]
  · rw [blockSigning, showAccounts_energy]
    rfl

/-! The end of a record (R418, R419). -/

/-- EN_LASTHASH shows a hash. -/
def hashShown (h : Hw) (hash : Nat) : Hw := (List.range 12).foldl (fun h i => h.wr .EN_LASTHASH i (bits (32 * (11 - i)) 32 hash)) h

/-- The energy unit once a record is made. -/
def recordMade (o : Nat) (e : EnergyUnit) : EnergyUnit :=
  { e with signing := none, chainStart := false, resumed := false, produced := if o < 16384 then Tab.insert e.produced o 1 else e.produced }

/-- A context's energy joins its hoop's account. -/
def accountJoined (h : Hw) (o : Nat) : Hw := if o < 16384 then h.inc F.EN_ACCT_UJ (h.accTotal o true) (h.get F.CTX_STATE_HOOP o) else h

/-- EN_SIGN shows the end of the record. -/
def signShown (h : Hw) : Hw := (h.put F.EN_SIGN_GO 0).setFlag F.EN_SIGN_DONE

/-- The record is made. -/
def recordDone (h : Hw) (hash o : Nat) : Hw := ((((h.hashShown hash).inc F.EN_COUNTER_COUNT).onEnergy (recordMade o)).accountJoined o).signShown

theorem keeps_hashShown (r : Reg) (hr : r ≠ .EN_LASTHASH) (h : Hw) (hash : Nat) : KeepsReg r h (h.hashShown hash) :=
  KeepsReg.foldl _ (fun x i => (KeepsReg.refl x).wr .EN_LASTHASH i _ hr) _ h

theorem get_hashShown (h : Hw) (hash : Nat) (f : Fld) (i : Nat) (hf : f.reg ≠ .EN_LASTHASH) : (h.hashShown hash).get f i = h.get f i :=
  congrArg (bits f.lo f.w) (keeps_hashShown f.reg hf h hash i)

theorem energy_hashShown (h : Hw) (hash : Nat) : (h.hashShown hash).energy = h.energy :=
  foldl_keeps (fun x : Hw => x.energy) (fun (h : Hw) (i : Nat) => h.wr .EN_LASTHASH i (bits (32 * (11 - i)) 32 hash)) (fun x _ => wr_energy x _ _ _) _ h

theorem rd_foldl_wr_other (r : Reg) (v : Nat → Nat) (is : List Nat) (h : Hw) (k : Nat) (hk : k ∉ is) :
    (is.foldl (fun h i => h.wr r i (v i)) h).rd r k = h.rd r k := by
  induction is generalizing h with
  | nil => rfl
  | cons i is ih =>
    rw [List.foldl_cons, ih _ (fun hm => hk (List.mem_cons_of_mem _ hm))]
    exact rd_wr_other _ _ _ _ _ _ fun heq => hk (List.mem_cons.mpr (.inl (Prod.mk.inj heq).2))

/-- A fold that writes each of a list's instances of a register with its value. -/
theorem rd_foldl_wr (r : Reg) (v : Nat → Nat) (is : List Nat) (h : Hw) (k : Nat) (hk : k ∈ is) :
    (is.foldl (fun h i => h.wr r i (v i)) h).rd r k = v k % 2 ^ (8 * r.desc.size) := by
  induction is generalizing h with
  | nil => exact absurd hk List.not_mem_nil
  | cons i is ih =>
    rw [List.foldl_cons]
    by_cases hm : k ∈ is
    · exact ih _ hm
    · rw [rd_foldl_wr_other r v is _ k hm, (List.mem_cons.mp hk).resolve_right hm, rd_wr_same]

theorem lastHash_hashShown (h : Hw) (hash k : Nat) (hk : k < 12) : (h.hashShown hash).rd .EN_LASTHASH k = bits (32 * (11 - k)) 32 hash := by
  have hrd := rd_foldl_wr .EN_LASTHASH (fun i => bits (32 * (11 - i)) 32 hash) (List.range 12) h k (List.mem_range.mpr hk)
  exact hrd.trans (Nat.mod_eq_of_lt (bits_lt _ _ _))

theorem rd_inc_reg (h : Hw) (f : Fld) (n i : Nat) (r : Reg) (j : Nat) (hr : r ≠ f.reg) : (h.inc f n i).rd r j = h.rd r j := rd_put_reg h f _ i j r hr

theorem rd_accountJoined (h : Hw) (o : Nat) (r : Reg) (i : Nat) (hr : r ≠ .EN_ACCT) : (h.accountJoined o).rd r i = h.rd r i := by
  unfold accountJoined
  split
  · exact rd_inc_reg _ _ _ _ _ _ hr
  · rfl

theorem energy_accountJoined (h : Hw) (o : Nat) : (h.accountJoined o).energy = h.energy := by
  unfold accountJoined
  split
  · rw [inc, put_energy]
  · rfl

theorem rd_signShown (h : Hw) (r : Reg) (i : Nat) (hr : r ≠ .EN_SIGN) : h.signShown.rd r i = h.rd r i := by
  unfold signShown setFlag
  rw [rd_put_reg _ _ _ _ _ _ hr, rd_put_reg _ _ _ _ _ _ hr]

theorem energy_signShown (h : Hw) : h.signShown.energy = h.energy := by
  unfold signShown setFlag
  rw [put_energy, put_energy]

theorem signShown_facts (h : Hw) : h.signShown.on F.EN_SIGN_GO = false ∧ h.signShown.on F.EN_SIGN_DONE = true := by
  unfold signShown setFlag
  refine ⟨?_, ?_⟩
  · rw [on_eq_get, get_put_apart _ F.EN_SIGN_DONE F.EN_SIGN_GO _ _ rfl (by decide) (by decide), get_put_same _ _ _ _ (by decide)]
    rfl
  · rw [on_eq_get, get_put_same _ _ _ _ (by decide)]
    rfl

theorem rd_onEnergy (h : Hw) (f : EnergyUnit → EnergyUnit) (r : Reg) (i : Nat) : (h.onEnergy f).rd r i = h.rd r i := rfl

/-- A context's account once its record is made. -/
theorem account_recordDone (h : Hw) (hash o : Nat) (ho : o < 16384) :
    (h.recordDone hash o).get F.EN_ACCT_UJ (h.get F.CTX_STATE_HOOP o) =
      (h.get F.EN_ACCT_UJ (h.get F.CTX_STATE_HOOP o) + h.accTotal o true) % 2 ^ 64 := by
  obtain ⟨g, hg⟩ : ∃ g, g = ((h.hashShown hash).inc F.EN_COUNTER_COUNT).onEnergy (recordMade o) := ⟨_, rfl⟩
  have hget (f : Fld) (i : Nat) (hf : f.reg ≠ .EN_LASTHASH ∧ f.reg ≠ .EN_COUNTER) : g.get f i = h.get f i := by
    rw [hg, get_onEnergy, get_inc_reg _ _ _ _ _ hf.2, get_hashShown _ _ _ _ hf.1]
  have hacc : g.accTotal o true = h.accTotal o true := by
    refine accTotal_congr _ _ ?_ o true
    have henergy : g.energy = recordMade o h.energy := by rw [hg, energy_onEnergy, energy_inc, energy_hashShown]
    rw [henergy]
    rfl
  have hjoined : g.accountJoined o = g.inc F.EN_ACCT_UJ (h.accTotal o true) (h.get F.CTX_STATE_HOOP o) := by
    rw [accountJoined, if_pos ho, hacc, hget F.CTX_STATE_HOOP o (by decide)]
  rw [recordDone, ← hg, get, rd_signShown _ _ _ (by decide), ← get, hjoined, inc, get_put_same _ _ _ _ (by decide), hget _ _ (by decide)]
  rfl

theorem recordDone_facts (h : Hw) (hash o : Nat) :
    (h.recordDone hash o).on F.EN_SIGN_GO = false ∧ (h.recordDone hash o).on F.EN_SIGN_DONE = true ∧ (h.recordDone hash o).energy.signing = none ∧
      (h.recordDone hash o).energy.chainStart = false ∧ (h.recordDone hash o).get F.EN_COUNTER_COUNT = (h.get F.EN_COUNTER_COUNT + 1) % 2 ^ 64 ∧
      (∀ k, k < 12 → (h.recordDone hash o).rd .EN_LASTHASH k = bits (32 * (11 - k)) 32 hash) := by
  have hrd (r : Reg) (i : Nat) (hr : r ≠ .EN_SIGN ∧ r ≠ .EN_ACCT) : (h.recordDone hash o).rd r i = ((h.hashShown hash).inc F.EN_COUNTER_COUNT).rd r i := by
    rw [recordDone, rd_signShown _ _ _ hr.1, rd_accountJoined _ _ _ _ hr.2, rd_onEnergy]
  have henergy : (h.recordDone hash o).energy = recordMade o h.energy := by
    rw [recordDone, energy_signShown, energy_accountJoined, energy_onEnergy, energy_inc, energy_hashShown]
  obtain ⟨hgo, hdone⟩ := signShown_facts ((((h.hashShown hash).inc F.EN_COUNTER_COUNT).onEnergy (recordMade o)).accountJoined o)
  refine ⟨hgo, hdone, ?_, ?_, ?_, fun k hk => ?_⟩
  · rw [henergy]
    rfl
  · rw [henergy]
    rfl
  · rw [get, hrd _ _ (by decide), ← get, inc, get_put_same _ _ _ _ (by decide), get_hashShown _ _ _ _ (by decide)]
    rfl
  · rw [hrd _ _ (by decide), rd_inc_reg _ _ _ _ _ _ (by decide), lastHash_hashShown h hash k hk]

end Hw

/-! The commands. -/

/-- A work that stores one byte string and changes the hardware. -/
theorem State.answers_stores (s : State) (f : Work → Work) (h' : Hw) (area addr : Nat) (bs : List Byte)
    (hf : f s.work = { hw := h', mem := s.mem.write area addr bs, writes := [.store area addr bs] }) :
    s.answers f = .next { s with hw := h'.settled, mem := s.mem.write area addr bs } := by
  unfold State.answers
  rw [hf]
  rfl

/-- The record with its signature. -/
def signedRecord (body : List Byte) : List Byte := body ++ sliceBytes 0 96 (Config.deviceSign (Config.sha384 body))

/-- What the end of a record does to the hardware is the record made. -/
theorem onHw_recordDone (w : Work) (hash o : Nat) :
    w.onHw (fun h =>
      let h := (List.range 12).foldl (fun h i => h.wr .EN_LASTHASH i (bits (32 * (11 - i)) 32 hash)) h
      let h := (h.inc F.EN_COUNTER_COUNT).onEnergy (fun e => { e with
        signing := none, chainStart := false, resumed := false, produced := if o < 16384 then Tab.insert e.produced o 1 else e.produced })
      let h := if o < 16384 then h.inc F.EN_ACCT_UJ (h.accTotal o true) (h.get F.CTX_STATE_HOOP o) else h
      (h.put F.EN_SIGN_GO 0).setFlag F.EN_SIGN_DONE) = w.onHw (fun h => h.recordDone hash o) := rfl

theorem signDone_eq (s : State) (body : List Byte) (o : Nat) (hsign : s.hw.energy.signing = some (body, o)) (hbody : body ≠ []) :
    signDone s.work =
      { hw := s.hw.recordDone (Config.sha384 (signedRecord body)).toNat o, mem := s.mem.write Area.block (s.hw.rd .EN_SIGNBUF 0) (signedRecord body),
        writes := [.store Area.block (s.hw.rd .EN_SIGNBUF 0) (signedRecord body)] } := by
  have hsign' : s.work.hw.energy.signing = some (body, o) := hsign
  have hstore : s.work.store Area.block (s.work.hw.rd .EN_SIGNBUF 0) (body ++ sliceBytes 0 96 (Config.deviceSign (Config.sha384 body))) =
      s.work.write (.store Area.block (s.hw.rd .EN_SIGNBUF 0) (signedRecord body)) := by
    refine if_neg ?_
    cases body with
    | nil => exact absurd rfl hbody
    | cons b bs => exact Bool.false_ne_true
  unfold signDone
  simp only [hsign']
  rw [onHw_recordDone, hstore]
  rfl

theorem State.samplerSignDone_stores (s : State) (body : List Byte) (o : Nat) (haclk : s.hw.clocks.aclk = true)
    (hsign : s.hw.energy.signing = some (body, o)) (hbody : body ≠ []) :
    exec .samplerSignDone s = .next { s with
      hw := (s.hw.recordDone (Config.sha384 (signedRecord body)).toNat o).settled,
      mem := s.mem.write Area.block (s.hw.rd .EN_SIGNBUF 0) (signedRecord body) } :=
  State.answers_stores s _ _ _ _ _ ((clocked_of _ s.work haclk).trans (signDone_eq s body o hsign hbody))

theorem State.calibrationWrite_writes (s : State) (a : Agent) (k : Nat) (v : Word)
    (htakes : s.hw.Takes a (if k < 16 then .EN_CAL else .EN_CAL_ID) (if k < 16 then k else 0)) :
    exec (.calibrationWrite a k v) s = s.leads (s.hw.writeCal (min k 16) v.toNat) := by
  have hv : v.toNat % 2 ^ 32 = v.toNat := Nat.mod_eq_of_lt v.isLt
  have hexec : exec (.calibrationWrite a k v) s =
      s.answers (Hw.writeNamed a (if k < 16 then .EN_CAL else .EN_CAL_ID) (if k < 16 then k else 0) v.toNat) := rfl
  by_cases hk : k < 16
  · rw [if_pos hk, if_pos hk] at htakes hexec
    rw [hexec, Nat.min_eq_left (by omega : k ≤ 16), State.answers_writeNamed s a .EN_CAL k v.toNat (fun h => h.writeCal k (v.toNat % 2 ^ 32)) htakes rfl, hv]
  · rw [if_neg hk, if_neg hk] at htakes hexec
    rw [hexec, Nat.min_eq_right (by omega : 16 ≤ k), State.answers_writeNamed s a .EN_CAL_ID 0 v.toNat (fun h => h.writeCal 16 (v.toNat % 2 ^ 32)) htakes rfl, hv]

theorem State.samplerSign_writes (s : State) (a : Agent) (v : Word) (htakes : s.hw.Takes a .EN_SIGN 0) :
    exec (.samplerSign a v) s = s.leads (s.hw.writeEnSign (withFld F.EN_SIGN_GO 1 v.toNat % 2 ^ 32)) :=
  State.answers_writeNamed s a .EN_SIGN 0 (withFld F.EN_SIGN_GO 1 v.toNat) (fun h => h.writeEnSign (withFld F.EN_SIGN_GO 1 v.toNat % 2 ^ 32)) htakes rfl

/-- Settles O58: the energy unit's samples, divisions, coefficients and records. -/
theorem energyCommandsTakeEffect : Obligations.EnergyCommandsTakeEffect := by
  unfold Obligations.EnergyCommandsTakeEffect
  refine ⟨?_, ?_, ?_, ?_, ?_, ?_⟩
  · intro s v i r x hasked hrails hv hi hr hclass hx
    exact ⟨_, State.answers_onHw s (fun h => h.telemetrySample (List.replicate 8 v) (List.replicate 8 i)),
      Hw.telemetrySample_facts s.hw v i r x hasked hrails hv hi hr hx⟩
  · intro s haclk
    have hexec : exec .apportionment s = s.leads s.hw.apportion := State.answers_clocked s (fun h => h.apportion) haclk
    exact ⟨fun hidle => by rw [hexec, Hw.apportion_idle s.hw hidle], fun hsettled => ⟨_, hexec, Hw.apportion_facts s.hw hsettled⟩⟩
  · intro s a v htakes hoff
    have hexec : exec (.energyUnitEnable a v) s = s.leads (s.hw.writeEnCtrl (withFld F.EN_CTRL_ENABLE 1 v.toNat % 2 ^ 32)) :=
      State.answers_writeNamed s a .EN_CTRL 0 (withFld F.EN_CTRL_ENABLE 1 v.toNat)
        (fun h => h.writeEnCtrl (withFld F.EN_CTRL_ENABLE 1 v.toNat % 2 ^ 32)) htakes rfl
    rw [Hw.writeEnCtrl_eq s.hw _ (bit_setWord F.EN_CTRL_ENABLE _ rfl (by decide)) hoff] at hexec
    refine ⟨fun hnone => ?_, fun r hr hon hcore => ⟨fun hdepends => ?_, fun htm hbuf => ?_⟩⟩
    · rw [hexec, Hw.coreRailOn_false s.hw hnone, Bool.not_false, if_pos rfl]
    · have hcond : (!s.hw.tmInService || decide (s.hw.rd .EN_SIGNBUF 0 + 288 > s.hw.scratchSize)) = true := by
        rcases hdepends with htm | hbuf
        · rw [htm]
          rfl
        · rw [decide_eq_true hbuf, Bool.or_true]
      rw [hexec, Hw.coreRailOn_true s.hw r hr hon hcore, Bool.not_true, if_neg Bool.false_ne_true, if_pos hcond]
    · rw [Hw.coreRailOn_true s.hw r hr hon hcore, Bool.not_true, if_neg Bool.false_ne_true, htm, decide_eq_false (Nat.not_lt.mpr hbuf), Bool.not_true,
        Bool.or_self, if_neg Bool.false_ne_true] at hexec
      exact ⟨_, hexec, Hw.energyServed_facts s.hw⟩
  · intro s a k v htakes
    have hexec := State.calibrationWrite_writes s a k v htakes
    have hv : v.toNat % 2 ^ 32 = v.toNat := Nat.mod_eq_of_lt v.isLt
    refine ⟨fun hopen hk => ?_, fun hno => ?_⟩
    · rw [hexec, Hw.writeCal_held s.hw _ _ hopen (by omega), hv]
      rfl
    · rw [hexec, Hw.writeCal_ignored s.hw _ _ (hno.imp_right fun hk => by omega)]
  · intro s a v x htakes hflags hx
    have hexec := State.samplerSign_writes s a v htakes
    have hflags' : bits 16 2 (withFld F.EN_SIGN_GO 1 v.toNat % 2 ^ 32) = 0 := (bits_withFld_apart F.EN_SIGN_GO 16 2 1 _ (by decide) (by decide)).trans hflags
    have hgo : bit 15 (withFld F.EN_SIGN_GO 1 v.toNat % 2 ^ 32) = true := bit_setWord F.EN_SIGN_GO _ rfl (by decide)
    have hblk : bit 14 (withFld F.EN_SIGN_GO 1 v.toNat % 2 ^ 32) = bit 14 v.toNat := bit_withFld_apart F.EN_SIGN_GO 14 1 _ (by decide) (by decide)
    have hctx : bits 0 14 (withFld F.EN_SIGN_GO 1 v.toNat % 2 ^ 32) = x := (bits_withFld_apart F.EN_SIGN_GO 0 14 1 _ (by decide) (by decide)).trans hx.symm
    have hx14 : x < 2 ^ 14 := hx ▸ bits_lt _ _ _
    refine ⟨fun hbusy => ?_, fun hidle hcontext hstate hnew hdone => ?_, fun hidle hblock => ?_⟩
    · rw [hexec, Hw.writeEnSign_busy s.hw _ hflags' hgo hbusy]
    · rw [Hw.writeEnSign_context s.hw _ x hflags' hgo (hblk.trans hcontext) hctx hidle hstate hnew hdone] at hexec
      exact ⟨_, hexec, Hw.signing_facts s.hw x hx14 _⟩
    · rw [Hw.writeEnSign_block s.hw _ hflags' hgo (hblk.trans hblock) hidle, hctx] at hexec
      exact ⟨_, _, hexec, Hw.blockSigning_facts s.hw x hx14 _⟩
  · intro s body o haclk hsign hbody record
    obtain ⟨hgo, hdone, hnone, hchain, hcount, hhash⟩ := Hw.recordDone_facts s.hw (Config.sha384 (signedRecord body)).toNat o
    exact ⟨_, State.samplerSignDone_stores s body o haclk hsign hbody, hgo, hdone, hnone, hchain, hcount, hhash, Hw.account_recordDone s.hw _ o⟩

end Sys2Proof.Machine
end

section
/-! Snapshots and the management protocol (O59). -/

namespace Sys2Proof.Machine

/-! The snapshot unit. -/

theorem testBit_bits (lo w x k : Nat) : (bits lo w x).testBit k = (decide (k < w) && x.testBit (lo + k)) := by
  unfold bits
  rw [Nat.testBit_mod_two_pow, Nat.testBit_div_two_pow, Nat.add_comm]

/-- A field that the value writes, and that holds no W1C flag, takes the value. -/
theorem bits_writtenWord (old rw w1c v hwSet lo w : Nat) (hw : lo + w ≤ 32) (hrw : bits lo w rw = 2 ^ w - 1) (hw1c : bits lo w w1c = 0) :
    bits lo w (Hw.writtenWord old rw w1c v hwSet) = bits lo w v := by
  refine Nat.eq_of_testBit_eq fun k => ?_
  rw [testBit_bits, testBit_bits]
  by_cases hk : k < w
  · have htakes : rw.testBit (lo + k) = true := by
      have h := testBit_bits lo w rw k
      rw [hrw, Nat.testBit_two_pow_sub_one, decide_eq_true hk, Bool.true_and] at h
      exact h.symm
    have hkeeps : w1c.testBit (lo + k) = false := by
      have h := testBit_bits lo w w1c k
      rw [hw1c, Nat.zero_testBit, decide_eq_true hk, Bool.true_and] at h
      exact h.symm
    rw [testBit_writtenWord _ _ _ _ _ _ (by omega), htakes, hkeeps]
    simp
  · rw [decide_eq_false hk, Bool.false_and, Bool.false_and]

namespace Hw

/-- The word of MG_SNAPCTRL. -/
abbrev snapPlace : Place := { reg := .MG_SNAPCTRL, idx := 0, outer := 0, hi := false }

theorem plainWrite_snapCtrl (h : Hw) (v : Nat) : ∃ old, (h.plainWrite snapPlace v 0).get F.MG_SNAPCTRL_COUNT = bits 8 8 (writtenWord old 0xFF00 6 v 0) := by
  refine ⟨bits 0 32 (h.rd .MG_SNAPCTRL 0), ?_⟩
  have heq : h.plainWrite snapPlace v 0 =
      (h.wr .MG_SNAPCTRL 0 (putBits 0 32 (writtenWord (bits 0 32 (h.rd .MG_SNAPCTRL 0)) (bits 0 32 (if 2 ≤ h.get F.SC_STATE_STATE then 0xFF00 else 0xFF00)) 6 v 0)
        (h.rd .MG_SNAPCTRL 0))) := by
    unfold plainWrite
    have hnone : ∀ x, Nat.land 0 x = 0 := Nat.zero_and
    exact if_pos (by rw [hnone, hnone]; rfl)
  rw [heq, ite_self]
  refine (get_wr_same h F.MG_SNAPCTRL_COUNT _ 0 (by decide)).trans ?_
  rw [← bits_mod _ _ _ 32 (by decide)]
  have hlow : ∀ n x : Nat, putBits 0 32 n x % 2 ^ 32 = n % 2 ^ 32 := fun n x => by
    have h := bits_putBits 0 32 n x
    rwa [bits, Nat.pow_zero, Nat.div_one] at h
  rw [hlow, bits_mod _ _ _ 32 (by decide)]
  rfl

/-- A capture armed in this beat. -/
def armSnap (h g : Hw) : Hw := { g with mgmt := { h.mgmt with snapBeat := h.time.beat } }

theorem only_armSnap {h g : Hw} {ks : List (Reg × Nat)} (ho : h.Only g ks) : h.Only { h.armSnap g with mgmt := h.mgmt } ks := by
  obtain ⟨hrest, hrd⟩ := ho
  refine ⟨?_, hrd⟩
  show ({ ({ g with ctl := h.ctl } : Hw) with mgmt := h.mgmt } : Hw) = h
  rw [hrest]

theorem on_armSnap (h g : Hw) (f : Fld) (i : Nat) : (h.armSnap g).on f i = g.on f i := rfl

theorem get_armSnap (h g : Hw) (f : Fld) (i : Nat) : (h.armSnap g).get f i = g.get f i := rfl

/-- What an accepted GO leaves. -/
theorem plainWrite_go_facts (h : Hw) (v : Nat) :
    ((h.plainWrite snapPlace v 0).put F.MG_SNAPCTRL_GO 1).on F.MG_SNAPCTRL_GO = true ∧
    ((h.plainWrite snapPlace v 0).put F.MG_SNAPCTRL_GO 1).get F.MG_SNAPCTRL_COUNT = bits 8 8 v ∧
    h.Only ((h.plainWrite snapPlace v 0).put F.MG_SNAPCTRL_GO 1) [(.MG_SNAPCTRL, 0)] := by
  obtain ⟨old, hcount⟩ := h.plainWrite_snapCtrl v
  refine ⟨on_put_same _ F.MG_SNAPCTRL_GO 1 0 (by decide), ?_, (h.only_plainWrite snapPlace v 0).put F.MG_SNAPCTRL_GO 1 0 (List.mem_singleton_self _)⟩
  rw [get_put_apart _ F.MG_SNAPCTRL_GO F.MG_SNAPCTRL_COUNT _ _ rfl (by decide) (by decide), hcount]
  exact bits_writtenWord old _ _ v 0 8 8 (by decide) (by decide) (by decide)

/-- A word of the snapshot list that names no register word (R429). -/
def badListWord (x : Nat) : Bool := x % 4 != 0 || 2 ^ 28 ≤ x

theorem badListWord_false (x : Nat) (halign : x % 4 = 0) (hreach : x < 2 ^ 28) : badListWord x = false := by
  unfold badListWord
  rw [halign, decide_eq_false (Nat.not_le.mpr hreach)]
  rfl

theorem writeSnapCtrl_go (h : Hw) (m : Mem) (v : Nat) (hgo : bit 0 v = true) :
    h.writeSnapCtrl m v 0 = if h.on F.MG_SNAPCTRL_GO then h.mgRefuse Rc.CFG_CONFLICT
      else if bits 8 8 v == 0 || decide (128 < bits 8 8 v) ||
          (List.range (bits 8 8 v)).any (fun i => badListWord (m.le Area.block (h.rd .MG_SNAPLIST 0 + 4 * i) 4)) ||
          decide (h.scratchSize < h.rd .MG_SNAPLIST 0 + 4 * bits 8 8 v) then h.mgRefuse Rc.CFG_RANGE
      else h.armSnap ((h.plainWrite snapPlace v 0).put F.MG_SNAPCTRL_GO 1) := by
  unfold writeSnapCtrl
  rw [hgo]
  rfl

theorem writeSnapCtrl_range (h : Hw) (m : Mem) (v : Nat) (hgo : bit 0 v = true) (hidle : h.on F.MG_SNAPCTRL_GO = false)
    (hcount : bits 8 8 v = 0 ∨ 128 < bits 8 8 v) : h.writeSnapCtrl m v 0 = h.mgRefuse Rc.CFG_RANGE := by
  rw [writeSnapCtrl_go h m v hgo, hidle, if_neg Bool.false_ne_true, if_pos]
  rcases hcount with hzero | hlong
  · rw [hzero]
    rfl
  · rw [decide_eq_true hlong, Bool.or_true, Bool.true_or, Bool.true_or]

theorem writeSnapCtrl_taken (h : Hw) (m : Mem) (v : Nat) (hgo : bit 0 v = true) (hidle : h.on F.MG_SNAPCTRL_GO = false) (hpos : 0 < bits 8 8 v)
    (hshort : bits 8 8 v ≤ 128) (hfits : h.rd .MG_SNAPLIST 0 + 4 * bits 8 8 v ≤ h.scratchSize)
    (hlist : ∀ k, k < bits 8 8 v → m.le Area.block (h.rd .MG_SNAPLIST 0 + 4 * k) 4 % 4 = 0 ∧ m.le Area.block (h.rd .MG_SNAPLIST 0 + 4 * k) 4 < 2 ^ 28) :
    h.writeSnapCtrl m v 0 = h.armSnap ((h.plainWrite snapPlace v 0).put F.MG_SNAPCTRL_GO 1) := by
  have hwords : (List.range (bits 8 8 v)).any (fun i => badListWord (m.le Area.block (h.rd .MG_SNAPLIST 0 + 4 * i) 4)) = false :=
    List.any_eq_false.mpr fun k hk => by
      obtain ⟨halign, hreach⟩ := hlist k (List.mem_range.mp hk)
      rw [badListWord_false _ halign hreach]
      exact Bool.false_ne_true
  rw [writeSnapCtrl_go h m v hgo, hidle, if_neg Bool.false_ne_true, hwords, decide_eq_false (Nat.not_lt.mpr hshort), decide_eq_false (Nat.not_lt.mpr hfits),
    beq_eq_false_iff_ne.mpr (Nat.ne_of_gt hpos)]
  exact if_neg Bool.false_ne_true

end Hw

theorem State.snapshotGo_writes (s : State) (a : Agent) (v : Word) (htakes : s.hw.Takes a .MG_SNAPCTRL 0) :
    exec (.snapshotGo a v) s = s.leads (s.hw.writeSnapCtrl s.mem (withFld F.MG_SNAPCTRL_GO 1 v.toNat % 2 ^ 32) 0) :=
  State.answers_of s _ (fun w => w.onHwMem (fun m h => h.writeSnapCtrl m (withFld F.MG_SNAPCTRL_GO 1 v.toNat % 2 ^ 32) 0)) _
    (Hw.writeNamed_of_takes _ _ _ _ _ htakes) rfl

/-- The words that a capture stores. -/
def snapWords (h : Hw) (m : Mem) (n : Nat) : List Byte :=
  (List.range n).flatMap (fun k => leBytes 4 (h.sampleWord m (m.le Area.block (h.rd .MG_SNAPLIST 0 + 4 * k) 4)))

theorem snapWords_ne_nil (h : Hw) (m : Mem) (n : Nat) (hn : 0 < n) : (snapWords h m n).isEmpty = false := by
  obtain ⟨k, rfl⟩ := Nat.exists_eq_succ_of_ne_zero (Nat.ne_of_gt hn)
  unfold snapWords
  rw [List.range_succ_eq_map]
  rfl

theorem snapshotCapture_early (w : Work) (hearly : w.hw.time.beat ≤ w.hw.mgmt.snapBeat) : snapshotCapture w = w := by
  unfold snapshotCapture
  exact if_pos (by rw [decide_eq_true hearly, Bool.or_true])

/-- The hardware after a capture. -/
def Hw.captured (h : Hw) : Hw := ((h.wr .MG_SNAPBEAT 0 h.time.beat).put F.MG_SNAPCTRL_GO 0).setFlag F.MG_SNAPCTRL_DONE

theorem snapshotCapture_stores (w : Work) (hgo : w.hw.on F.MG_SNAPCTRL_GO = true) (hlate : w.hw.mgmt.snapBeat < w.hw.time.beat)
    (hn : 0 < w.hw.get F.MG_SNAPCTRL_COUNT) :
    snapshotCapture w = (w.write (.store Area.block (w.hw.rd .MG_SNAPBUF 0) (snapWords w.hw w.mem (w.hw.get F.MG_SNAPCTRL_COUNT)))).onHw (·.captured) := by
  unfold snapshotCapture
  refine (if_neg (by rw [hgo, decide_eq_false (Nat.not_le.mpr hlate)]; exact Bool.false_ne_true)).trans ?_
  have hstore : w.store Area.block (w.hw.rd .MG_SNAPBUF 0) (snapWords w.hw w.mem (w.hw.get F.MG_SNAPCTRL_COUNT)) =
      w.write (.store Area.block (w.hw.rd .MG_SNAPBUF 0) (snapWords w.hw w.mem (w.hw.get F.MG_SNAPCTRL_COUNT))) :=
    if_neg (by rw [snapWords_ne_nil _ _ _ hn]; exact Bool.false_ne_true)
  rw [← hstore]
  rfl

theorem Hw.captured_facts (h : Hw) : h.captured.on F.MG_SNAPCTRL_GO = false ∧ h.captured.on F.MG_SNAPCTRL_DONE = true ∧
    h.captured.rd .MG_SNAPBEAT 0 = h.time.beat % 2 ^ 64 ∧ h.Only h.captured [(.MG_SNAPCTRL, 0), (.MG_SNAPBEAT, 0)] := by
  unfold Hw.captured Hw.setFlag
  refine ⟨?_, on_put_same _ F.MG_SNAPCTRL_DONE 1 0 (by decide), ?_, ?_⟩
  · rw [on_put_apart _ F.MG_SNAPCTRL_DONE F.MG_SNAPCTRL_GO _ _ rfl (by decide) (by decide)]
    exact on_put_same _ F.MG_SNAPCTRL_GO 0 0 (by decide)
  · rw [rd_put_reg _ F.MG_SNAPCTRL_DONE _ _ _ _ (by decide), rd_put_reg _ F.MG_SNAPCTRL_GO _ _ _ _ (by decide), rd_wr_same]
    rfl
  · exact (((Only.refl h _).wr .MG_SNAPBEAT 0 _ (by decide)).put F.MG_SNAPCTRL_GO 0 0 (by decide)).put F.MG_SNAPCTRL_DONE 1 0 (by decide)

/-! The management protocol. -/

namespace Hw

/-- Taking a message touches the link unit alone. -/
theorem takeMgmt_eq (h : Hw) (msg : List Byte) {h1 : Hw} {src : Option Nat} (ht : h.takeMgmt msg = (h1, src)) : ∃ f, h1 = h.onLink f := by
  unfold takeMgmt at ht
  split at ht
  · exact ⟨_, (Prod.mk.inj ht).1.symm⟩
  · exact ⟨id, (Prod.mk.inj ht).1.symm⟩

/-- The form of an OPEN's body and header that the Keeper takes (R432). -/
def openBad (h : Hw) (msg b : List Byte) : Bool :=
  b.length != 161 || 1 < leAt 0 1 b || leAt 1 1 b != 0 || leAt 4 4 b != 0 || leAt 8 8 b != h.build.serial || leAt 4 2 msg != 0

theorem openBad_false (h : Hw) (msg b : List Byte) (hlen : b.length = 161) (hkind : leAt 0 1 b ≤ 1) (h1 : leAt 1 1 b = 0) (h4 : leAt 4 4 b = 0)
    (hserial : leAt 8 8 b = h.build.serial) (hsession : leAt 4 2 msg = 0) : h.openBad msg b = false := by
  unfold openBad
  rw [hlen, decide_eq_false (Nat.not_lt.mpr hkind), h1, h4, hserial, hsession, bne_self_eq_false, bne_self_eq_false, bne_self_eq_false]
  rfl

theorem openBad_true (h : Hw) (msg b : List Byte) (hbad : b.length ≠ 161 ∨ leAt 8 8 b ≠ h.build.serial) : h.openBad msg b = true := by
  unfold openBad
  rcases hbad with hlen | hserial
  · rw [bne_iff_ne.mpr hlen]
    simp only [Bool.true_or]
  · rw [bne_iff_ne.mpr hserial]
    simp only [Bool.true_or, Bool.or_true]

/-- The block's nonce for an OPEN. -/
def openNonce (h : Hw) : List Byte := (List.range 6).flatMap (fun k => leBytes 8 (Config.trng (h.draws + 1 + k)).toNat)

/-- The part of an ACCEPT's body that is signed. -/
def openPart (h : Hw) : List Byte := sliceBytes 0 97 (Config.ephemeralPub h.draws) ++ h.openNonce

/-- The body of the ACCEPT that answers an OPEN. -/
def openReply (h : Hw) (b : List Byte) : List Byte :=
  h.openPart ++
    if h.get F.SC_STATE_STATE == 0 then List.replicate 96 0#8 else sliceBytes 0 96 (Config.deviceSign (Config.sha384 (b ++ h.openPart)))

/-- The session that an OPEN begins. -/
def opened (h : Hw) (b : List Byte) : Session :=
  { opening := some (b, h.openReply b), tenant := leAt 0 1 b == 1, hoop := leAt 2 2 b, secret := hashBytes (Config.ecdh h.draws (sliceBytes 16 97 b)),
    salt := (b.drop 113).take 48 ++ h.openNonce, lastBeat := h.time.beat }

/-- A session listed under the next number. -/
def beginSession (n : Nat) (x : Session) (g : Mgmt) : Mgmt := { g with sessions := Tab.insert g.sessions n x, nextSession := n % 65535 + 1 }

/-- A session listed under its number. -/
def keepSession (n : Nat) (x : Session) (g : Mgmt) : Mgmt := { g with sessions := Tab.insert g.sessions n x }

theorem mgOpen_cases (h : Hw) (msg : List Byte) {h1 : Hw} {src : Option Nat} (ht : h.takeMgmt msg = (h1, src)) (hserved : h1.dictServed = true)
    (hhead : headOk 1 msg = true) : h.mgOpen msg =
      if h1.openBad msg (msgBody msg) then h1.reject src 0 1 else if 8 ≤ h1.mgmt.sessions.length then h1.reject src 0 2
      else ((h1.draw 7).onMgmt (beginSession h1.mgmt.nextSession (h1.opened (msgBody msg)))).answer src
        (mgMessage 2 h1.mgmt.nextSession 0 (h1.openReply (msgBody msg))) := by
  unfold mgOpen
  rw [ht]
  exact if_neg (by rw [hserved, hhead]; exact Bool.false_ne_true)

theorem mgConfirm_none (h : Hw) (msg : List Byte) {h1 : Hw} {src : Option Nat} (ht : h.takeMgmt msg = (h1, src)) (hserved : h1.dictServed = true)
    (hhead : headOk 3 msg = true) (hnone : Tab.find? h1.mgmt.sessions (leAt 4 2 msg) = none) : h.mgConfirm msg = h1.reject src (leAt 4 2 msg) 1 := by
  unfold mgConfirm
  rw [ht]
  refine (if_neg (by rw [hserved, hhead]; exact Bool.false_ne_true)).trans ?_
  dsimp only
  rw [hnone]

/-- A session whose keys are derived. -/
def confirmed (h : Hw) (n : Nat) (x : Session) : Session :=
  { x with
    opening := none
    stationKey := sliceBytes 0 48 (Config.hkdf (BitVec.ofNat 384 (leNat x.secret)) x.salt
      ("FRV2-MGMT".toList.map (fun c => BitVec.ofNat 8 c.toNat) ++ leBytes 2 n) 96)
    blockKey := sliceBytes 48 48 (Config.hkdf (BitVec.ofNat 384 (leNat x.secret)) x.salt
      ("FRV2-MGMT".toList.map (fun c => BitVec.ofNat 8 c.toNat) ++ leBytes 2 n) 96)
    secret := []
    salt := []
    lastBeat := h.time.beat }

theorem mgConfirm_opening (h : Hw) (msg : List Byte) {h1 : Hw} {src : Option Nat} {x : Session} {o y : List Byte} (ht : h.takeMgmt msg = (h1, src))
    (hserved : h1.dictServed = true) (hhead : headOk 3 msg = true) (hx : Tab.find? h1.mgmt.sessions (leAt 4 2 msg) = some x)
    (hopening : x.opening = some (o, y)) : h.mgConfirm msg =
      if h1.confirmOk x (Config.sha384 (o ++ y)) (msgBody msg) then
        h1.onMgmt (keepSession (leAt 4 2 msg) (h1.confirmed (leAt 4 2 msg) x))
      else (h1.onMgmt (fun g => { g with sessions := Tab.erase g.sessions (leAt 4 2 msg) })).reject src (leAt 4 2 msg) 1 := by
  unfold mgConfirm
  rw [ht]
  refine (if_neg (by rw [hserved, hhead]; exact Bool.false_ne_true)).trans ?_
  dsimp only
  rw [hx]
  dsimp only
  rw [hopening]
  rfl

theorem length_sliceBytes (off n : Nat) (bs : List Byte) : (sliceBytes off n bs).length = n := by
  unfold sliceBytes
  rw [List.length_append, List.length_replicate, List.length_take]
  omega

end Hw

/-! Requests. -/

theorem mgRequest_unauthentic (op : Nat) (msg : List Byte) (w : Work) {h1 : Hw} {src : Option Nat} (ht : w.hw.takeMgmt msg = (h1, src))
    (hserved : h1.dictServed = true) (hnone : h1.authentic 4 msg = none) : mgRequest op msg w = { w with hw := h1.discardMsg } := by
  unfold mgRequest
  rw [ht]
  refine (if_neg (by show ¬ (!h1.dictServed) = true; rw [hserved]; exact Bool.false_ne_true)).trans ?_
  show (match h1.authentic 4 msg with | none => _ | some s => _) = _
  rw [hnone]
  rfl

theorem mgRequest_otherOp (op : Nat) (msg : List Byte) (w : Work) {h1 : Hw} {src : Option Nat} {x : Session} (ht : w.hw.takeMgmt msg = (h1, src))
    (hserved : h1.dictServed = true) (hx : h1.authentic 4 msg = some x) (hseq : leAt 8 8 msg = x.lastSeq + 1) (hop : leAt 16 1 msg ≠ op) :
    mgRequest op msg w = { w with hw := h1.discardMsg } := by
  unfold mgRequest
  rw [ht]
  refine (if_neg (by show ¬ (!h1.dictServed) = true; rw [hserved]; exact Bool.false_ne_true)).trans ?_
  show (match h1.authentic 4 msg with | none => _ | some s => _) = _
  rw [hx]
  refine (if_neg (by rw [hseq, beq_eq_false_iff_ne.mpr (Nat.succ_ne_self _)]; exact Bool.false_ne_true)).trans ?_
  refine (if_pos (by rw [bne_iff_ne.mpr hop, Bool.or_true])).trans rfl

/-- Who a session acts for. -/
def Session.principal (x : Session) : Dict.Principal :=
  { tenant := x.tenant, hoop := x.hoop, selector := x.selector, faultIndex := x.faultIndex }

/-- The RESPONSE to a session's REQUEST, with its tag. -/
def Session.response (x : Session) (n q : Nat) (body : List Byte) : List Byte :=
  Hw.mgMessage 5 n q body ++ Hw.hashBytes (Config.hmac384 x.blockKey (Hw.mgMessage 5 n q body))

/-- A session that has answered a REQUEST. -/
def Session.answered (x : Session) (q t : Nat) (m : List Byte) (p : Dict.Principal) : Session :=
  { x with lastSeq := q, lastResponse := m, lastBeat := t, selector := p.selector, faultIndex := p.faultIndex }

/-- A session's REQUEST answered and remembered. -/
def Hw.respond (h : Hw) (n q : Nat) (x : Session) (body : List Byte) (p : Dict.Principal) (src : Option Nat) : Hw :=
  (h.onMgmt (Hw.keepSession n (x.answered q h.time.beat (x.response n q body) p))).answer src (x.response n q body)

theorem mgRequest_served (op : Nat) (msg : List Byte) (w : Work) {h1 : Hw} {src : Option Nat} {x : Session} {body : List Byte} {p : Dict.Principal} {w1 : Work}
    (ht : w.hw.takeMgmt msg = (h1, src)) (hserved : h1.dictServed = true) (hx : h1.authentic 4 msg = some x) (hseq : leAt 8 8 msg = x.lastSeq + 1)
    (hop : leAt 16 1 msg = op) (hserve : Dict.serve x.principal (Hw.msgBody msg) 1436 { w with hw := h1 } = some (body, p, w1))
    (hlisted : Tab.find? w1.hw.mgmt.sessions (leAt 4 2 msg) ≠ none) :
    mgRequest op msg w = { w1 with hw := w1.hw.respond (leAt 4 2 msg) (leAt 8 8 msg) x body p src } := by
  unfold mgRequest
  rw [ht]
  refine (if_neg (by show ¬ (!h1.dictServed) = true; rw [hserved]; exact Bool.false_ne_true)).trans ?_
  show (match h1.authentic 4 msg with | none => _ | some s => _) = _
  rw [hx]
  refine (if_neg (by rw [hseq, beq_eq_false_iff_ne.mpr (Nat.succ_ne_self _)]; exact Bool.false_ne_true)).trans ?_
  refine (if_neg (by rw [hseq, hop, bne_self_eq_false, bne_self_eq_false]; exact Bool.false_ne_true)).trans ?_
  show (match Dict.serve x.principal (Hw.msgBody msg) 1436 { w with hw := h1 } with | none => _ | some (body, p, w) => _) = _
  rw [hserve]
  have hkeeps : (Tab.find? w1.hw.mgmt.sessions (leAt 4 2 msg)).isNone = false := by
    rw [Option.isNone_eq_false_iff, Option.isSome_iff_ne_none]
    exact hlisted
  show w1.onHw (fun h => Hw.answer (if (Tab.find? h.mgmt.sessions (leAt 4 2 msg)).isNone = true then _ else _) src _) = _
  unfold Work.onHw
  dsimp only
  rw [if_neg (by rw [hkeeps]; exact Bool.false_ne_true)]
  rfl

namespace Hw

theorem mgRepeat_unauthentic (h : Hw) (msg : List Byte) {h1 : Hw} {src : Option Nat} (ht : h.takeMgmt msg = (h1, src))
    (hserved : h1.dictServed = true) (hnone : h1.authentic 4 msg = none) : h.mgRepeat msg = h1.discardMsg := by
  unfold mgRepeat
  rw [ht]
  refine (if_neg (by rw [hserved]; exact Bool.false_ne_true)).trans ?_
  dsimp only
  rw [hnone]

theorem mgRepeat_stored (h : Hw) (msg : List Byte) {h1 : Hw} {src : Option Nat} {x : Session} (ht : h.takeMgmt msg = (h1, src))
    (hserved : h1.dictServed = true) (hx : h1.authentic 4 msg = some x) (hseq : leAt 8 8 msg = x.lastSeq) (hne : leAt 8 8 msg ≠ 0) :
    h.mgRepeat msg = h1.answer src x.lastResponse := by
  unfold mgRepeat
  rw [ht]
  refine (if_neg (by rw [hserved]; exact Bool.false_ne_true)).trans ?_
  dsimp only
  rw [hx]
  exact if_pos (by rw [← hseq, beq_self_eq_true, bne_iff_ne.mpr hne]; rfl)

theorem mgClose_eq (h : Hw) (msg : List Byte) {h1 : Hw} {src : Option Nat} (ht : h.takeMgmt msg = (h1, src)) (hserved : h1.dictServed = true) :
    h.mgClose msg = if (h1.authentic 6 msg).isSome then h1.onMgmt (fun g => { g with sessions := Tab.erase g.sessions (leAt 4 2 msg) }) else h1.discardMsg := by
  unfold mgClose
  rw [ht]
  exact if_neg (by rw [hserved]; exact Bool.false_ne_true)

/-! Frames. -/

theorem frameAccept_taken (h : Hw) (f : List Byte) (hserved : h.dictServed = true) (hon : h.on F.MG_MFP_CTRL_ENABLE = true)
    (htype : leNat (((f.drop 12).take 2).reverse) = h.get F.MG_MFP_ETYPE_TYPE) (hlen : 14 ≤ f.length)
    (hdst : f.take 6 = Dict.macBytes h ∨ f.take 6 = List.replicate 6 0xFF#8) :
    h.frameAccept f = h.onLink (fun k => { k with inbox := k.inbox ++ [{ cls := 2, src := 65536, data := f.drop 14 }] }) := by
  unfold frameAccept
  refine (if_neg (by rw [hserved, hon]; exact Bool.false_ne_true)).trans (if_neg ?_)
  have hmine : (f.take 6 == Dict.macBytes h || f.take 6 == List.replicate 6 0xFF#8) = true := by
    rcases hdst with heq | heq
    · rw [beq_iff_eq.mpr heq, Bool.true_or]
    · rw [beq_iff_eq.mpr heq, Bool.or_true]
  rw [hmine, htype, bne_self_eq_false, decide_eq_false (Nat.not_lt.mpr hlen)]
  exact Bool.false_ne_true

theorem frameAccept_dropped (h : Hw) (f : List Byte) (hserved : h.dictServed = true) (hon : h.on F.MG_MFP_CTRL_ENABLE = true)
    (hbad : leNat (((f.drop 12).take 2).reverse) ≠ h.get F.MG_MFP_ETYPE_TYPE ∨ f.length < 14 ∨
      (f.take 6 ≠ Dict.macBytes h ∧ f.take 6 ≠ List.replicate 6 0xFF#8)) :
    h.frameAccept f = h.inc F.MG_MFP_DROP_COUNT := by
  unfold frameAccept
  refine (if_neg (by rw [hserved, hon]; exact Bool.false_ne_true)).trans (if_pos ?_)
  rcases hbad with htype | hshort | ⟨hmac, hall⟩
  · rw [bne_iff_ne.mpr htype, Bool.true_or, Bool.true_or]
  · rw [decide_eq_true hshort, Bool.or_true, Bool.true_or]
  · rw [beq_eq_false_iff_ne.mpr hmac, beq_eq_false_iff_ne.mpr hall, Bool.or_self, Bool.not_false, Bool.or_true]

end Hw

/-! The sessions' clauses of O59, over the state in which the message has been taken. -/

theorem mgmtOpen_clause (s : State) (msg b : List Byte) (h1 : Hw) (src : Option Nat) (ht : s.hw.takeMgmt msg = (h1, src)) (hserved : s.hw.dictServed = true)
    (hhead : Hw.headOk 1 msg = true) (hb : b = Hw.msgBody msg) :
    (b.length = 161 → leAt 0 1 b ≤ 1 → leAt 1 1 b = 0 → leAt 4 4 b = 0 → leAt 8 8 b = s.hw.build.serial → leAt 4 2 msg = 0 → s.hw.mgmt.sessions.length < 8 →
      src = none →
      ∃ h' x, exec (.mgmtOpen msg) s = s.leads h' ∧ Tab.find? h'.mgmt.sessions s.hw.mgmt.nextSession = some x ∧ x.tenant = (leAt 0 1 b == 1) ∧
        x.hoop = leAt 2 2 b ∧ x.lastSeq = 0 ∧ x.lastBeat = s.hw.time.beat ∧ (∃ y, x.opening = some (b, y)) ∧
        h'.mgmt.nextSession = s.hw.mgmt.nextSession % 65535 + 1 ∧ h'.ctl = s.hw.ctl) ∧
    (b.length = 161 → leAt 0 1 b ≤ 1 → leAt 1 1 b = 0 → leAt 4 4 b = 0 → leAt 8 8 b = s.hw.build.serial → leAt 4 2 msg = 0 → 8 ≤ s.hw.mgmt.sessions.length →
      exec (.mgmtOpen msg) s = s.leads (h1.reject src 0 2)) ∧
    (b.length ≠ 161 ∨ leAt 8 8 b ≠ s.hw.build.serial → exec (.mgmtOpen msg) s = s.leads (h1.reject src 0 1)) := by
  obtain ⟨f, rfl⟩ := s.hw.takeMgmt_eq msg ht
  have hexec : exec (.mgmtOpen msg) s = s.leads (s.hw.mgOpen msg) := State.answers_onHw s (fun h => h.mgOpen msg)
  rw [s.hw.mgOpen_cases msg ht hserved hhead, ← hb] at hexec
  refine ⟨fun hlen hkind h1 h4 hserial hsession hroom hsrc => ?_, fun hlen hkind h1 h4 hserial hsession hfull => ?_, fun hbad => ?_⟩
  · rw [Hw.openBad_false (s.hw.onLink f) msg b hlen hkind h1 h4 hserial hsession, if_neg Bool.false_ne_true] at hexec
    rw [show (if 8 ≤ (s.hw.onLink f).mgmt.sessions.length then _ else _) = _ from if_neg (Nat.not_le.mpr hroom), hsrc] at hexec
    exact ⟨_, _, hexec, Tab.find?_insert_same _ _ _, rfl, rfl, rfl, rfl, ⟨_, rfl⟩, rfl, rfl⟩
  · rw [hexec, Hw.openBad_false (s.hw.onLink f) msg b hlen hkind h1 h4 hserial hsession, if_neg Bool.false_ne_true]
    exact congrArg s.leads (if_pos hfull)
  · rw [hexec, Hw.openBad_true (s.hw.onLink f) msg b hbad, if_pos rfl]

theorem mgmtConfirm_clause (s : State) (msg : List Byte) (h1 : Hw) (src : Option Nat) (n : Nat) (ht : s.hw.takeMgmt msg = (h1, src))
    (hserved : s.hw.dictServed = true) (hhead : Hw.headOk 3 msg = true) (hn : n = leAt 4 2 msg) :
    (Tab.find? s.hw.mgmt.sessions n = none → exec (.mgmtConfirm msg) s = s.leads (h1.reject src n 1)) ∧
    (∀ x o y, Tab.find? s.hw.mgmt.sessions n = some x → x.opening = some (o, y) →
      (s.hw.confirmOk x (Config.sha384 (o ++ y)) (Hw.msgBody msg) = true →
        ∃ h' z, exec (.mgmtConfirm msg) s = s.leads h' ∧ Tab.find? h'.mgmt.sessions n = some z ∧ z.opening = none ∧ z.secret = [] ∧
          z.stationKey.length = 48 ∧ z.blockKey.length = 48 ∧ z.lastBeat = s.hw.time.beat ∧ h'.ctl = s.hw.ctl) ∧
      (s.hw.confirmOk x (Config.sha384 (o ++ y)) (Hw.msgBody msg) = false →
        exec (.mgmtConfirm msg) s = s.leads (({ h1 with mgmt := { h1.mgmt with sessions := Tab.erase h1.mgmt.sessions n } } : Hw).reject src n 1))) := by
  subst hn
  obtain ⟨f, rfl⟩ := s.hw.takeMgmt_eq msg ht
  have hexec : exec (.mgmtConfirm msg) s = s.leads (s.hw.mgConfirm msg) := State.answers_onHw s (fun h => h.mgConfirm msg)
  refine ⟨fun hnone => ?_, fun x o y hx hopening => ?_⟩
  · rw [hexec, s.hw.mgConfirm_none msg ht hserved hhead hnone]
  · rw [s.hw.mgConfirm_opening msg ht hserved hhead hx hopening] at hexec
    refine ⟨fun hproved => ?_, fun hfails => ?_⟩
    · rw [show (s.hw.onLink f).confirmOk x _ _ = _ from hproved, if_pos rfl] at hexec
      exact ⟨_, _, hexec, Tab.find?_insert_same _ _ _, rfl, rfl, Hw.length_sliceBytes _ _ _, Hw.length_sliceBytes _ _ _, rfl, rfl⟩
    · rw [hexec, show (s.hw.onLink f).confirmOk x _ _ = _ from hfails, if_neg Bool.false_ne_true]
      rfl

theorem mgmtRequest_exec (s : State) (msg : List Byte) (i : Instr) (op : Nat) (hi : i = Instr.requestRead msg ∧ op = 1 ∨ i = Instr.requestWrite msg ∧ op = 2) :
    exec i s = s.answers (mgRequest op msg) := by
  rcases hi with ⟨rfl, rfl⟩ | ⟨rfl, rfl⟩ <;> rfl

theorem mgmtRequest_leads (s : State) (msg : List Byte) (i : Instr) (op : Nat) (hi : i = Instr.requestRead msg ∧ op = 1 ∨ i = Instr.requestWrite msg ∧ op = 2)
    (h' : Hw) (hreq : mgRequest op msg s.work = { s.work with hw := h' }) : exec i s = s.leads h' := by
  rw [mgmtRequest_exec s msg i op hi]
  unfold State.answers
  rw [hreq]
  rfl

theorem mgmtRequest_clause (s : State) (msg : List Byte) (h1 : Hw) (src : Option Nat) (n q : Nat) (ht : s.hw.takeMgmt msg = (h1, src))
    (hserved : s.hw.dictServed = true) (hn : n = leAt 4 2 msg) (hq : q = leAt 8 8 msg) :
    (h1.authentic 4 msg = none →
      exec (.requestRead msg) s = s.leads h1.discardMsg ∧ exec (.requestWrite msg) s = s.leads h1.discardMsg ∧ exec (.requestRepeat msg) s = s.leads h1.discardMsg) ∧
    (∀ x, h1.authentic 4 msg = some x → q = x.lastSeq → q ≠ 0 → exec (.requestRepeat msg) s = s.leads (h1.answer src x.lastResponse)) ∧
    (∀ x i op, i = Instr.requestRead msg ∧ op = 1 ∨ i = Instr.requestWrite msg ∧ op = 2 → h1.authentic 4 msg = some x → q = x.lastSeq + 1 →
      (leAt 16 1 msg ≠ op → exec i s = s.leads h1.discardMsg) ∧
      (∀ body p w1, leAt 16 1 msg = op → src = none →
        Dict.serve { tenant := x.tenant, hoop := x.hoop, selector := x.selector, faultIndex := x.faultIndex } (Hw.msgBody msg) 1436 { s.work with hw := h1 } =
          some (body, p, w1) → Tab.find? w1.hw.mgmt.sessions n ≠ none →
        let m := Hw.mgMessage 5 n q body
        let m' := m ++ Hw.hashBytes (Config.hmac384 x.blockKey m)
        ∃ (h' : Hw) (z : Session), exec i s = .next (s.after { w1 with hw := h' }) ∧ h'.mgmt.reply = m' ∧ Tab.find? h'.mgmt.sessions n = some z ∧
          z.lastSeq = q ∧ z.lastResponse = m' ∧ z.lastBeat = w1.hw.time.beat ∧ h'.ctl = w1.hw.ctl)) ∧
    ((h1.authentic 6 msg).isSome = true → exec (.mgmtClose msg) s =
      s.leads { h1 with mgmt := { h1.mgmt with sessions := Tab.erase h1.mgmt.sessions n } }) ∧
    (h1.authentic 6 msg = none → exec (.mgmtClose msg) s = s.leads h1.discardMsg) := by
  subst hn
  subst hq
  have hserved1 : h1.dictServed = true := by
    obtain ⟨f, rfl⟩ := s.hw.takeMgmt_eq msg ht
    exact hserved
  have hrepeat : exec (.requestRepeat msg) s = s.leads (s.hw.mgRepeat msg) := State.answers_onHw s (fun h => h.mgRepeat msg)
  have hclose : exec (.mgmtClose msg) s = s.leads (s.hw.mgClose msg) := State.answers_onHw s (fun h => h.mgClose msg)
  rw [s.hw.mgClose_eq msg ht hserved1] at hclose
  refine ⟨fun hnone => ⟨?_, ?_, ?_⟩, fun x hx hseq hne => ?_, fun x i op hi hx hseq => ⟨fun hop => ?_, fun body p w1 hop hsrc hserve hlisted => ?_⟩,
    fun hsome => ?_, fun hnone => ?_⟩
  · exact mgmtRequest_leads s msg _ 1 (.inl ⟨rfl, rfl⟩) _ (mgRequest_unauthentic 1 msg s.work ht hserved1 hnone)
  · exact mgmtRequest_leads s msg _ 2 (.inr ⟨rfl, rfl⟩) _ (mgRequest_unauthentic 2 msg s.work ht hserved1 hnone)
  · rw [hrepeat, s.hw.mgRepeat_unauthentic msg ht hserved1 hnone]
  · rw [hrepeat, s.hw.mgRepeat_stored msg ht hserved1 hx hseq hne]
  · exact mgmtRequest_leads s msg i op hi _ (mgRequest_otherOp op msg s.work ht hserved1 hx hseq hop)
  · have hexec := mgmtRequest_exec s msg i op hi
    unfold State.answers at hexec
    rw [mgRequest_served op msg s.work ht hserved1 hx hseq hop hserve hlisted, hsrc] at hexec
    exact ⟨_, _, hexec, rfl, Tab.find?_insert_same _ _ _, rfl, rfl, rfl, rfl⟩
  · rw [hclose, if_pos hsome]
    rfl
  · rw [hclose, hnone]
    rfl

theorem Hw.sessionTimeout_mem (h : Hw) (p : Nat × Session) :
    p ∈ h.sessionTimeout.mgmt.sessions ↔ p ∈ h.mgmt.sessions ∧ h.time.beat < p.2.lastBeat + 2 ^ 27 := by
  show p ∈ h.mgmt.sessions.filter _ ↔ _
  rw [List.mem_filter, decide_eq_true_iff]

/-- Settles O59: the snapshot unit, the frame port and the sessions of the management protocol. -/
theorem managementCommandsTakeEffect : Obligations.ManagementCommandsTakeEffect := by
  unfold Obligations.ManagementCommandsTakeEffect
  refine ⟨?_, ?_, ?_, mgmtOpen_clause, mgmtConfirm_clause, mgmtRequest_clause, ?_⟩
  · intro s a v n htakes hn
    have hexec := s.snapshotGo_writes a v htakes
    have hgo : bit 0 (withFld F.MG_SNAPCTRL_GO 1 v.toNat % 2 ^ 32) = true := bit_setWord F.MG_SNAPCTRL_GO _ rfl (by decide)
    have hcount : bits 8 8 (withFld F.MG_SNAPCTRL_GO 1 v.toNat % 2 ^ 32) = n :=
      (bits_withFld_apart F.MG_SNAPCTRL_GO 8 8 1 _ (by decide) (by decide)).trans hn.symm
    refine ⟨fun hbusy => ?_, fun hidle hbad => ?_, fun hidle hpos hshort hfits hlist => ?_⟩
    · rw [hexec, Hw.writeSnapCtrl_go _ _ _ hgo, hbusy, if_pos rfl]
    · rw [hexec, Hw.writeSnapCtrl_range _ _ _ hgo hidle (by rw [hcount]; exact hbad)]
    · rw [Hw.writeSnapCtrl_taken _ _ _ hgo hidle (hcount ▸ hpos) (hcount ▸ hshort) (hcount ▸ hfits) (hcount ▸ hlist)] at hexec
      obtain ⟨hon, hget, honly⟩ := s.hw.plainWrite_go_facts (withFld F.MG_SNAPCTRL_GO 1 v.toNat % 2 ^ 32)
      exact ⟨_, hexec, (Hw.on_armSnap _ _ _ _).trans hon, (Hw.get_armSnap _ _ _ _).trans (hget.trans hcount), rfl, Hw.only_armSnap honly⟩
  · intro s n hgo hn
    refine ⟨fun hearly => ?_, fun hlate hpos => ?_⟩
    · exact State.answers_of s snapshotCapture id s.hw (snapshotCapture_early s.work hearly) rfl
    · obtain ⟨hoff, hdone, hbeat, honly⟩ := s.hw.captured_facts
      subst hn
      exact ⟨_, State.answers_stores s snapshotCapture s.hw.captured _ _ _ (snapshotCapture_stores s.work hgo hlate hpos), hoff, hdone, hbeat, honly⟩
  · intro s f hserved hon
    have hexec : exec (.mgmtFrameReceive f) s = s.leads (s.hw.frameAccept f) := State.answers_onHw s (fun h => h.frameAccept f)
    refine ⟨fun htype hlen hdst => ?_, fun hbad => ?_⟩
    · rw [hexec, s.hw.frameAccept_taken f hserved hon htype hlen hdst]
    · rw [hexec, s.hw.frameAccept_dropped f hserved hon hbad]
  · exact fun s => ⟨_, State.answers_onHw s (fun h => h.sessionTimeout), s.hw.sessionTimeout_mem, rfl⟩

end Sys2Proof.Machine
end

section
/-! The control processors: boot, enable, restart, kicks and watchdogs (O52). -/

namespace Sys2Proof.Machine

namespace Hw

theorem aside_procs : Aside (fun h => h.procs) := ⟨fun _ _ _ _ => rfl, fun _ _ => rfl, fun _ _ => rfl, fun _ _ => rfl⟩
theorem aside_build : Aside (fun h => h.build) := ⟨fun _ _ _ _ => rfl, fun _ _ => rfl, fun _ _ => rfl, fun _ _ => rfl⟩
theorem aside_time : Aside (fun h => h.time) := ⟨fun _ _ _ _ => rfl, fun _ _ => rfl, fun _ _ => rfl, fun _ _ => rfl⟩
theorem aside_mgmt : Aside (fun h => h.mgmt) := ⟨fun _ _ _ _ => rfl, fun _ _ => rfl, fun _ _ => rfl, fun _ _ => rfl⟩

/-! What a change of the processors leaves. -/

section Procs
variable (h : Hw) (k : Bool) (f : Processor → Processor)

theorem bootPhase_onProc : (h.onProc k f).bootPhase = h.bootPhase := rfl

theorem keeper_onProc : (h.onProc true f).procs.keeper = f h.procs.keeper := rfl
theorem dispatcher_onProc : (h.onProc false f).procs.dispatcher = f h.procs.dispatcher := rfl

end Procs

theorem procs_put (h : Hw) (f : Fld) (v i : Nat) : (h.put f v i).procs = h.procs := rfl
theorem bootPhase_setPhase (h : Hw) (p : Nat) : (h.setPhase p).bootPhase = p % 8 := get_put_same h F.PL_BOOT_PHASE p 0 (by decide)

/-- Registers that only a change of the processors comes after. -/
theorem only_onProc {h g : Hw} {ks : List (Reg × Nat)} (ho : h.Only { g with procs := h.procs } ks) (k : Bool) (f : Processor → Processor) :
    h.Only { g.onProc k f with procs := h.procs } ks := ho

theorem only_procs {h g : Hw} {ks : List (Reg × Nat)} (ho : h.Only g ks) : h.Only { g with procs := h.procs } ks := by
  obtain ⟨hrest, hrd⟩ := ho
  refine ⟨?_, hrd⟩
  show ({ ({ g with ctl := h.ctl } : Hw) with procs := h.procs } : Hw) = h
  rw [hrest]

/-! Boot. -/

theorem bootStart_rom (h : Hw) (b : Bool) (d : List Byte) (hdue : h.power.bootDue = none) (hrom : h.bootPhase = 1) :
    h.bootStart b d = h.setPhase (if h.get F.SC_STATE_STATE = 3 ∨ b = false ∨ directoryOk d = false then 7 else 2) := by
  unfold bootStart
  rw [hdue]
  dsimp only
  rw [hrom]
  refine (if_neg Bool.false_ne_true).trans ?_
  have hcond : (h.get F.SC_STATE_STATE == 3 || !b || !directoryOk d) = true ↔ h.get F.SC_STATE_STATE = 3 ∨ b = false ∨ directoryOk d = false := by
    rw [Bool.or_eq_true, Bool.or_eq_true, beq_iff_eq, Bool.not_eq_true', Bool.not_eq_true', or_assoc]
  by_cases hfails : h.get F.SC_STATE_STATE = 3 ∨ b = false ∨ directoryOk d = false
  · rw [if_pos hfails, if_pos (hcond.mpr hfails)]
  · rw [if_neg hfails, if_neg (mt hcond.mp hfails)]

/-- The Keeper's image locked and started. -/
def keeperStarted (h : Hw) (x : List Byte) : Hw := ((h.lockImage true x).setPhase 3).onProc true (fun p => { p with running := true, kicked := h.time.beat })

/-- Both copies of the Keeper's image rejected. -/
def bothRejected (h : Hw) : Hw :=
  (((h.raise Rc.FWR_IMAGE_INVALID { unit := 0x94 }).raise Rc.FWR_IMAGE_INVALID { unit := 0x94 }).setPhase 7).onProc true (fun p => { p with running := false })

theorem bootImageLoad_keeper (h : Hw) (x y : List Byte) (hphase : h.bootPhase = 2) (hok : h.imageOk 0 x = true) :
    h.bootImageLoad 0 x y = h.keeperStarted x := by
  unfold bootImageLoad
  refine (if_neg (by rw [show ((0 : Nat) == 0) = true from rfl, if_pos rfl, hphase]; exact Bool.false_ne_true)).trans ?_
  dsimp only
  rw [show (if ((0 : Nat) == 1) = true then h.setPhase 4 else h) = h from rfl, hok]
  rfl

/-- The checks of an image read the build and the security state alone. -/
theorem imageOk_congr {h g : Hw} (hbuild : g.build = h.build) (hstate : g.get F.SC_STATE_STATE = h.get F.SC_STATE_STATE) (role : Nat) (x : List Byte) :
    g.imageOk role x = h.imageOk role x := by
  unfold imageOk imageSigned
  rw [hbuild, hstate]

theorem imageOk_raise (h : Hw) (code : Nat) (src : Src) (hreason : src.reason = none) (role : Nat) (x : List Byte) :
    (h.raise code src).imageOk role x = h.imageOk role x :=
  imageOk_congr (aside_build.raise h code src)
    (congrArg (bits F.SC_STATE_STATE.lo F.SC_STATE_STATE.w) (keeps_raised (r := .SC_STATE) (by decide) h code src hreason 0)) role x

theorem bootImageLoad_rejected (h : Hw) (x y : List Byte) (hphase : h.bootPhase = 2) (hx : h.imageOk 0 x = false) (hy : h.imageOk 0 y = false) :
    h.bootImageLoad 0 x y = h.bothRejected := by
  unfold bootImageLoad
  refine (if_neg (by rw [show ((0 : Nat) == 0) = true from rfl, if_pos rfl, hphase]; exact Bool.false_ne_true)).trans ?_
  dsimp only
  rw [show (if ((0 : Nat) == 1) = true then h.setPhase 4 else h) = h from rfl, hx, if_neg Bool.false_ne_true, imageOk_raise _ _ _ rfl, hy]
  rfl

theorem bootImageLoad_dispatcher (h : Hw) (x y : List Byte) (hphase : h.bootPhase = 3 ∨ h.bootPhase = 4) (hok : (h.setPhase 4).imageOk 1 x = true) :
    h.bootImageLoad 1 x y = (h.setPhase 4).lockImage false x := by
  unfold bootImageLoad
  refine (if_neg (by rcases hphase with heq | heq <;> rw [if_neg (by decide), heq] <;> decide)).trans ?_
  dsimp only
  rw [show (if ((1 : Nat) == 1) = true then h.setPhase 4 else h) = h.setPhase 4 from rfl, hok]
  rfl

/-- A processor with a verified image in its instruction memory. -/
def withImage (x : List Byte) (p : Processor) : Processor :=
  { p with code := (x.drop 64).take (leAt 16 4 x), locked := true, fwMajor := leAt 24 1 x, fwMinor := leAt 25 1 x, entry := leAt 20 4 x }

/-- A register's write between two changes of the processors. -/
theorem only_put_onProc (h : Hw) (k : Bool) (f : Processor → Processor) (g : Fld) (v i : Nat) :
    h.Only { (h.onProc k f).put g v i with procs := h.procs } [(g.reg, i)] := by
  obtain ⟨-, hrd⟩ := only_put (h.onProc k f) g v i
  exact ⟨rfl, hrd⟩

theorem keeper_keeperStarted (h : Hw) (x : List Byte) (hopen : h.procs.keeper.locked = false) :
    (h.keeperStarted x).procs.keeper = { withImage x h.procs.keeper with running := true, kicked := h.time.beat } := by
  unfold keeperStarted lockImage setPhase
  rw [keeper_onProc, procs_put, keeper_onProc, hopen]
  rfl

theorem keeperStarted_facts (h : Hw) (x : List Byte) (hopen : h.procs.keeper.locked = false) :
    (h.keeperStarted x).bootPhase = 3 ∧ (h.keeperStarted x).procs.keeper.locked = true ∧ (h.keeperStarted x).procs.keeper.running = true ∧
    (h.keeperStarted x).procs.keeper.code = (x.drop 64).take (leAt 16 4 x) ∧ (h.keeperStarted x).procs.keeper.entry = leAt 20 4 x ∧
    (h.keeperStarted x).procs.keeper.kicked = h.time.beat ∧ h.Only { h.keeperStarted x with procs := h.procs } [(.PL_BOOT, 0)] := by
  rw [keeper_keeperStarted h x hopen]
  refine ⟨?_, rfl, rfl, rfl, rfl, rfl, ?_⟩
  · unfold keeperStarted
    rw [bootPhase_onProc, bootPhase_setPhase]
  · unfold keeperStarted lockImage setPhase
    exact only_onProc (only_put_onProc h true _ F.PL_BOOT_PHASE 3 0) _ _

theorem bothRejected_facts (h : Hw) : h.bothRejected.bootPhase = 7 ∧ h.bothRejected.procs.keeper.running = false := by
  unfold bothRejected
  exact ⟨by rw [bootPhase_onProc, bootPhase_setPhase], by rw [keeper_onProc]⟩

theorem dispatcherLocked_facts (h : Hw) (x : List Byte) (hopen : h.procs.dispatcher.locked = false) :
    ((h.setPhase 4).lockImage false x).bootPhase = 4 ∧ ((h.setPhase 4).lockImage false x).procs.dispatcher.locked = true ∧
    ((h.setPhase 4).lockImage false x).procs.dispatcher.code = (x.drop 64).take (leAt 16 4 x) ∧
    h.Only { (h.setPhase 4).lockImage false x with procs := h.procs } [(.PL_BOOT, 0)] := by
  have hproc : ((h.setPhase 4).lockImage false x).procs.dispatcher = withImage x h.procs.dispatcher := by
    unfold lockImage setPhase
    rw [dispatcher_onProc, procs_put, hopen]
    rfl
  rw [hproc]
  refine ⟨?_, rfl, rfl, only_onProc (only_procs (only_put h F.PL_BOOT_PHASE 4 0)) _ _⟩
  unfold lockImage
  rw [bootPhase_onProc, bootPhase_setPhase]

/-! DP_CTRL. -/

/-- The Dispatcher enabled and started. -/
def dispatcherStarted (h : Hw) : Hw := (h.put F.DP_CTRL_D_ENABLE 1).onProc false (fun p => { p with running := true, kicked := h.time.beat })

/-- The boot's phase after the Dispatcher's start. -/
def phaseStarted (h : Hw) : Hw := if h.bootPhase == 4 then h.setPhase 5 else h

theorem writeDpCtrl_enables (h : Hw) (v : Nat) (h0 : bit 0 v = true) (h1 : bit 1 v = false) (h2 : bit 2 v = false) (hoff : h.on F.DP_CTRL_D_ENABLE = false)
    (hlocked : h.procs.dispatcher.locked = true) : h.writeDpCtrl v = h.dispatcherStarted.phaseStarted := by
  unfold writeDpCtrl
  rw [h0, h1, h2, hoff, show (h.proc false).locked = true from hlocked]
  rfl

theorem writeDpCtrl_refused (h : Hw) (v : Nat) (h0 : bit 0 v = true) (h1 : bit 1 v = false) (h2 : bit 2 v = false) (hoff : h.on F.DP_CTRL_D_ENABLE = false)
    (hopen : h.procs.dispatcher.locked = false) : h.writeDpCtrl v = h.dpRefuse Rc.CFG_DP_IMAGE := by
  unfold writeDpCtrl
  rw [h0, h1, h2, hoff, show (h.proc false).locked = false from hopen]
  rfl

/-- With D_ENABLE as it stands, a write of DP_CTRL restarts what it names. -/
theorem writeDpCtrl_enabled (h : Hw) (v : Nat) (h0 : bit 0 v = true) (hon : h.on F.DP_CTRL_D_ENABLE = true) :
    h.writeDpCtrl v = if bit 2 v then (if bit 1 v then h.restartDispatcher else h).restart true else if bit 1 v then h.restartDispatcher else h := by
  unfold writeDpCtrl
  rw [h0, hon]
  rfl

theorem dispatcherStarted_facts (h : Hw) : h.dispatcherStarted.phaseStarted.on F.DP_CTRL_D_ENABLE = true ∧
    h.dispatcherStarted.phaseStarted.procs.dispatcher.running = true ∧
    h.dispatcherStarted.phaseStarted.bootPhase = (if h.bootPhase = 4 then 5 else h.bootPhase) ∧
    h.Only { h.dispatcherStarted.phaseStarted with procs := h.procs } [(.DP_CTRL, 0), (.PL_BOOT, 0)] := by
  have hrun : h.dispatcherStarted.procs.dispatcher.running = true := rfl
  have hon : h.dispatcherStarted.on F.DP_CTRL_D_ENABLE = true := on_put_same h F.DP_CTRL_D_ENABLE 1 0 (by decide)
  have hphase : h.dispatcherStarted.bootPhase = h.bootPhase := get_put_reg h F.DP_CTRL_D_ENABLE F.PL_BOOT_PHASE 1 0 0 (by decide)
  have honly : h.Only { h.dispatcherStarted with procs := h.procs } [(.DP_CTRL, 0), (.PL_BOOT, 0)] :=
    only_onProc (only_procs ((Only.refl h _).put F.DP_CTRL_D_ENABLE 1 0 (by decide))) _ _
  generalize h.dispatcherStarted = g at hrun hon hphase honly
  unfold phaseStarted
  rw [hphase]
  by_cases hfour : h.bootPhase = 4
  · rw [if_pos (beq_iff_eq.mpr hfour), if_pos hfour]
    refine ⟨(on_put_reg g F.PL_BOOT_PHASE F.DP_CTRL_D_ENABLE 5 0 0 (by decide)).trans hon, hrun, bootPhase_setPhase g 5, ?_⟩
    exact honly.put F.PL_BOOT_PHASE 5 0 (by decide)
  · rw [if_neg (mt beq_iff_eq.mp hfour), if_neg hfour]
    exact ⟨hon, hrun, hphase, honly⟩

/-! Restarts. -/

/-- The restarts of a processor within the window of R329. -/
def recentRestarts (h : Hw) (k : Bool) : List Nat := (h.proc k).restarts.filter (fun b => h.time.beat < b + 1048576)

/-- A processor's restart, before the storm check. -/
def restarted (h : Hw) (k : Bool) : Hw :=
  (if k then { h with mgmt := { h.mgmt with sessions := [] } } else h).onProc k (fun p => { p with
    restarts := h.time.beat :: h.recentRestarts k
    kicked := h.time.beat
    startDue := some (h.ticks + (if k then 8192 else 16384) * h.pclkTicks)
    accessFault := false })

/-- The flag that holds a processor. -/
def heldFlag (k : Bool) : Fld := if k then F.DP_STATUS_HELD_K else F.DP_STATUS_HELD_D

theorem held_eq (h : Hw) (k : Bool) : h.held k = h.on (heldFlag k) := by
  cases k <;> rfl

theorem restart_eq (h : Hw) (k : Bool) : h.restart k = if 3 ≤ (h.recentRestarts k).length then
    ((h.restarted k).setFlag (heldFlag k)).raise Rc.FWR_RESTART_STORM { unit := if k then 0x94 else 0x93, reason := some (F.DP_STATUS_REASON, 0) }
    else h.restarted k := by
  cases k <;> rfl

theorem proc_restarted (h : Hw) (k : Bool) : (h.restarted k).proc k = { h.proc k with
    restarts := h.time.beat :: h.recentRestarts k
    kicked := h.time.beat
    startDue := some (h.ticks + (if k then 8192 else 16384) * h.pclkTicks)
    accessFault := false } := by
  cases k <;> rfl

theorem ctl_restarted (h : Hw) (k : Bool) : (h.restarted k).ctl = h.ctl := by
  cases k <;> rfl

theorem faultLog_restarted (h : Hw) (k : Bool) : (h.restarted k).faultLog = h.faultLog := by
  cases k <;> rfl

/-- A projection that a raise leaves is, after a restart, that of the restarted processor. -/
theorem aside_restart {α : Type} {g : Hw → α} (hg : Aside g) (h : Hw) (k : Bool) : g (h.restart k) = g (h.restarted k) := by
  rw [restart_eq]
  split
  · rw [hg.raise]
    exact hg.put _ _ _ _
  · rfl

theorem restart_facts (h : Hw) (k : Bool) :
    ((h.restart k).proc k).restarts = h.time.beat :: h.recentRestarts k ∧ ((h.restart k).proc k).kicked = h.time.beat ∧
    ((h.restart k).proc k).startDue = some (h.ticks + (if k then 8192 else 16384) * h.pclkTicks) ∧ (k = true → (h.restart k).mgmt.sessions = []) ∧
    ((h.recentRestarts k).length < 3 → (h.restart k).ctl = h.ctl ∧ (h.restart k).faultLog = h.faultLog) ∧
    (3 ≤ (h.recentRestarts k).length → (h.restart k).held k = true ∧ (h.restart k).get F.DP_STATUS_REASON = Rc.FWR_RESTART_STORM) := by
  have hproc : (h.restart k).proc k = (h.restarted k).proc k := by
    unfold proc
    rw [aside_restart aside_procs h k]
  rw [hproc, proc_restarted]
  refine ⟨rfl, rfl, rfl, fun hk => ?_, fun hfew => ?_, fun hstorm => ?_⟩
  · rw [aside_restart aside_mgmt h k, hk]
    rfl
  · rw [restart_eq, if_neg (Nat.not_le.mpr hfew)]
    exact ⟨ctl_restarted h k, faultLog_restarted h k⟩
  · rw [restart_eq, if_pos hstorm, held_eq, on_eq_get, get_raise _ _ _ F.DP_STATUS_REASON 0 rfl F.DP_STATUS_REASON 0 (by decide),
      get_put_same _ F.DP_STATUS_REASON _ 0 (by decide),
      get_raise _ _ _ F.DP_STATUS_REASON 0 rfl (heldFlag k) 0 (by cases k <;> decide)]
    refine ⟨?_, rfl⟩
    rw [get_put_apart _ F.DP_STATUS_REASON (heldFlag k) _ 0 (by cases k <;> rfl) (by cases k <;> decide) (by cases k <;> decide), setFlag,
      get_put_same _ (heldFlag k) 1 0 (by cases k <;> decide)]
    cases k <;> rfl

/-- A Dispatcher released from its hold restarts afresh. -/
theorem restartDispatcher_held (h : Hw) (hheld : h.held false = true) :
    h.restartDispatcher.held false = false ∧ h.restartDispatcher.procs.dispatcher.restarts = [h.time.beat] := by
  have heq : h.restartDispatcher = ((h.put F.DP_STATUS_HELD_D 0).onProc false (fun p => { p with restarts := [] })).restart false := if_pos hheld
  have hnone : ((h.put F.DP_STATUS_HELD_D 0).onProc false (fun p => { p with restarts := [] })).recentRestarts false = [] := rfl
  have hoff : ((h.put F.DP_STATUS_HELD_D 0).onProc false (fun p => { p with restarts := [] })).held false = false :=
    on_put_same h F.DP_STATUS_HELD_D 0 0 (by decide)
  have htime : ((h.put F.DP_STATUS_HELD_D 0).onProc false (fun p => { p with restarts := [] })).time = h.time := rfl
  rw [heq]
  generalize (h.put F.DP_STATUS_HELD_D 0).onProc false (fun p => { p with restarts := [] }) = g at hnone hoff htime
  rw [restart_eq, hnone, if_neg (by decide)]
  refine ⟨?_, ?_⟩
  · exact hoff
  · show ((g.restarted false).proc false).restarts = _
    rw [proc_restarted, hnone, htime]

/-! Kicks and watchdogs. -/

theorem writeKick_one (h : Hw) (a : Agent) (v : Nat) (k : Bool) (hown : bit (flag k) v = true) (hother : bit (flag (!k)) v = false)
    (ha : a ≠ if k then .dispatcher else .keeper) : h.writeKick a v = h.onProc k (fun p => { p with kicked := h.time.beat }) := by
  unfold writeKick
  cases k
  · rw [show bit 0 v = true from hown, show bit 1 v = false from hother, beq_eq_false_iff_ne.mpr (show a ≠ .keeper from ha)]
    rfl
  · rw [show bit 1 v = true from hown, show bit 0 v = false from hother, beq_eq_false_iff_ne.mpr (show a ≠ .dispatcher from ha)]
    rfl

theorem writeKick_refused (h : Hw) (a : Agent) (v : Nat) (hbad : (bit 0 v = true ∧ a = .keeper) ∨ (bit 1 v = true ∧ a = .dispatcher)) :
    h.writeKick a v = h.dpRefuse Rc.SEC_HOOP_VIOLATION := by
  unfold writeKick
  refine if_pos ?_
  rcases hbad with ⟨hbit, rfl⟩ | ⟨hbit, rfl⟩
  · rw [hbit]
    rfl
  · rw [hbit]
    exact Bool.or_true _

/-- The period of a processor's watchdog. -/
def watchPeriod (h : Hw) (k : Bool) : Nat := if k then h.get F.DP_WDOG_K_BEATS else h.get F.DP_WDOG_D_BEATS

/-- A stall noted, before the restart that it causes. -/
def stallNoted (h : Hw) (k : Bool) : Hw :=
  (h.setFlag F.DP_STATUS_STALL).raise Rc.FWR_PROGRESS_STALL { unit := if k then 0x94 else 0x93, reason := some (F.DP_STATUS_REASON, 0) }

theorem watchdogExpiry_eq (h : Hw) (k : Bool) (hrun : (h.proc k).running = true) (hheld : h.held k = false) :
    h.watchdogExpiry k = if (decide ((h.proc k).kicked + h.watchPeriod k ≤ h.time.beat) || (!k && h.takeStall)) = true then (h.stallNoted k).restart k else h := by
  unfold watchdogExpiry
  exact if_neg (by rw [hrun, hheld]; exact Bool.false_ne_true)

theorem stallNoted_facts (h : Hw) (k : Bool) : (h.stallNoted k).on F.DP_STATUS_STALL = true ∧ (h.stallNoted k).get F.DP_STATUS_REASON = Rc.FWR_PROGRESS_STALL ∧
    (h.stallNoted k).procs = h.procs ∧ (h.stallNoted k).time = h.time := by
  unfold stallNoted
  refine ⟨?_, ?_, ?_, ?_⟩
  · rw [on_eq_get, get_raise _ _ _ F.DP_STATUS_REASON 0 rfl F.DP_STATUS_STALL 0 (by decide),
      get_put_apart _ F.DP_STATUS_REASON F.DP_STATUS_STALL _ 0 rfl (by decide) (by decide), setFlag, get_put_same _ F.DP_STATUS_STALL 1 0 (by decide)]
    rfl
  · rw [get_raise _ _ _ F.DP_STATUS_REASON 0 rfl F.DP_STATUS_REASON 0 (by decide), get_put_same _ F.DP_STATUS_REASON _ 0 (by decide)]
    rfl
  · exact aside_procs.raise _ _ _
  · exact aside_time.raise _ _ _

/-! DP_COVER and MB_n_CTRL. -/

theorem writeCover_admitted (h : Hw) (n v : Nat) (hin : h.admitted (if n < h.build.cores then h.physOf n else n) = true) :
    h.writeCover n v = h.wr .DP_COVER (if n < h.build.cores then h.physOf n else n) v := by
  unfold writeCover
  refine if_pos ?_
  have hkeeps : (h.wr .DP_COVER (if n < h.build.cores then h.physOf n else n) v).admitted (if n < h.build.cores then h.physOf n else n) =
      h.admitted (if n < h.build.cores then h.physOf n else n) := by
    unfold admitted
    rw [get_wr_reg _ .DP_COVER F.FT_SVC_ADMITTED _ _ _ (by decide)]
  rw [show (h.wr .DP_COVER _ v).admitted _ = _ from hkeeps, hin, Bool.true_or]

/-- A field whose bits the mask keeps. -/
theorem bits_land (lo w v m : Nat) (hm : bits lo w m = 2 ^ w - 1) : bits lo w (Nat.land v m) = bits lo w v := by
  refine Nat.eq_of_testBit_eq fun k => ?_
  rw [testBit_bits, testBit_bits]
  by_cases hk : k < w
  · have hkept : m.testBit (lo + k) = true := by
      have h := testBit_bits lo w m k
      rw [hm, Nat.testBit_two_pow_sub_one, decide_eq_true hk, Bool.true_and] at h
      exact h.symm
    show (_ && (v &&& m).testBit (lo + k)) = _
    rw [Nat.testBit_and, hkept, Bool.and_true]
  · rw [decide_eq_false hk, Bool.false_and, Bool.false_and]

theorem writeMbCtrl_eq (h : Hw) (n v : Nat) (hoff : h.on F.MB_CTRL_ENABLE n = false) (hen : bit 0 v = true) :
    h.writeMbCtrl n v = if h.build.hoops ≤ bits 16 12 v then (h.wr .MB_CTRL n (Nat.land v 0xFFF0003 - 1)).dpRefuse Rc.CFG_MB_ENTRY
      else h.wr .MB_CTRL n (Nat.land v 0xFFF0003) := by
  have hbit : bit 0 (Nat.land v 0xFFF0003) = true := by
    rw [bit_eq_bits, bits_land 0 1 v _ (by decide), ← bit_eq_bits, hen]
  unfold writeMbCtrl
  rw [← bits_land 16 12 v 0xFFF0003 (by decide)]
  dsimp only
  rw [show bit 0 (h.rd .MB_CTRL n) = false from hoff, if_neg Bool.false_ne_true, hbit, Bool.true_and]
  by_cases hhoop : h.build.hoops ≤ bits 16 12 (Nat.land v 0xFFF0003)
  · rw [if_pos hhoop, if_pos (decide_eq_true hhoop)]
  · rw [if_neg hhoop, if_neg (by rw [decide_eq_false hhoop]; exact Bool.false_ne_true)]

theorem mailboxEnabled_facts (h : Hw) (n v : Nat) (hen : bit 0 v = true) :
    (h.wr .MB_CTRL n (Nat.land v 0xFFF0003)).on F.MB_CTRL_ENABLE n = true ∧
    (h.wr .MB_CTRL n (Nat.land v 0xFFF0003)).get F.MB_CTRL_TARGET n = bits 1 1 v ∧
    (h.wr .MB_CTRL n (Nat.land v 0xFFF0003)).get F.MB_CTRL_HOOP n = bits 16 12 v ∧
    h.Only (h.wr .MB_CTRL n (Nat.land v 0xFFF0003)) [(.MB_CTRL, n)] := by
  refine ⟨?_, ?_, ?_, h.only_wr .MB_CTRL n _⟩
  · refine (congrArg (· == 1) (get_wr_same h F.MB_CTRL_ENABLE _ n (by decide))).trans ?_
    exact (congrArg (· == 1) (bits_land 0 1 v _ (by decide))).trans hen
  · exact (get_wr_same h F.MB_CTRL_TARGET _ n (by decide)).trans (bits_land 1 1 v _ (by decide))
  · exact (get_wr_same h F.MB_CTRL_HOOP _ n (by decide)).trans (bits_land 16 12 v _ (by decide))

theorem mailboxRefused_facts (h : Hw) (n v : Nat) (hen : bit 0 v = true) :
    ((h.wr .MB_CTRL n (Nat.land v 0xFFF0003 - 1)).dpRefuse Rc.CFG_MB_ENTRY).on F.MB_CTRL_ENABLE n = false ∧
    ((h.wr .MB_CTRL n (Nat.land v 0xFFF0003 - 1)).dpRefuse Rc.CFG_MB_ENTRY).get F.DP_STATUS_REASON = Rc.CFG_MB_ENTRY := by
  have hodd : bits 0 1 (Nat.land v 0xFFF0003) = 1 := (bits_land 0 1 v _ (by decide)).trans (beq_iff_eq.mp hen)
  have heven : bits 0 1 (Nat.land v 0xFFF0003 - 1) = 0 := by
    unfold bits at hodd ⊢
    omega
  unfold dpRefuse refuse
  refine ⟨?_, ?_⟩
  · rw [on_eq_get, get_raise _ _ _ F.DP_STATUS_REASON 0 rfl F.MB_CTRL_ENABLE n (by decide), get_put_reg _ F.DP_STATUS_REASON F.MB_CTRL_ENABLE _ _ _ (by decide)]
    exact (congrArg (· == 1) (get_wr_same h F.MB_CTRL_ENABLE _ n (by decide))).trans (congrArg (· == 1) heven)
  · rw [get_raise _ _ _ F.DP_STATUS_REASON 0 rfl F.DP_STATUS_REASON 0 (by decide), get_put_same _ F.DP_STATUS_REASON _ 0 (by decide)]
    rfl

/-! Messages between Keepers. -/

/-- Taking a message touches the link unit alone. -/
theorem takeMessage_eq (h : Hw) (typ : Nat) (src : Option Nat) : ∃ ks, h.takeMessage typ src = h.onLink (fun k => { k with inbox := ks }) := by
  unfold takeMessage
  split
  · exact ⟨_, rfl⟩
  · exact ⟨h.link.inbox, rfl⟩

theorem isMaster_eq (h : Hw) : h.isMaster = (h.tmState == tmMaster) := rfl

theorem wantReceive_slave (h : Hw) (src x : Nat) (hslave : h.tmState ≠ tmMaster) : h.wantReceive src x = h.takeMessage 1 (some src) := by
  unfold wantReceive
  obtain ⟨ks, hks⟩ := h.takeMessage_eq 1 (some src)
  rw [hks]
  exact if_pos (by rw [isMaster_eq, show (h.onLink _).tmState = h.tmState from rfl, beq_eq_false_iff_ne.mpr hslave]; rfl)

theorem wantReceive_master (h : Hw) (src x : Nat) (hmaster : h.tmState = tmMaster) (hx : x ≤ 256) (hnone : h.procs.wants = []) :
    (h.wantReceive src x).get F.PW_STRETCH_FABRIC = x ∧ (h.wantReceive src x).procs.wants = [(src, x, h.time.beat)] := by
  unfold wantReceive
  obtain ⟨ks, hks⟩ := h.takeMessage_eq 1 (some src)
  rw [hks]
  dsimp only
  have hcond : ¬ (!(h.onLink fun k => { k with inbox := ks }).isMaster || decide (256 < x)) = true := by
    rw [isMaster_eq, show (h.onLink _).tmState = h.tmState from rfl, hmaster, decide_eq_false (Nat.not_lt.mpr hx)]
    decide
  rw [if_neg hcond]
  have hwants : ∀ g : Hw, g.procs.wants = [] → g.time = h.time →
      (g.onProcs (fun p => { p with wants := p.wants ++ [(src, x, g.time.beat)] })).fabricWant =
        ((g.onProcs (fun p => { p with wants := p.wants ++ [(src, x, g.time.beat)] })).onProcs (fun p => { p with wants := [(src, x, h.time.beat)] })).put
          F.PW_STRETCH_FABRIC (max 0 x) := by
    intro g hg ht
    have hkept : (g.onProcs (fun p => { p with wants := p.wants ++ [(src, x, g.time.beat)] })).procs.wants.filter
        (fun w => decide (g.time.beat < w.2.2 + 256)) = [(src, x, h.time.beat)] := by
      show (g.procs.wants ++ [(src, x, g.time.beat)]).filter _ = _
      rw [hg, ht]
      exact List.filter_cons_of_pos (decide_eq_true (by show h.time.beat < h.time.beat + 256; omega))
    unfold fabricWant
    rw [show (g.onProcs _).time = g.time from rfl, hkept]
    rfl
  rw [hwants (h.onLink fun k => { k with inbox := ks }) hnone rfl]
  refine ⟨?_, rfl⟩
  rw [get_put_same _ F.PW_STRETCH_FABRIC _ 0 (by decide), Nat.zero_max]
  exact Nat.mod_eq_of_lt (by show x < 2 ^ 9; omega)

/-! Lost blocks. -/

/-- A projection that sending a message does not reach: neither the link unit nor the count of dropped messages shows in it. -/
structure Unsent {α : Type} (g : Hw → α) : Prop where
  link : ∀ (h : Hw) (f : LinkUnit → LinkUnit), g (h.onLink f) = g h
  drop : ∀ h : Hw, g h.mgmtDrop = g h

/-- Bytes of a port's egress queue that a fragment's class shares. -/
def egressHeld (h : Hw) (p : Nat) (f : Fragment) : Nat :=
  (((h.lp p).egress.filter (fun x => (x.cls == clsTime || x.cls == clsEpoch) == (f.cls == clsTime || f.cls == clsEpoch))).map (fun x => 16 + x.data.length)).foldl
    (· + ·) 0

/-- A fragment that a port's egress queue does not take (R300). -/
def egressFull (h : Hw) (p : Nat) (f : Fragment) : Bool :=
  p ≥ h.build.linkports || clsEpoch < f.cls || (if f.cls == clsTime || f.cls == clsEpoch then 4096 else 28672) < h.egressHeld p f + 16 + f.data.length

theorem enqueue_eq (h : Hw) (p : Nat) (f : Fragment) : h.enqueue p f =
    if h.egressFull p f then h.mgmtDrop else h.onLp p (fun k => { k with egress := k.egress ++ [f] }) := rfl

/-- A fragment is dropped, or joins its port's queue. -/
theorem enqueue_cases (h : Hw) (p : Nat) (f : Fragment) : h.enqueue p f = h.mgmtDrop ∨ ∃ k, h.enqueue p f = h.onLp p k := by
  rw [enqueue_eq]
  cases h.egressFull p f
  · exact .inr ⟨_, rfl⟩
  · exact .inl rfl

namespace Unsent
variable {α : Type} {g : Hw → α} (hg : Unsent g)
include hg

theorem enqueue (h : Hw) (p : Nat) (f : Fragment) : g (h.enqueue p f) = g h := by
  rcases h.enqueue_cases p f with heq | ⟨k, heq⟩
  · rw [heq, hg.drop]
  · rw [heq]
    exact hg.link h _

theorem floodOn (h : Hw) (e : Option Nat) (f : Fragment) : g (h.floodOn e f) = g h :=
  foldl_keeps g _ (fun h p => hg.enqueue h p f) _ h

theorem sendAll (h : Hw) (cls : Nat) (data : List Byte) : g (h.sendAll cls data) = g h := by
  unfold Hw.sendAll nextMsg
  exact (hg.link _ _).trans (foldl_keeps g _ (fun h f => (hg.floodOn _ none f).trans (hg.link h _)) _ h)

end Unsent

theorem unsent_procs : Unsent (fun h => h.procs) := ⟨fun _ _ => rfl, fun h => procs_put h _ _ _⟩

theorem unsent_hasPlan : Unsent (fun h => h.hasPlan) :=
  ⟨fun _ _ => rfl, fun h => congrArg (· != 0) (get_put_reg h F.LK_MGMT_DROP_VALUE F.TM_PRK_ACTIVE_BASE _ 0 0 (by decide))⟩

/-- A suspicion noted by the master's Keeper. -/
def suspected (h : Hw) (src x : Nat) : Hw :=
  h.onProcs (fun p => { p with suspects := (p.suspects.filter (fun q => !(q.1 == src && q.2.1 == x))) ++ [(src, x, h.time.beat)] })

/-- A port of the block hears the neighbour at an address. -/
def hearsBlock (h : Hw) (x : Nat) : Bool :=
  h.link.ports.any (fun p => match p.2.neighbour with | some n => n.addr == x && h.time.beat < n.heard + 64 | none => false)

/-- A block declared lost. -/
def declared (h : Hw) (m : Mem) (x : Nat) : Hw :=
  ((h.floodLost x).onProcs (fun p => { p with lostBlocks := p.lostBlocks ++ [(x, h.time.beat)] })).markLost m x

theorem suspectReceive_slave (h : Hw) (m : Mem) (src x : Nat) (hslave : h.tmState ≠ tmMaster) : h.suspectReceive m src x = h.takeMessage 2 (some src) := by
  unfold suspectReceive
  obtain ⟨ks, hks⟩ := h.takeMessage_eq 2 (some src)
  rw [hks]
  exact if_pos (by rw [isMaster_eq, show (h.onLink _).tmState = h.tmState from rfl, beq_eq_false_iff_ne.mpr hslave]; rfl)

theorem suspectReceive_master (h : Hw) (m : Mem) (src x : Nat) (hmaster : h.tmState = tmMaster) : ∃ g : Hw, g.procs = h.procs ∧ g.time = h.time ∧
    g.hasPlan = h.hasPlan ∧ g.link.ports = h.link.ports ∧ h.suspectReceive m src x =
      if (g.suspected src x).hearsBlock x || (g.suspected src x).procs.lostBlocks.any (fun b => b.1 == x) then g.suspected src x
      else (g.suspected src x).declared m x := by
  obtain ⟨ks, hks⟩ := h.takeMessage_eq 2 (some src)
  refine ⟨h.onLink (fun k => { k with inbox := ks }), rfl, rfl, rfl, rfl, ?_⟩
  unfold suspectReceive
  rw [hks]
  refine if_neg ?_
  rw [isMaster_eq, show (h.onLink _).tmState = h.tmState from rfl, hmaster]
  decide

theorem procs_declared (h : Hw) (m : Mem) (x : Nat) (hplan : h.hasPlan = false) :
    (h.declared m x).procs = { h.procs with lostBlocks := h.procs.lostBlocks ++ [(x, h.time.beat)] } := by
  have hnone : ((h.floodLost x).onProcs (fun p => { p with lostBlocks := p.lostBlocks ++ [(x, h.time.beat)] })).hasPlan = false :=
    (unsent_hasPlan.sendAll h _ _).trans hplan
  have hprocs : (h.floodLost x).procs = h.procs := unsent_procs.sendAll h _ _
  unfold declared markLost
  rw [hnone, ← hprocs]
  rfl

theorem hearsBlock_false (h : Hw) (x : Nat) (hgone : ∀ p ∈ h.link.ports, ∀ n, p.2.neighbour = some n → n.addr = x → n.heard + 64 ≤ h.time.beat) :
    h.hearsBlock x = false := by
  refine List.any_eq_false.mpr fun p hp => ?_
  cases hn : p.2.neighbour with
  | none => exact Bool.false_ne_true
  | some n =>
    dsimp only
    by_cases hx : n.addr = x
    · rw [decide_eq_false (Nat.not_lt.mpr (hgone p hp n hn hx)), Bool.and_false]
      exact Bool.false_ne_true
    · rw [beq_eq_false_iff_ne.mpr hx, Bool.false_and]
      exact Bool.false_ne_true

theorem suspectReceive_facts (h : Hw) (m : Mem) (src x : Nat) (hmaster : h.tmState = tmMaster) (hplan : h.hasPlan = false) :
    (src, x, h.time.beat) ∈ (h.suspectReceive m src x).procs.suspects ∧
    ((∀ p ∈ h.link.ports, ∀ n, p.2.neighbour = some n → n.addr = x → n.heard + 64 ≤ h.time.beat) → (∀ b ∈ h.procs.lostBlocks, b.1 ≠ x) →
      (h.suspectReceive m src x).procs.lostBlocks = h.procs.lostBlocks ++ [(x, h.time.beat)]) := by
  obtain ⟨g, hprocs, htime, hnone, hports, heq⟩ := h.suspectReceive_master m src x hmaster
  have hlisted : (src, x, h.time.beat) ∈ (g.suspected src x).procs.suspects := by
    rw [← htime]
    exact List.mem_append_right _ (List.mem_singleton_self _)
  have hdeclared := (g.suspected src x).procs_declared m x (hnone.trans hplan)
  rw [heq]
  refine ⟨?_, fun hgone hnew => ?_⟩
  · split
    · exact hlisted
    · rw [hdeclared]
      exact hlisted
  · have hquiet : (g.suspected src x).hearsBlock x = false := by
      refine hearsBlock_false _ x ?_
      rw [show (g.suspected src x).link = g.link from rfl, hports, show (g.suspected src x).time = g.time from rfl, htime]
      exact hgone
    have hfresh : (g.suspected src x).procs.lostBlocks.any (fun b => b.1 == x) = false := by
      rw [show (g.suspected src x).procs.lostBlocks = g.procs.lostBlocks from rfl, hprocs]
      exact List.any_eq_false.mpr fun b hb => by rw [beq_eq_false_iff_ne.mpr (hnew b hb)]; exact Bool.false_ne_true
    rw [hquiet, hfresh, if_neg (by decide), hdeclared, ← htime, ← hprocs]
    rfl

/-- One entry of the stream-owner table marked in FT_LOST. -/
def markOne (x : Nat) (h : Hw) (o : Nat × Nat) : Hw :=
  if o.1 == x && o.2 < 4096 then h.wr .FT_LOST (o.2 / 32) (Nat.lor (h.rd .FT_LOST (o.2 / 32)) (2 ^ (o.2 % 32))) else h

theorem markLost_eq (h : Hw) (m : Mem) (x : Nat) : h.markLost m x = if h.hasPlan then (Img.owners m h.imgBase).foldl (markOne x) h else h := by
  unfold markLost
  cases h.hasPlan <;> rfl

/-- A stream's bit of FT_LOST. -/
def lostBit (h : Hw) (o : Nat) : Bool := bit (o % 32) (h.rd .FT_LOST (o / 32))

theorem bit_lor (b x y : Nat) : bit b (Nat.lor x y) = (bit b x || bit b y) := by
  have htest : ∀ z : Nat, bit b z = z.testBit b := fun z => by
    unfold bit
    rw [Nat.testBit_eq_decide_div_mod_eq]
    rfl
  rw [htest, htest, htest]
  exact Nat.testBit_or x y b

theorem lostBit_markOne (x : Nat) (h : Hw) (p : Nat × Nat) (o : Nat) (hset : h.lostBit o = true ∨ (p = (x, o) ∧ o < 4096)) :
    (markOne x h p).lostBit o = true := by
  unfold markOne
  by_cases hmine : (p.1 == x && decide (p.2 < 4096)) = true
  · rw [if_pos hmine]
    unfold lostBit
    by_cases hword : o / 32 = p.2 / 32
    · rw [hword, rd_wr_same, bit_mod _ _ _ (show o % 32 < 8 * Reg.FT_LOST.desc.size from Nat.mod_lt _ (by decide)), bit_lor]
      rcases hset with hold | ⟨rfl, -⟩
      · rw [← hword, show bit (o % 32) (h.rd .FT_LOST (o / 32)) = true from hold, Bool.true_or]
      · have hown : bit (o % 32) (2 ^ (o % 32)) = true := by
          unfold bit
          rw [Nat.div_self (Nat.two_pow_pos _)]
          rfl
        rw [hown, Bool.or_true]
    · rw [rd_wr_other _ _ _ _ _ _ fun e => hword (Prod.mk.inj e).2]
      rcases hset with hold | ⟨rfl, -⟩
      · exact hold
      · exact absurd rfl hword
  · rw [if_neg hmine]
    rcases hset with hold | ⟨rfl, hlt⟩
    · exact hold
    · exact absurd (by rw [beq_self_eq_true, decide_eq_true hlt]; rfl) hmine

theorem lostBit_foldl (x o : Nat) (ho : o < 4096) (xs : List (Nat × Nat)) (h : Hw) (hset : h.lostBit o = true ∨ (x, o) ∈ xs) :
    (xs.foldl (markOne x) h).lostBit o = true := by
  induction xs generalizing h with
  | nil => exact hset.resolve_right List.not_mem_nil
  | cons p xs ih =>
    rw [List.foldl_cons]
    rcases hset with hold | hin
    · exact ih _ (.inl (lostBit_markOne x h p o (.inl hold)))
    · rcases List.mem_cons.mp hin with heq | hin
      · exact ih _ (.inl (lostBit_markOne x h p o (.inr ⟨heq.symm, ho⟩)))
      · exact ih _ (.inr hin)

theorem lostReceive_noPlan (h : Hw) (m : Mem) (x : Nat) (hplan : h.hasPlan = false) : h.lostReceive m x = h.takeMessage 3 none := by
  obtain ⟨ks, hks⟩ := h.takeMessage_eq 3 none
  unfold lostReceive
  rw [markLost_eq, hks]
  exact if_neg (by rw [show (h.onLink _).hasPlan = h.hasPlan from rfl, hplan]; exact Bool.false_ne_true)

theorem lostReceive_marks (h : Hw) (m : Mem) (x : Nat) (hplan : h.hasPlan = true) (o : Nat) (hin : (x, o) ∈ Img.owners m h.imgBase) (ho : o < 4096) :
    bit (o % 32) ((h.lostReceive m x).rd .FT_LOST (o / 32)) = true := by
  obtain ⟨ks, hks⟩ := h.takeMessage_eq 3 none
  unfold lostReceive
  rw [markLost_eq, hks, if_pos (show (h.onLink _).hasPlan = true from hplan)]
  exact lostBit_foldl x o ho _ _ (.inr hin)

end Hw

end Sys2Proof.Machine
end

section
/-! Mailboxes (O52, R330 to R332). -/

namespace Sys2Proof.Machine

/-! Byte strings in memory. -/

theorem leNat_leBytes (n x : Nat) : leNat (leBytes n x) = x % 256 ^ n := by
  induction n generalizing x with
  | zero => exact (Nat.mod_one x).symm
  | succ n ih =>
    have hbyte : (BitVec.ofNat 8 x).toNat = x % 256 := BitVec.toNat_ofNat x 8
    rw [leBytes, leNat, ih, hbyte, Nat.pow_succ, Nat.mul_comm (256 ^ n), Nat.mod_mul]

theorem leNat_lt (bs : List Byte) : leNat bs < 256 ^ bs.length := by
  induction bs with
  | nil => exact Nat.one_pos
  | cons b bs ih =>
    have hb : b.toNat < 256 := b.isLt
    rw [leNat, List.length_cons, Nat.pow_succ]
    omega

theorem Mem.length_read (m : Mem) (area addr n : Nat) : (Mem.read m area addr n).length = n := by
  rw [Mem.read, List.length_map, List.length_range]

theorem Mem.le_lt (m : Mem) (area addr n : Nat) : m.le area addr n < 256 ^ n := by
  have h := leNat_lt (Mem.read m area addr n)
  rwa [Mem.length_read] at h

/-- A part of a byte string just written reads as written. -/
theorem Mem.read_write_part (m : Mem) (area addr k n : Nat) (bs : List Byte) (hk : k + n ≤ bs.length) :
    Mem.read (m.write area addr bs) area (addr + k) n = (bs.drop k).take n := by
  refine List.ext_getElem ?_ fun i h1 _ => ?_
  · rw [Mem.length_read, List.length_take, List.length_drop]
    omega
  · rw [Mem.length_read] at h1
    simp only [Mem.read, List.getElem_map, List.getElem_range, List.getElem_take, List.getElem_drop]
    rw [Nat.add_assoc, Mem.byte_write_same bs m area addr (k + i) (by omega)]

/-- A byte string apart from the one written reads as before. -/
theorem Mem.read_write_apart (m : Mem) (area addr addr' n : Nat) (bs : List Byte) (hd : addr' + n ≤ addr ∨ addr + bs.length ≤ addr') :
    Mem.read (m.write area addr bs) area addr' n = Mem.read m area addr' n := by
  unfold Mem.read
  refine List.map_congr_left fun i hi => ?_
  have hi' : i < n := List.mem_range.mp hi
  exact Mem.byte_write_other bs m area addr area (addr' + i) fun j hj he => by
    unfold Mem.key at he
    omega

theorem Work.store_mem (w : Work) (area addr : Nat) (bs : List Byte) : (w.store area addr bs).mem = w.mem.write area addr bs := by
  cases bs with
  | nil => rfl
  | cons b bs => rfl

theorem Work.store_hw (w : Work) (area addr : Nat) (bs : List Byte) : (w.store area addr bs).hw = w.hw := by
  cases bs with
  | nil => rfl
  | cons b bs => rfl

namespace Mb

/-- The header of a reply (Table 12-7). -/
def replyHeader (n st len : Nat) (w : Work) : List Byte :=
  leBytes 1 (w.hw.proc (w.hw.on F.MB_CTRL_TARGET n)).fwMajor ++ leBytes 1 (w.hw.proc (w.hw.on F.MB_CTRL_TARGET n)).fwMinor ++
    leBytes 2 (w.mem.le Area.mailbox (requestAt n + 2) 2) ++ leBytes 2 len ++ leBytes 2 (w.mem.le Area.mailbox (requestAt n + 6) 2) ++ leBytes 2 st ++
    leBytes 2 (w.hw.get F.MB_CTRL_HOOP n) ++ leBytes 4 0

theorem reply_mem (n st : Nat) (body : List Byte) (w : Work) :
    (reply n st body w).mem = (w.mem.write Area.mailbox (replyAt n + 16) body).write Area.mailbox (replyAt n) (replyHeader n st body.length w) := by
  unfold reply
  rw [Work.store_mem, Work.store_mem]
  rfl

theorem reply_facts (w : Work) (n st : Nat) (body : List Byte) (hlen : body.length ≤ 2032) :
    (reply n st body w).hw = w.hw ∧
    (reply n st body w).mem.le Area.mailbox (replyAt n + 6) 2 = w.mem.le Area.mailbox (requestAt n + 6) 2 ∧
    (reply n st body w).mem.le Area.mailbox (replyAt n + 8) 2 = st % 65536 ∧
    (reply n st body w).mem.read Area.mailbox (replyAt n + 16) body.length = body ∧
    ∀ area addr, Mem.key area addr < Mem.key Area.mailbox (replyAt n) ∨ Mem.key Area.mailbox (replyAt n) + 2048 ≤ Mem.key area addr →
      (reply n st body w).mem.byte area addr = w.mem.byte area addr := by
  rw [reply_mem]
  refine ⟨?_, ?_, ?_, ?_, fun area addr hout => ?_⟩
  · unfold reply
    rw [Work.store_hw, Work.store_hw]
  · rw [Mem.le, Mem.read_write_part _ _ _ 6 2 (replyHeader n st body.length w) (Nat.le_of_ble_eq_true rfl)]
    exact (leNat_leBytes 2 _).trans (Nat.mod_eq_of_lt (Mem.le_lt _ _ _ _))
  · rw [Mem.le, Mem.read_write_part _ _ _ 8 2 (replyHeader n st body.length w) (Nat.le_of_ble_eq_true rfl)]
    exact leNat_leBytes 2 st
  · rw [Mem.read_write_apart _ _ _ _ _ _ (.inr (by exact Nat.le_refl (replyAt n + 16)))]
    exact (Mem.read_write_part _ _ _ 0 body.length body (by omega)).trans (List.take_length)
  · rw [Mem.byte_write_other, Mem.byte_write_other]
    · intro i hi
      unfold Mem.key at hout ⊢
      omega
    · intro i hi
      have hi16 : i < 16 := hi
      unfold Mem.key at hout ⊢
      omega

/-- A request that a processor serves: `handle` answers it with what `serve` gives. -/
theorem handle_served (s : State) (n typ : Nat) (serve : List Byte → Work → Nat × List Byte × Work) (st : Nat) (b : List Byte) (w1 : Work)
    (hready : mbReady s n typ) (hserve : serve (mbBody s n) s.work = (st, b, w1)) (hst : st ≠ Rc.FWR_MB_TYPE) :
    handle typ n serve s.work = reply n st b w1 := by
  obtain ⟨hn, hruns, hen, hnew, hmajor, hminor, htyp, hknown⟩ := hready
  dsimp only at hnew hmajor hminor htyp
  unfold handle
  dsimp only [State.work] at hserve ⊢
  refine (if_neg ?_).trans ((if_neg ?_).trans ((if_neg ?_).trans ((if_neg ?_).trans ?_)))
  · rw [decide_eq_false (Nat.not_le.mpr hn), hruns, hen, beq_eq_false_iff_ne.mpr hnew]
    exact Bool.false_ne_true
  · rw [hmajor, bne_self_eq_false, decide_eq_false (Nat.not_lt.mpr hminor)]
    exact Bool.false_ne_true
  · rw [htyp, List.contains_iff_mem.mpr hknown]
    exact Bool.false_ne_true
  · rw [htyp, bne_self_eq_false]
    exact Bool.false_ne_true
  · unfold mbBody at hserve
    rw [hserve]
    exact if_neg (by rw [beq_eq_false_iff_ne.mpr hst]; exact Bool.false_ne_true)

theorem dict_served (s : State) (op n : Nat) (b : List Byte) (w1 : Work) (hready : mbReady s n op) (hop : leAt 0 1 (mbBody s n) = op)
    (hserve : (Dict.serve (principal s.hw n) (mbBody s n) 2032 s.work).map (fun x => (x.1, x.2.2)) = some (b, w1)) :
    dict op n s.work = reply n 0 b w1 := by
  refine handle_served s n op _ 0 b w1 hready ?_ (by decide)
  rw [if_neg (by rw [hop, bne_self_eq_false]; exact Bool.false_ne_true)]
  obtain ⟨⟨b', p, w'⟩, hsome, heq⟩ := Option.map_eq_some_iff.mp hserve
  show (match Dict.serve (principal s.hw n) (mbBody s n) 2032 s.work with | some (b, _, w) => _ | none => _) = _
  rw [hsome]
  obtain ⟨rfl, rfl⟩ := Prod.mk.inj heq
  rfl

/-! Reclaim (R283). -/

/-- Queues turned OFF by the Keeper. -/
def turnOff (h : Hw) (q : Nat) : Hw := h.writeSqCtrl .keeper q (h.get F.SQ_CTRL_LOG2 q * 256)

/-- A queue that is OFF stays OFF, and one that is on is turned OFF. -/
theorem turnOff_eq (h : Hw) (q : Nat) : turnOff h q =
    if h.on F.SQ_CTRL_ENABLE q then ((h.put F.SQ_CTRL_LOG2 (h.get F.SQ_CTRL_LOG2 q) q).put F.SQ_CTRL_ENABLE 0 q).setSqState q 0
    else h.put F.SQ_CTRL_LOG2 (h.get F.SQ_CTRL_LOG2 q) q := by
  have hlg : bits 8 5 (h.get F.SQ_CTRL_LOG2 q * 256) = h.get F.SQ_CTRL_LOG2 q := by
    have hlt : h.get F.SQ_CTRL_LOG2 q < 2 ^ 5 := bits_lt _ _ _
    unfold bits
    omega
  have heven : ∀ b, b < 8 → bit b (h.get F.SQ_CTRL_LOG2 q * 256) = false := by
    intro b hb
    unfold bit
    rw [beq_eq_false_iff_ne]
    match b, hb with
    | 0, _ | 1, _ | 2, _ | 3, _ | 4, _ | 5, _ | 6, _ | 7, _ => omega
  unfold turnOff Hw.writeSqCtrl
  rw [heven 1 (by decide), heven 0 (by decide), hlg, Bool.false_and, if_neg Bool.false_ne_true]
  refine (if_neg Bool.false_ne_true).trans ((if_neg (by rw [bne_self_eq_false, Bool.false_and]; exact Bool.false_ne_true)).trans ?_)
  cases h.on F.SQ_CTRL_ENABLE q <;> rfl

/-- A queue is OFF: its ENABLE and its STATE. -/
def isOff (h : Hw) (q : Nat) : Prop := h.on F.SQ_CTRL_ENABLE q = false ∧ h.sqState q = 0

theorem turnOff_same (h : Hw) (q : Nat) (hon : h.on F.SQ_CTRL_ENABLE q = true) : isOff (turnOff h q) q := by
  rw [turnOff_eq, if_pos hon]
  unfold isOff Hw.setSqState Hw.sqState
  refine ⟨?_, Hw.get_put_same _ F.SQ_STATUS_STATE 0 q (by decide)⟩
  rw [Hw.on_put_reg _ F.SQ_STATUS_STATE F.SQ_CTRL_ENABLE _ _ _ (by decide), Hw.on_put_same _ F.SQ_CTRL_ENABLE 0 q (by decide)]
  rfl

theorem turnOff_other (h : Hw) (p q : Nat) (hne : q ≠ p) : (turnOff h p).on F.SQ_CTRL_ENABLE q = h.on F.SQ_CTRL_ENABLE q ∧ (turnOff h p).sqState q = h.sqState q := by
  have hkeeps : ∀ (g : Hw) (f : Fld) (v : Nat) (e : Fld), (g.put f v p).get e q = g.get e q := fun g f v e =>
    Hw.get_put_other g f e v p q fun heq => hne (Prod.mk.inj heq).2
  unfold Hw.sqState
  rw [turnOff_eq, Hw.on_eq_get, Hw.on_eq_get _ _ q, Hw.setSqState]
  split
  · rw [hkeeps, hkeeps, hkeeps, hkeeps, hkeeps, hkeeps]
    exact ⟨rfl, rfl⟩
  · rw [hkeeps, hkeeps]
    exact ⟨rfl, rfl⟩

theorem turnOff_isOff (h : Hw) (p q : Nat) (hoff : isOff h q) : isOff (turnOff h p) q := by
  obtain ⟨hen, hstate⟩ := hoff
  by_cases hne : q = p
  · subst hne
    rw [turnOff_eq, hen, if_neg Bool.false_ne_true]
    refine ⟨?_, ?_⟩
    · rw [Hw.on_put_apart _ F.SQ_CTRL_LOG2 F.SQ_CTRL_ENABLE _ _ rfl (by decide) (by decide), hen]
    · unfold Hw.sqState at hstate ⊢
      rw [Hw.get_put_reg _ F.SQ_CTRL_LOG2 F.SQ_STATUS_STATE _ _ _ (by decide), hstate]
  · obtain ⟨hen', hstate'⟩ := turnOff_other h p q hne
    exact ⟨hen'.trans hen, hstate'.trans hstate⟩

/-- Every queue of a list that was on ends OFF. -/
theorem foldl_turnOff (q : Nat) (qs : List Nat) (h : Hw) (hq : isOff h q ∨ (h.on F.SQ_CTRL_ENABLE q = true ∧ q ∈ qs)) : isOff (qs.foldl turnOff h) q := by
  induction qs generalizing h with
  | nil => exact hq.resolve_right fun hin => List.not_mem_nil hin.2
  | cons p qs ih =>
    rw [List.foldl_cons]
    rcases hq with hoff | ⟨hon, hin⟩
    · exact ih _ (.inl (turnOff_isOff h p q hoff))
    · by_cases hne : q = p
      · subst hne
        exact ih _ (.inl (turnOff_same h q hon))
      · exact ih _ (.inr ⟨(turnOff_other h p q hne).1.trans hon, (List.mem_cons.mp hin).resolve_left hne⟩)

/-- An enabled queue's register is listed: ENABLE is 0 after reset. -/
theorem listed_of_enabled (h : Hw) (q : Nat) (hon : h.on F.SQ_CTRL_ENABLE q = true) : q ∈ h.listed .SQ_CTRL := by
  have hval : resetValue h.build h.integ .SQ_CTRL q = Reg.SQ_CTRL.desc.resetv := rfl
  have hrd : bits 0 1 (h.rd .SQ_CTRL q) = 1 := beq_iff_eq.mp hon
  cases hfind : Tab.find? h.ctl (ctlKey .SQ_CTRL q) with
  | none =>
    unfold Hw.rd at hrd
    rw [hfind] at hrd
    dsimp only at hrd
    rw [hval] at hrd
    exact absurd hrd (by decide)
  | some v =>
    have hkey : ctlKey .SQ_CTRL q / 512 = q := by
      have hlt : Reg.SQ_CTRL.ctorIdx < 512 := by decide
      unfold ctlKey
      omega
    unfold Hw.listed
    refine List.mem_map.mpr ⟨_, List.mem_filter.mpr ⟨Tab.find?_mem _ _ _ hfind, ?_⟩, hkey⟩
    dsimp only
    rw [Hw.ctlKey_mod, beq_self_eq_true]

/-- The queues that a reclaim turns OFF. -/
def reclaimed (h : Hw) (n : Nat) : List Nat :=
  (h.listed .SQ_CTRL).filter (fun q => h.on F.SQ_CTRL_ENABLE q && h.queueHoop q == some (h.get F.MB_CTRL_HOOP n))

theorem mem_reclaimed (h : Hw) (n q : Nat) (hon : h.on F.SQ_CTRL_ENABLE q = true) (hhoop : h.queueHoop q = some (h.get F.MB_CTRL_HOOP n)) :
    q ∈ reclaimed h n := by
  refine List.mem_filter.mpr ⟨listed_of_enabled h q hon, ?_⟩
  rw [hon, hhoop, beq_self_eq_true]
  rfl

theorem reclaim_served (s : State) (n : Nat) (hready : mbReady s n 3) :
    reclaim n s.work = reply n 0 [] { s.work with hw := (reclaimed s.hw n).foldl turnOff s.hw } :=
  handle_served s n 3 _ 0 [] _ hready rfl (by decide)

/-! The Dispatcher's requests. -/

theorem queueRestart_served (s : State) (n : Nat) (hready : mbReady s n 0x101) (hown : ownQueue s.hw n (leAt 0 2 (mbBody s n)) = true)
    (hstopped : s.hw.sqState (leAt 0 2 (mbBody s n)) = 3) :
    queueRestart n s.work = reply n 0 [] { s.work with hw := s.hw.setSqState (leAt 0 2 (mbBody s n)) 1 } := by
  refine handle_served s n 0x101 _ 0 [] _ hready ?_ (by decide)
  have hwrite : s.hw.writeSqCtrl .dispatcher (leAt 0 2 (mbBody s n)) 2 = s.hw.setSqState (leAt 0 2 (mbBody s n)) 1 := by
    unfold Hw.writeSqCtrl
    rw [hstopped]
    rfl
  refine (if_pos hown).trans ?_
  unfold Work.onHw
  dsimp only
  rw [State.work_hw, hwrite]

theorem queueStatus_own (s : State) (n : Nat) (r : List Nat) (hready : mbReady s n 0x102)
    (hr : r = [s.hw.rd .SQ_HEAD (leAt 0 2 (mbBody s n)), s.hw.rd .SQ_DONE (leAt 0 2 (mbBody s n)), s.hw.sqState (leAt 0 2 (mbBody s n))])
    (hown : ownQueue s.hw n (leAt 0 2 (mbBody s n)) = true) : queueStatus n s.work = reply n 0 (r.flatMap (leBytes 4)) s.work := by
  refine handle_served s n 0x102 _ 0 _ _ hready ((if_pos hown).trans ?_) (by decide)
  rw [hr]
  rfl

theorem queueStatus_other (s : State) (n : Nat) (hready : mbReady s n 0x102) (hother : ownQueue s.hw n (leAt 0 2 (mbBody s n)) = false) :
    queueStatus n s.work = reply n Rc.SEC_HOOP_VIOLATION [] s.work :=
  handle_served s n 0x102 _ _ _ _ hready (if_neg (by rw [State.work_hw, hother]; exact Bool.false_ne_true)) (by decide)

theorem exec_next (s : State) (f : Work → Work) (w : Work) (hf : f s.work = w) : s.answers f = .next (s.after w) := by
  rw [← hf]
  rfl

end Mb

/-! The commands. -/

theorem State.firmware_leads (s : State) (f : Mem → Hw → Hw) (haclk : s.hw.clocks.aclk = true) (hruns : s.hw.runs true = true) :
    s.answers (byFirmware true (fun w => w.onHwMem f)) = s.leads (f s.mem s.hw) := by
  refine State.answers_of s _ (fun w => w.onHwMem f) _ ?_ rfl
  exact if_pos (by rw [State.work_hw, hruns, haclk]; rfl)

theorem State.processorAperture_answers (s : State) (d wr : Bool) (n addr : Nat) (bs : List Byte) (r : Option (List Byte)) (w1 : Work)
    (haclk : s.hw.clocks.aclk = true) (haccess : hoopAccess (if d then 0x93 else 0x94) (n % 4096) (addr % 2 ^ 64) wr bs s.work = (r, w1)) :
    exec (.apertureAccess d wr n addr bs) s =
      .next (s.after { w1 with hw := w1.hw.onProcs (fun p => { p with apertureResponse := some (r.isNone, r.getD []) }) }) := by
  refine Mb.exec_next s _ _ ?_
  refine (if_pos haclk).trans ?_
  unfold processorAperture
  rw [haccess]
  rfl

theorem State.mailboxEnable_writes (s : State) (a : Agent) (n : Nat) (v : Word) (htakes : s.hw.Takes a .MB_CTRL n) :
    exec (.mailboxEnable a n v) s = s.leads (s.hw.writeMbCtrl n (withFld F.MB_CTRL_ENABLE 1 v.toNat % 2 ^ 32)) :=
  State.answers_writeNamed s a .MB_CTRL n (withFld F.MB_CTRL_ENABLE 1 v.toNat) (fun h => h.writeMbCtrl n (withFld F.MB_CTRL_ENABLE 1 v.toNat % 2 ^ 32)) htakes rfl

theorem State.dpCtrl_writes (s : State) (a : Agent) (x : Nat) (htakes : s.hw.Takes a .DP_CTRL 0) :
    s.answers (Hw.writeNamed a .DP_CTRL 0 x) = s.leads (s.hw.writeDpCtrl (x % 2 ^ 32)) :=
  State.answers_writeNamed s a .DP_CTRL 0 x (fun h => h.writeDpCtrl (x % 2 ^ 32)) htakes rfl

theorem State.dispatcherRestart_writes (s : State) (a : Agent) (htakes : s.hw.Takes a .DP_CTRL 0) (hon : s.hw.on F.DP_CTRL_D_ENABLE = true) :
    exec (.dispatcherRestart a) s = s.leads s.hw.restartDispatcher ∧ exec (.keeperRestart a) s = s.leads (s.hw.restart true) := by
  have hone : s.hw.get F.DP_CTRL_D_ENABLE = 1 := beq_iff_eq.mp hon
  refine ⟨?_, ?_⟩
  · have hexec : exec (.dispatcherRestart a) s = s.answers (Hw.writeNamed a .DP_CTRL 0 (withFld F.DP_CTRL_D_RESTART 1 (s.hw.get F.DP_CTRL_D_ENABLE))) := rfl
    rw [hexec, s.dpCtrl_writes a _ htakes, hone, Hw.writeDpCtrl_enabled _ _ (by decide) hon, if_neg (by decide), if_pos (by decide)]
  · have hexec : exec (.keeperRestart a) s = s.answers (Hw.writeNamed a .DP_CTRL 0 (withFld F.DP_CTRL_K_RESTART 1 (s.hw.get F.DP_CTRL_D_ENABLE))) := rfl
    rw [hexec, s.dpCtrl_writes a _ htakes, hone, Hw.writeDpCtrl_enabled _ _ (by decide) hon, if_pos (by decide), if_neg (by decide)]

theorem State.kick_writes (s : State) (a : Agent) (v : Word) (htakes : s.hw.Takes a .DP_KICK 0) : exec (.kick a v) s = s.leads (s.hw.writeKick a v.toNat) := by
  have hexec : exec (.kick a v) s = s.leads (s.hw.writeKick a (v.toNat % 2 ^ 32)) :=
    State.answers_writeNamed s a .DP_KICK 0 v.toNat (fun h => h.writeKick a (v.toNat % 2 ^ 32)) htakes rfl
  rw [hexec, Nat.mod_eq_of_lt v.isLt]

theorem State.coverWrite_writes (s : State) (a : Agent) (n : Nat) (v : DWord) (htakes : s.hw.Takes a .DP_COVER n) :
    exec (.coverWrite a n v) s = s.leads (s.hw.writeCover n v.toNat) :=
  State.answers_of s _ (fun w => w.onHw (fun h => h.writeCover n v.toNat)) _ (Hw.guarded_of_takes s.work a .DP_COVER n _ htakes) rfl

/-- Settles O52: the boot, the processors' restarts and watchdogs, the mailboxes and the messages between Keepers. -/
theorem processorCommandsTakeEffect : Obligations.ProcessorCommandsTakeEffect := by
  unfold Obligations.ProcessorCommandsTakeEffect
  refine ⟨?_, ?_, ?_, ?_, ?_, ?_, ?_, ?_, ?_, ?_, ?_, ?_, ?_, ?_, ?_, ?_, ?_⟩
  · intro s b d hdue hrom
    have hexec : exec (.bootStart b d) s = s.leads (s.hw.bootStart b d) := State.answers_onHw s (fun h => h.bootStart b d)
    rw [hexec, Hw.bootStart_rom s.hw b d hdue hrom]
  · intro s x y hphase
    have hexec : exec (.bootImageLoad 0 x y) s = s.leads (s.hw.bootImageLoad 0 x y) := State.answers_onHw s (fun h => h.bootImageLoad 0 x y)
    refine ⟨fun hok hopen => ?_, fun hx hy => ?_⟩
    · rw [Hw.bootImageLoad_keeper s.hw x y hphase hok] at hexec
      exact ⟨_, hexec, Hw.keeperStarted_facts s.hw x hopen⟩
    · rw [Hw.bootImageLoad_rejected s.hw x y hphase hx hy] at hexec
      exact ⟨_, hexec, Hw.bothRejected_facts s.hw⟩
  · intro s x y hphase hok hopen
    have hexec : exec (.bootImageLoad 1 x y) s = s.leads (s.hw.bootImageLoad 1 x y) := State.answers_onHw s (fun h => h.bootImageLoad 1 x y)
    rw [Hw.bootImageLoad_dispatcher s.hw x y hphase hok] at hexec
    exact ⟨_, hexec, Hw.dispatcherLocked_facts s.hw x hopen⟩
  · intro s a v htakes hoff h1 h2
    have hexec : exec (.dispatcherEnable a v) s = s.leads (s.hw.writeDpCtrl (withFld F.DP_CTRL_D_ENABLE 1 v.toNat % 2 ^ 32)) := s.dpCtrl_writes a _ htakes
    have h0' : bit 0 (withFld F.DP_CTRL_D_ENABLE 1 v.toNat % 2 ^ 32) = true := bit_setWord F.DP_CTRL_D_ENABLE _ rfl (by decide)
    have h1' : bit 1 (withFld F.DP_CTRL_D_ENABLE 1 v.toNat % 2 ^ 32) = false := (bit_withFld_apart F.DP_CTRL_D_ENABLE 1 1 _ (by decide) (by decide)).trans h1
    have h2' : bit 2 (withFld F.DP_CTRL_D_ENABLE 1 v.toNat % 2 ^ 32) = false := (bit_withFld_apart F.DP_CTRL_D_ENABLE 2 1 _ (by decide) (by decide)).trans h2
    refine ⟨fun hlocked => ?_, fun hopen => ?_⟩
    · rw [Hw.writeDpCtrl_enables s.hw _ h0' h1' h2' hoff hlocked] at hexec
      exact ⟨_, hexec, Hw.dispatcherStarted_facts s.hw⟩
    · rw [hexec, Hw.writeDpCtrl_refused s.hw _ h0' h1' h2' hoff hopen]
  · intro s a htakes hon
    obtain ⟨hdisp, hkeep⟩ := s.dispatcherRestart_writes a htakes hon
    refine ⟨fun hfree => ?_, fun hheld => ⟨_, hdisp, Hw.restartDispatcher_held s.hw hheld⟩, hkeep⟩
    rw [hdisp]
    exact congrArg s.leads (if_neg (by rw [hfree]; exact Bool.false_ne_true))
  · exact fun s k => State.answers_onHw s (fun h => h.restart k)
  · exact fun h k => Hw.restart_facts h k
  · intro s a v htakes
    have hexec := s.kick_writes a v htakes
    refine ⟨fun h0 h1 ha => ?_, fun h1 h0 ha => ?_, fun hbad => ?_⟩
    · rw [hexec, Hw.writeKick_one s.hw a _ false h0 h1 ha]
    · rw [hexec, Hw.writeKick_one s.hw a _ true h1 h0 ha]
    · rw [hexec, Hw.writeKick_refused s.hw a _ hbad]
  · intro s k hrun hheld
    have hexec : exec (.watchdogExpiry k) s = s.leads (s.hw.watchdogExpiry k) := State.answers_onHw s (fun h => h.watchdogExpiry k)
    rw [Hw.watchdogExpiry_eq s.hw k hrun hheld] at hexec
    refine ⟨fun hlate => ?_, fun hearly hno => ?_⟩
    · rw [show decide ((s.hw.proc k).kicked + s.hw.watchPeriod k ≤ s.hw.time.beat) = true from decide_eq_true hlate, Bool.true_or, if_pos rfl] at hexec
      exact ⟨_, hexec, Hw.stallNoted_facts s.hw k⟩
    · have htakes : (!k && s.hw.takeStall) = false := by
        cases k with
        | true => rfl
        | false => exact hno rfl
      rw [hexec, show decide ((s.hw.proc k).kicked + s.hw.watchPeriod k ≤ s.hw.time.beat) = false from decide_eq_false (Nat.not_le.mpr hearly), htakes,
        if_neg (by decide)]
  · intro s a n v htakes c hin
    rw [s.coverWrite_writes a n v htakes, Hw.writeCover_admitted s.hw n v.toNat hin]
  · intro s a n v htakes hoff
    have hexec := s.mailboxEnable_writes a n v htakes
    have hen : bit 0 (withFld F.MB_CTRL_ENABLE 1 v.toNat % 2 ^ 32) = true := bit_setWord F.MB_CTRL_ENABLE _ rfl (by decide)
    have hhoop : bits 16 12 (withFld F.MB_CTRL_ENABLE 1 v.toNat % 2 ^ 32) = bits 16 12 v.toNat :=
      bits_withFld_apart F.MB_CTRL_ENABLE 16 12 1 _ (by decide) (by decide)
    have htarget : bits 1 1 (withFld F.MB_CTRL_ENABLE 1 v.toNat % 2 ^ 32) = bits 1 1 v.toNat :=
      bits_withFld_apart F.MB_CTRL_ENABLE 1 1 1 _ (by decide) (by decide)
    rw [Hw.writeMbCtrl_eq s.hw n _ hoff hen, hhoop] at hexec
    refine ⟨fun hlt => ?_, fun hge => ?_⟩
    · rw [if_neg (Nat.not_le.mpr hlt)] at hexec
      obtain ⟨hon, htgt, hget, honly⟩ := Hw.mailboxEnabled_facts s.hw n _ hen
      exact ⟨_, hexec, hon, htgt.trans htarget, hget.trans hhoop, honly⟩
    · rw [if_pos hge] at hexec
      exact ⟨_, hexec, Hw.mailboxRefused_facts s.hw n _ hen⟩
  · exact fun w n st body _ hlen => Mb.reply_facts w n st body hlen
  · intro s n b r w1
    refine ⟨fun hready hop hserve => ?_, fun hready hop hserve => ?_, fun hready => ?_, fun hready hown hstopped => ?_,
      fun hready hr => ⟨fun hown => ?_, fun hother => ?_⟩⟩
    · exact Mb.exec_next s _ _ (Mb.dict_served s 1 n b w1 hready hop hserve)
    · exact Mb.exec_next s _ _ (Mb.dict_served s 2 n b w1 hready hop hserve)
    · refine ⟨_, Mb.exec_next s _ _ (Mb.reclaim_served s n hready), fun q hon hhoop => ?_⟩
      exact Mb.foldl_turnOff q _ s.hw (.inr ⟨hon, Mb.mem_reclaimed s.hw n q hon hhoop⟩)
    · exact Mb.exec_next s _ _ (Mb.queueRestart_served s n hready hown hstopped)
    · exact Mb.exec_next s _ _ (Mb.queueStatus_own s n r hready hr hown)
    · exact Mb.exec_next s _ _ (Mb.queueStatus_other s n hready hother)
  · intro s src x haclk hruns
    have hexec : exec (.want src x) s = s.leads (s.hw.wantReceive src x) := s.firmware_leads (fun _ h => h.wantReceive src x) haclk hruns
    refine ⟨fun hmaster hx hnone => ⟨_, hexec, Hw.wantReceive_master s.hw src x hmaster hx hnone⟩, fun hslave => ?_⟩
    rw [hexec, Hw.wantReceive_slave s.hw src x hslave]
  · intro s src x haclk hruns
    have hexec : exec (.lostSuspect src x) s = s.leads (s.hw.suspectReceive s.mem src x) := s.firmware_leads (fun m h => h.suspectReceive m src x) haclk hruns
    refine ⟨fun hslave => ?_, fun hmaster hplan => ⟨_, hexec, Hw.suspectReceive_facts s.hw s.mem src x hmaster hplan⟩⟩
    rw [hexec, Hw.suspectReceive_slave s.hw s.mem src x hslave]
  · intro s x haclk hruns
    have hexec : exec (.lost x) s = s.leads (s.hw.lostReceive s.mem x) := s.firmware_leads (fun m h => h.lostReceive m x) haclk hruns
    refine ⟨fun hplan => ?_, fun hplan => ⟨_, hexec, fun o => Hw.lostReceive_marks s.hw s.mem x hplan o⟩⟩
    rw [hexec, Hw.lostReceive_noPlan s.hw s.mem x hplan]
  · exact fun s d wr n addr bs r w1 haclk haccess => ⟨_, s.processorAperture_answers d wr n addr bs r w1 haclk haccess, rfl, rfl⟩

end Sys2Proof.Machine
end

section
/-! Permits, debug halts, the test access port and the attach port (O54). -/

namespace Sys2Proof.Machine

namespace Hw

/-! Debug halts. -/

/-- A core without its debug halt. -/
def unhalt (k : Core) : Core := { k with debugHalt := false }

/-- No core of a list is halted after the release of each, and none is halted anew. -/
theorem unhalt_foldl (c : Nat) (cs : List Nat) (h : Hw) (hc : (h.core c).debugHalt = false ∨ c ∈ cs) :
    ((cs.foldl (fun h d => h.onCore d unhalt) h).core c).debugHalt = false := by
  induction cs generalizing h with
  | nil => exact hc.resolve_right List.not_mem_nil
  | cons d cs ih =>
    rw [List.foldl_cons]
    refine ih _ ?_
    by_cases hd : c = d
    · subst hd
      exact .inl (by rw [core_onCore_same]; rfl)
    · rw [core_onCore_other _ _ _ _ hd]
      exact hc.imp_right fun hin => (List.mem_cons.mp hin).resolve_left hd

theorem core_unlisted (h : Hw) (c : Nat) (hc : c ∉ h.cores.map (·.1)) : (h.core c).debugHalt = false := by
  unfold core Tab.getD
  cases hfind : Tab.find? h.cores c with
  | none => rfl
  | some k => exact absurd (List.mem_map.mpr ⟨_, Tab.find?_mem _ _ _ hfind, rfl⟩) hc

theorem releaseHalt_eq (h : Hw) (hon : h.on F.DG_HALT_HALTED = true) :
    h.releaseHalt = (h.cores.map (·.1)).foldl (fun h c => h.onCore c unhalt) (h.put F.DG_HALT_HALTED 0) :=
  if_neg (by rw [hon]; exact Bool.false_ne_true)

theorem releaseHalt_off (h : Hw) (hoff : h.on F.DG_HALT_HALTED = false) : h.releaseHalt = h := if_pos (by rw [hoff]; rfl)

/-- A projection that the cores do not reach. -/
theorem foldl_onCore_keeps {α : Type} (g : Hw → α) (hg : ∀ (h : Hw) c f, g (h.onCore c f) = g h) (f : Core → Core) (cs : List Nat) (h : Hw) :
    g (cs.foldl (fun h c => h.onCore c f) h) = g h := foldl_keeps g _ (fun h c => hg h c f) cs h

theorem releaseHalt_facts (h : Hw) (hon : h.on F.DG_HALT_HALTED = true) : h.releaseHalt.on F.DG_HALT_HALTED = false ∧
    (∀ c, (h.releaseHalt.core c).debugHalt = false) ∧ h.Only { h.releaseHalt with cores := h.cores } [(.DG_HALT, 0)] := by
  rw [releaseHalt_eq h hon]
  refine ⟨?_, fun c => ?_, ?_, fun r i hne => ?_⟩
  · rw [foldl_onCore_keeps (fun h => h.on F.DG_HALT_HALTED) (fun _ _ _ => rfl), on_put_same h F.DG_HALT_HALTED 0 0 (by decide)]
    rfl
  · by_cases hc : c ∈ h.cores.map (·.1)
    · exact unhalt_foldl c _ _ (.inr hc)
    · exact unhalt_foldl c _ _ (.inl (core_unlisted h c hc))
  · exact (foldl_onCore_keeps (fun g => ({ ({ g with cores := h.cores } : Hw) with ctl := h.ctl } : Hw)) (fun _ _ _ => rfl) _ _ _)
  · refine (foldl_onCore_keeps (fun g => g.rd r i) (fun _ _ _ => rfl) _ _ _).trans (rd_put_other h F.DG_HALT_HALTED 0 0 r i ?_)
    exact fun heq => hne (heq ▸ List.mem_singleton_self _)

theorem releaseHalt_halted (h : Hw) : h.releaseHalt.on F.DG_HALT_HALTED = false := by
  cases hon : h.on F.DG_HALT_HALTED with
  | true => exact (releaseHalt_facts h hon).1
  | false => rw [releaseHalt_off h hon, hon]

/-- A projection that the cores and the halt's flag do not reach. -/
theorem releaseHalt_keeps {α : Type} (g : Hw → α) (hcore : ∀ (h : Hw) c f, g (h.onCore c f) = g h) (hput : ∀ h : Hw, g (h.put F.DG_HALT_HALTED 0) = g h)
    (h : Hw) : g h.releaseHalt = g h := by
  cases hon : h.on F.DG_HALT_HALTED with
  | true => rw [releaseHalt_eq h hon, foldl_onCore_keeps g hcore, hput]
  | false => rw [releaseHalt_off h hon]

/-- A core's issue stopped by a debug halt. -/
def haltCore (h : Hw) (c : Nat) : Hw := (h.onCore c (fun k => { k with debugHalt := true })).stopArray c false false

theorem debugHalt_onArr (h : Hw) (c d : Nat) (f : ArrayUnit → ArrayUnit) : ((h.onArr c f).core d).debugHalt = (h.core d).debugHalt := by
  unfold onArr
  by_cases hd : d = c
  · subst hd
    rw [core_onCore_same]
  · rw [core_onCore_other _ _ _ _ hd]

theorem debugHalt_arrStopped (h : Hw) (c d : Nat) : ((h.arrStopped c).core d).debugHalt = (h.core d).debugHalt := by
  unfold arrStopped
  dsimp only
  split
  · rfl
  · split
    · rfl
    · rw [debugHalt_onArr]
      rfl

theorem debugHalt_haltCore (h : Hw) (c d : Nat) (hd : d = c ∨ (h.core d).debugHalt = true) : ((h.haltCore c).core d).debugHalt = true := by
  unfold haltCore stopArray
  rw [debugHalt_arrStopped, debugHalt_onArr]
  by_cases heq : d = c
  · subst heq
    rw [core_onCore_same]
  · rw [core_onCore_other _ _ _ _ heq]
    exact hd.resolve_left heq

theorem haltCore_foldl (c : Nat) (cs : List Nat) (h : Hw) (hc : (h.core c).debugHalt = true ∨ c ∈ cs) : ((cs.foldl haltCore h).core c).debugHalt = true := by
  induction cs generalizing h with
  | nil => exact hc.resolve_right List.not_mem_nil
  | cons d cs ih =>
    rw [List.foldl_cons]
    refine ih _ ?_
    rcases hc with hset | hin
    · exact .inl (debugHalt_haltCore h d c (.inr hset))
    · rcases List.mem_cons.mp hin with heq | hin
      · exact .inl (debugHalt_haltCore h d c (.inl heq))
      · exact .inr hin

theorem keeps_haltCore {r : Reg} (hr : r ∉ settledRegs) (h : Hw) (c : Nat) : KeepsReg r h (h.haltCore c) :=
  ((KeepsReg.refl h).onCore c _).trans (keeps_stopArray hr _ c false false)

theorem writeDgHalt_d3 (h : Hw) (v : Nat) (h0 : bit 0 v = true) (h1 : bit 1 v = false) (hlevel : h.get F.SC_DEBUG_LEVEL = 3) :
    h.writeDgHalt v = (List.range h.physCores).foldl haltCore (h.put F.DG_HALT_HALTED 1) := by
  unfold writeDgHalt
  rw [h0, h1, hlevel]
  rfl

theorem writeDgHalt_low (h : Hw) (v : Nat) (h1 : bit 1 v = false) (hlevel : h.get F.SC_DEBUG_LEVEL < 2) : h.writeDgHalt v = h := by
  unfold writeDgHalt
  rw [h1]
  exact if_pos (by rw [decide_eq_true hlevel, Bool.or_true])

theorem writeDgHalt_resume (h : Hw) (v : Nat) (h0 : bit 0 v = false) (h1 : bit 1 v = true) : h.writeDgHalt v = h.releaseHalt := by
  unfold writeDgHalt
  rw [h0, h1]
  rfl

theorem halted_facts (h : Hw) : ((List.range h.physCores).foldl haltCore (h.put F.DG_HALT_HALTED 1)).on F.DG_HALT_HALTED = true ∧
    ∀ c, c < h.physCores → (((List.range h.physCores).foldl haltCore (h.put F.DG_HALT_HALTED 1)).core c).debugHalt = true := by
  refine ⟨?_, fun c hc => haltCore_foldl c _ _ (.inr (List.mem_range.mpr hc))⟩
  have hkeeps := KeepsReg.foldl haltCore (fun h c => keeps_haltCore (r := .DG_HALT) (by decide) h c) (List.range h.physCores) (h.put F.DG_HALT_HALTED 1) 0
  refine (congrArg (fun x => bits F.DG_HALT_HALTED.lo F.DG_HALT_HALTED.w x == 1) hkeeps).trans ?_
  exact on_put_same h F.DG_HALT_HALTED 1 0 (by decide)

/-! Levels. -/

/-- The halt that a level's end releases. -/
def levelEnded (h : Hw) : Hw := if 2 ≤ h.get F.SC_DEBUG_LEVEL then h.releaseHalt else h

/-- The registers of a new level. -/
def levelShown (h : Hw) (level hoop notAfter : Nat) : Hw :=
  if level == 2 then (((h.put F.SC_DEBUG_LEVEL level).put F.SC_DEBUG_HOOP hoop).wr .SC_DEBUG_END 0 notAfter).wr .DG_APER_HOOP 0 hoop
  else ((h.put F.SC_DEBUG_LEVEL level).put F.SC_DEBUG_HOOP hoop).wr .SC_DEBUG_END 0 notAfter

theorem setLevel_eq (h : Hw) (level hoop notAfter : Nat) : h.setLevel level hoop notAfter = h.levelEnded.levelShown level hoop notAfter := rfl

theorem levelShown_facts (h : Hw) (level hoop notAfter : Nat) :
    (h.levelShown level hoop notAfter).get F.SC_DEBUG_LEVEL = level % 4 ∧ (h.levelShown level hoop notAfter).get F.SC_DEBUG_HOOP = hoop % 4096 ∧
    (h.levelShown level hoop notAfter).rd .SC_DEBUG_END 0 = notAfter % 2 ^ 64 ∧
    (h.levelShown level hoop notAfter).get F.SC_DEBUG_BUSY = h.get F.SC_DEBUG_BUSY ∧
    (h.levelShown level hoop notAfter).on F.DG_HALT_HALTED = h.on F.DG_HALT_HALTED ∧
    (h.levelShown level hoop notAfter).keys = h.keys ∧ (h.levelShown level hoop notAfter).tap = h.tap ∧
    (h.levelShown level hoop notAfter).cache = h.cache := by
  have hbase : ∀ g : Hw, g = ((h.put F.SC_DEBUG_LEVEL level).put F.SC_DEBUG_HOOP hoop).wr .SC_DEBUG_END 0 notAfter →
      g.get F.SC_DEBUG_LEVEL = level % 4 ∧ g.get F.SC_DEBUG_HOOP = hoop % 4096 ∧ g.rd .SC_DEBUG_END 0 = notAfter % 2 ^ 64 ∧
      g.get F.SC_DEBUG_BUSY = h.get F.SC_DEBUG_BUSY ∧ g.on F.DG_HALT_HALTED = h.on F.DG_HALT_HALTED ∧ g.keys = h.keys ∧ g.tap = h.tap ∧
      g.cache = h.cache := by
    intro g hg
    subst hg
    refine ⟨?_, ?_, rd_wr_same _ .SC_DEBUG_END 0 notAfter, ?_, ?_, ?_, ?_, ?_⟩
    · rw [get_wr_reg _ .SC_DEBUG_END F.SC_DEBUG_LEVEL _ _ _ (by decide), get_put_apart _ F.SC_DEBUG_HOOP F.SC_DEBUG_LEVEL _ _ rfl (by decide) (by decide)]
      exact get_put_same h F.SC_DEBUG_LEVEL level 0 (by decide)
    · rw [get_wr_reg _ .SC_DEBUG_END F.SC_DEBUG_HOOP _ _ _ (by decide)]
      exact get_put_same _ F.SC_DEBUG_HOOP hoop 0 (by decide)
    · rw [get_wr_reg _ .SC_DEBUG_END F.SC_DEBUG_BUSY _ _ _ (by decide), get_put_apart _ F.SC_DEBUG_HOOP F.SC_DEBUG_BUSY _ _ rfl (by decide) (by decide),
        get_put_apart _ F.SC_DEBUG_LEVEL F.SC_DEBUG_BUSY _ _ rfl (by decide) (by decide)]
    · rw [on_wr_reg _ .SC_DEBUG_END F.DG_HALT_HALTED _ _ _ (by decide), on_put_reg _ F.SC_DEBUG_HOOP F.DG_HALT_HALTED _ _ _ (by decide),
        on_put_reg _ F.SC_DEBUG_LEVEL F.DG_HALT_HALTED _ _ _ (by decide)]
    · rw [wr_keys, put_keys, put_keys]
    · rw [wr_tap, put_tap, put_tap]
    · rw [wr_cache, put_cache, put_cache]
  obtain ⟨hlevel, hhoop, hend, hbusy, hhalt, hkeys, htap, hcache⟩ := hbase _ rfl
  unfold levelShown
  split
  · refine ⟨?_, ?_, ?_, ?_, ?_, ?_, ?_, ?_⟩
    · rw [get_wr_reg _ .DG_APER_HOOP F.SC_DEBUG_LEVEL _ _ _ (by decide), hlevel]
    · rw [get_wr_reg _ .DG_APER_HOOP F.SC_DEBUG_HOOP _ _ _ (by decide), hhoop]
    · rw [rd_wr_reg _ .DG_APER_HOOP .SC_DEBUG_END _ _ _ (by decide), hend]
    · rw [get_wr_reg _ .DG_APER_HOOP F.SC_DEBUG_BUSY _ _ _ (by decide), hbusy]
    · rw [on_wr_reg _ .DG_APER_HOOP F.DG_HALT_HALTED _ _ _ (by decide), hhalt]
    · rw [wr_keys, hkeys]
    · rw [wr_tap, htap]
    · rw [wr_cache, hcache]
  · exact ⟨hlevel, hhoop, hend, hbusy, hhalt, hkeys, htap, hcache⟩

theorem levelEnded_halted (h : Hw) (hlevel : 2 ≤ h.get F.SC_DEBUG_LEVEL) : h.levelEnded.on F.DG_HALT_HALTED = false := by
  unfold levelEnded
  rw [if_pos hlevel]
  exact releaseHalt_halted h

theorem levelEnded_keeps {α : Type} (g : Hw → α) (hcore : ∀ (h : Hw) c f, g (h.onCore c f) = g h) (hput : ∀ h : Hw, g (h.put F.DG_HALT_HALTED 0) = g h)
    (h : Hw) : g h.levelEnded = g h := by
  unfold levelEnded
  split
  · exact releaseHalt_keeps g hcore hput h
  · rfl

theorem levelExpiry_ends (h : Hw) (hlevel : h.get F.SC_DEBUG_LEVEL ≠ 0) (hstate : h.get F.SC_STATE_STATE ≠ 0) (hlate : h.rd .SC_DEBUG_END 0 < h.time.beat) :
    h.levelExpiry = h.setLevel 0 0 0 := by
  unfold levelExpiry
  exact if_neg (by rw [beq_eq_false_iff_ne.mpr hlevel, beq_eq_false_iff_ne.mpr hstate, decide_eq_false (Nat.not_le.mpr hlate)]; exact Bool.false_ne_true)

theorem levelExpiry_early (h : Hw) (hearly : h.time.beat ≤ h.rd .SC_DEBUG_END 0) : h.levelExpiry = h := by
  unfold levelExpiry
  exact if_pos (by rw [decide_eq_true hearly, Bool.or_true])

/-! Permits. -/

/-- A permit in verification (R379). -/
theorem startPermit_facts (h : Hw) (p : List Byte) : (h.startPermit p).tap.ir = 0x10 ∧ (h.startPermit p).tap.permit = some (sliceBytes 0 256 p) ∧
    (h.startPermit p).on F.SC_DEBUG_BUSY = true ∧ h.Only { h.startPermit p with tap := h.tap } [(.SC_DEBUG, 0)] := by
  obtain ⟨hrest, hrd⟩ := only_put h F.SC_DEBUG_BUSY 1 0
  exact ⟨rfl, rfl, on_put_same h F.SC_DEBUG_BUSY 1 0 (by decide), hrest, hrd⟩

/-- The permit taken from the verification. -/
def permitTaken (h : Hw) : Hw := { h.put F.SC_DEBUG_BUSY 0 with tap := { h.tap with permit := none } }

/-- The state after a permit that does not verify. -/
def permitRefused (h : Hw) : Hw := (h.scRefuse Rc.SEC_PERMIT_INVALID).freshNonce

/-- The level of a verified permit in force. -/
def permitLevel (h : Hw) (p : List Byte) : Hw := (h.setLevel (leAt 4 1 p) (leAt 6 2 p % 4096) (leAt 24 8 p)).freshNonce

theorem on_permitTaken (h : Hw) : h.permitTaken.on F.SC_DEBUG_BUSY = false := on_put_same h F.SC_DEBUG_BUSY 0 0 (by decide)

theorem level_permitTaken (h : Hw) : h.permitTaken.get F.SC_DEBUG_LEVEL = h.get F.SC_DEBUG_LEVEL :=
  get_put_apart h F.SC_DEBUG_BUSY F.SC_DEBUG_LEVEL 0 0 rfl (by decide) (by decide)

theorem get_freshNonce (h : Hw) (f : Fld) (i : Nat) (hf : f.reg ≠ .SC_NONCE) : h.freshNonce.get f i = h.get f i :=
  congrArg (bits f.lo f.w) (keepsReg_freshNonce f.reg h hf i)

theorem on_freshNonce (h : Hw) (f : Fld) (i : Nat) (hf : f.reg ≠ .SC_NONCE) : h.freshNonce.on f i = h.on f i := by
  rw [on_eq_get, get_freshNonce h f i hf, on_eq_get]

theorem aside_tap : Aside (fun h => h.tap) := ⟨fun _ _ _ _ => rfl, fun _ _ => rfl, fun _ _ => rfl, fun _ _ => rfl⟩

theorem tap_freshNonce (h : Hw) : h.freshNonce.tap = h.tap := rfl
theorem keys_freshNonce (h : Hw) : h.freshNonce.keys = h.keys := rfl

theorem permitRefused_facts (h : Hw) : h.permitRefused.tap = h.tap ∧ h.permitRefused.on F.SC_DEBUG_BUSY = h.on F.SC_DEBUG_BUSY ∧
    h.permitRefused.get F.SC_DEBUG_LEVEL = h.get F.SC_DEBUG_LEVEL ∧ h.permitRefused.get F.SC_STATE_REASON = Rc.SEC_PERMIT_INVALID := by
  unfold permitRefused scRefuse refuse
  refine ⟨?_, ?_, ?_, ?_⟩
  · rw [tap_freshNonce]
    exact aside_tap.raise _ _ _
  · rw [on_freshNonce _ _ _ (by decide), on_eq_get, get_raise _ _ _ F.SC_STATE_REASON 0 rfl F.SC_DEBUG_BUSY 0 (by decide),
      get_put_reg _ F.SC_STATE_REASON F.SC_DEBUG_BUSY _ _ _ (by decide), on_eq_get]
  · rw [get_freshNonce _ _ _ (by decide), get_raise _ _ _ F.SC_STATE_REASON 0 rfl F.SC_DEBUG_LEVEL 0 (by decide),
      get_put_reg _ F.SC_STATE_REASON F.SC_DEBUG_LEVEL _ _ _ (by decide)]
  · rw [get_freshNonce _ _ _ (by decide), get_raise _ _ _ F.SC_STATE_REASON 0 rfl F.SC_STATE_REASON 0 (by decide),
      get_put_same _ F.SC_STATE_REASON _ 0 (by decide)]
    rfl

theorem permitLevel_facts (h : Hw) (p : List Byte) : (h.permitLevel p).tap = h.tap ∧ (h.permitLevel p).on F.SC_DEBUG_BUSY = h.on F.SC_DEBUG_BUSY ∧
    (h.permitLevel p).get F.SC_DEBUG_LEVEL = leAt 4 1 p % 4 ∧ (h.permitLevel p).get F.SC_DEBUG_HOOP = leAt 6 2 p % 4096 ∧
    (h.permitLevel p).rd .SC_DEBUG_END 0 = leAt 24 8 p % 2 ^ 64 ∧ (h.permitLevel p).keys = h.keys := by
  obtain ⟨hlevel, hhoop, hend, hbusy, -, hkeys, htap, -⟩ := levelShown_facts h.levelEnded (leAt 4 1 p) (leAt 6 2 p % 4096) (leAt 24 8 p)
  unfold permitLevel
  rw [setLevel_eq]
  refine ⟨?_, ?_, ?_, ?_, ?_, ?_⟩
  · rw [tap_freshNonce, htap]
    exact levelEnded_keeps (fun h => h.tap) (fun _ _ _ => rfl) (fun _ => put_tap _ _ _ _) h
  · rw [on_freshNonce _ _ _ (by decide), on_eq_get, hbusy]
    exact congrArg (· == 1) (levelEnded_keeps (fun h => h.get F.SC_DEBUG_BUSY) (fun _ _ _ => rfl)
      (fun h => get_put_reg h F.DG_HALT_HALTED F.SC_DEBUG_BUSY _ _ _ (by decide)) h)
  · rw [get_freshNonce _ _ _ (by decide), hlevel]
  · rw [get_freshNonce _ _ _ (by decide), hhoop, Nat.mod_mod]
  · rw [keepsReg_freshNonce .SC_DEBUG_END _ (by decide) 0, hend]
  · rw [keys_freshNonce, hkeys]
    exact levelEnded_keeps (fun h => h.keys) (fun _ _ _ => rfl) (fun _ => put_keys _ _ _ _) h

/-- A verified permit is for level 1, 2 or 3. -/
theorem permitOk_level (h : Hw) (p : List Byte) (hok : h.permitOk p = true) : leAt 4 1 p < 4 := by
  unfold permitOk at hok
  dsimp only at hok
  rw [Bool.and_eq_true] at hok
  obtain ⟨-, hlevel⟩ := hok
  split at hlevel
  · omega
  · omega
  · omega
  · exact absurd hlevel Bool.false_ne_true

end Hw

theorem permitVerified_taken (w : Work) (p : List Byte) (hp : w.hw.tap.permit = some p) :
    permitVerified w = if w.hw.permitTaken.permitOk p then
      (if leAt 4 1 p == 3 then d3Erase { w with hw := w.hw.permitTaken.permitLevel p } else { w with hw := w.hw.permitTaken.permitLevel p })
      else { w with hw := w.hw.permitTaken.permitRefused } := by
  unfold permitVerified
  rw [hp]
  show (if (!w.hw.permitTaken.permitOk p) = true then _ else _) = _
  cases w.hw.permitTaken.permitOk p <;> rfl

/-- A projection that the erasure of D3 does not reach, but for the keys and the cache. -/
theorem d3Erase_keeps {α : Type} (g : Hw → α) (hmm : ∀ (w : Work) c, g (mmZero c w).hw = g w.hw) (hscrub : ∀ (h : Hw) c, g (h.scrubArray c) = g h)
    (hclear : ∀ (h : Hw) t, g (h.startClearing t) = g h) (w : Work) : g (d3Erase w).hw = g (w.hw.eraseAllKeys.startInval) := by
  unfold d3Erase Work.each
  refine (Hw.foldl_keeps g _ (fun h t => ?_) _ _).trans ((Hw.foldl_keeps g _ hscrub _ _).trans ?_)
  · split
    · exact hclear h t
    · rfl
  · exact Hw.foldl_keeps (fun w : Work => g w.hw) _ hmm _ _

namespace Hw

theorem startClearing_keeps {α : Type} (g : Hw → α) (hwr : ∀ (h : Hw) r i v, r ∈ [Reg.TB_FN, .GT_FN, .TB_ID, .GT_ID, .TB_STATUS, .GT_STATUS] → g (h.wr r i v) = g h)
    (htam : ∀ (h : Hw) t f, g (h.onTam t f) = g h) (h : Hw) (t : Nat) : g (h.startClearing t) = g h := by
  unfold startClearing
  refine (htam _ _ _).trans ?_
  unfold setTState tPut put
  have hstatus : (tField t F.TB_STATUS_STATE).1.reg ∈ [Reg.TB_FN, .GT_FN, .TB_ID, .GT_ID, .TB_STATUS, .GT_STATUS] := by
    unfold tField
    split
    · show gtReg F.TB_STATUS_STATE.reg ∈ _
      decide
    · show F.TB_STATUS_STATE.reg ∈ _
      decide
  rw [hwr _ _ _ _ hstatus, hwr _ _ _ _ (by split <;> decide)]
  refine foldl_keeps g _ (fun h n => ?_) _ _
  split <;> exact hwr _ _ _ _ (by decide)

theorem d3Erase_facts (w : Work) : (d3Erase w).hw.get F.SC_DEBUG_LEVEL = w.hw.get F.SC_DEBUG_LEVEL ∧
    (∀ n, (Tab.getD (d3Erase w).hw.keys n {}).key = none) ∧ (d3Erase w).hw.cache = [] := by
  refine ⟨?_, fun n => ?_, ?_⟩
  · refine (d3Erase_keeps (fun h => h.get F.SC_DEBUG_LEVEL) (fun w c => ?_) (fun h c => ?_)
      (startClearing_keeps (fun h => h.get F.SC_DEBUG_LEVEL) (fun h r i v hr => ?_) fun _ _ _ => rfl) w).trans ?_
    · exact get_put_reg w.hw F.CR_MM_STATUS_INIT F.SC_DEBUG_LEVEL 1 c 0 (by decide)
    · exact get_put_reg h F.CR_ARR_STATUS_SCRUB F.SC_DEBUG_LEVEL 1 c 0 (by decide)
    · refine get_wr_reg h r F.SC_DEBUG_LEVEL v i 0 fun heq => ?_
      subst heq
      exact absurd hr (by decide)
    · exact get_put_reg w.hw.eraseAllKeys F.MP_BM_CTRL_INVAL F.SC_DEBUG_LEVEL 1 0 0 (by decide)
  · rw [d3Erase_keeps (fun h => h.keys) (fun _ _ => rfl) (fun _ _ => rfl) (startClearing_keeps _ (fun h r i v _ => wr_keys h r i v) fun _ _ _ => rfl) w]
    exact key_eraseAllKeys w.hw n
  · exact d3Erase_keeps (fun h => h.cache) (fun _ _ => rfl) (fun _ _ => rfl) (startClearing_keeps _ (fun h r i v _ => wr_cache h r i v) fun _ _ _ => rfl) w

end Hw

end Sys2Proof.Machine
end

section
/-! The test access port's accesses and the attach port (O54). -/

namespace Sys2Proof.Machine

namespace Hw

/-- The test access port set. -/
def withTap (h : Hw) (t : Tap) : Hw := { h with tap := t }

theorem tapSelect_served (h : Hw) (ir dr : Nat) (hs : h.tapServes ir = true) :
    h.tapSelect ir dr = h.withTap { h.tap with ir := ir, dr := dr, driven := ir == 0x03 } := if_pos hs

theorem tapSelect_bypass (h : Hw) (ir dr : Nat) (hs : h.tapServes ir = false) :
    h.tapSelect ir dr = h.withTap { h.tap with ir := 0xFF, dr := 0, driven := false } := if_neg (by rw [hs]; exact Bool.false_ne_true)

theorem shown_withTap (h : Hw) (t : Tap) (m : Mem) (r : Reg) (i : Nat) : (h.withTap t).shown m r i = h.shown m r i := by
  cases r <;> rfl

theorem sampleWord_withTap (h : Hw) (t : Tap) (m : Mem) (off : Nat) : (h.withTap t).sampleWord m off = h.sampleWord m off := by
  unfold sampleWord
  simp only [shown_withTap]
  rfl

theorem ctl_logFault_withTap (h : Hw) (t : Tap) (e : FaultEntry) : ((h.withTap t).logFault e).ctl = (h.logFault e).ctl := by
  unfold logFault
  rw [show (h.withTap t).faultLog = h.faultLog from rfl]
  split <;> rfl

/-- A debug access refused: the fault log takes it, and no run aborts. -/
theorem raise_debugSrc (h : Hw) : h.raise Rc.SEC_DEBUG_ACCESS debugSrc = h.logFault (h.unboundEntry Rc.SEC_DEBUG_ACCESS debugSrc) := by
  have hreason : debugSrc.reason = none := rfl
  have hin : debugSrc.inRun = false := rfl
  have hcode : powerAbortCodes.contains Rc.SEC_DEBUG_ACCESS = false := rfl
  have hresp : (responseOf Rc.SEC_DEBUG_ACCESS false debugSrc.refusal debugSrc.halting == 2) = false := rfl
  unfold raise
  simp only [hreason, hin, hcode, Bool.or_self, Bool.and_false, hresp, Bool.false_eq_true, if_false]
  rfl

theorem unboundEntry_withTap (h : Hw) (t : Tap) (code : Nat) (src : Src) : (h.withTap t).unboundEntry code src = h.unboundEntry code src := rfl

theorem ctl_raise_withTap (h : Hw) (t : Tap) : ((h.withTap t).raise Rc.SEC_DEBUG_ACCESS debugSrc).ctl = (h.raise Rc.SEC_DEBUG_ACCESS debugSrc).ctl := by
  rw [raise_debugSrc, raise_debugSrc, unboundEntry_withTap, ctl_logFault_withTap]

/-- A read of a word whose register is no 64-bit one notes the word as it stands. -/
theorem ctlRead_narrow (h : Hw) (m : Mem) (a : Agent) (off : Nat) (hsize : ∀ p, placeOf off = some p → p.reg.desc.size ≠ 8) :
    h.ctlRead m a off = h.noted a (h.sampleWord m off) := by
  cases hp : placeOf off with
  | none => simp [ctlRead, hp, noted]
  | some p => exact ctlRead_of_narrow h m a off p hp (hsize p hp)

end Hw

/-! Accesses of the debug port. -/

theorem dbgAccess_served (write : Bool) (off v : Nat) (w : Work) (t : Tap) (ht : w.hw.tapSelect 0x12 (w.hw.tap.status + w.hw.tap.data * 2 ^ 31) = w.hw.withTap t)
    (hir : t.ir = 0x12) (hoff : off < 2 ^ 28) : dbgAccess write off v w = debugAccess write off v { w with hw := w.hw.withTap t } := by
  unfold dbgAccess Work.onHw
  dsimp only
  rw [Nat.mod_eq_of_lt hoff, ht]
  exact if_pos (beq_iff_eq.mpr hir)

theorem debugAccess_refused (write : Bool) (off v : Nat) (w : Work) (hno : w.hw.mayDebug write (placeOf off) = false) :
    debugAccess write off v w = (w.raise Rc.SEC_DEBUG_ACCESS debugSrc).onHw (tapResult 2 0) := if_pos (by rw [hno]; rfl)

theorem debugAccess_write (off v : Nat) (w : Work) (hmay : w.hw.mayDebug true (placeOf off) = true) :
    debugAccess true off v w = (Hw.ctlWrite .debug off v 0 w).onHw (tapResult 0 0) := by
  unfold debugAccess
  rw [hmay]
  rfl

theorem debugAccess_read (off v : Nat) (w : Work) (hmay : w.hw.mayDebug false (placeOf off) = true) :
    debugAccess false off v w = (busRead .debug off w).onHw (fun h => tapResult 0 (Tab.getD h.readBack (Agent.index .debug) 0) h) := by
  unfold debugAccess
  rw [hmay]
  rfl

theorem busRead_narrow (off : Nat) (w : Work) (hmay : w.hw.mayDebug false (placeOf off) = true) (hoff : off ≠ (Reg.desc .DG_APER_DATA).base)
    (hsize : ∀ p, placeOf off = some p → p.reg.desc.size ≠ 8) : busRead .debug off w = w.onHw (fun h => h.noted .debug (h.sampleWord w.mem off)) := by
  unfold busRead
  refine (if_neg (by rw [hmay]; exact Bool.false_ne_true)).trans ((if_neg (by rw [beq_eq_false_iff_ne.mpr hoff]; exact Bool.false_ne_true)).trans ?_)
  unfold Work.onHwMem
  dsimp only
  rw [Hw.ctlRead_narrow _ _ _ _ hsize]
  rfl

/-! The aperture. -/

theorem placeOf_aperData : placeOf (Reg.desc .DG_APER_DATA).base = some { reg := .DG_APER_DATA, idx := 0, outer := 0, hi := false } := by
  have hmap : (placeOf (Reg.desc .DG_APER_DATA).base).map (fun p => (p.reg, p.idx, p.outer, p.hi)) = some (.DG_APER_DATA, 0, 0, false) := by decide +kernel
  obtain ⟨⟨r, i, o, hi⟩, hsome, heq⟩ := Option.map_eq_some_iff.mp hmap
  simp only [Prod.mk.injEq] at heq
  obtain ⟨rfl, rfl, rfl, rfl⟩ := heq
  exact hsome

theorem apertureWord_eq (write : Bool) (v : Nat) (w : Work) (r : Option (List Byte)) (w1 : Work) (hlevel : 2 ≤ w.hw.get F.SC_DEBUG_LEVEL)
    (haccess : hoopAccess 0xE9 (w.hw.rd .DG_APER_HOOP 0) (w.hw.rd .DG_APER_ADDR 0) write (if write then leBytes 4 v else List.replicate 4 0#8) w = (r, w1)) :
    apertureWord write v w = (r.map leNat, w1) := by
  unfold apertureWord
  rw [if_neg (Nat.not_lt.mpr hlevel), haccess]

theorem busRead_aperture (w : Work) (r : Option (List Byte)) (w1 : Work) (hlevel : 2 ≤ w.hw.get F.SC_DEBUG_LEVEL)
    (hmay : w.hw.mayDebug false (placeOf (Reg.desc .DG_APER_DATA).base) = true) (hs : w.hw.served (Reg.desc .DG_APER_DATA).base = true)
    (haccess : hoopAccess 0xE9 (w.hw.rd .DG_APER_HOOP 0) (w.hw.rd .DG_APER_ADDR 0) false (List.replicate 4 0#8) w = (r, w1)) :
    busRead .debug (Reg.desc .DG_APER_DATA).base w = w1.onHw (fun h => h.noted .debug ((r.map leNat).getD 0)) := by
  unfold busRead
  refine (if_neg (by rw [hmay]; exact Bool.false_ne_true)).trans ((if_pos (by rw [hs]; rfl)).trans ?_)
  rw [apertureWord_eq false 0 w r w1 hlevel haccess]
  rfl

theorem ctlWrite_aperture (v : Nat) (w : Work) (r : Option (List Byte)) (w1 : Work) (hv : v < 2 ^ 32) (hlevel : 2 ≤ w.hw.get F.SC_DEBUG_LEVEL)
    (hmay : w.hw.mayDebug true (placeOf (Reg.desc .DG_APER_DATA).base) = true) (hs : w.hw.served (Reg.desc .DG_APER_DATA).base = true)
    (haccess : hoopAccess 0xE9 (w.hw.rd .DG_APER_HOOP 0) (w.hw.rd .DG_APER_ADDR 0) true (leBytes 4 v) w = (r, w1)) :
    Hw.ctlWrite .debug (Reg.desc .DG_APER_DATA).base v 0 w = w1 := by
  unfold Hw.ctlWrite
  rw [Nat.mod_eq_of_lt hv]
  refine (if_neg (by rw [hs]; decide)).trans ((if_neg (by rw [hmay]; decide)).trans ((if_neg (by decide)).trans ?_))
  rw [placeOf_aperData]
  refine (if_neg ?_).trans ((if_neg (by decide)).trans ?_)
  · exact Bool.false_ne_true
  · show (apertureWord true v w).2 = w1
    rw [apertureWord_eq true v w r w1 hlevel haccess]

/-! The attach port. -/

theorem attachTarget_refused (write : Bool) (addr : Nat) (bs : List Byte) (w : Work) (haclk : w.hw.clocks.aclk = true) (hporz : w.hw.power.porzLow = false)
    (hawake : w.hw.power.sleeping = false) (hoff : w.hw.on F.HP_ATTACH_VALID = false) :
    attachTarget write addr bs w = attachAnswer none (w.raise Rc.SEC_HOOP_VIOLATION { unit := 0xE5, refusal := true }) := by
  unfold attachTarget
  exact (if_neg (by rw [haclk, hporz, hawake]; exact Bool.false_ne_true)).trans (if_pos (by rw [hoff]; rfl))

theorem attachTarget_answered (write : Bool) (addr : Nat) (bs : List Byte) (w : Work) (r : Option (List Byte)) (w1 : Work) (haclk : w.hw.clocks.aclk = true)
    (hporz : w.hw.power.porzLow = false) (hawake : w.hw.power.sleeping = false) (hon : w.hw.on F.HP_ATTACH_VALID = true) (haddr : addr < 2 ^ 63)
    (haccess : hoopAccess 0xE5 (w.hw.get F.HP_ATTACH_HOOP) addr write bs w = (r, w1)) : attachTarget write addr bs w = attachAnswer r w1 := by
  have hmod : addr % 2 ^ 64 = addr := Nat.mod_eq_of_lt (by omega)
  have hlow : bit 63 addr = false := by
    unfold bit
    rw [Nat.div_eq_of_lt haddr]
    rfl
  unfold attachTarget
  rw [hmod]
  refine (if_neg (by rw [haclk, hporz, hawake]; exact Bool.false_ne_true)).trans ((if_neg (by rw [hon]; exact Bool.false_ne_true)).trans ?_)
  dsimp only
  rw [if_neg (by rw [hlow]; exact Bool.false_ne_true), haccess]

theorem attachInitiator_facts (h : Hw) (k e : Bool) (bs : List Byte) : (attachInitiator k e bs h).procs.initiatorResponse = some (e, if e then [] else bs) ∧
    ((attachInitiator k e bs h).proc k).accessFault = e ∧ { attachInitiator k e bs h with procs := h.procs } = h := by
  cases k <;> exact ⟨rfl, rfl, rfl⟩

/-! The commands. -/

theorem State.tapAnswers_select (s : State) (i : Instr) (ir dr : Nat) (hir : (ir == 0x03) = false) (hexec : exec i s = s.leads (s.hw.tapSelect ir dr)) :
    tapAnswers s i ir dr := by
  refine ⟨fun hs => ?_, fun hs => ?_⟩
  · rw [hexec, Hw.tapSelect_served _ _ _ hs, hir]
    rfl
  · rw [hexec, Hw.tapSelect_bypass _ _ _ hs]
    rfl

theorem State.samplePreload_served (s : State) (pins x : Nat) (hs : s.hw.tapServes 0x02 = true) : exec (.samplePreload pins x) s =
    s.leads { s.hw with tap := { s.hw.tap with ir := 0x02, dr := pins, driven := false, boundary := x } } := by
  have hexec : exec (.samplePreload pins x) s = s.leads (s.hw.tapBoundary 0x02 pins x) := State.answers_onHw s (fun h => h.tapBoundary 0x02 pins x)
  rw [hexec]
  unfold Hw.tapBoundary
  rw [Hw.tapSelect_served _ _ _ hs]
  rfl

theorem State.extest_eq (s : State) (pins : Nat) : exec (.extest pins) s = s.leads (s.hw.tapBoundary 0x03 pins s.hw.tap.boundary) :=
  State.answers_onHw s (fun h => h.tapBoundary 0x03 pins h.tap.boundary)

theorem State.dbgAccess_exec (s : State) (w : Bool) (off : Nat) (v : Word) (hs : s.hw.tapServes 0x12 = true) (hoff : off < 2 ^ 28) : ∃ t : Tap,
    (s.work.onHw (fun h => h.tapSelect 0x12 (h.tap.status + h.tap.data * 2 ^ 31))) = { s.work with hw := s.hw.withTap t } ∧
    exec (.dbgAccess w off v) s = s.answers (fun _ => debugAccess w off v.toNat { s.work with hw := s.hw.withTap t }) := by
  obtain ⟨t, hir, ht⟩ : ∃ t : Tap, t.ir = 0x12 ∧ s.hw.tapSelect 0x12 (s.hw.tap.status + s.hw.tap.data * 2 ^ 31) = s.hw.withTap t :=
    ⟨_, rfl, Hw.tapSelect_served _ _ _ hs⟩
  have hsel : s.work.onHw (fun h => h.tapSelect 0x12 (h.tap.status + h.tap.data * 2 ^ 31)) = { s.work with hw := s.hw.withTap t } := by
    unfold Work.onHw
    dsimp only
    rw [State.work_hw, ht]
  refine ⟨_, hsel, ?_⟩
  have heq := dbgAccess_served w off v.toNat s.work t ht hir hoff
  have hexec : exec (.dbgAccess w off v) s = s.answers (dbgAccess w off v.toNat) := rfl
  rw [hexec]
  unfold State.answers
  rw [heq]
  rfl

theorem State.answers_const (s : State) (w : Work) : s.answers (fun _ => w) = .next (s.after w) := rfl

/-- Settles O54: permits and levels, debug halts, the accesses of the test access port, and the attach port. -/
theorem debugAndAttachCommandsTakeEffect : Obligations.DebugAndAttachCommandsTakeEffect := by
  unfold Obligations.DebugAndAttachCommandsTakeEffect
  refine ⟨?_, ?_, ?_, ?_, ?_, ?_, ?_, ?_, ?_, ?_⟩
  · intro s p
    have hexec : exec (.dbgPermit p) s = s.leads (if s.hw.tapServes 0x10 then s.hw.startPermit p else s.hw.tapSelect 0x10 0) :=
      State.answers_onHw s (fun h => if h.tapServes 0x10 then h.startPermit p else h.tapSelect 0x10 0)
    refine ⟨fun hs => ?_, fun hs => ?_⟩
    · rw [if_pos hs] at hexec
      exact ⟨_, hexec, s.hw.startPermit_facts p⟩
    · rw [hexec, if_neg (by rw [hs]; exact Bool.false_ne_true), Hw.tapSelect_bypass _ _ _ hs]
      rfl
  · intro s p hp h1
    have hexec : exec .permitVerified s = .next (s.after (permitVerified s.work)) := rfl
    rw [permitVerified_taken s.work p hp] at hexec
    refine ⟨fun hno => ?_, fun hok hlevel => ?_, fun hok hlevel => ?_⟩
    · rw [if_neg (by rw [show s.work.hw.permitTaken.permitOk p = false from hno]; exact Bool.false_ne_true)] at hexec
      obtain ⟨htap, hbusy, hlev, hreason⟩ := s.hw.permitTaken.permitRefused_facts
      exact ⟨_, hexec, congrArg Tap.permit htap, hbusy.trans s.hw.on_permitTaken, hlev.trans s.hw.level_permitTaken, hreason⟩
    · rw [if_pos (show s.work.hw.permitTaken.permitOk p = true from hok), if_neg (by rw [beq_eq_false_iff_ne.mpr hlevel]; exact Bool.false_ne_true)] at hexec
      obtain ⟨htap, hbusy, hlev, hhoop, hend, hkeys⟩ := s.hw.permitTaken.permitLevel_facts p
      refine ⟨_, hexec, congrArg Tap.permit htap, hbusy.trans s.hw.on_permitTaken, hlev.trans (Nat.mod_eq_of_lt (Hw.permitOk_level _ p hok)), hhoop,
        hend.trans (Nat.mod_eq_of_lt ?_), hkeys⟩
      exact Nat.lt_of_lt_of_le (leNat_lt _) (by rw [Hw.length_sliceBytes]; decide)
    · rw [if_pos (show s.work.hw.permitTaken.permitOk p = true from hok), if_pos (beq_iff_eq.mpr hlevel)] at hexec
      obtain ⟨hlev, hkeys, hcache⟩ := Hw.d3Erase_facts { s.work with hw := s.work.hw.permitTaken.permitLevel p }
      obtain ⟨-, -, hown, -⟩ := s.hw.permitTaken.permitLevel_facts p
      refine ⟨_, hexec, hlev.trans (hown.trans ?_), hkeys, hcache⟩
      rw [hlevel]
  · intro s
    have hexec : exec .debugLevelExpiry s = s.leads s.hw.levelExpiry := State.answers_onHw s (fun h => h.levelExpiry)
    refine ⟨fun hlevel hstate hlate => ?_, fun hearly => ?_⟩
    · rw [Hw.levelExpiry_ends s.hw hlevel hstate hlate, Hw.setLevel_eq] at hexec
      obtain ⟨hlev, -, -, -, hhalt, -⟩ := s.hw.levelEnded.levelShown_facts 0 0 0
      exact ⟨_, hexec, hlev, fun hhigh => hhalt.trans (Hw.levelEnded_halted s.hw hhigh)⟩
    · rw [hexec, Hw.levelExpiry_early s.hw hearly]
  · intro s a htakes
    have hhalt : exec (.debugHalt a) s = s.leads (s.hw.writeDgHalt (withFld F.DG_HALT_HALT 1 0 % 2 ^ 32)) :=
      State.answers_writeNamed s a .DG_HALT 0 (withFld F.DG_HALT_HALT 1 0) (fun h => h.writeDgHalt (withFld F.DG_HALT_HALT 1 0 % 2 ^ 32)) htakes rfl
    have hresume : exec (.debugResume a) s = s.leads (s.hw.writeDgHalt (withFld F.DG_HALT_RESUME 1 0 % 2 ^ 32)) :=
      State.answers_writeNamed s a .DG_HALT 0 (withFld F.DG_HALT_RESUME 1 0) (fun h => h.writeDgHalt (withFld F.DG_HALT_RESUME 1 0 % 2 ^ 32)) htakes rfl
    refine ⟨fun hlevel => ?_, fun hlow => ?_, fun hon => ?_⟩
    · rw [Hw.writeDgHalt_d3 s.hw _ (by decide) (by decide) hlevel] at hhalt
      exact ⟨_, hhalt, s.hw.halted_facts⟩
    · rw [hhalt, Hw.writeDgHalt_low s.hw _ (by decide) hlow]
    · rw [Hw.writeDgHalt_resume s.hw _ (by decide) (by decide)] at hresume
      exact ⟨_, hresume, Hw.releaseHalt_facts s.hw hon⟩
  · intro s off v hs hoff
    refine ⟨fun hmay hne hsize => ?_, fun w hno => ?_, fun w1 hmay hw1 => ?_⟩
    · obtain ⟨t, -, hexec⟩ := s.dbgAccess_exec false off v hs hoff
      rw [State.answers_const, debugAccess_read off _ _ hmay, busRead_narrow off _ hmay hne hsize] at hexec
      refine ⟨_, hexec, rfl, ?_, rfl⟩
      exact (Tab.getD_put_same _ _ _ _).trans (s.hw.sampleWord_withTap t s.mem off)
    · obtain ⟨t, -, hexec⟩ := s.dbgAccess_exec w off v hs hoff
      rw [State.answers_const, debugAccess_refused w off _ _ hno] at hexec
      exact ⟨_, hexec, rfl, rfl, s.hw.ctl_raise_withTap t⟩
    · obtain ⟨t, hsel, hexec⟩ := s.dbgAccess_exec true off v hs hoff
      rw [hsel] at hw1
      rw [State.answers_const, debugAccess_write off _ _ hmay, hw1] at hexec
      exact ⟨_, hexec, rfl, rfl⟩
  · intro s wr v r w1 hlevel hmay hs haccess
    have hexec : exec (.debugApertureAccess wr v) s = .next (s.after (debugAccess wr (Reg.desc .DG_APER_DATA).base v.toNat s.work)) := rfl
    cases wr with
    | false =>
      rw [debugAccess_read _ _ _ hmay, busRead_aperture s.work r w1 hlevel hmay hs haccess] at hexec
      exact ⟨_, hexec, rfl, rfl, fun _ => Tab.getD_put_same _ _ _ _⟩
    | true =>
      rw [debugAccess_write _ _ _ hmay, ctlWrite_aperture v.toNat s.work r w1 v.isLt hlevel hmay hs haccess] at hexec
      exact ⟨_, hexec, rfl, rfl, fun hfalse => absurd hfalse.symm Bool.false_ne_true⟩
  · intro s
    exact ⟨s.tapAnswers_select _ _ _ rfl (State.answers_onHw s (fun h => h.tapSelect 0x11 (h.rd .SC_NONCE 0))),
      s.tapAnswers_select _ _ _ rfl (State.answers_onHw s (fun h => h.tapSelect 0x01 h.idcode)),
      s.tapAnswers_select _ _ _ rfl (State.answers_onHw s (fun h => h.tapSelect 0xFF 0)),
      s.tapAnswers_select _ _ _ rfl (State.answers_onHw s (fun h => h.tapSelect 0x13 (h.rd .PL_BOOT 0))),
      s.tapAnswers_select _ _ _ rfl (State.answers_onHw s (fun h => h.tapSelect 0x14 (h.rd .SC_DEBUG 0)))⟩
  · intro s pins x
    refine ⟨s.samplePreload_served pins x, fun hs => ?_, fun hs => ?_⟩
    · rw [s.extest_eq]
      unfold Hw.tapBoundary
      rw [Hw.tapSelect_served _ _ _ hs]
      rfl
    · rw [s.extest_eq]
      unfold Hw.tapBoundary
      rw [Hw.tapSelect_bypass _ _ _ hs]
      rfl
  · intro s wr addr bs haclk hporz hawake
    have hexec : exec (.attachTargetRequest wr addr bs) s = .next (s.after (attachTarget wr addr bs s.work)) := rfl
    refine ⟨fun hoff => ?_, fun r w1 hon haddr haccess => ?_⟩
    · rw [attachTarget_refused wr addr bs s.work haclk hporz hawake hoff] at hexec
      exact ⟨_, hexec, rfl, rfl⟩
    · rw [attachTarget_answered wr addr bs s.work r w1 haclk hporz hawake hon haddr haccess] at hexec
      exact ⟨_, hexec, rfl, rfl⟩
  · intro s k e bs haclk
    exact ⟨_, State.answers_clocked s (attachInitiator k e bs) haclk, attachInitiator_facts s.hw k e bs⟩

end Sys2Proof.Machine
end

section
/-! The tambours' boundaries, guards and the gather tambour (O45). -/

namespace Sys2Proof.Machine

namespace Hw

/-! Queues and tambours. -/

theorem queue_setQueue_same (h : Hw) (c q : Nat) (xs : List Chunk) : (h.setQueue c q xs).queue c q = xs := by
  unfold queue setQueue
  rw [core_onCore_same]
  exact Tab.getD_put_same _ _ _ _

theorem tam_onTam (h : Hw) (t : Nat) (f : Tambour → Tambour) : (h.onTam t f).tam t = f (h.tam t) := tam_onTam_same h t f

theorem tam_elapse (h : Hw) (n t : Nat) : (h.elapse n).tam t = h.tam t := rfl
theorem tam_setQueue (h : Hw) (c q t : Nat) (xs : List Chunk) : (h.setQueue c q xs).tam t = h.tam t := rfl
theorem queue_onTam (h : Hw) (c q t : Nat) (f : Tambour → Tambour) : (h.onTam t f).queue c q = h.queue c q := rfl
/-! The input boundary of a core. -/

/-- The chunk taken from T0, and the use noted. -/
def inputTaken (h : Hw) (c : Nat) (rest : List Chunk) : Hw :=
  ((h.elapse (max (h.tam c).popFrom (h.tam c).nextMove)).setQueue c 8 rest).tUse c

/-- What T0's pop owes. -/
def popOwes (g : Hw) (c fmt : Nat) (k : Tambour) : Tambour :=
  { k with nextMove := g.ticks + g.chunkTime c, owed := if g.tFixed c fmt then k.owed ++ [{ due := g.cycleTick + 4 * g.tLatency c fmt }] else k.owed }

theorem tInputPop_eq (h : Hw) (c : Nat) (x : Chunk) (rest : List Chunk) (hcore : c ≠ gatherTambour) (hab : h.ab.on = false) (hrun : h.tState c = 4)
    (hq : h.queue c 8 = x :: rest) (howed : (h.tam c).owed.length < 512) :
    h.tInputPop c = (h.inputTaken c rest).onTam c (popOwes (h.inputTaken c rest) c x.fmt) := by
  unfold tInputPop
  refine (if_neg (by rw [hab, hrun]; exact Bool.false_ne_true)).trans ((if_neg (by rw [beq_eq_false_iff_ne.mpr hcore]; exact Bool.false_ne_true)).trans ?_)
  rw [hq]
  exact if_neg (Nat.not_le.mpr howed)

theorem tam_inputTaken (h : Hw) (c : Nat) (rest : List Chunk) : (h.inputTaken c rest).tam c = { h.tam c with used := some h.runNumber } := by
  unfold inputTaken tUse
  rw [tam_onTam]
  rfl

theorem inputPopped_facts (h : Hw) (c fmt : Nat) (rest : List Chunk) (h' : Hw) (hh : h' = (h.inputTaken c rest).onTam c (popOwes (h.inputTaken c rest) c fmt)) :
    h'.ticks = max h.ticks (max (h.tam c).popFrom (h.tam c).nextMove) ∧ h'.queue c 8 = rest ∧ (h'.tam c).used = some h.runNumber ∧
    (h'.tam c).nextMove = h'.ticks + h.chunkTime c ∧
    (h'.tam c).owed = (h.tam c).owed ++ (if h.tFixed c fmt then [{ due := h'.cycleTick + 4 * h.tLatency c fmt }] else []) ∧ h'.ctl = h.ctl := by
  have htam : h'.tam c = popOwes (h.inputTaken c rest) c fmt { h.tam c with used := some h.runNumber } := by
    rw [hh, tam_onTam, tam_inputTaken]
  rw [htam]
  subst hh
  refine ⟨rfl, ?_, rfl, rfl, ?_, rfl⟩
  · rw [queue_onTam]
    exact queue_setQueue_same _ c 8 rest
  · show (if h.tFixed c fmt then _ else _) = _
    cases h.tFixed c fmt
    · exact (List.append_nil _).symm
    · rfl

end Hw

/-! The output boundary. -/

theorem outputDeliver_early (t tag kind : Nat) (o : Owed) (bs : List Byte) (w : Work) (hab : w.hw.ab.on = false) (hrun : w.hw.tState t = 4)
    (howed : (w.hw.tam t).owed[(w.hw.tam t).early.length]? = some o) (htag : t = gatherTambour → o.tag = tag) :
    outputDeliver t false tag kind bs w = w.onHw (fun h => h.onTam t (fun k => { k with early := k.early ++ [(tag, { kind := kind, bytes := bs })] })) := by
  unfold outputDeliver
  refine (if_neg (by rw [hab, hrun]; exact Bool.false_ne_true)).trans ((if_neg Bool.false_ne_true).trans ?_)
  rw [howed]
  refine if_neg ?_
  rw [Bool.and_eq_true, bne_iff_ne, beq_iff_eq]
  exact fun hbad => hbad.1 (htag hbad.2)

/-- An output that leaves the release buffer of a core's tambour. -/
def Hw.outputPushed (h : Hw) (c due : Nat) (x : Chunk) : Hw :=
  ((h.elapse due).onTam c (fun k => { k with owed := k.owed.drop 1, early := k.early.drop 1 })).push c 9 x

theorem outputDue_pushes (c g : Nat) (o : Owed) (x : Chunk) (os : List Owed) (es : List (Nat × Chunk)) (w : Work) (hcore : c ≠ gatherTambour)
    (hab : w.hw.ab.on = false) (howed : (w.hw.tam c).owed = o :: os) (hearly : (w.hw.tam c).early = (g, x) :: es) (hroom : (w.hw.queue c 9).length < 16) :
    outputDue c w = { w with hw := w.hw.outputPushed c o.due x } := by
  unfold outputDue
  refine (if_neg (by rw [hab]; exact Bool.false_ne_true)).trans ?_
  rw [howed]
  dsimp only [Work.onHw]
  rw [Hw.tam_elapse, hearly]
  dsimp only
  refine (if_pos ?_).trans ?_
  · rw [beq_eq_false_iff_ne.mpr hcore, Bool.false_or]
    exact decide_eq_true hroom
  · unfold pushOwed
    exact if_neg (by rw [beq_eq_false_iff_ne.mpr hcore]; exact Bool.false_ne_true)

theorem Hw.outputPushed_facts (h : Hw) (c g due : Nat) (o : Owed) (x : Chunk) (os : List Owed) (es : List (Nat × Chunk))
    (howed : (h.tam c).owed = o :: os) (hearly : (h.tam c).early = (g, x) :: es) :
    (h.outputPushed c due x).ticks = max h.ticks due ∧ ((h.outputPushed c due x).tam c).owed = os ∧ ((h.outputPushed c due x).tam c).early = es ∧
    (h.outputPushed c due x).queue c 9 = h.queue c 9 ++ [x] ∧ (h.outputPushed c due x).ctl = h.ctl := by
  unfold Hw.outputPushed Hw.push
  refine ⟨rfl, ?_, ?_, ?_, rfl⟩
  · rw [tam_setQueue, tam_onTam, tam_elapse, howed]
    rfl
  · rw [tam_setQueue, tam_onTam, tam_elapse, hearly]
    rfl
  · rw [queue_setQueue_same]
    rfl

/-! Guards. -/

namespace Hw

/-- A projection that the energy account does not reach. -/
structure Unweighed {α : Type} (g : Hw → α) : Prop where
  energy : ∀ (h : Hw) (e : EnergyUnit), g { h with energy := e } = g h

theorem Unweighed.weighIn {α : Type} {g : Hw → α} (hg : Unweighed g) (h : Hw) (o cat n : Nat) : g (h.weighIn o cat n) = g h := by
  unfold Hw.weighIn
  split
  · rfl
  · exact hg.energy h _

/-- The activity of a window weighed to its owners. -/
def windowWeighed (h : Hw) (t count : Nat) : Hw :=
  if t == gatherTambour then
    { (if h.energy.gatherChunks.foldl (fun a p => a + p.2) 0 == 0 then h.weigh overheadEntry 9 count
      else (splitEnergy (count * h.get F.EN_CAL_FJ 9) h.energy.gatherChunks).foldl (fun h p => h.weighIn p.1 0 p.2) h) with
      energy := { (if h.energy.gatherChunks.foldl (fun a p => a + p.2) 0 == 0 then h.weigh overheadEntry 9 count
        else (splitEnergy (count * h.get F.EN_CAL_FJ 9) h.energy.gatherChunks).foldl (fun h p => h.weighIn p.1 0 p.2) h).energy with gatherChunks := [] } }
  else h.weigh (h.segOf t).1 9 count

theorem windowWeighed_keeps {α : Type} {g : Hw → α} (hg : Unweighed g) (h : Hw) (t count : Nat) : g (h.windowWeighed t count) = g h := by
  unfold windowWeighed weigh
  split
  · rw [hg.energy]
    split
    · exact hg.weighIn h _ _ _
    · exact foldl_keeps g _ (fun h p => hg.weighIn h _ _ _) _ h
  · exact hg.weighIn h _ _ _

theorem unweighed_tGet (t : Nat) (f : Fld) : Unweighed (fun h => h.tGet t f) := ⟨fun _ _ => rfl⟩

/-- The counts of a window. -/
def windowCounted (h : Hw) (t count : Nat) : Hw :=
  (h.tPut t F.TB_TOGGLES_COUNT (h.tGet t F.TB_TOGGLES_COUNT + count)).tPut t F.TB_ACTMAX_MAX
    (max ((h.tPut t F.TB_TOGGLES_COUNT (h.tGet t F.TB_TOGGLES_COUNT + count)).tGet t F.TB_ACTMAX_MAX) (min count 65535))

theorem windowEnd_eq (h : Hw) (t count : Nat) (hrun : h.tState t = 4) : h.windowEnd t count =
    if ((h.windowCounted t count).windowWeighed t count).tGet t F.TB_ACT_BUDGET < count then
      (((h.windowCounted t count).windowWeighed t count).tPut t F.TB_STATUS_ACTIVITY 1).tHold t Rc.TBR_ACTIVITY_BUDGET
    else (h.windowCounted t count).windowWeighed t count := by
  unfold windowEnd
  exact if_neg (by rw [hrun]; exact Bool.false_ne_true)

theorem windowCounted_facts (h : Hw) (t count : Nat) :
    (h.windowCounted t count).tGet t F.TB_TOGGLES_COUNT = (h.tGet t F.TB_TOGGLES_COUNT + count) % 2 ^ 64 ∧
    (h.windowCounted t count).tGet t F.TB_ACTMAX_MAX = max (h.tGet t F.TB_ACTMAX_MAX) (min count 65535) ∧
    (h.windowCounted t count).tGet t F.TB_ACT_BUDGET = h.tGet t F.TB_ACT_BUDGET ∧ (h.windowCounted t count).tState t = h.tState t := by
  unfold windowCounted
  rw [tState_eq_tGet, tState_eq_tGet]
  refine ⟨?_, ?_, ?_, ?_⟩
  · rw [tGet_tPut_reg _ _ _ F.TB_ACTMAX_MAX F.TB_TOGGLES_COUNT _ (by decide), tGet_tPut_same _ _ F.TB_TOGGLES_COUNT _ (by decide)]
    rfl
  · rw [tGet_tPut_same _ _ F.TB_ACTMAX_MAX _ (by decide), tGet_tPut_reg _ _ _ F.TB_TOGGLES_COUNT F.TB_ACTMAX_MAX _ (by decide)]
    have hlt : h.tGet t F.TB_ACTMAX_MAX < 2 ^ 16 := tGet_lt h t F.TB_ACTMAX_MAX
    exact Nat.mod_eq_of_lt (by show max _ _ < 2 ^ 16; omega)
  · rw [tGet_tPut_reg _ _ _ F.TB_ACTMAX_MAX F.TB_ACT_BUDGET _ (by decide), tGet_tPut_reg _ _ _ F.TB_TOGGLES_COUNT F.TB_ACT_BUDGET _ (by decide)]
  · rw [tGet_tPut_reg _ _ _ F.TB_ACTMAX_MAX F.TB_STATUS_STATE _ (by decide), tGet_tPut_reg _ _ _ F.TB_TOGGLES_COUNT F.TB_STATUS_STATE _ (by decide)]

/-- A field of a tambour after a raise by it. -/
theorem tGet_raise (h : Hw) (t code : Nat) (src : Src) (hreason : src.reason = some (tField t F.TB_STATUS_REASON)) (f : Fld)
    (hf : f.reg ∉ settledRegs ∧ gtReg f.reg ∉ settledRegs) : (h.raise code src).tGet t f = (h.tPut t F.TB_STATUS_REASON code).tGet t f := by
  unfold tGet tPut
  refine get_raise h code src _ _ hreason _ _ ?_
  unfold tField
  split
  · exact hf.2
  · exact hf.1

/-- A tambour that is HELD, with a reason. -/
theorem tHold_tGet (h : Hw) (t code : Nat) (f : Fld) (hf : f.reg ∉ settledRegs ∧ gtReg f.reg ∉ settledRegs) :
    (h.tHold t code).tGet t f = ((h.tPut t F.TB_STATUS_STATE 5).tPut t F.TB_STATUS_REASON code).tGet t f := by
  unfold tHold
  rw [tGet_raise _ t code (h.tSrc t) rfl f hf]
  rfl

theorem tHold_facts (h : Hw) (t code : Nat) (hcode : code < 2 ^ 16) : (h.tHold t code).tState t = 5 ∧ (h.tHold t code).tGet t F.TB_STATUS_REASON = code ∧
    (∀ f, f.reg = .TB_STATUS → 3 ≤ f.lo → f.lo + f.w ≤ 16 → (h.tHold t code).tGet t f = h.tGet t f) ∧
    (h.tHold t code).tGet t F.TB_TOGGLES_COUNT = h.tGet t F.TB_TOGGLES_COUNT ∧ (h.tHold t code).tGet t F.TB_ACTMAX_MAX = h.tGet t F.TB_ACTMAX_MAX := by
  refine ⟨?_, ?_, fun f hr hlo hhi => ?_, ?_, ?_⟩
  · rw [tState_eq_tGet, tHold_tGet _ _ _ _ (by decide), tGet_tPut_apart _ _ F.TB_STATUS_REASON F.TB_STATUS_STATE _ rfl (by decide) (by decide),
      tGet_tPut_same _ _ F.TB_STATUS_STATE _ (by decide)]
    rfl
  · rw [tHold_tGet _ _ _ _ (by decide), tGet_tPut_same _ _ F.TB_STATUS_REASON _ (by decide)]
    exact Nat.mod_eq_of_lt hcode
  · have hsize : f.lo + f.w ≤ 8 * Reg.TB_STATUS.desc.size ∧ f.lo + f.w ≤ 8 * (gtReg .TB_STATUS).desc.size := by
      show f.lo + f.w ≤ 32 ∧ f.lo + f.w ≤ 32
      omega
    rw [tHold_tGet _ _ _ _ (by rw [hr]; decide), tGet_tPut_apart _ _ F.TB_STATUS_REASON f _ hr hsize (.inl hhi),
      tGet_tPut_apart _ _ F.TB_STATUS_STATE f _ hr hsize (.inr hlo)]
  · rw [tHold_tGet _ _ _ _ (by decide), tGet_tPut_reg _ _ _ F.TB_STATUS_REASON F.TB_TOGGLES_COUNT _ (by decide),
      tGet_tPut_reg _ _ _ F.TB_STATUS_STATE F.TB_TOGGLES_COUNT _ (by decide)]
  · rw [tHold_tGet _ _ _ _ (by decide), tGet_tPut_reg _ _ _ F.TB_STATUS_REASON F.TB_ACTMAX_MAX _ (by decide),
      tGet_tPut_reg _ _ _ F.TB_STATUS_STATE F.TB_ACTMAX_MAX _ (by decide)]

theorem windowEnd_facts (h : Hw) (t n : Nat) (hrun : h.tState t = 4) :
    (h.windowEnd t n).tGet t F.TB_TOGGLES_COUNT = (h.tGet t F.TB_TOGGLES_COUNT + n) % 2 ^ 64 ∧
    (h.windowEnd t n).tGet t F.TB_ACTMAX_MAX = max (h.tGet t F.TB_ACTMAX_MAX) (min n 65535) ∧
    (n ≤ h.tGet t F.TB_ACT_BUDGET → (h.windowEnd t n).tState t = 4) ∧
    (h.tGet t F.TB_ACT_BUDGET < n → (h.windowEnd t n).tState t = 5 ∧ (h.windowEnd t n).tOn t F.TB_STATUS_ACTIVITY = true ∧
      (h.windowEnd t n).tGet t F.TB_STATUS_REASON = Rc.TBR_ACTIVITY_BUDGET) := by
  obtain ⟨htoggles, hmax, hbudget, hstate⟩ := h.windowCounted_facts t n
  rw [windowEnd_eq h t n hrun]
  have hkeeps : ∀ f, ((h.windowCounted t n).windowWeighed t n).tGet t f = (h.windowCounted t n).tGet t f :=
    fun f => windowWeighed_keeps (unweighed_tGet t f) _ t n
  rw [← hkeeps] at htoggles hmax hbudget
  rw [tState_eq_tGet, ← hkeeps] at hstate
  generalize (h.windowCounted t n).windowWeighed t n = g at htoggles hmax hbudget hstate
  rw [hbudget]
  by_cases hover : h.tGet t F.TB_ACT_BUDGET < n
  · rw [if_pos hover]
    obtain ⟨hheld, hreason, hstat, htog, hact⟩ := (g.tPut t F.TB_STATUS_ACTIVITY 1).tHold_facts t Rc.TBR_ACTIVITY_BUDGET (by decide)
    refine ⟨?_, ?_, fun hle => absurd hover (Nat.not_lt.mpr hle), fun _ => ⟨hheld, ?_, hreason⟩⟩
    · rw [htog, tGet_tPut_reg _ _ _ F.TB_STATUS_ACTIVITY F.TB_TOGGLES_COUNT _ (by decide), htoggles]
    · rw [hact, tGet_tPut_reg _ _ _ F.TB_STATUS_ACTIVITY F.TB_ACTMAX_MAX _ (by decide), hmax]
    · rw [tOn_eq_tGet, hstat _ rfl (by decide) (by decide), tGet_tPut_same _ _ F.TB_STATUS_ACTIVITY _ (by decide)]
      rfl
  · rw [if_neg hover]
    exact ⟨htoggles, hmax, fun _ => hstate.trans hrun, fun hlt => absurd hlt hover⟩

/-- The scrubber's next frame. -/
def frameMoved (h : Hw) (t : Nat) : Hw := h.onTam t (fun k => { k with frame := (k.frame + 1) % max 1 (h.tCells t * 12 / 64) })

theorem scrubFrame_clean (h : Hw) (t : Nat) (hst : h.tState t ∉ [0, 1, 7]) : h.scrubFrame t 0 = h.frameMoved t := by
  have hbusy : (h.tState t == tEmpty || h.tState t == tLoading || h.tState t == tClearing) = false := by
    have hne : ∀ n, n ∈ [0, 1, 7] → (h.tState t == n) = false := fun n hn => beq_eq_false_iff_ne.mpr fun heq => hst (heq ▸ hn)
    rw [hne tEmpty (by decide), hne tLoading (by decide), hne tClearing (by decide)]
    rfl
  unfold scrubFrame
  exact if_neg (by rw [hbusy]; exact Bool.false_ne_true)

/-- A frame counted where it was corrected. -/
def frameCounted (h : Hw) (t outcome : Nat) : Hw :=
  if outcome == 1 then h.tPut t F.TB_CORR_COUNT (h.tGet t F.TB_CORR_COUNT + 1) else h

theorem scrubFrame_upset (h : Hw) (t o : Nat) (hrun : h.tState t = 4) (ho : o = 1 ∨ o = 2) : h.scrubFrame t o =
    ((((h.frameMoved t).frameCounted t o).tPut t F.TB_STATUS_UPSET 1).tPut t F.TB_STATUS_UNCORR (flag (o == 2))).tHold t Rc.TBR_CONFIG_UPSET := by
  unfold scrubFrame
  rw [hrun]
  rcases ho with rfl | rfl <;> rfl

theorem scrubFrame_upset_facts (h : Hw) (t o : Nat) (hrun : h.tState t = 4) (ho : o = 1 ∨ o = 2) :
    (h.scrubFrame t o).tState t = 5 ∧ (h.scrubFrame t o).tOn t F.TB_STATUS_UPSET = true ∧ (h.scrubFrame t o).tOn t F.TB_STATUS_UNCORR = (o == 2) ∧
    (h.scrubFrame t o).tGet t F.TB_STATUS_REASON = Rc.TBR_CONFIG_UPSET := by
  rw [scrubFrame_upset h t o hrun ho]
  generalize (h.frameMoved t).frameCounted t o = g
  obtain ⟨hheld, hreason, hstat, -, -⟩ := ((g.tPut t F.TB_STATUS_UPSET 1).tPut t F.TB_STATUS_UNCORR (flag (o == 2))).tHold_facts t Rc.TBR_CONFIG_UPSET (by decide)
  refine ⟨hheld, ?_, ?_, hreason⟩
  · rw [tOn_eq_tGet, hstat _ rfl (by decide) (by decide), tGet_tPut_apart _ _ F.TB_STATUS_UNCORR F.TB_STATUS_UPSET _ rfl (by decide) (by decide),
      tGet_tPut_same _ _ F.TB_STATUS_UPSET _ (by decide)]
    rfl
  · rw [tOn_eq_tGet, hstat _ rfl (by decide) (by decide), tGet_tPut_same _ _ F.TB_STATUS_UNCORR _ (by decide)]
    cases o == 2 <;> rfl

/-! The gather tambour. -/

/-- Time moved to the gather tambour's next input. -/
def gatherMoved (h : Hw) : Hw := h.elapse (max (h.tam gatherTambour).popFrom (h.tam gatherTambour).nextMove)

/-- The outputs that a bag's last row owes. -/
def rowOwes (g : Hw) (r : PoolRow) : List Owed :=
  if r.last then (List.range (ceilDiv r.row.length 256)).map (fun i =>
    { due := g.cycleTick + g.chunkTime gatherTambour * (ceilDiv r.row.length 256 - 1) + 4 * g.tLatency gatherTambour 0 + g.chunkTime gatherTambour * i,
      tag := r.core + 32 * r.bobbin + 256 * r.bag, last := i + 1 == ceilDiv r.row.length 256 }) else []

/-- A served row taken by the gather tambour. -/
def rowTaken (g : Hw) (r : PoolRow) (k : Tambour) : Tambour :=
  { k with nextMove := g.ticks + g.chunkTime gatherTambour * ceilDiv r.row.length 256, owed := k.owed ++ g.rowOwes r }

/-- A served row left the rows that wait, weighed to an owner. -/
def rowLeft (g : Hw) (r : PoolRow) (o : Nat) : Hw :=
  { g with poolRows := g.poolRows.erase r,
           energy := { g.energy with gatherChunks := Tab.modify g.energy.gatherChunks 0 o (· + ceilDiv r.row.length 256) } }

/-- The context that a pooled row is for. -/
def rowOwner (g : Hw) (r : PoolRow) : Nat :=
  match (g.slotOrder r.core r.bobbin).find? (fun p => p.2.gather.pooling.contains r.bag) with
  | some p => p.2.owner
  | none => 0xFFFF

theorem poolInput_taken (h : Hw) (r : PoolRow) (hnext : nextPoolRow h.poolRows = some r) (hrun : h.tState gatherTambour = 4) (hab : h.ab.on = false)
    (hroom : (h.tam gatherTambour).owed.length + ceilDiv r.row.length 256 ≤ 512) : h.poolInput =
      ((h.gatherMoved.onTam gatherTambour (h.gatherMoved.rowTaken r)).rowLeft r (h.gatherMoved.rowOwner r)).tUse gatherTambour := by
  unfold poolInput
  dsimp only
  rw [hnext]
  exact if_neg (by rw [hab, hrun, decide_eq_false (Nat.not_lt.mpr hroom)]; exact Bool.false_ne_true)

theorem rowTaken_facts (h : Hw) (r : PoolRow) (o : Nat) (h' : Hw)
    (hh : h' = ((h.gatherMoved.onTam gatherTambour (h.gatherMoved.rowTaken r)).rowLeft r o).tUse gatherTambour) :
    h'.poolRows = h.poolRows.erase r ∧ (r.last = false → (h'.tam gatherTambour).owed = (h.tam gatherTambour).owed) ∧
    (h'.tam gatherTambour).nextMove = h'.ticks + h.chunkTime gatherTambour * ceilDiv r.row.length 256 ∧ h'.ctl = h.ctl := by
  have htam : h'.tam gatherTambour = { h.gatherMoved.rowTaken r (h.tam gatherTambour) with
      used := some ((h.gatherMoved.onTam gatherTambour (h.gatherMoved.rowTaken r)).rowLeft r o).runNumber } := by
    rw [hh, tUse, tam_onTam]
    have hleft : ((h.gatherMoved.onTam gatherTambour (h.gatherMoved.rowTaken r)).rowLeft r o).tam gatherTambour =
        (h.gatherMoved.onTam gatherTambour (h.gatherMoved.rowTaken r)).tam gatherTambour := rfl
    rw [hleft, tam_onTam]
    rfl
  rw [htam]
  subst hh
  refine ⟨rfl, fun hmore => ?_, rfl, rfl⟩
  show (h.tam gatherTambour).owed ++ h.gatherMoved.rowOwes r = _
  unfold rowOwes
  rw [hmore, if_neg Bool.false_ne_true, List.append_nil]

/-- A payload of the L_OUT buffer becomes a transmit slot. -/
def loutSent (h : Hw) (p l sl : Nat) (d : SlotData) : Hw :=
  { h.onTam gatherTambour (fun k => { k with lout := k.lout.filter (fun x => !(x.port == p && x.lane == l && x.slot == sl)) }) with
    txSlots := h.txSlots ++ [d] }

theorem slotDeadline_sent (h : Hw) (m : Mem) (p l sl : Nat) (d : SlotData) (hp : p < h.build.linkports) (hl : l < 4) (hsl : sl < 19) (hplan : h.planned = true)
    (hab : h.ab.on = false) (hkind : (h.slotAt m false (h.planBeat + 1) p l sl).kind = 3)
    (hd : (h.tam gatherTambour).lout.find? (fun d => d.port == p && d.lane == l && d.slot == sl) = some d) : h.slotDeadline m p l sl =
      h.loutSent p l sl { d with stream := (h.slotAt m false (h.planBeat + 1) p l sl).stream, hoop := h.get F.GT_ID_HOOP } := by
  unfold slotDeadline
  refine (if_neg ?_).trans ((if_neg (by rw [hkind]; exact Bool.false_ne_true)).trans ?_)
  · rw [hplan, hab, decide_eq_false (Nat.not_le.mpr hp), decide_eq_false (Nat.not_le.mpr hl), decide_eq_false (Nat.not_le.mpr hsl)]
    exact Bool.false_ne_true
  · dsimp only
    rw [hd]
    rfl

theorem loutSent_facts (h : Hw) (p l sl : Nat) (d : SlotData) : (h.loutSent p l sl d).ctl = h.ctl ∧ (h.loutSent p l sl d).txSlots = h.txSlots ++ [d] ∧
    ((h.loutSent p l sl d).tam gatherTambour).lout = (h.tam gatherTambour).lout.filter (fun x => !(x.port == p && x.lane == l && x.slot == sl)) := by
  refine ⟨rfl, rfl, ?_⟩
  exact congrArg Tambour.lout (tam_onTam h gatherTambour (fun k => { k with lout := k.lout.filter (fun x => !(x.port == p && x.lane == l && x.slot == sl)) }))

end Hw

/-- Settles O45: the boundaries of the core tambours, their guards, and the gather tambour's rows and slots. -/
theorem tambourBoundariesMoveChunks : Obligations.TambourBoundariesMoveChunks := by
  unfold Obligations.TambourBoundariesMoveChunks
  refine ⟨?_, ?_, ?_, ?_, ?_, ?_, ?_⟩
  · intro s c x rest haclk hc hcore hab hfresh hrun hq howed
    have hpop := Hw.tInputPop_eq s.hw c x rest hcore hab hrun hq howed
    refine ⟨_, State.moves_of (h' := (s.hw.inputTaken c rest).onTam c (Hw.popOwes (s.hw.inputTaken c rest) c x.fmt)) ?_ hfresh, ?_⟩
    · refine (atCore_of c _ s.work haclk hc).trans ?_
      unfold Work.onHw
      dsimp only
      rw [State.work_hw, hpop]
    · exact Hw.inputPopped_facts s.hw c x.fmt rest _ rfl
  · intro s t tag k o bs haclk hex hab hfresh hrun howed htag
    refine State.moves_of (h' := s.hw.onTam t (fun j => { j with early := j.early ++ [(tag, { kind := k, bytes := bs })] })) ?_ hfresh
    exact (atTambour_of t _ s.work haclk hex).trans (outputDeliver_early t tag k o bs s.work hab hrun howed htag)
  · intro s c g o x os es haclk hc hcore hab hfresh howed hearly hroom
    refine ⟨_, State.moves_of (h' := s.hw.outputPushed c o.due x) ?_ hfresh, Hw.outputPushed_facts s.hw c g o.due o x os es howed hearly⟩
    exact (atCore_of c _ s.work haclk hc).trans (outputDue_pushes c g o x os es s.work hcore hab howed hearly hroom)
  · intro s t n haclk hex hrun
    exact ⟨_, s.answers_atTambour t (fun h => h.windowEnd t n) haclk hex, s.hw.windowEnd_facts t n hrun⟩
  · intro s t o haclk hex
    have hexec : ∀ o, exec (.configScrubFrame t o) s = s.leads (s.hw.scrubFrame t o) := fun o => s.answers_atTambour t (fun h => h.scrubFrame t o) haclk hex
    refine ⟨fun hst => ?_, fun hrun ho => ⟨_, hexec o, s.hw.scrubFrame_upset_facts t o hrun ho⟩⟩
    rw [hexec, s.hw.scrubFrame_clean t hst]
    rfl
  · intro s r haclk hnext hrun hab hroom
    have hexec : exec .gatherPoolInput s = s.leads s.hw.poolInput := State.answers_clocked s (fun h => h.poolInput) haclk
    rw [s.hw.poolInput_taken r hnext hrun hab hroom] at hexec
    exact ⟨_, hexec, s.hw.rowTaken_facts r _ _ rfl⟩
  · intro s p l sl d haclk hp hl hsl hplan hab hkind hd
    have hexec : exec (.gatherSlotDeadline p l sl) s = s.leads (s.hw.slotDeadline s.mem p l sl) :=
      s.answers_of _ (fun w => w.onHwMem (fun m h => h.slotDeadline m p l sl)) _ (atLink_of p _ s.work haclk hp) rfl
    rw [s.hw.slotDeadline_sent s.mem p l sl d hp hl hsl hplan hab hkind hd] at hexec
    obtain ⟨hctl, htx, hlout⟩ := s.hw.loutSent_facts p l sl
      { d with stream := (s.hw.slotAt s.mem false (s.hw.planBeat + 1) p l sl).stream, hoop := s.hw.get F.GT_ID_HOOP }
    exact ⟨_, hexec, hctl, htx, hlout⟩

end Sys2Proof.Machine
end

section
/-! The bobbins' work and the slot moves (O40, O41). -/

namespace Sys2Proof.Machine

namespace Hw

/-! What a change of a slot leaves. -/

theorem slot_onSlot_same (h : Hw) (c b sl : Nat) (f : BobSlot → BobSlot) (x : BobSlot) (hx : h.slot c b sl = some x) :
    (h.onSlot c b sl f).slot c b sl = some (f x) := by
  unfold slot bobbin at hx
  unfold onSlot onBobbin slot bobbin
  simp only [core_onCore_same, Tab.getD_modify_same, hx, Tab.find?_insert_same]

theorem mem_slotOrder {h : Hw} {c b sl : Nat} {x : BobSlot} (hm : (sl, x) ∈ h.slotOrder c b) : h.slot c b sl = some x := by
  unfold slotOrder at hm
  rw [List.mem_filterMap] at hm
  obtain ⟨i, -, hi⟩ := hm
  dsimp only at hi
  cases hf : Tab.find? (h.bobbin c b).slots (((h.bobbin c b).next + i) % 4) with
  | none => rw [hf] at hi; cases hi
  | some y =>
    rw [hf] at hi
    cases hi
    exact hf

theorem slot_closeOut (h : Hw) (c b sl : Nat) : (h.closeOut c b sl).slot c b sl = none := by
  unfold closeOut onBobbin slot bobbin
  rw [core_onCore_same, Tab.getD_modify_same]
  exact Tab.find?_erase_same _ _

theorem ab_closeOut (h : Hw) (c b sl : Nat) : (h.closeOut c b sl).ab = h.ab := rfl
theorem ticks_closeOut (h : Hw) (c b sl : Nat) : (h.closeOut c b sl).ticks = h.ticks := rfl
theorem cycleTick_closeOut (h : Hw) (c b sl : Nat) : (h.closeOut c b sl).cycleTick = h.cycleTick := rfl

theorem freed_closeOut (h : Hw) (c b sl : Nat) : Tab.find? ((h.closeOut c b sl).bobbin c b).freed sl = some (h.cycleTick + 4) := by
  unfold closeOut onBobbin bobbin
  rw [core_onCore_same, Tab.getD_modify_same]
  exact Tab.find?_insert_same _ _ _

/-! An event counts in registers alone. -/

theorem ticks_event (h : Hw) (c ev n : Nat) : (h.event c ev n).ticks = h.ticks := (moves_event (P := fun _ _ => True) h c ev n fun _ _ _ => trivial).ticks

theorem ab_event (h : Hw) (c ev n : Nat) : (h.event c ev n).ab = h.ab := (moves_event (P := fun _ _ => True) h c ev n fun _ _ _ => trivial).ab

/-! Activation of an armed slot. -/

/-- What the activation of a slot leaves. -/
def activated (h : Hw) (c b sl : Nat) (x : BobSlot) : Hw :=
  (h.onSlot c b sl (fun y => { y with state := 2, since := max h.ticks (y.since + 4) })).wr .BB_DESC (sub c 8 b) x.desc.src

theorem activate_eq (h : Hw) (c b sl : Nat) (x : BobSlot) (hab : h.ab.on = false) (hnone : h.activeSlot c b = none)
    (hfind : (h.slotOrder c b).find? (fun p => p.2.state == 1) = some (sl, x)) (h2 : x.desc.qend ≠ 2) (h3 : x.desc.qend ≠ 3) (h9 : x.desc.qend ≠ 9) :
    h.activate c b = h.activated c b sl x := by
  have hpops : (x.desc.qend == 2 || x.desc.qend == 3 || x.desc.qend == 9) = false := by
    rw [beq_eq_false_iff_ne.mpr h2, beq_eq_false_iff_ne.mpr h3, beq_eq_false_iff_ne.mpr h9]
    rfl
  unfold activate
  refine (if_neg (by rw [hnone, hab]; exact Bool.false_ne_true)).trans ?_
  rw [hfind]
  dsimp only
  refine if_neg ?_
  rw [hpops, Bool.and_false, Bool.false_and]
  exact Bool.false_ne_true

theorem activateNow_eq (h : Hw) (c b sl : Nat) (x : BobSlot) (hab : h.ab.on = false) (hnone : h.activeSlot c b = none)
    (hfind : (h.slotOrder c b).find? (fun p => p.2.state == 1) = some (sl, x)) (h2 : x.desc.qend ≠ 2) (h3 : x.desc.qend ≠ 3) (h9 : x.desc.qend ≠ 9) :
    h.activateNow c b = (h.elapse (x.since + 4)).activated c b sl x := by
  unfold activateNow
  refine (if_neg (by rw [hnone, hab]; exact Bool.false_ne_true)).trans ?_
  rw [hfind]
  exact activate_eq (h.elapse (x.since + 4)) c b sl x hab hnone hfind h2 h3 h9

theorem slot_activated (h : Hw) (c b sl : Nat) (x : BobSlot) (hx : h.slot c b sl = some x) :
    (h.activated c b sl x).slot c b sl = some { x with state := 2, since := max h.ticks (x.since + 4) } :=
  slot_onSlot_same h c b sl _ x hx

end Hw

/-! The regulator's choice. -/

theorem findSome?_range_eq_some {α : Type} (f : Nat → Option α) (n b : Nat) (r : α) (hb : b < n) (hbefore : ∀ b', b' < b → f b' = none) (hat : f b = some r) :
    (List.range n).findSome? f = some r := by
  rw [Hw.range_split n b hb, List.findSome?_append, List.findSome?_eq_none_iff.mpr fun b' hm => hbefore b' (List.mem_range.mp hm), Option.none_or]
  exact List.findSome?_cons_of_isSome (by rw [hat]; rfl) |>.trans hat

theorem transferStart_eq (c b sl k sy : Nat) (x : BobSlot) (w : Work) (hab : w.hw.ab.on = false) (hon : w.hw.on F.BB_CTRL_ENABLE c = true)
    (hinit : w.hw.on F.CR_MM_STATUS_INIT c = false) (hplace : (w.hw.core c).placeTick = w.hw.cycleTick) (hused : (w.hw.core c).places = [])
    (hb : b < 8) (hbefore : ∀ b', b' < b → bobClass w c b' = none) (hat : bobClass w c b = some (sl, x, k)) (hsince : x.since ≤ w.hw.ticks)
    (hroom : k ≠ 2 → 0 < w.hw.placesAt ((w.hw.txDue w.mem ((w.hw.logicalOf c).getD 0)).length + (w.hw.rxDue ((w.hw.logicalOf c).getD 0)).length) w.hw.cycle) :
    transferStart c sy w = startClass c b sy sl x k w := by
  unfold transferStart
  refine (if_neg (by rw [hab, hon, hinit]; exact Bool.false_ne_true)).trans ?_
  dsimp only
  simp only [hplace, BEq.rfl, if_true, hused, List.filter_nil, List.length_nil]
  rw [findSome?_range_eq_some _ 8 b (b, sl, x, k) hb (fun b' hlt => by rw [hbefore b' hlt]) ?_]
  · rfl
  · rw [hat]
    refine if_neg ?_
    intro hbad
    simp only [List.contains_nil, Bool.false_or, Bool.or_eq_true, Bool.and_eq_true, decide_eq_true_eq, bne_iff_ne] at hbad
    rcases hbad with hlate | ⟨hk, hfull⟩
    · exact absurd hlate (Nat.not_lt.mpr hsince)
    · exact absurd (hroom hk) (Nat.not_lt.mpr hfull)

/-! The end of a descriptor. -/

theorem repeatStep_none (n : Nat) (f : Work → Option Work) (w : Work) (hf : f w = none) : Work.repeatStep n f w = w := by
  cases n with
  | zero => rfl
  | succ n =>
    unfold Work.repeatStep
    rw [hf]

theorem endSlot_plain (c b sl : Nat) (x : BobSlot) (w : Work) (hop : x.desc.op = 0) (hstage : x.desc.stage = none) (hsig : x.desc.signalEn = false) :
    endSlot c b sl x w = w.onHw (fun h => (h.event c (0x08 + b) 1).closeOut c b sl) := by
  have hdone : stageDone c x w = w := by
    unfold stageDone
    rw [hstage]
  unfold endSlot
  simp only [hop, hsig, Nat.reduceBEq, Bool.or_self, Bool.false_and, Bool.false_eq_true, if_false, hdone]

theorem descriptorEnd_eq (c b sl : Nat) (x : BobSlot) (w : Work) (hab : w.hw.ab.on = false)
    (hfind : (w.hw.slotOrder c b).find? (fun p => p.2.state == 3) = some (sl, x)) (hslot : w.hw.slot c b sl = some x) (hlive : x.cancelled = false)
    (hx : x.xfers = []) (hquiet : slotQuiet x = true) (hop : x.desc.op = 0) (hstage : x.desc.stage = none) (hsig : x.desc.signalEn = false)
    (hstep : bobStep c (w.onHw (fun h => h.elapse x.since)) = none) :
    descriptorEnd c b w = w.onHw (fun h => ((h.elapse x.since).event c (0x08 + b) 1).closeOut c b sl) := by
  have hstate : (x.state == 3) = true := List.find?_some (p := fun p : Nat × BobSlot => p.2.state == 3) hfind
  unfold descriptorEnd
  refine (if_neg (by rw [hab]; exact Bool.false_ne_true)).trans ?_
  rw [hfind]
  dsimp only
  rw [hx]
  refine (if_neg Bool.false_ne_true).trans ?_
  dsimp only [List.foldl_nil]
  rw [repeatStep_none _ _ _ hstep]
  have hslot' : (w.onHw (fun h => h.elapse x.since)).hw.slot c b sl = some x := hslot
  rw [hslot']
  refine (if_pos (by rw [hstate, hlive, hquiet]; rfl)).trans ?_
  rw [endSlot_plain c b sl x _ hop hstage hsig]
  rfl

/-- Settles O40: activation, the regulator's choice and the end of a descriptor, each as the command's effect. -/
theorem bobbinWorkMovesOn : Obligations.BobbinWorkMovesOn := by
  unfold Obligations.BobbinWorkMovesOn
  refine ⟨fun s c b sl x haclk hc hab hf hnone hfind h2 h3 h9 => ?activate,
    fun s c b sl k sy x haclk hc hab hon hinit hplace hused hb hbefore hat hsince hroom => ?start,
    fun s c b sl x haclk hc hab hf hfind hslot hlive hx hquiet hop hstage hsig hstep => ?finish⟩
  case activate =>
    have heff : atCore c (fun w => w.onHw (fun h => h.activateNow c b)) s.work =
        { s.work with hw := (s.hw.elapse (x.since + 4)).activated c b sl x } := by
      rw [atCore_of _ _ _ haclk hc]
      unfold Work.onHw
      dsimp only [State.work]
      rw [s.hw.activateNow_eq c b sl x hab hnone hfind h2 h3 h9]
    have hslot : (s.hw.elapse (x.since + 4)).slot c b sl = some x := Hw.mem_slotOrder (List.mem_of_find?_eq_some hfind)
    refine ⟨_, State.moves_of heff hf, rfl, ?_, Hw.rd_wr_same _ _ _ _⟩
    rw [Hw.slot_activated _ c b sl x hslot]
    have hticks : max (s.hw.elapse (x.since + 4)).ticks (x.since + 4) = (s.hw.elapse (x.since + 4)).ticks := Nat.max_eq_left (Nat.le_max_right _ _)
    rw [hticks]
    rfl
  case start =>
    show s.moves (atCore c (transferStart c sy)) = _
    unfold State.moves
    rw [atCore_of _ _ _ haclk hc, transferStart_eq c b sl k sy x s.work hab hon hinit hplace hused hb hbefore hat hsince hroom]
  case finish =>
    have heff : atCore c (descriptorEnd c b) s.work =
        { s.work with hw := ((s.hw.elapse x.since).event c (0x08 + b) 1).closeOut c b sl } := by
      rw [atCore_of _ _ _ haclk hc, descriptorEnd_eq c b sl x s.work hab hfind hslot hlive hx hquiet hop hstage hsig hstep]
      rfl
    have hfresh : (((s.hw.elapse x.since).event c (0x08 + b) 1).closeOut c b sl).ab.fresh = false := by
      rw [Hw.ab_closeOut, Hw.ab_event]
      exact hf
    refine ⟨_, State.moves_of heff hfresh, ?_, Hw.slot_closeOut _ c b sl, ?_⟩
    · rw [Hw.ticks_closeOut, Hw.ticks_event]
      rfl
    · rw [Hw.freed_closeOut, Hw.cycleTick_closeOut]

/-! The slot moves of a beat. -/

theorem Hw.Unweighed.weighOut {α : Type} {g : Hw → α} (hg : Hw.Unweighed g) (h : Hw) (o cat n : Nat) : g (h.weighOut o cat n) = g h := by
  unfold Hw.weighOut
  split
  · rfl
  · exact hg.energy h _

/-- A transmit slot filled, its energy weighed to its owner. -/
def Hw.transmitted (h : Hw) (o : Nat) (d : SlotData) : Hw := ({ h with txSlots := h.txSlots ++ [d] }.weighOut o 2 1).weigh o 5 8

theorem Hw.transmitted_keeps {α : Type} {g : Hw → α} (hg : Hw.Unweighed g) (h : Hw) (o : Nat) (d : SlotData) :
    g (h.transmitted o d) = g { h with txSlots := h.txSlots ++ [d] } := (hg.weighIn _ _ _ _).trans (hg.weighOut _ _ _ _)

/-- The state in which a move of the beat is made: its cycle has come, the move is counted and its unit spent. -/
def slotMoveAt (c b n : Nat) (f : Core → Core) (w : Work) : Work := w.onHw (fun h => spendRemote ((h.elapse (h.time.beatStart + 4 * n)).onCore c f) c b)

theorem transmitMove_eq (c p l sl o : Nat) (e : SlotEntry) (bs : List Byte) (w w1 w2 : Work)
    (hw1 : w1 = slotMoveAt c e.sub (w.hw.core c).txMoves (fun q => { q with txMoves := (w.hw.core c).txMoves + 1 }) w)
    (hdue : (w.hw.txDue w.mem ((w.hw.logicalOf c).getD 0))[(w.hw.core c).txMoves]? = some (p, l, sl, e))
    (htag : w1.hw.coreTag w1.mem c = 1 ∨ w1.hw.coreTag w1.mem c = 3)
    (hpay : (w1.hw.slotOrder c e.sub).findSome? (fun q => (txPayload c e.sub e.stream q.1 q.2 w1).map (fun r => (q.2.owner, r))) = some (o, bs, w2)) :
    transmitMove c w = w2.onHw (fun h => h.transmitted o
      { port := p, lane := l, slot := sl, typ := 1, stream := e.stream, hoop := w2.hw.bobHoop c, len := bs.length, data := sliceBytes 0 512 bs }) := by
  unfold transmitMove
  unfold slotMoveAt at hw1
  dsimp only
  rw [hdue]
  dsimp only
  rw [← hw1, if_pos (by simpa only [Bool.or_eq_true, beq_iff_eq] using htag), hpay]
  rfl

theorem receiveMove_eq (c sl : Nat) (d : SlotData) (x : BobSlot) (w w1 : Work)
    (hw1 : w1 = slotMoveAt c d.sub ((w.hw.txDue w.mem ((w.hw.logicalOf c).getD 0)).length + (w.hw.core c).rxMoves)
      (fun q => { q with rxMoves := (w.hw.core c).rxMoves + 1 }) w)
    (hdue : (w.hw.rxDue ((w.hw.logicalOf c).getD 0))[(w.hw.core c).rxMoves]? = some d)
    (htag : w1.hw.coreTag w1.mem c = 1 ∨ w1.hw.coreTag w1.mem c = 3)
    (htake : (w1.hw.slotOrder c d.sub).find? (fun q => canTake w1 c d.sub q.2 d.stream d.len) = some (sl, x)) :
    receiveMove c w = (takePayload c d.sub sl x d w1).onHw (fun h => ((h.received d.stream d.len).weighOut x.owner 2 1).weigh x.owner 5 8) := by
  unfold receiveMove
  unfold slotMoveAt at hw1
  dsimp only
  rw [hdue]
  dsimp only
  rw [← hw1, if_pos (by simpa only [Bool.or_eq_true, beq_iff_eq] using htag), htake]

/-- Settles O41: each move is its command's effect, made in the state in which its cycle has come. -/
theorem slotMovesCarryPayloads : Obligations.SlotMovesCarryPayloads := by
  unfold Obligations.SlotMovesCarryPayloads
  refine ⟨fun s c p l sl o e bs w2 haclk hc => ?send, fun s c sl d x haclk hc => ?receive⟩
  case send =>
    intro k w1 hdue htag hpay
    refine ⟨w2.hw.transmitted o _, ?_, Hw.transmitted_keeps (g := Hw.txSlots) ⟨fun _ _ => rfl⟩ _ _ _,
      Hw.transmitted_keeps (g := Hw.cores) ⟨fun _ _ => rfl⟩ _ _ _, Hw.transmitted_keeps (g := Hw.ctl) ⟨fun _ _ => rfl⟩ _ _ _⟩
    show s.moves (atCore c (transmitMove c)) = _
    unfold State.moves
    rw [atCore_of _ _ _ haclk hc, transmitMove_eq c p l sl o e bs s.work w1 w2 rfl hdue htag hpay]
    rfl
  case receive =>
    intro k n w1 hdue htag htake
    show s.moves (atCore c (receiveMove c)) = _
    unfold State.moves
    rw [atCore_of _ _ _ haclk hc, receiveMove_eq c sl d x s.work w1 rfl hdue htag htake]

end Sys2Proof.Machine
end

section
/-! Slot 19 and discovery (O51). -/

namespace Sys2Proof.Machine

namespace Hw

/-! The best candidate is a minimum of what the ports know. -/

theorem candLess_iff (a b : Nat × Nat × Nat × Nat) : candLess a b = true ↔
    a.1 < b.1 ∨ a.1 = b.1 ∧ (a.2.1 < b.2.1 ∨ a.2.1 = b.2.1 ∧ (a.2.2.1 < b.2.2.1 ∨ a.2.2.1 = b.2.2.1 ∧ a.2.2.2 < b.2.2.2)) := by
  unfold candLess
  simp only [Bool.or_eq_true, Bool.and_eq_true, decide_eq_true_eq, beq_iff_eq]

theorem candLess_trans {a b c : Nat × Nat × Nat × Nat} (hab : candLess a b = true) (hbc : candLess b c = true) : candLess a c = true := by
  rw [candLess_iff] at hab hbc ⊢
  omega

theorem candLess_asymm {a b : Nat × Nat × Nat × Nat} (hab : candLess a b = true) : ¬ candLess b a = true := by
  rw [candLess_iff] at hab ⊢
  omega

theorem candLess_irrefl (a : Nat × Nat × Nat × Nat) : ¬ candLess a a = true := fun hless => candLess_asymm hless hless

/-- The order is total. -/
theorem eq_of_not_candLess {a b : Nat × Nat × Nat × Nat} (hab : ¬ candLess a b = true) (hba : ¬ candLess b a = true) : a = b := by
  obtain ⟨a1, a2, a3, a4⟩ := a
  obtain ⟨b1, b2, b3, b4⟩ := b
  rw [candLess_iff] at hab hba
  dsimp only at hab hba
  obtain ⟨rfl, rfl, rfl, rfl⟩ : a1 = b1 ∧ a2 = b2 ∧ a3 = b3 ∧ a4 = b4 := by omega
  rfl

/-- The lesser of two candidates. -/
def lesser (a c : Nat × Nat × Nat × Nat) : Nat × Nat × Nat × Nat := if candLess c a then c else a

theorem lesser_twice (a c : Nat × Nat × Nat × Nat) : lesser (lesser a c) c = lesser a c := by
  unfold lesser
  by_cases hc : candLess c a = true
  · rw [if_pos hc, if_neg (candLess_irrefl c)]
  · rw [if_neg hc, if_neg hc]

/-- The least of three candidates, whichever of two comes first. -/
theorem lesser_right_comm (a c d : Nat × Nat × Nat × Nat) : lesser (lesser a c) d = lesser (lesser a d) c := by
  unfold lesser
  by_cases hc : candLess c a = true <;> by_cases hd : candLess d a = true
  · rw [if_pos hc, if_pos hd]
    by_cases hcd : candLess c d = true
    · rw [if_pos hcd, if_neg (candLess_asymm hcd)]
    · by_cases hdc : candLess d c = true
      · rw [if_pos hdc, if_neg hcd]
      · rw [if_neg hdc, if_neg hcd, eq_of_not_candLess hcd hdc]
  · rw [if_pos hc, if_neg hd, if_pos hc, if_neg fun hdc => hd (candLess_trans hdc hc)]
  · rw [if_neg hc, if_pos hd, if_neg fun hcd => hc (candLess_trans hcd hd)]
  · rw [if_neg hc, if_neg hd, if_neg hc]

/-- The better of a candidate and what a port knows. -/
def better (a : Nat × Nat × Nat × Nat) (p : Nat × LinkPort) : Nat × Nat × Nat × Nat :=
  match p.2.neighbour with
  | some n => if candLess (n.bestPrio, n.bestSerial, min 255 (n.bestDist + 1), p.1) a then (n.bestPrio, n.bestSerial, min 255 (n.bestDist + 1), p.1) else a
  | none => a

theorem bestCand_eq (h : Hw) : h.bestCand = h.link.ports.foldl better (h.mgmt.priority, h.rd .GL_SERIAL 0, 0, 31) := rfl

theorem better_none (a : Nat × Nat × Nat × Nat) (p : Nat × LinkPort) (hn : p.2.neighbour = none) : better a p = a := by
  unfold better
  rw [hn]

theorem better_some (a : Nat × Nat × Nat × Nat) (p : Nat × LinkPort) (n : Neighbour) (hn : p.2.neighbour = some n) :
    better a p = lesser a (n.bestPrio, n.bestSerial, min 255 (n.bestDist + 1), p.1) := by
  unfold better
  rw [hn]
  rfl

theorem better_right_comm (a : Nat × Nat × Nat × Nat) (p q : Nat × LinkPort) : better (better a p) q = better (better a q) p := by
  cases hp : p.2.neighbour with
  | none => rw [better_none a p hp, better_none _ p hp]
  | some n =>
    cases hq : q.2.neighbour with
    | none => rw [better_none a q hq, better_none _ q hq]
    | some m => rw [better_some a p n hp, better_some a q m hq, better_some _ q m hq, better_some _ p n hp, lesser_right_comm]

theorem better_twice (a : Nat × Nat × Nat × Nat) (p : Nat × LinkPort) : better (better a p) p = better a p := by
  cases hp : p.2.neighbour with
  | none => exact better_none _ p hp
  | some n => rw [better_some a p n hp, better_some _ p n hp, lesser_twice]

theorem better_congr (a : Nat × Nat × Nat × Nat) (i : Nat) (v x : LinkPort) (hn : v.neighbour = x.neighbour) : better a (i, v) = better a (i, x) := by
  unfold better
  dsimp only
  rw [hn]

theorem foldl_better_of_mem (t : Tab LinkPort) (a : Nat × Nat × Nat × Nat) (p : Nat × LinkPort) (hm : p ∈ t) :
    t.foldl better (better a p) = t.foldl better a := by
  induction t generalizing a with
  | nil => cases hm
  | cons q t ih =>
    rw [List.foldl_cons, List.foldl_cons, better_right_comm]
    rcases List.mem_cons.mp hm with rfl | hm
    · rw [better_twice]
    · exact ih _ hm

/-- A port whose neighbour is the port's own before adds no candidate. -/
theorem foldl_better_known (t : Tab LinkPort) (a : Nat × Nat × Nat × Nat) (i : Nat) (v : LinkPort)
    (hn : v.neighbour = (Tab.getD t i ({} : LinkPort)).neighbour) : t.foldl better (better a (i, v)) = t.foldl better a := by
  unfold Tab.getD at hn
  cases hf : Tab.find? t i with
  | none =>
    rw [hf] at hn
    rw [better_congr a i v {} hn]
    rfl
  | some x =>
    rw [hf] at hn
    rw [better_congr a i v x hn]
    exact foldl_better_of_mem t a _ (Tab.find?_mem _ _ _ hf)

theorem foldl_better_insert (t : Tab LinkPort) (a : Nat × Nat × Nat × Nat) (i : Nat) (v : LinkPort)
    (hn : v.neighbour = (Tab.getD t i ({} : LinkPort)).neighbour) : (Tab.insert t i v).foldl better a = t.foldl better a := by
  induction t generalizing a with
  | nil => exact foldl_better_known [] a i v hn
  | cons p t ih =>
    obtain ⟨k, x⟩ := p
    unfold Tab.insert
    split
    · exact foldl_better_known ((k, x) :: t) a i v hn
    · split
      · next hk =>
        have hik : i = k := beq_iff_eq.mp hk
        subst hik
        have hx : Tab.getD ((i, x) :: t) i ({} : LinkPort) = x := by
          unfold Tab.getD Tab.find?
          rw [if_pos (beq_self_eq_true i)]
          rfl
        rw [hx] at hn
        rw [List.foldl_cons, List.foldl_cons, better_congr a i v x hn]
      · next hk =>
        have hx : Tab.getD ((k, x) :: t) i ({} : LinkPort) = Tab.getD t i {} := by
          unfold Tab.getD
          rw [Tab.find?, if_neg hk]
        rw [hx] at hn
        exact ih _ hn

/-! Messages of one fragment, on their ports. -/

/-- The one fragment of a short message of this block. -/
def oneFragment (dst src cls bcast ttl msgId : Nat) (data : List Byte) : Fragment :=
  { dst := dst, src := src, cls := cls, flags := bcast + 2 + 4, ttl := ttl, msgId := msgId, off := 0, data := data }

theorem split_one (dst src cls bcast ttl msgId : Nat) (data : List Byte) (hlen : data.length ≤ 336) :
    split dst src cls bcast ttl msgId data = [oneFragment dst src cls bcast ttl msgId data] := by
  have hn : max 1 (ceilDiv data.length 336) = 1 := by
    unfold ceilDiv
    omega
  unfold split
  simp only [hn]
  show [({ dst := dst, src := src, cls := cls, flags := bcast + 2 + 4, ttl := ttl, msgId := msgId, off := 0, data := data.take 336 } : Fragment)] = _
  rw [List.take_of_length_le hlen]
  rfl

theorem length_helloBody (h : Hw) (p : Nat) : (h.helloBody p).length = 48 := by
  unfold helloBody
  simp only [List.length_append, length_leBytes]

/-- A HELLO joins the queue of a port. -/
def helloOn (h : Hw) (p : Nat) : Hw := (h.enqueue p (oneFragment 0 (h.get F.LK_ADDR_ADDR) clsHello 0 1 h.link.msgId (h.helloBody p))).nextMsg

/-- A HELLO goes to every live port. -/
def helloAll (h : Hw) : Hw := h.livePorts.foldl helloOn h

theorem helloOn_eq (h : Hw) (p : Nat) :
    ((split 0 (h.get F.LK_ADDR_ADDR) clsHello 0 1 h.link.msgId (h.helloBody p)).foldl (fun h f => h.enqueue p f) h).nextMsg = h.helloOn p := by
  rw [split_one _ _ _ _ _ _ _ (Nat.le_trans (Nat.le_of_eq (length_helloBody h p)) (by decide))]
  rfl

theorem helloSend_eq (h : Hw) (hon : h.on F.LK_CTRL_DISCOVER = true) (hat : h.link.helloAt = none) :
    h.helloSend = h.elect.helloAll.onLink (fun k => { k with helloAt := some h.elect.helloAll.time.beat }) := by
  have hdue : ¬ (!h.on F.LK_CTRL_DISCOVER || !true) = true := by
    rw [hon]
    exact Bool.false_ne_true
  unfold helloSend helloAll
  simp only [hat, if_neg hdue, helloOn_eq]

/-! What a HELLO on one port leaves of the others'. -/

/-- What a HELLO's body says is the same. -/
structure SaysAlike (h h' : Hw) : Prop where
  cand : h'.bestCand = h.bestCand
  rd : ∀ r ∈ [Reg.GL_SERIAL, .GL_PARAMS, .LK_ADDR, .TM_STATUS, .TM_EPOCH], h'.rd r 0 = h.rd r 0
  mgmt : h'.mgmt = h.mgmt

theorem SaysAlike.helloBody {h h' : Hw} (ha : h.SaysAlike h') (p : Nat) : h'.helloBody p = h.helloBody p := by
  have haddr : h'.get F.LK_ADDR_ADDR = h.get F.LK_ADDR_ADDR := congrArg (bits _ _) (ha.rd .LK_ADDR (by decide))
  have hassigned : h'.get F.LK_ADDR_ASSIGNED = h.get F.LK_ADDR_ASSIGNED := congrArg (bits _ _) (ha.rd .LK_ADDR (by decide))
  have htm : h'.tmState = h.tmState := congrArg (bits _ _) (ha.rd .TM_STATUS (by decide))
  unfold Hw.helloBody
  rw [ha.cand, ha.rd .GL_SERIAL (by decide), ha.rd .GL_PARAMS (by decide), ha.rd .TM_EPOCH (by decide), ha.mgmt, haddr, hassigned, htm]

theorem link_mgmtDrop (h : Hw) : h.mgmtDrop.link = h.link := link_put h _ _ _
theorem mgmt_mgmtDrop (h : Hw) : h.mgmtDrop.mgmt = h.mgmt := put_mgmt h _ _ _

theorem saysAlike_mgmtDrop (h : Hw) : h.SaysAlike h.mgmtDrop := by
  have hrd : ∀ r ∈ [Reg.GL_SERIAL, .GL_PARAMS, .LK_ADDR, .TM_STATUS, .TM_EPOCH], h.mgmtDrop.rd r 0 = h.rd r 0 :=
    fun r hr => rd_put_reg h F.LK_MGMT_DROP_VALUE _ 0 0 r fun heq => absurd (heq ▸ hr) (by decide)
  refine ⟨?_, hrd, mgmt_mgmtDrop h⟩
  rw [bestCand_eq, bestCand_eq, hrd .GL_SERIAL (by decide), link_mgmtDrop, mgmt_mgmtDrop]

/-- A fragment that waits on a port. -/
def queued (h : Hw) (p : Nat) (f : Fragment) : Hw := h.onLp p (fun k => { k with egress := k.egress ++ [f] })

theorem saysAlike_queued (h : Hw) (p : Nat) (f : Fragment) : h.SaysAlike (h.queued p f) := by
  refine ⟨?_, fun _ _ => rfl, rfl⟩
  have hports : (h.queued p f).link.ports = Tab.insert h.link.ports p { h.lp p with egress := (h.lp p).egress ++ [f] } := by
    refine if_neg fun heq => ?_
    have hlen := congrArg (fun k : LinkPort => k.egress.length) heq
    simp at hlen
  rw [bestCand_eq, bestCand_eq, hports]
  exact foldl_better_insert _ _ _ _ rfl

theorem saysAlike_nextMsg (h : Hw) : h.SaysAlike h.nextMsg := ⟨rfl, fun _ _ => rfl, rfl⟩

theorem SaysAlike.trans {h h' h'' : Hw} (ha : h.SaysAlike h') (hb : h'.SaysAlike h'') : h.SaysAlike h'' :=
  ⟨hb.cand.trans ha.cand, fun r hr => (hb.rd r hr).trans (ha.rd r hr), hb.mgmt.trans ha.mgmt⟩

theorem saysAlike_helloOn (h : Hw) (p : Nat) : h.SaysAlike (h.helloOn p) := by
  refine SaysAlike.trans ?_ (saysAlike_nextMsg _)
  rw [enqueue_eq]
  split
  · exact saysAlike_mgmtDrop h
  · exact saysAlike_queued h p _

theorem lp_onLp_other (h : Hw) (p q : Nat) (f : LinkPort → LinkPort) (hq : q ≠ p) : (h.onLp p f).lp q = h.lp q :=
  Tab.getD_modify_other h.link.ports {} p q f hq

theorem lp_helloOn_other (h : Hw) (p q : Nat) (hq : q ≠ p) : (h.helloOn p).lp q = h.lp q := by
  show (h.enqueue p _).lp q = h.lp q
  rw [enqueue_eq]
  split
  · exact lp_put h _ _ _ q
  · exact lp_onLp_other h p q _ hq

theorem Unsent.helloOn {α : Type} {g : Hw → α} (hg : Unsent g) (h : Hw) (p : Nat) : g (h.helloOn p) = g h := by
  unfold Hw.helloOn nextMsg
  rw [hg.link, hg.enqueue]

theorem unsent_build : Unsent (fun h => h.build) := ⟨fun _ _ => rfl, fun h => put_build h _ _ _⟩
theorem unsent_time : Unsent (fun h => h.time) := ⟨fun _ _ => rfl, fun h => put_time h _ _ _⟩

theorem build_helloOn (h : Hw) (p : Nat) : (h.helloOn p).build = h.build := unsent_build.helloOn h p
theorem time_helloOn (h : Hw) (p : Nat) : (h.helloOn p).time = h.time := unsent_time.helloOn h p

/-- A port with an empty queue takes its HELLO. -/
theorem egress_helloOn (h : Hw) (p : Nat) (hp : p < h.build.linkports) (hempty : (h.lp p).egress = []) :
    ((h.helloOn p).lp p).egress = [oneFragment 0 (h.get F.LK_ADDR_ADDR) clsHello 0 1 h.link.msgId (h.helloBody p)] := by
  have hroom : h.egressFull p (oneFragment 0 (h.get F.LK_ADDR_ADDR) clsHello 0 1 h.link.msgId (h.helloBody p)) = false := by
    have hheld : ∀ f, h.egressHeld p f = 0 := fun f => by
      unfold egressHeld
      rw [hempty]
      rfl
    have hdata : (oneFragment 0 (h.get F.LK_ADDR_ADDR) clsHello 0 1 h.link.msgId (h.helloBody p)).data.length = 48 := length_helloBody h p
    unfold egressFull
    rw [hheld, hdata, decide_eq_false (Nat.not_le.mpr hp)]
    rfl
  show ((h.enqueue p _).lp p).egress = _
  rw [enqueue_eq, hroom, if_neg Bool.false_ne_true, lp_onLp_same, hempty]
  rfl

theorem foldl_helloOn_other (ps : List Nat) (h : Hw) (q : Nat) (hq : q ∉ ps) : (ps.foldl helloOn h).lp q = h.lp q := by
  induction ps generalizing h with
  | nil => rfl
  | cons p ps ih =>
    rw [List.foldl_cons, ih _ (fun hm => hq (List.mem_cons_of_mem _ hm)), lp_helloOn_other h p q (fun heq => hq (List.mem_cons.mpr (.inl heq)))]

theorem foldl_helloOn_egress (ps : List Nat) (h : Hw) (hnodup : ps.Nodup) (hlt : ∀ p ∈ ps, p < h.build.linkports) (p : Nat) (hp : p ∈ ps)
    (hempty : (h.lp p).egress = []) :
    ∃ f, ((ps.foldl helloOn h).lp p).egress = [f] ∧ f.cls = 0 ∧ f.ttl = 1 ∧ f.data = h.helloBody p := by
  induction ps generalizing h with
  | nil => cases hp
  | cons q ps ih =>
    obtain ⟨hq, hnodup⟩ := List.nodup_cons.mp hnodup
    rw [List.foldl_cons]
    rcases List.mem_cons.mp hp with rfl | hp
    · refine ⟨oneFragment 0 (h.get F.LK_ADDR_ADDR) clsHello 0 1 h.link.msgId (h.helloBody p), ?_, rfl, rfl, rfl⟩
      rw [foldl_helloOn_other ps _ p hq]
      exact egress_helloOn h p (hlt p List.mem_cons_self) hempty
    · have hne : p ≠ q := fun heq => hq (heq ▸ hp)
      have hnext := ih (h.helloOn q) hnodup (fun r hr => (build_helloOn h q).symm ▸ hlt r (List.mem_cons_of_mem _ hr)) hp
        (by rw [lp_helloOn_other h q p hne]; exact hempty)
      rwa [(saysAlike_helloOn h q).helloBody p] at hnext

/-! The election. -/

theorem elect_cases (h : Hw) : h.elect = h ∨ ∃ w k, h.elect = ((h.wr .LK_ELECT 0 w).wr .LK_ELECT_SERIAL 0 k).onLink (fun u => { u with electAt := h.time.beat }) := by
  unfold elect
  dsimp only
  split
  · exact .inl rfl
  · exact .inr ⟨_, _, rfl⟩

theorem lp_elect (h : Hw) (p : Nat) : h.elect.lp p = h.lp p := by
  rcases h.elect_cases with heq | ⟨w, k, heq⟩ <;> rw [heq]
  rfl

theorem time_elect (h : Hw) : h.elect.time = h.time := by
  rcases h.elect_cases with heq | ⟨w, k, heq⟩ <;> rw [heq]
  rfl

theorem build_elect (h : Hw) : h.elect.build = h.build := by
  rcases h.elect_cases with heq | ⟨w, k, heq⟩ <;> rw [heq]
  rfl

theorem rd_elect (h : Hw) (r : Reg) (i : Nat) (h1 : r ≠ .LK_ELECT) (h2 : r ≠ .LK_ELECT_SERIAL) : h.elect.rd r i = h.rd r i := by
  rcases h.elect_cases with heq | ⟨w, k, heq⟩
  · rw [heq]
  · rw [heq]
    show ((h.wr .LK_ELECT 0 w).wr .LK_ELECT_SERIAL 0 k).rd r i = h.rd r i
    rw [rd_wr_other _ _ _ _ _ _ (fun e => h2 (Prod.mk.inj e).1), rd_wr_other _ _ _ _ _ _ (fun e => h1 (Prod.mk.inj e).1)]

theorem livePorts_elect (h : Hw) : h.elect.livePorts = h.livePorts := by
  have hlive : h.elect.lpLive = h.lpLive := funext fun p => by
    unfold lpLive lpState get
    rw [rd_elect h F.LK_P_STATUS_STATE.reg p (by decide) (by decide)]
  unfold livePorts
  rw [hlive, build_elect]

theorem helloSend_facts (h : Hw) (hon : h.on F.LK_CTRL_DISCOVER = true) (hat : h.link.helloAt = none) :
    h.helloSend.link.helloAt = some h.time.beat ∧ ∀ p ∈ h.livePorts, (h.lp p).egress = [] →
      ∃ f, (h.helloSend.lp p).egress = [f] ∧ f.cls = 0 ∧ f.ttl = 1 ∧ f.data = h.elect.helloBody p := by
  rw [helloSend_eq h hon hat]
  refine ⟨?_, fun p hp hempty => ?_⟩
  · show some h.elect.helloAll.time.beat = some h.time.beat
    unfold helloAll
    rw [foldl_keeps (fun g : Hw => g.time) helloOn time_helloOn, time_elect]
  · show ∃ f, ((h.elect.livePorts.foldl helloOn h.elect).lp p).egress = [f] ∧ _
    rw [livePorts_elect]
    refine foldl_helloOn_egress h.livePorts h.elect (List.nodup_range.filter _) (fun q hq => ?_) p hp (by rw [lp_elect]; exact hempty)
    rw [build_elect]
    exact List.mem_range.mp (List.mem_filter.mp hq).1

/-! Neighbours. -/

theorem neighbourExpiry_eq (h : Hw) (p : Nat) (n : Neighbour) (hn : (h.lp p).neighbour = some n) (hsilent : n.heard + 64 ≤ h.time.beat) :
    h.neighbourExpiry p = (((h.onLp p (fun k => { k with neighbour := none })).wr .LK_P_NEIGH p 0).wr .LK_P_NADDR p 0).elect := by
  unfold neighbourExpiry
  rw [hn]
  exact if_neg (Nat.not_lt.mpr hsilent)

theorem neighbourExpiry_facts (h : Hw) (p : Nat) (n : Neighbour) (hn : (h.lp p).neighbour = some n) (hsilent : n.heard + 64 ≤ h.time.beat) :
    ((h.neighbourExpiry p).lp p).neighbour = none ∧ (h.neighbourExpiry p).rd .LK_P_NEIGH p = 0 ∧ (h.neighbourExpiry p).rd .LK_P_NADDR p = 0 := by
  rw [neighbourExpiry_eq h p n hn hsilent, lp_elect, rd_elect _ _ _ (by decide) (by decide), rd_elect _ _ _ (by decide) (by decide)]
  refine ⟨?_, ?_, ?_⟩
  · show ((h.onLp p (fun k => { k with neighbour := none })).lp p).neighbour = none
    rw [lp_onLp_same]
  · rw [rd_wr_other _ _ _ _ _ _ (fun e => absurd (Prod.mk.inj e).1 (by decide)), rd_wr_same, Nat.zero_mod]
  · rw [rd_wr_same, Nat.zero_mod]

theorem electionStable_of (h : Hw) (hstood : h.elect.link.electAt + 1024 ≤ h.time.beat) : h.electionStable = h.elect.put F.LK_ELECT_STABLE 1 := by
  unfold electionStable
  exact if_pos (by rw [time_elect]; exact hstood)

/-! Couch entries. -/

/-- The couch entry that a frame's bytes say, one hop on. -/
def couchEntry (bs : List Byte) : CouchReq :=
  { dest := leAt 0 2 bs, obj := leAt 2 2 bs % 16384, value := leAt 4 4 bs, mark := leAt 8 4 bs, stream := bits 0 12 (leAt 12 4 bs),
    hoop := bits 12 12 (leAt 12 4 bs), fbeat := leAt 16 4 bs, ttl := bits 25 7 (leAt 12 4 bs) - 1 }

theorem couchReceive_eq (h : Hw) (p : Nat) (bs : List Byte) (hp : p < h.build.linkports) (hlive : h.lpLive p = true) (hlen : bs.length = 20)
    (hvalid : bit 24 (leAt 12 4 bs) = true) :
    h.couchReceive p bs = if h.routeTo (couchEntry bs).dest == some none then h.couchArrive (couchEntry bs)
      else if bits 25 7 (leAt 12 4 bs) ≤ 1 then h.mgmtDrop else h.couchSend (couchEntry bs) := by
  unfold couchReceive
  refine if_neg ?_
  rw [hlive, hlen, hvalid, decide_eq_false (Nat.not_le.mpr hp)]
  decide

end Hw

/-! Fragments and polls. -/

/-- A fragment at its destination: for one block, with the address assigned. -/
theorem fragmentReceive_here (p : Nat) (bs : List Byte) (f : Fragment) (w : Work) (hp : p < w.hw.build.linkports) (hlive : w.hw.lpLive p = true)
    (hsome : (sliceBytes 0 16 bs).all (· == 0#8) = false) (hf : parseFragment bs = some f) (hcls : f.cls = 2 ∨ f.cls = 4 ∨ f.cls = 5) (hflags : f.flags = 6)
    (haddr : w.hw.on F.LK_ADDR_ASSIGNED = true) (hroute : w.hw.routeTo f.dst = some none) : fragmentReceive p bs w = reassemble p f w := by
  have hknown : f.cls ≤ clsEpoch := by
    show f.cls ≤ 6
    omega
  have hhello : (f.cls == clsHello) = false := beq_eq_false_iff_ne.mpr (by show f.cls ≠ 0; omega)
  have hflood : (f.cls == clsTime || f.cls == clsEpoch || bit 0 f.flags) = false := by
    rw [hflags, beq_eq_false_iff_ne.mpr (show f.cls ≠ clsTime by show f.cls ≠ 1; omega), beq_eq_false_iff_ne.mpr (show f.cls ≠ clsEpoch by show f.cls ≠ 6; omega)]
    decide
  have hin : ¬ (decide (w.hw.build.linkports ≤ p) || !w.hw.lpLive p || (sliceBytes 0 16 bs).all (· == 0#8)) = true := by
    rw [hlive, hsome, decide_eq_false (Nat.not_le.mpr hp)]
    decide
  unfold fragmentReceive
  simp only [if_neg hin, hf, if_neg (Nat.not_lt.mpr hknown), hhello, haddr, hflood, hroute, Bool.not_true, Bool.false_and, Bool.false_eq_true, if_false, BEq.rfl, if_true]

theorem fragmentReceive_broken (p : Nat) (bs : List Byte) (w : Work) (hp : p < w.hw.build.linkports) (hlive : w.hw.lpLive p = true)
    (hsome : (sliceBytes 0 16 bs).all (· == 0#8) = false) (hf : parseFragment bs = none) : fragmentReceive p bs w = w.onHw (·.mgmtDrop) := by
  have hin : ¬ (decide (w.hw.build.linkports ≤ p) || !w.hw.lpLive p || (sliceBytes 0 16 bs).all (· == 0#8)) = true := by
    rw [hlive, hsome, decide_eq_false (Nat.not_le.mpr hp)]
    decide
  unfold fragmentReceive
  simp only [if_neg hin, hf]

/-- A message of one fragment reaches the processors. -/
theorem reassemble_whole (p : Nat) (f : Fragment) (w : Work) (hcls : f.cls = 2 ∨ f.cls = 4 ∨ f.cls = 5) (hflags : f.flags = 6) (hoff : f.off = 0) :
    reassemble p f w = w.onHw (fun h => h.onLink (fun k => { k with inbox := k.inbox ++ [{ cls := f.cls, src := f.src, data := f.data }] })) := by
  have htime : (f.cls == clsTime) = false := beq_eq_false_iff_ne.mpr (by show f.cls ≠ 1; omega)
  have hepoch : (f.cls == clsEpoch) = false := beq_eq_false_iff_ne.mpr (by show f.cls ≠ 6; omega)
  have hpoll : (f.cls == clsCpoll) = false := beq_eq_false_iff_ne.mpr (by show f.cls ≠ 3; omega)
  have hone : (bit 1 f.flags && bit 2 f.flags && f.off == 0) = true := by
    rw [hflags, hoff]
    decide
  unfold reassemble
  simp only [if_pos hone]
  unfold deliverMessage
  simp only [htime, hepoch, hpoll, Bool.false_and, Bool.false_eq_true, if_false]

theorem clientPoll_bound (p src q n i c : Nat) (w : Work) (hc : c < 64) (hon : w.hw.on F.LK_CLIENT_ENABLE c = true) (hport : w.hw.get F.LK_CLIENT_PORT c = p)
    (hqueue : w.hw.get F.LK_CLIENT_QUEUE_QUEUE c = q) (hn : 1 ≤ n) (hmax : n ≤ 16) :
    clientPoll p src q n i w = w.onHw (fun h => h.sendTo src clsCpollReply (leBytes 4 (h.rd .SQ_DONE q) ++ leBytes 4 0 ++
      (List.range n).flatMap (fun k => w.hw.physBytes w.mem ((w.hw.queueHoop q).getD 0) (w.hw.sqRecordAddr q (i + k)) 16))) := by
  have hbound : (List.range 64).any (fun c => w.hw.on F.LK_CLIENT_ENABLE c && w.hw.get F.LK_CLIENT_PORT c == p && w.hw.get F.LK_CLIENT_QUEUE_QUEUE c == q) = true :=
    List.any_eq_true.mpr ⟨c, List.mem_range.mpr hc, by rw [hon, hport, hqueue, beq_self_eq_true, beq_self_eq_true]; rfl⟩
  unfold clientPoll
  refine if_neg ?_
  rw [hbound, beq_eq_false_iff_ne.mpr (show n ≠ 0 by omega), decide_eq_false (Nat.not_lt.mpr hmax)]
  decide

theorem clientPoll_bad (p src q n i : Nat) (w : Work) (hn : n = 0 ∨ 16 < n) : clientPoll p src q n i w = w.onHw (fun h => h.inc F.LK_CLIENT_DROP_VALUE) := by
  unfold clientPoll
  refine if_pos ?_
  simp only [Bool.or_eq_true, beq_iff_eq, decide_eq_true_eq]
  omega

/-- A command of a link port, whose effect is on the hardware alone. -/
theorem State.answers_atLink (s : State) (p : Nat) (f : Work → Work) (h' : Hw) (haclk : s.hw.clocks.aclk = true) (hp : p < s.hw.build.linkports)
    (hf : f s.work = { s.work with hw := h' }) : s.answers (atLink p f) = s.leads h' := by
  unfold State.answers
  rw [atLink_of p f s.work haclk hp, hf]
  rfl

/-- Settles O51: each command's effect, and what a HELLO on one port leaves of the others'. -/
theorem managementTrafficTakesEffect : Obligations.ManagementTrafficTakesEffect := by
  unfold Obligations.ManagementTrafficTakesEffect
  refine ⟨fun s p w bs e haclk hp hlive hlen hw hvalid he => ?couch, fun s p bs haclk hp hlive hsome => ⟨fun hf => ?broken, fun f hf hcls hflags hoff haddr hroute => ?whole⟩,
    fun s haclk => ?late, fun s x haclk hruns hx => ?epoch, fun s haclk hon hat => ?hello, fun s p n haclk hp hn hsilent => ?silent,
    fun s haclk hstood => ?stable, fun s p src q n i c haclk hp => ⟨fun hc hon hport hqueue hn hmax => ?poll, fun hn => ?badPoll⟩⟩
  case couch =>
    subst hw
    have hentry : e = Hw.couchEntry bs := he
    have hexec : exec (.couchEntryReceive p bs) s = s.leads (s.hw.couchReceive p bs) :=
      State.answers_atLink s p (fun w => w.onHw (fun h => h.couchReceive p bs)) _ haclk hp rfl
    rw [hexec, s.hw.couchReceive_eq p bs hp hlive hlen hvalid, hentry]
    refine ⟨fun hhere => ?_, fun haway httl => ?_, fun haway httl => ?_⟩
    · rw [hhere, if_pos (beq_self_eq_true _)]
    · rw [if_neg (fun heq => haway (beq_iff_eq.mp heq)), if_neg (Nat.not_le.mpr httl)]
    · rw [if_neg (fun heq => haway (beq_iff_eq.mp heq)), if_pos httl]
  case broken => exact State.answers_atLink s p (fragmentReceive p bs) _ haclk hp (fragmentReceive_broken p bs s.work hp hlive hsome hf)
  case whole =>
    refine ⟨s.hw.onLink (fun k => { k with inbox := k.inbox ++ [{ cls := f.cls, src := f.src, data := f.data }] }),
      State.answers_atLink s p (fragmentReceive p bs) _ haclk hp ?_, rfl, rfl⟩
    rw [fragmentReceive_here p bs f s.work hp hlive hsome hf hcls hflags haddr hroute, reassemble_whole p f s.work hcls hflags hoff]
    rfl
  case late =>
    refine ⟨_, State.answers_clocked s (·.reassemblyTimeout) haclk, fun x => ?_, rfl⟩
    exact List.mem_filter.trans (and_congr_right fun _ => decide_eq_true_iff)
  case epoch =>
    refine ⟨s.hw.onLink (fun k => { k with inbox := k.inbox.erase x, epochConfirmed := some (s.hw.on F.TM_EPOCH_CTRL_ARM &&
      Img.epoch s.mem (s.hw.get F.TM_PRK_SHADOW_BASE * 4096) == leAt 0 8 x.data && Img.startBeat s.mem (s.hw.get F.TM_PRK_SHADOW_BASE * 4096) == leAt 8 8 x.data &&
      Img.master s.mem (s.hw.get F.TM_PRK_SHADOW_BASE * 4096) == leAt 16 2 x.data) }), _, ?_, rfl, rfl, ?_⟩
    · refine s.answers_of _ (fun w => w.onHwMem (fun m h => h.epochNotice m)) _ (byFirmware_of true _ s.work haclk hruns) ?_
      show { s.work with hw := s.hw.epochNotice s.mem } = _
      unfold Hw.epochNotice
      rw [show s.hw.link.inbox.find? (fun x => x.cls == clsEpoch) = some x from hx]
    · rw [Bool.and_eq_true, Bool.and_eq_true, Bool.and_eq_true, beq_iff_eq, beq_iff_eq, beq_iff_eq, and_assoc, and_assoc]
  case hello =>
    obtain ⟨hat', hports⟩ := s.hw.helloSend_facts hon hat
    exact ⟨_, State.answers_clocked s (·.helloSend) haclk, hat', hports⟩
  case silent =>
    obtain ⟨hnone, hneigh, haddr⟩ := s.hw.neighbourExpiry_facts p n hn hsilent
    exact ⟨_, State.answers_atLink s p (fun w => w.onHw (fun h => h.neighbourExpiry p)) _ haclk hp rfl, hnone, hneigh, haddr⟩
  case stable =>
    rw [← s.hw.electionStable_of hstood]
    exact State.answers_clocked s (·.electionStable) haclk
  case poll => exact State.answers_atLink s p (clientPoll p src q n i) _ haclk hp (clientPoll_bound p src q n i c s.work hc hon hport hqueue hn hmax)
  case badPoll => exact State.answers_atLink s p (clientPoll p src q n i) _ haclk hp (clientPoll_bad p src q n i s.work hn)

end Sys2Proof.Machine
end

section
/-! Frames, lanes, training and the spare lane (O50). -/

namespace Sys2Proof.Machine

namespace Hw

theorem aside_link : Aside (fun h => h.link) := ⟨fun _ _ _ _ => rfl, fun _ _ => rfl, fun _ _ => rfl, fun _ _ => rfl⟩

/-! A lane's lock, and the lanes of a port. -/

theorem get_lock_setLock (h : Hw) (p l : Nat) (v : Bool) :
    (h.setLock p l v).get F.LK_P_STATUS_LOCK p = putBits l 1 (flag v) (h.get F.LK_P_STATUS_LOCK p) % 2 ^ 5 := get_put_same h F.LK_P_STATUS_LOCK _ p (by decide)

theorem bit_setLock (h : Hw) (p l : Nat) (v : Bool) (hl : l < 5) : bit l ((h.setLock p l v).get F.LK_P_STATUS_LOCK p) = v := by
  rw [get_lock_setLock, bit_mod _ _ _ hl, bit_putBits]
  cases v <;> rfl

theorem lt_of_mem_physLanes {h : Hw} {p l : Nat} (hl : l ∈ h.physLanes p) : l < 5 := by
  have hlt := List.mem_range.mp hl
  split at hlt <;> omega

theorem lane_onLane_same (h : Hw) (p l : Nat) (f : LaneRx → LaneRx) (hlanes : (h.lp p).lanes.length = 5) (hl : l < 5) :
    (h.onLane p l f).lane p l = f (h.lane p l) := by
  have hin : l < (h.lp p).lanes.length := hlanes ▸ hl
  unfold onLane lane
  rw [lp_onLp_same]
  simp only [List.getD_eq_getElem?_getD, List.getElem?_modify_eq, List.getElem?_eq_getElem hin, Option.map_eq_map, Option.map_some,
    Option.getD_some]

/-! A valid header. -/

/-- A projection that the link's registers and its unit do not reach. -/
structure OffLink {α : Type} (g : Hw → α) : Prop where
  put : ∀ (h : Hw) (f : Fld) (v i : Nat), g (h.put f v i) = g h
  link : ∀ (h : Hw) (f : LinkUnit → LinkUnit), g (h.onLink f) = g h

theorem offLink_ab : OffLink (fun h => h.ab) := ⟨fun h f v i => put_ab h f v i, fun _ _ => rfl⟩
theorem offLink_ticks : OffLink (fun h => h.ticks) := ⟨fun h f v i => put_ticks h f v i, fun _ _ => rfl⟩

/-- The lane locked, and the port heard in this beat. -/
def heard (h : Hw) (p l : Nat) : Hw := (h.setLock p l true).onLp p (fun k => { k with lastHeard := h.time.beat })

/-- The occasion that ends TRAIN changes the port's state, its lanes and the beat of its measurement alone. -/
theorem trainDone_cases (h : Hw) (p : Nat) :
    h.trainDone p = h ∨ ∃ k : LinkPort → LinkPort, (∀ x, (k x).lastHeard = x.lastHeard) ∧ h.trainDone p = (h.setLpState p lpMeasure).onLp p k := by
  unfold trainDone
  split
  · refine .inr ⟨_, ?_, rfl⟩
    exact fun _ => rfl
  · exact .inl rfl

/-- A header's record in its lane. -/
def laneHeard (h : Hw) (p l tick : Nat) (hd : List Byte) (k : LaneRx) : LaneRx :=
  let beat := leAt 8 8 hd
  let own : Int := (tick : Int) - h.boundaryOf beat
  let now := h.time.beat
  let measuring := (h.heard p l).lpState p == lpMeasure
  { k with
    last := now, misses := 0, good := if k.last == now && 0 < k.good then k.good else if k.last + 1 == now then k.good + 1 else 1,
    echoBeat := beat % 2 ^ 32, echoQc := own,
    sum := if measuring then k.sum + signed 32 (leAt 20 4 hd) + own else k.sum, count := if measuring then k.count + 1 else k.count }

/-- A header asks the sender for a switch of lanes. -/
def asksSwitch (h : Hw) (p : Nat) (hd : List Byte) : Bool :=
  let fl := leAt 6 2 hd
  bit 1 fl && (h.lp p).txSwitch.isNone && !(h.ucie p) && bits 2 3 fl < 5 && bits 2 3 fl != (h.lp p).txSpare

/-- The switch that a header asks for. -/
def switchAsked (h : Hw) (hd : List Byte) (k : LinkPort) : LinkPort :=
  let now := h.time.beat
  let es := now + (leAt 24 2 hd + 65536 - now % 65536) % 65536
  { k with txSwitch := some (bits 2 3 (leAt 6 2 hd), if es < now + 32768 then es else now) }

/-- The lane's record of a header. -/
def recorded (h : Hw) (p l t : Nat) (hd : List Byte) : Hw := (h.heard p l).onLane p l (h.laneHeard p l t hd)

theorem takeHeader_eq (h : Hw) (p l t : Nat) (hd : List Byte) : h.takeHeader p l t hd =
    (if (h.recorded p l t hd).asksSwitch p hd then (h.recorded p l t hd).onLp p (h.switchAsked hd) else h.recorded p l t hd).trainDone p := by
  rfl

theorem OffLink.heard {α : Type} {g : Hw → α} (hg : OffLink g) (h : Hw) (p l : Nat) : g (h.heard p l) = g h := by
  unfold Hw.heard setLock onLp
  rw [hg.link, hg.put]

theorem OffLink.trainDone {α : Type} {g : Hw → α} (hg : OffLink g) (h : Hw) (p : Nat) : g (h.trainDone p) = g h := by
  rcases h.trainDone_cases p with heq | ⟨k, -, heq⟩
  · rw [heq]
  · rw [heq]
    exact (hg.link _ _).trans (hg.put _ _ _ _)

theorem OffLink.takeHeader {α : Type} {g : Hw → α} (hg : OffLink g) (h : Hw) (p l t : Nat) (hd : List Byte) : g (h.takeHeader p l t hd) = g h := by
  have hrecorded : g (h.recorded p l t hd) = g h := by
    unfold recorded onLane onLp
    rw [hg.link, hg.heard]
  rw [takeHeader_eq, hg.trainDone]
  split
  · exact (hg.link _ _).trans hrecorded
  · exact hrecorded

theorem lastHeard_trainDone (h : Hw) (p : Nat) : ((h.trainDone p).lp p).lastHeard = (h.lp p).lastHeard := by
  rcases h.trainDone_cases p with heq | ⟨k, hk, heq⟩
  · rw [heq]
  · rw [heq, lp_onLp_same, hk]
    exact congrArg LinkPort.lastHeard (lp_put h _ _ _ p)

theorem lock_trainDone (h : Hw) (p : Nat) : (h.trainDone p).get F.LK_P_STATUS_LOCK p = h.get F.LK_P_STATUS_LOCK p := by
  rcases h.trainDone_cases p with heq | ⟨k, -, heq⟩
  · rw [heq]
  · rw [heq, get_onLp]
    exact get_put_apart h F.LK_P_STATUS_STATE F.LK_P_STATUS_LOCK _ p rfl (by decide) (by decide)

theorem takeHeader_facts (h : Hw) (p l t : Nat) (hd : List Byte) (hl : l < 5) :
    ((h.takeHeader p l t hd).lp p).lastHeard = h.time.beat ∧ bit l ((h.takeHeader p l t hd).get F.LK_P_STATUS_LOCK p) = true := by
  have hheard : ((h.recorded p l t hd).lp p).lastHeard = h.time.beat := by
    unfold recorded onLane heard
    rw [lp_onLp_same, lp_onLp_same]
  have hlock : bit l ((h.recorded p l t hd).get F.LK_P_STATUS_LOCK p) = true := bit_setLock h p l true hl
  rw [takeHeader_eq, lastHeard_trainDone, lock_trainDone]
  split
  · refine ⟨?_, hlock⟩
    rw [lp_onLp_same]
    exact hheard
  · exact ⟨hheard, hlock⟩

end Hw

/-! Frames. -/

theorem Work.onHw_same (w : Work) : w.onHw (fun h => h) = w := rfl

theorem bit_zero (b : Nat) : bit b 0 = false := by
  unfold bit
  rw [Nat.zero_div]
  rfl

/-- The state in which a frame's header has been taken. -/
def headerTaken (p l t : Nat) (hd : List Byte) (w : Work) : Work := w.onHw (fun h => (h.elapse t).takeHeader p l t hd)

/-- The frame of a plan beat, its slots without faults. -/
def soundFrame (p k b : Nat) (hd : List Byte) (slots : List (List Byte)) : HeldFrame :=
  { port := p, lane := k, forBeat := b, epoch := leAt 1 1 hd, missed := false, slots := (List.range 19).map (fun i => rawSlot i (slots.getD i []) 0) }

section
variable {p l t : Nat} {hd : List Byte} {w : Work} (slots : List (List Byte)) (hp : p < w.hw.build.linkports) (hl : l ∈ w.hw.physLanes p)
  (hon : w.hw.lpState p ≠ 0) (hhd : hd ≠ []) (hkind : leAt 0 1 hd ≤ 1)
include hp hl hon

theorem frame_in_service : ¬ (decide (w.hw.build.linkports ≤ p) || !(w.hw.physLanes p).contains l || w.hw.lpState p == lpOff) = true := by
  rw [decide_eq_false (Nat.not_le.mpr hp), List.contains_iff_mem.mpr hl, beq_eq_false_iff_ne.mpr (show w.hw.lpState p ≠ lpOff from hon)]
  decide

include hhd hkind

/-- A frame in training, or on a port that is not SCHEDULED: its header alone is taken. -/
theorem frameReceive_unscheduled (hskip : w.hw.lpState p ≠ 4 ∨ leAt 0 1 hd ≠ 0) : frameReceive p l t hd slots [] w = headerTaken p l t hd w := by
  have hheader : ¬ (hd.isEmpty || decide (1 < leAt 0 1 hd)) = true := by
    rw [List.isEmpty_eq_false_iff.mpr hhd, decide_eq_false (Nat.not_lt.mpr hkind)]
    decide
  have hstop : (w.hw.lpState p != lpScheduled || leAt 0 1 hd != 0) = true := by
    rw [Bool.or_eq_true, bne_iff_ne, bne_iff_ne]
    exact hskip
  have hclean : ∀ i, ([] : List Nat).getD i 0 = 0 := fun _ => rfl
  unfold frameReceive headerTaken
  simp only [if_neg (frame_in_service hp hl hon), if_neg hheader, if_pos hstop, List.foldl_nil, hclean, bit_zero, Bool.and_false, Bool.false_eq_true,
    if_false, BEq.rfl, if_true, Work.onHw_same]

/-- A frame on a SCHEDULED port, without faults, in a receive window. -/
theorem frameReceive_scheduled (k b : Nat) (hstate : w.hw.lpState p = 4) (hplain : leAt 0 1 hd = 0)
    (hlane : (headerTaken p l t hd w).hw.logicalLane p ((headerTaken p l t hd w).hw.rxSpareAt p (leAt 8 8 hd)) l = some k)
    (hwindow : (headerTaken p l t hd w).hw.windowBeat (headerTaken p l t hd w).mem p t = some b)
    (hgood : ∀ r ∈ (soundFrame p k b hd slots).slots, r.bad = false) (hwhole : ((headerTaken p l t hd w).hw.lane p l).failed = false) :
    frameReceive p l t hd slots [] w = presentFrame (soundFrame p k b hd slots) (headerTaken p l t hd w) := by
  have hheader : ¬ (hd.isEmpty || decide (1 < leAt 0 1 hd)) = true := by
    rw [List.isEmpty_eq_false_iff.mpr hhd, decide_eq_false (Nat.not_lt.mpr hkind)]
    decide
  have hgo : ¬ (w.hw.lpState p != lpScheduled || leAt 0 1 hd != 0) = true := by
    rw [hstate, hplain]
    decide
  have hnone : ((List.range 19).map (fun i => rawSlot i (slots.getD i []) 0)).filter (·.bad) = [] :=
    List.filter_eq_nil_iff.mpr fun r hr => by rw [hgood r hr]; exact Bool.false_ne_true
  have hclean : ∀ i, ([] : List Nat).getD i 0 = 0 := fun _ => rfl
  unfold headerTaken at hlane hwindow hwhole ⊢
  unfold frameReceive
  simp only [if_neg (frame_in_service hp hl hon), if_neg hheader, if_neg hgo, List.foldl_nil, hclean, bit_zero, Bool.and_false, Bool.false_eq_true,
    if_false, BEq.rfl, if_true, Work.onHw_same, hlane, hnone, List.length_nil, hwindow, hwhole]
  rfl

end

theorem frameMiss_unscheduled (p l : Nat) (w : Work) (hp : p < w.hw.build.linkports) (hl : l ∈ w.hw.physLanes p) (hon : w.hw.lpState p ≠ 0)
    (hstate : w.hw.lpState p ≠ 4) :
    frameMiss p l w = w.onHw (fun h => (h.setLock p l false).onLane p l (fun k => { k with misses := k.misses + 1, good := 0 })) := by
  unfold frameMiss
  exact (if_neg (frame_in_service hp hl hon)).trans (if_pos (bne_iff_ne.mpr hstate))

/-- A command of a link port that lets the units move on, its effect on the hardware alone. -/
theorem State.moves_atLink (s : State) (p : Nat) (f : Work → Work) (h' : Hw) (haclk : s.hw.clocks.aclk = true) (hp : p < s.hw.build.linkports)
    (hf : f s.work = { s.work with hw := h' }) (hfresh : h'.ab.fresh = false) : s.moves (atLink p f) = movesTo s h' :=
  State.moves_of ((atLink_of p f s.work haclk hp).trans hf) hfresh

namespace Hw

/-! Measurement. -/

theorem laneDelays_pos (ls : List LaneRx) : 0 < (laneDelays ls).2 := by
  have hfold : ∀ (xs : List LaneRx) (a : Nat), 0 < a → (∀ x ∈ xs, 0 < x.count) → 0 < xs.foldl (fun a l => a * l.count) a := by
    intro xs
    induction xs with
    | nil => exact fun a ha _ => ha
    | cons x xs ih => exact fun a ha hx => ih _ (Nat.mul_pos ha (hx x List.mem_cons_self)) fun y hy => hx y (List.mem_cons_of_mem _ hy)
  exact hfold _ 1 Nat.one_pos fun x hx => of_decide_eq_true (List.mem_filter.mp hx).2

/-- The measurement of a port that keeps its lanes' delays. -/
def kept (d : List Int × Nat) : Option (List Int) :=
  (d.1 :: (List.range d.1.length).map (fun i => d.1.eraseIdx i)).find? (fun xs => 4 ≤ xs.length && within xs d.2)

section
variable {h : Hw} {p : Nat} (hstate : h.lpState p = 2) (hover : (h.lp p).measureStart + 256 ≤ h.time.beat)
include hstate hover

theorem measure_over : ¬ (h.lpState p != lpMeasure || decide (h.time.beat < (h.lp p).measureStart + 256)) = true := by
  rw [hstate, decide_eq_false (Nat.not_lt.mpr hover)]
  decide

theorem measureEnd_again (hnone : kept (laneDelays (h.lp p).lanes) = none) :
    h.measureEnd p = (h.setLpState p lpTrain).onLp p (fun k => { k with lanes := k.lanes.map (fun l => { l with good := 0 }) }) := by
  unfold kept at hnone
  unfold measureEnd
  refine (if_neg (measure_over hstate hover)).trans ?_
  dsimp only
  rw [hnone]

/-- A measurement without a remainder. -/
theorem measureEnd_exact (xs : List Int) (hsome : kept (laneDelays (h.lp p).lanes) = some xs)
    (hexact : (xs.foldl (· + ·) 0) % (2 * ((laneDelays (h.lp p).lanes).2 : Int) * xs.length) = 0) :
    h.measureEnd p = (h.wr .LK_P_DELAY p (encSigned 24 ((xs.foldl (· + ·) 0) / (2 * ((laneDelays (h.lp p).lanes).2 : Int) * xs.length)))).setLpState p lpStandby := by
  have hlen : 4 ≤ xs.length := by
    have hgood := List.find?_some hsome
    rw [Bool.and_eq_true, decide_eq_true_eq] at hgood
    exact hgood.1
  have hpos : (0 : Int) < 2 * ((laneDelays (h.lp p).lanes).2 : Int) * xs.length := by
    have hn := laneDelays_pos (h.lp p).lanes
    exact Int.mul_pos (Int.mul_pos (by decide) (Int.natCast_pos.mpr hn)) (Int.natCast_pos.mpr (Nat.lt_of_lt_of_le (by decide) hlen))
  unfold kept at hsome
  unfold measureEnd
  refine (if_neg (measure_over hstate hover)).trans ?_
  dsimp only
  rw [hsome]
  dsimp only
  rw [hexact, Int.mul_zero, if_neg (Int.not_lt.mpr (Int.le_of_lt hpos)), if_pos hpos, if_neg Bool.false_ne_true, if_neg (by rw [beq_iff_eq]; exact Int.ne_of_lt hpos)]

end

theorem lpState_setLpState (h : Hw) (p v : Nat) (hv : v < 8) : (h.setLpState p v).lpState p = v := by
  unfold setLpState lpState
  rw [get_put_same h F.LK_P_STATUS_STATE v p (by decide)]
  exact Nat.mod_eq_of_lt hv

theorem rd_delay_measured (h : Hw) (p : Nat) (q : Int) : ((h.wr .LK_P_DELAY p (encSigned 24 q)).setLpState p lpStandby).rd .LK_P_DELAY p = encSigned 24 q := by
  have hlt : encSigned 24 q < 2 ^ 24 := by
    unfold encSigned
    have h1 := Int.emod_nonneg q (show (Int.ofNat (2 ^ 24)) ≠ 0 by decide)
    have h2 := Int.emod_lt_of_pos q (show 0 < Int.ofNat (2 ^ 24) by decide)
    exact (Int.toNat_lt h1).mpr h2
  rw [setLpState, rd_put_reg _ _ _ _ _ _ (by decide), rd_wr_same]
  exact Nat.mod_eq_of_lt (Nat.lt_of_lt_of_le hlt (by decide))

/-! A port without headers. -/

/-- A port that goes back to TRAIN. -/
def retrained (h : Hw) (p : Nat) : Hw :=
  ((h.setLpState p lpTrain).put F.LK_P_STATUS_LOCK 0 p).onLp p (fun k => { k with lanes := k.lanes.map (fun l => { l with good := 0 }) })

/-- The neighbour of a port that went down. -/
def downNoted (h : Hw) (p : Nat) : Hw := h.onLp p (fun k => { k with downAddr := (h.lp p).neighbour.map (·.addr), suspectAt := none })

theorem linkDown_eq (h : Hw) (p : Nat) (hstate : 2 ≤ h.lpState p) (hsilent : (h.lp p).lastHeard + 4 ≤ h.time.beat) :
    h.linkDown p = if h.lpState p == lpScheduled then (((h.retrained p).downNoted p).setFlag F.LK_P_STATUS_DOWN p).raise Rc.FAB_LINK_DOWN (lpSrc p false)
      else h.retrained p := by
  unfold linkDown
  refine if_neg ?_
  rw [decide_eq_false (Nat.not_lt.mpr (show lpMeasure ≤ h.lpState p from hstate)), decide_eq_false (Nat.not_lt.mpr hsilent)]
  decide

theorem lpState_retrained (h : Hw) (p : Nat) : (h.retrained p).lpState p = 1 :=
  (get_put_apart (h.setLpState p lpTrain) F.LK_P_STATUS_LOCK F.LK_P_STATUS_STATE 0 p rfl (by decide) (by decide)).trans (lpState_setLpState h p 1 (by decide))

theorem lock_retrained (h : Hw) (p : Nat) : (h.retrained p).get F.LK_P_STATUS_LOCK p = 0 := get_put_same (h.setLpState p lpTrain) F.LK_P_STATUS_LOCK 0 p (by decide)

/-- A field of LK_P_STATUS beside REASON, once FAB_LINK_DOWN is raised. -/
theorem get_status_raised (h : Hw) (p code : Nat) (g : Fld) (hreg : g.reg = .LK_P_STATUS) (hlow : g.lo + g.w ≤ 16) :
    (h.raise code (lpSrc p false)).get g p = h.get g p := by
  rw [get_raise h code (lpSrc p false) F.LK_P_STATUS_REASON p rfl g p (by rw [hreg]; decide)]
  exact get_put_apart h F.LK_P_STATUS_REASON g code p hreg (Nat.le_trans hlow (by decide)) (.inl hlow)

theorem get_reason_raised (h : Hw) (p code : Nat) (hcode : code < 2 ^ 16) : (h.raise code (lpSrc p false)).get F.LK_P_STATUS_REASON p = code := by
  rw [get_raise h code (lpSrc p false) F.LK_P_STATUS_REASON p rfl F.LK_P_STATUS_REASON p (by decide), get_put_same h F.LK_P_STATUS_REASON code p (by decide)]
  exact Nat.mod_eq_of_lt hcode

theorem linkDown_facts (h : Hw) (p : Nat) (hstate : 2 ≤ h.lpState p) (hsilent : (h.lp p).lastHeard + 4 ≤ h.time.beat) :
    (h.linkDown p).lpState p = 1 ∧ (h.linkDown p).get F.LK_P_STATUS_LOCK p = 0 ∧
    (h.lpState p = 4 → (h.linkDown p).on F.LK_P_STATUS_DOWN p = true ∧ (h.linkDown p).get F.LK_P_STATUS_REASON p = Rc.FAB_LINK_DOWN) := by
  rw [linkDown_eq h p hstate hsilent]
  by_cases hsched : h.lpState p = lpScheduled
  · rw [if_pos (beq_iff_eq.mpr hsched)]
    refine ⟨?_, ?_, fun _ => ⟨?_, get_reason_raised _ p _ (by decide)⟩⟩
    · unfold lpState
      rw [get_status_raised _ p _ F.LK_P_STATUS_STATE rfl (by decide), setFlag,
        get_put_apart _ F.LK_P_STATUS_DOWN F.LK_P_STATUS_STATE 1 p rfl (by decide) (by decide)]
      exact lpState_retrained h p
    · rw [get_status_raised _ p _ F.LK_P_STATUS_LOCK rfl (by decide), setFlag,
        get_put_apart _ F.LK_P_STATUS_DOWN F.LK_P_STATUS_LOCK 1 p rfl (by decide) (by decide)]
      exact lock_retrained h p
    · rw [on_eq_get, get_status_raised _ p _ F.LK_P_STATUS_DOWN rfl (by decide), setFlag, get_put_same _ _ _ _ (by decide)]
      rfl
  · rw [if_neg (fun heq => hsched (beq_iff_eq.mp heq))]
    exact ⟨lpState_retrained h p, lock_retrained h p, fun heq => absurd heq hsched⟩

/-! A failed lane. -/

/-- The lane declared failed. -/
def laneFailed (h : Hw) (p l : Nat) : Hw :=
  ((h.onLane p l (fun k => { k with failed := true })).setFlag F.LK_P_STATUS_LANE_FAIL p).raise Rc.FAB_LANE_FAILED (lpSrc p false)

/-- The port's registers while the spare takes over. -/
def laneSwitching (h : Hw) (p whole : Nat) : Hw := ((h.put F.LK_P_LANEMAP_SPARE_OK 0 p).put F.LK_P_LANEMAP_PENDING 1 p).put F.LK_P_LANEMAP_WHOLE whole p

/-- A switch-over of the receive side to the spare. -/
def switchTo (h : Hw) (p l es whole : Nat) : Hw :=
  ((h.laneSwitching p whole).onLp p (fun k => { k with rxSwitch := some (l, es, whole) })).setSwitchWhole (Tab.insert (h.laneSwitching p whole).switchWhole p whole)

/-- The replay of an abort waits until the port is whole. -/
def replayWaits (h : Hw) (whole : Nat) : Hw :=
  if h.ab.on && !h.ab.abandoned && !h.ab.noReplay then h.put F.FT_REPLAY_BEAT (max (h.get F.FT_REPLAY_BEAT) whole) else h

theorem laneFailure_eq (h : Hw) (m : Mem) (p l : Nat) (hon : h.lpState p ≠ 0) (hucie : h.ucie p = false) (hl : l < 5) (hgood : (h.lane p l).failed = false)
    (hfails : h.laneFails p l = true) : h.laneFailure m p l =
      if !(h.laneFailed p l).on F.LK_P_LANEMAP_SPARE_OK p || (h.laneFailed p l).on F.LK_P_LANEMAP_PENDING p then
        ((h.laneFailed p l).put F.LK_P_STATUS_DEGRADED 1 p).raise Rc.FAB_PORT_DEGRADED (lpSrc p false)
      else if (h.laneFailed p l).rxSpareAt p (h.laneFailed p l).time.beat == l then (h.laneFailed p l).put F.LK_P_LANEMAP_SPARE_OK 0 p
      else ((h.laneFailed p l).switchTo p l ((h.laneFailed p l).time.beat + ((h.laneFailed p l).portDelay m p).1 + 4)
        ((h.laneFailed p l).time.beat + ((h.laneFailed p l).portDelay m p).1 + 4 + ((h.laneFailed p l).portDelay m p).1 + 1)).replayWaits
        ((h.laneFailed p l).time.beat + ((h.laneFailed p l).portDelay m p).1 + 4 + ((h.laneFailed p l).portDelay m p).1 + 1) := by
  unfold laneFailure
  refine if_neg ?_
  rw [hucie, hgood, hfails, beq_eq_false_iff_ne.mpr (show h.lpState p ≠ lpOff from hon), decide_eq_false (Nat.not_le.mpr hl)]
  decide

/-- What a failed lane's fault leaves: the switch-over's registers, the port beside the lane, and the beat. -/
theorem laneFailed_facts (h : Hw) (p l : Nat) :
    (h.laneFailed p l).lp p = { h.lp p with lanes := (h.lp p).lanes.modify l (fun k => { k with failed := true }) } ∧ (h.laneFailed p l).time = h.time ∧
    (∀ g : Fld, g.reg ≠ .LK_P_STATUS → g.reg ∉ settledRegs → ∀ i, (h.laneFailed p l).get g i = h.get g i) := by
  refine ⟨?_, ?_, fun g hne hkeep i => ?_⟩
  · have hlink : (h.laneFailed p l).link = (h.onLane p l (fun k => { k with failed := true })).link := by
      unfold laneFailed
      rw [aside_link.raise]
      rfl
    unfold lp
    rw [hlink]
    exact lp_onLp_same h p (fun k => { k with lanes := k.lanes.modify l (fun k => { k with failed := true }) })
  · unfold laneFailed
    rw [aside_time.raise]
    rfl
  · unfold laneFailed setFlag
    rw [get_raise _ _ (lpSrc p false) F.LK_P_STATUS_REASON p rfl g i hkeep, get_put_reg _ _ _ _ _ _ hne, get_put_reg _ _ _ _ _ _ hne]
    rfl

theorem portDelay_laneFailed (h : Hw) (m : Mem) (p l : Nat) : (h.laneFailed p l).portDelay m p = h.portDelay m p := by
  obtain ⟨-, -, hget⟩ := h.laneFailed_facts p l
  have hbase := hget F.TM_PRK_ACTIVE_BASE (by decide) (by decide) 0
  have hdelay := hget F.LK_P_DELAY_DELAY (by decide) (by decide) p
  unfold portDelay hasPlan imgBase
  rw [hbase, hdelay]

theorem rxSpareAt_laneFailed (h : Hw) (p l b : Nat) : (h.laneFailed p l).rxSpareAt p b = h.rxSpareAt p b := by
  obtain ⟨hlp, -, -⟩ := h.laneFailed_facts p l
  unfold rxSpareAt
  rw [hlp]

theorem lane_laneFailed (h : Hw) (p l : Nat) (hlanes : (h.lp p).lanes.length = 5) (hl : l < 5) : ((h.laneFailed p l).lane p l).failed = true := by
  obtain ⟨hlp, -, -⟩ := h.laneFailed_facts p l
  have hin : l < (h.lp p).lanes.length := hlanes ▸ hl
  unfold lane
  rw [hlp]
  simp only [List.getD_eq_getElem?_getD, List.getElem?_modify_eq, List.getElem?_eq_getElem hin, Option.map_eq_map, Option.map_some, Option.getD_some]

theorem status_laneFailed (h : Hw) (p l : Nat) :
    (h.laneFailed p l).on F.LK_P_STATUS_LANE_FAIL p = true ∧ (h.laneFailed p l).get F.LK_P_STATUS_REASON p = Rc.FAB_LANE_FAILED := by
  refine ⟨?_, get_reason_raised _ p _ (by decide)⟩
  unfold laneFailed setFlag
  rw [on_eq_get, get_status_raised _ p _ F.LK_P_STATUS_LANE_FAIL rfl (by decide), get_put_same _ F.LK_P_STATUS_LANE_FAIL 1 p (by decide)]
  rfl

/-! The switch-over to the spare. -/

theorem get_replayWaits (h : Hw) (n : Nat) (g : Fld) (i : Nat) (hg : g.reg ≠ .FT_REPLAY) : (h.replayWaits n).get g i = h.get g i := by
  unfold replayWaits
  split
  · exact get_put_reg h F.FT_REPLAY_BEAT g _ 0 i hg
  · rfl

theorem lp_replayWaits (h : Hw) (n p : Nat) : (h.replayWaits n).lp p = h.lp p := by
  unfold replayWaits
  split
  · exact lp_put h _ _ _ p
  · rfl

theorem lp_switchTo (h : Hw) (p l es whole : Nat) : (h.switchTo p l es whole).lp p = { h.lp p with rxSwitch := some (l, es, whole) } := by
  have hlp : (h.laneSwitching p whole).lp p = h.lp p := by
    unfold laneSwitching
    rw [lp_put, lp_put, lp_put]
  unfold switchTo
  rw [lp_setSwitchWhole, lp_onLp_same, hlp]

theorem get_switchTo (h : Hw) (p l es whole : Nat) (g : Fld) (i : Nat) : (h.switchTo p l es whole).get g i = (h.laneSwitching p whole).get g i := by
  unfold switchTo
  rw [get_setSwitchWhole, get_onLp]

theorem get_switchTo_status (h : Hw) (p l es whole : Nat) (g : Fld) (hg : g.reg ≠ .LK_P_LANEMAP) : (h.switchTo p l es whole).get g p = h.get g p := by
  rw [get_switchTo]
  unfold laneSwitching
  rw [get_put_reg _ _ _ _ _ _ hg, get_put_reg _ _ _ _ _ _ hg, get_put_reg _ _ _ _ _ _ hg]

theorem lanemap_switchTo (h : Hw) (p l es whole : Nat) :
    (h.switchTo p l es whole).on F.LK_P_LANEMAP_SPARE_OK p = false ∧ (h.switchTo p l es whole).on F.LK_P_LANEMAP_PENDING p = true := by
  rw [on_eq_get, on_eq_get, get_switchTo, get_switchTo]
  unfold laneSwitching
  refine ⟨?_, ?_⟩
  · rw [get_put_apart _ F.LK_P_LANEMAP_WHOLE F.LK_P_LANEMAP_SPARE_OK whole p rfl (by decide) (by decide),
      get_put_apart _ F.LK_P_LANEMAP_PENDING F.LK_P_LANEMAP_SPARE_OK 1 p rfl (by decide) (by decide), get_put_same _ F.LK_P_LANEMAP_SPARE_OK 0 p (by decide)]
    rfl
  · rw [get_put_apart _ F.LK_P_LANEMAP_WHOLE F.LK_P_LANEMAP_PENDING whole p rfl (by decide) (by decide),
      get_put_same _ F.LK_P_LANEMAP_PENDING 1 p (by decide)]
    rfl

section
variable {h : Hw} {m : Mem} {p l : Nat} (hon : h.lpState p ≠ 0) (hucie : h.ucie p = false) (hl : l < 5) (hgood : (h.lane p l).failed = false)
  (hfails : h.laneFails p l = true) (hspare : h.on F.LK_P_LANEMAP_SPARE_OK p = true) (hpending : h.on F.LK_P_LANEMAP_PENDING p = false)
include hon hucie hl hgood hfails hspare hpending

/-- A failed lane with the spare free: it is the spare itself, or the receive side switches over. -/
theorem laneFailure_spared : h.laneFailure m p l =
    if h.rxSpareAt p h.time.beat == l then (h.laneFailed p l).put F.LK_P_LANEMAP_SPARE_OK 0 p
    else ((h.laneFailed p l).switchTo p l (h.time.beat + (h.portDelay m p).1 + 4)
      (h.time.beat + (h.portDelay m p).1 + 4 + (h.portDelay m p).1 + 1)).replayWaits (h.time.beat + (h.portDelay m p).1 + 4 + (h.portDelay m p).1 + 1) := by
  obtain ⟨-, htime, hget⟩ := h.laneFailed_facts p l
  have hfree : ¬ (!(h.laneFailed p l).on F.LK_P_LANEMAP_SPARE_OK p || (h.laneFailed p l).on F.LK_P_LANEMAP_PENDING p) = true := by
    rw [on_eq_get, on_eq_get, hget _ (by decide) (by decide), hget _ (by decide) (by decide), ← on_eq_get, ← on_eq_get, hspare, hpending]
    decide
  rw [laneFailure_eq h m p l hon hucie hl hgood hfails, if_neg hfree, portDelay_laneFailed, rxSpareAt_laneFailed, htime]

theorem laneFailure_facts (hlanes : (h.lp p).lanes.length = 5) :
    ((h.laneFailure m p l).lane p l).failed = true ∧ (h.laneFailure m p l).on F.LK_P_STATUS_LANE_FAIL p = true ∧
    (h.laneFailure m p l).get F.LK_P_STATUS_REASON p = Rc.FAB_LANE_FAILED ∧ (h.laneFailure m p l).on F.LK_P_LANEMAP_SPARE_OK p = false ∧
    (h.rxSpareAt p h.time.beat ≠ l → (h.laneFailure m p l).on F.LK_P_LANEMAP_PENDING p = true ∧
      ((h.laneFailure m p l).lp p).rxSwitch = some (l, h.time.beat + (h.portDelay m p).1 + 4, h.time.beat + (h.portDelay m p).1 + 4 + (h.portDelay m p).1 + 1)) := by
  obtain ⟨hstatus, hreason⟩ := h.status_laneFailed p l
  have hlane := lane_laneFailed h p l hlanes hl
  rw [laneFailure_spared hon hucie hl hgood hfails hspare hpending]
  by_cases hself : h.rxSpareAt p h.time.beat = l
  · rw [if_pos (beq_iff_eq.mpr hself)]
    refine ⟨?_, ?_, ?_, ?_, fun hne => absurd hself hne⟩
    · unfold lane at hlane ⊢
      rw [lp_put]
      exact hlane
    · rw [on_put_reg _ _ _ _ _ _ (by decide)]
      exact hstatus
    · rw [get_put_reg _ _ _ _ _ _ (by decide)]
      exact hreason
    · rw [on_put_same _ F.LK_P_LANEMAP_SPARE_OK 0 p (by decide)]
      rfl
  · rw [if_neg (fun heq => hself (beq_iff_eq.mp heq))]
    obtain ⟨hok, hpend⟩ := (h.laneFailed p l).lanemap_switchTo p l (h.time.beat + (h.portDelay m p).1 + 4)
      (h.time.beat + (h.portDelay m p).1 + 4 + (h.portDelay m p).1 + 1)
    refine ⟨?_, ?_, ?_, ?_, fun _ => ⟨?_, ?_⟩⟩
    · unfold lane at hlane ⊢
      rw [lp_replayWaits, lp_switchTo]
      exact hlane
    · rw [on_eq_get, get_replayWaits _ _ _ _ (by decide), get_switchTo_status _ _ _ _ _ _ (by decide)]
      exact hstatus
    · rw [get_replayWaits _ _ _ _ (by decide), get_switchTo_status _ _ _ _ _ _ (by decide)]
      exact hreason
    · rw [on_eq_get, get_replayWaits _ _ _ _ (by decide)]
      exact hok
    · rw [on_eq_get, get_replayWaits _ _ _ _ (by decide)]
      exact hpend
    · rw [lp_replayWaits, lp_switchTo]

end

/-- The sender's lanes off the failed lane. -/
def switchedAway (h : Hw) (p l : Nat) : Hw :=
  ((h.onLp p (fun k => { k with txSpare := l, txSwitch := none })).put F.LK_P_LANEMAP_SPARE l p).put F.LK_P_LANEMAP_SPARE_OK 0 p

theorem lp_switchedAway (h : Hw) (p l : Nat) : (h.switchedAway p l).lp p = { h.lp p with txSpare := l, txSwitch := none } := by
  unfold switchedAway
  rw [lp_put, lp_put, lp_onLp_same]

theorem laneSwitch_eq (h : Hw) (p l es : Nat) (hsome : (h.lp p).txSwitch = some (l, es)) (hdue : es ≤ h.time.beat) (hnone : (h.lp p).rxSwitch = none) :
    h.laneSwitch p = h.switchedAway p l := by
  have hrx : ((h.switchedAway p l).lp p).rxSwitch = none := by
    rw [lp_switchedAway]
    exact hnone
  unfold switchedAway at hrx ⊢
  unfold laneSwitch
  simp only [hsome, if_pos hdue, hrx]

theorem switchedAway_facts (h : Hw) (p l : Nat) :
    (h.switchedAway p l).get F.LK_P_LANEMAP_SPARE p = l % 8 ∧ (h.switchedAway p l).on F.LK_P_LANEMAP_SPARE_OK p = false ∧
    h.Only { h.switchedAway p l with link := h.link } [(.LK_P_LANEMAP, p)] := by
  unfold switchedAway
  refine ⟨?_, ?_, ?_⟩
  · rw [get_put_apart _ F.LK_P_LANEMAP_SPARE_OK F.LK_P_LANEMAP_SPARE 0 p rfl (by decide) (by decide), get_put_same _ F.LK_P_LANEMAP_SPARE l p (by decide)]
    rfl
  · rw [on_put_same _ F.LK_P_LANEMAP_SPARE_OK 0 p (by decide)]
    rfl
  · exact only_onLp (((Only.refl h _).put F.LK_P_LANEMAP_SPARE l p List.mem_cons_self).put F.LK_P_LANEMAP_SPARE_OK 0 p List.mem_cons_self) p _

end Hw

/-- Settles O50: frames, missing frames, measurement, silent ports, failed lanes and the spare, each as its command's effect. -/
theorem framesAndLanesTakeEffect : Obligations.FramesAndLanesTakeEffect := by
  unfold Obligations.FramesAndLanesTakeEffect
  refine ⟨fun s p l t hd slots haclk hp hl hfresh hon hhd => ⟨fun hskip => ?header, fun k b w1 rs hstate hplain hw1 hlane hwindow hrs hgood hwhole => ?frame⟩,
    fun s p l haclk hp hl hfresh hon hstate hlanes => ?miss, fun s p haclk hp hstate hover => ?measure, fun s p haclk hp hstate hsilent => ?down,
    fun s p l haclk hp hon hucie hl hlanes hgood hfails hspare hpending => ?failure, fun s p l es haclk hp hsome hdue hnone => ?switch⟩
  case header =>
    have hkind : leAt 0 1 hd ≤ 1 := by omega
    have hskip' : s.hw.lpState p ≠ 4 ∨ leAt 0 1 hd ≠ 0 := by omega
    obtain ⟨hheard, hlock⟩ := (s.hw.elapse t).takeHeader_facts p l t hd (Hw.lt_of_mem_physLanes hl)
    refine ⟨(s.hw.elapse t).takeHeader p l t hd, ?_, Hw.offLink_ticks.takeHeader _ _ _ _ _, hheard, hlock⟩
    exact State.moves_atLink s p (frameReceive p l t hd slots []) _ haclk hp (frameReceive_unscheduled slots (w := s.work) hp hl hon hhd hkind hskip')
      ((congrArg AbortState.fresh (Hw.offLink_ab.takeHeader _ _ _ _ _)).trans hfresh)
  case frame =>
    subst hw1 hrs
    show s.moves (atLink p (frameReceive p l t hd slots [])) = _
    unfold State.moves
    rw [atLink_of p _ s.work haclk hp,
      frameReceive_scheduled slots (w := s.work) hp hl hon hhd (Nat.le_trans (Nat.le_of_eq hplain) (Nat.zero_le 1)) k b hstate hplain hlane hwindow hgood hwhole]
    rfl
  case miss =>
    have hl5 := Hw.lt_of_mem_physLanes hl
    have hsame : ((s.hw.setLock p l false).lp p).lanes.length = 5 := by
      unfold Hw.setLock
      rw [Hw.lp_put]
      exact hlanes
    have hrecord := (s.hw.setLock p l false).lane_onLane_same p l (fun k => { k with misses := k.misses + 1, good := 0 }) hsame hl5
    have hold : (s.hw.setLock p l false).lane p l = s.hw.lane p l := by
      unfold Hw.setLock Hw.lane
      rw [Hw.lp_put]
    refine ⟨(s.hw.setLock p l false).onLane p l (fun k => { k with misses := k.misses + 1, good := 0 }), State.moves_atLink s p (frameMiss p l) _ haclk hp (frameMiss_unscheduled p l s.work hp hl hon hstate) hfresh,
      s.hw.bit_setLock p l false hl5, ?_, ?_, ?_⟩
    · rw [hrecord, hold]
    · rw [hrecord]
    · exact Hw.only_onLp ((Hw.Only.refl s.hw _).put F.LK_P_STATUS_LOCK _ p List.mem_cons_self) p _
  case measure =>
    intro d found
    refine ⟨fun hnone => ?_, fun xs hsome hexact => ?_⟩
    · refine ⟨s.hw.measureEnd p, State.answers_atLink s p (fun w => w.onHw (fun h => h.measureEnd p)) _ haclk hp rfl, ?_, ?_⟩ <;>
        rw [Hw.measureEnd_again hstate hover hnone]
      · exact s.hw.lpState_setLpState p 1 (by decide)
      · intro k hk
        rw [Hw.lp_onLp_same] at hk
        obtain ⟨x, -, rfl⟩ := List.mem_map.mp hk
        rfl
    · refine ⟨s.hw.measureEnd p, State.answers_atLink s p (fun w => w.onHw (fun h => h.measureEnd p)) _ haclk hp rfl, ?_, ?_, ?_⟩ <;>
        rw [Hw.measureEnd_exact hstate hover xs hsome hexact]
      · exact Hw.lpState_setLpState _ p 3 (by decide)
      · exact Hw.rd_delay_measured _ p _
      · exact ((Hw.Only.refl s.hw _).wr .LK_P_DELAY p _ List.mem_cons_self).put F.LK_P_STATUS_STATE _ p (List.mem_cons_of_mem _ List.mem_cons_self)
  case down =>
    obtain ⟨hst, hlock, hsched⟩ := s.hw.linkDown_facts p hstate hsilent
    exact ⟨_, State.answers_atLink s p (fun w => w.onHw (fun h => h.linkDown p)) _ haclk hp rfl, hst, hlock, hsched⟩
  case failure =>
    obtain ⟨hfailed, hflag, hreason, hok, hswitch⟩ := Hw.laneFailure_facts (m := s.mem) hon hucie hl hgood hfails hspare hpending hlanes
    exact ⟨_, State.answers_atLink s p (fun w => w.onHwMem (fun m h => h.laneFailure m p l)) _ haclk hp rfl, hfailed, hflag, hreason, hok, hswitch⟩
  case switch =>
    obtain ⟨hspare, hok, honly⟩ := s.hw.switchedAway_facts p l
    have hexec : exec (.laneSwitchEffective p) s = s.leads (s.hw.switchedAway p l) := by
      rw [← s.hw.laneSwitch_eq p l es hsome hdue hnone]
      exact State.answers_atLink s p (fun w => w.onHw (fun h => h.laneSwitch p)) _ haclk hp rfl
    refine ⟨_, hexec, ?_, ?_, hspare, hok, honly⟩ <;> rw [Hw.lp_switchedAway]

end Sys2Proof.Machine
end

section
/-! The array's work: loads, passes that feed, commits and failed checks (O23). -/

namespace Sys2Proof.Machine

namespace Hw

/-! What energy accounts do not reach. -/

theorem Unweighed.weighLoad {α : Type} {g : Hw → α} (hg : Unweighed g) (h : Hw) (l : ArrLoad) : g (h.weighLoad l) = g h := by
  unfold Hw.weighLoad
  dsimp only
  split
  · split
    · exact (hg.weighIn _ _ _ _).trans (hg.weighIn _ _ _ _)
    · exact hg.weighIn _ _ _ _
  · exact (hg.weighIn _ _ _ _).trans (hg.weighIn _ _ _ _)

theorem Unweighed.weighPass {α : Type} {g : Hw → α} (hg : Unweighed g) (h : Hw) (p : ArrPass) : g (h.weighPass p) = g h :=
  (hg.weighIn _ _ _ _).trans (hg.weighIn _ _ _ _)

theorem Unweighed.weighCommit {α : Type} {g : Hw → α} (hg : Unweighed g) (h : Hw) (p : ArrPass) : g (h.weighCommit p) = g h := hg.weighIn _ _ _ _

theorem unweighed_cores : Unweighed (fun h => h.cores) := ⟨fun _ _ => rfl⟩
theorem unweighed_ticks : Unweighed (fun h => h.ticks) := ⟨fun _ _ => rfl⟩
theorem unweighed_ab : Unweighed (fun h => h.ab) := ⟨fun _ _ => rfl⟩
theorem unweighed_ctl : Unweighed (fun h => h.ctl) := ⟨fun _ _ => rfl⟩
theorem unweighed_arr (c : Nat) : Unweighed (fun h => h.arr c) := ⟨fun _ _ => rfl⟩

/-! Changes of an array. -/

theorem ticks_onArr (h : Hw) (c : Nat) (f : ArrayUnit → ArrayUnit) : (h.onArr c f).ticks = h.ticks := rfl
theorem ab_onArr (h : Hw) (c : Nat) (f : ArrayUnit → ArrayUnit) : (h.onArr c f).ab = h.ab := rfl

/-! A load starts. -/

theorem loadStart_eq (h : Hw) (m : Mem) (c : Nat) (l : ArrLoad) (rest : List ArrLoad) (hnext : (h.arr c).loads.filter (·.started.isNone) = l :: rest)
    (hheld : h.arrHeld c = false) (hready : (h.arr c).standbyReady = false) (hmode : l.mode = 2 → l.accumulate = false)
    (hbeat : max h.ticks (h.loadFree c) < h.time.beatStart + h.beatTicks) : h.loadStart m c = (h.elapse (h.loadFree c)).beginLoad m c l rest := by
  have hchain : (l.mode == 2 && l.accumulate) = false := by
    by_cases h2 : l.mode = 2
    · rw [hmode h2, Bool.and_false]
    · rw [beq_eq_false_iff_ne.mpr h2, Bool.false_and]
  have hbefore : ¬ (h.elapse (h.loadFree c)).beatOver = true := by
    unfold beatOver
    rw [decide_eq_true_eq]
    exact Nat.not_le.mpr hbeat
  unfold loadStart
  simp only [hnext, hheld, hready, hchain, Bool.or_self, Bool.false_eq_true, if_false]
  cases (h.arr c).lastFeed <;> simp only [Nat.zero_max, if_neg hbefore]

theorem beginLoad_facts (h : Hw) (m : Mem) (c : Nat) (l : ArrLoad) (rest : List ArrLoad) :
    (h.beginLoad m c l rest).ticks = h.ticks ∧ (h.beginLoad m c l rest).ab = h.ab ∧ (h.Still → (h.beginLoad m c l rest).Still) ∧
    (h.beginLoad m c l rest).ctl = h.ctl ∧
    (h.beginLoad m c l rest).arr c = { h.arr c with
      badReads := (h.arr c).badReads ++ h.loadBadReads c l,
      loads := (h.arr c).loads.filter (·.started.isSome) ++ { l with started := some h.ticks } :: rest,
      standby := loadedBank m h.build c (h.arr c) l, standbyReady := true, loadEnd := h.ticks + 4 * h.build.arrayRows } := by
  unfold beginLoad
  refine ⟨unweighed_ticks.weighLoad h l, unweighed_ab.weighLoad h l, fun hs => ?_, unweighed_ctl.weighLoad h l, ?_⟩
  · exact still_onArr _ c _ (still_of h _ hs (unweighed_cores.weighLoad h l) (unweighed_ab.weighLoad h l))
  · rw [arr_onArr_same, (unweighed_arr c).weighLoad h l]

/-! A pass begins to feed. -/

theorem feedStart_eq (h : Hw) (m : Mem) (c : Nat) (p : ArrPass) (rest : List ArrPass) (hnext : (h.arr c).passes.filter (·.started.isNone) = p :: rest)
    (hfree : h.passFree m c p = true) (hswap : p.swap = true → (h.arr c).standbyReady = true)
    (hbeat : max h.ticks (h.feedFree c) < h.time.beatStart + h.beatTicks) : h.feedStart m c = (h.elapse (h.feedFree c)).beginPass m c p rest := by
  have hloaded : (p.swap && !(h.arr c).standbyReady) = false := by
    cases hs : p.swap with
    | false => rfl
    | true => rw [hswap hs]; rfl
  have hbefore : (h.elapse (h.feedFree c)).beatOver = false := by
    unfold beatOver
    exact decide_eq_false (Nat.not_le.mpr hbeat)
  unfold feedStart
  simp only [hnext, hfree, hloaded, hbefore, Bool.not_true, Bool.or_self, Bool.false_eq_true, if_false]

/-- The bank that a pass reads, and the pass once it feeds. -/
def fedBank (h : Hw) (c : Nat) (p : ArrPass) : StatBank := if p.swap then (h.arr c).standby else (h.arr c).active

def fedPass (h : Hw) (m : Mem) (c : Nat) (p : ArrPass) : ArrPass :=
  { p with started := some h.ticks, out := passOut m h.build c (h.fedBank c p) p, colSum := (h.fedBank c p).colSum }

theorem beginPass_facts (h : Hw) (m : Mem) (c : Nat) (p : ArrPass) (rest : List ArrPass) :
    (h.beginPass m c p rest).ticks = h.ticks ∧ (h.beginPass m c p rest).ab = h.ab ∧ (h.Still → (h.beginPass m c p rest).Still) ∧
    (h.beginPass m c p rest).ctl = h.ctl ∧ ((h.beginPass m c p rest).arr c).active = h.fedBank c p ∧
    ((h.beginPass m c p rest).arr c).lastFeed = some (h.ticks, p.len) ∧
    ((h.beginPass m c p rest).arr c).passes = (h.arr c).passes.filter (·.started.isSome) ++ h.fedPass m c p :: rest ∧
    ((h.beginPass m c p rest).arr c).lines = (h.arr c).lines := by
  unfold beginPass pruneLoads
  refine ⟨unweighed_ticks.weighPass h p, unweighed_ab.weighPass h p, fun hs => ?_, unweighed_ctl.weighPass h p, ?_⟩
  · exact still_onArr _ c _ (still_onArr _ c _ (still_of h _ hs (unweighed_cores.weighPass h p) (unweighed_ab.weighPass h p)))
  · rw [arr_onArr_same, arr_onArr_same, (unweighed_arr c).weighPass h p]
    exact ⟨rfl, rfl, rfl, rfl⟩

/-! The oldest pass commits. -/

theorem arrStopped_none (h : Hw) (c : Nat) (hstop : (h.arr c).stopTick = none) : h.arrStopped c = h := by
  unfold arrStopped
  simp only [hstop, ite_self]

theorem settleReads_none (h : Hw) (c : Nat) (hbad : (h.arr c).badReads = []) : h.settleReads c = h := by
  unfold settleReads
  simp only [hbad, List.isEmpty_nil, if_true]

/-- The feeder banks of a pass that commits. -/
def banksKept (h : Hw) (c stop : Nat) (p : ArrPass) : Hw :=
  h.onArr c (fun a => { a with fedBanks := a.fedBanks.filter (fun x => h.ticks < x.2.2) ++ (passBanks h.build p).map (fun x => (x.1, x.2, stop)) })

/-- A commit is counted. -/
def commitCounted (h : Hw) (c : Nat) : Hw := (h.inc F.CR_ARR_PASSES_COUNT 1 c).event c 0x02 1

theorem commitCounted_facts (h : Hw) (c : Nat) : (h.commitCounted c).arr c = h.arr c ∧ (h.commitCounted c).ticks = h.ticks ∧ (h.commitCounted c).ab = h.ab ∧
    (h.Still → (h.commitCounted c).Still) ∧
    (h.commitCounted c).get F.CR_ARR_PASSES_COUNT c = (h.get F.CR_ARR_PASSES_COUNT c + 1) % 2 ^ F.CR_ARR_PASSES_COUNT.w := by
  have hm := moves_event (P := fun r _ => r = .CR_SEQ_CT) (h.inc F.CR_ARR_PASSES_COUNT 1 c) c 0x02 1 fun _ _ _ => rfl
  obtain ⟨q, hq, -⟩ := hm.core
  unfold commitCounted
  refine ⟨(congrArg Core.arr hq).trans ?_, ?_, ?_, fun hs => hm.still ?_, ?_⟩
  · unfold inc
    rw [core_put]
    rfl
  · rw [hm.ticks, inc, put_ticks]
  · rw [hm.ab, inc, put_ab]
  · unfold inc
    exact still_of h _ hs (put_cores _ _ _ _) (put_ab _ _ _ _)
  · rw [hm.get F.CR_ARR_PASSES_COUNT c (by decide), inc, get_put_same _ F.CR_ARR_PASSES_COUNT _ c (by decide)]

/-- The pass's lines replace the tile's. -/
def linesApplied (h : Hw) (c : Nat) (p : ArrPass) (rest : List ArrPass) : Hw :=
  (h.onArr c (fun a => { a.applyPass h.build p with passes := rest })).weighCommit p

theorem linesApplied_facts (h : Hw) (c : Nat) (p : ArrPass) (rest : List ArrPass) :
    (h.linesApplied c p rest).arr c = { (h.arr c).applyPass h.build p with passes := rest } ∧ (h.linesApplied c p rest).ticks = h.ticks ∧
    (h.linesApplied c p rest).ab = h.ab ∧ (h.Still → (h.linesApplied c p rest).Still) ∧ (∀ f i, (h.linesApplied c p rest).get f i = h.get f i) := by
  have hget : ∀ f i, Unweighed (fun h => h.get f i) := fun f i => ⟨fun _ _ => rfl⟩
  unfold linesApplied
  refine ⟨?_, ?_, ?_, fun hs => still_of _ _ (still_onArr h c _ hs) (unweighed_cores.weighCommit _ p) (unweighed_ab.weighCommit _ p), fun f i => ?_⟩
  · rw [(unweighed_arr c).weighCommit, arr_onArr_same]
  · rw [unweighed_ticks.weighCommit, ticks_onArr]
  · rw [unweighed_ab.weighCommit, ab_onArr]
  · rw [(hget f i).weighCommit, get_onArr]

/-- The pass's lines replace the tile's, and the commit is counted. -/
def linesKept (h : Hw) (c : Nat) (p : ArrPass) (rest : List ArrPass) : Hw := (h.linesApplied c p rest).commitCounted c

/-- The tick at whose end a pass commits. -/
def commitTick (h : Hw) (t : Nat) (p : ArrPass) : Nat := t + 4 * (h.build.arrayRows + 71 + p.len)

/-- The state in which the oldest pass commits. -/
def committing (h : Hw) (c t : Nat) (p : ArrPass) : Hw := (h.elapse (h.commitTick t p - 1)).banksKept c (h.commitTick t p) p

theorem arr_committing (h : Hw) (c t : Nat) (p : ArrPass) : ∃ xs, (h.committing c t p).arr c = { h.arr c with fedBanks := xs } := by
  unfold committing banksKept
  rw [arr_onArr_same]
  exact ⟨_, rfl⟩

theorem linesKept_facts (h : Hw) (c : Nat) (p : ArrPass) (rest : List ArrPass) :
    (h.linesKept c p rest).arr c = { (h.arr c).applyPass h.build p with passes := rest } ∧ (h.linesKept c p rest).ticks = h.ticks ∧
    (h.linesKept c p rest).ab = h.ab ∧ (h.Still → (h.linesKept c p rest).Still) ∧
    (h.linesKept c p rest).get F.CR_ARR_PASSES_COUNT c = (h.get F.CR_ARR_PASSES_COUNT c + 1) % 2 ^ F.CR_ARR_PASSES_COUNT.w := by
  obtain ⟨harr, hticks, hab, hstill, hget⟩ := h.linesApplied_facts c p rest
  obtain ⟨harr', hticks', hab', hstill', hcount⟩ := (h.linesApplied c p rest).commitCounted_facts c
  unfold linesKept
  rw [harr', hticks', hab', hcount, hget]
  exact ⟨harr, hticks, hab, fun hs => hstill' (hstill hs), rfl⟩

section
variable {h : Hw} {c t : Nat} {p : ArrPass} {rest : List ArrPass} (hab : h.ab.on = false) (hpasses : (h.arr c).passes = p :: rest) (hstart : p.started = some t)
  (hbad : (h.arr c).badReads = []) (hstop : (h.arr c).stopTick = none)
include hab hpasses hstart hbad hstop

theorem passCommit_eq : h.passCommit c =
    if (h.arr c).discard then (h.committing c t p).onArr c (fun a => { a with passes := rest }) else (h.committing c t p).linesKept c p rest := by
  have hreads : (h.elapse (h.commitTick t p - 1)).settleReads c = h.elapse (h.commitTick t p - 1) := settleReads_none _ c hbad
  obtain ⟨xs, harr⟩ := h.arr_committing c t p
  have heq : h.passCommit c = (if (h.arr c).discard || h.ab.on then (h.committing c t p).onArr c (fun a => { a with passes := rest })
      else (h.committing c t p).linesKept c p rest).arrStopped c := by
    unfold commitTick at hreads
    unfold passCommit
    simp only [hpasses, hstart, hreads]
    rfl
  rw [heq, hab, Bool.or_false]
  split
  · refine arrStopped_none _ c ?_
    rw [arr_onArr_same, harr]
    exact hstop
  · refine arrStopped_none _ c ?_
    rw [((h.committing c t p).linesKept_facts c p rest).1, harr]
    exact hstop

theorem passCommit_facts : (h.passCommit c).ticks = max h.ticks (h.commitTick t p - 1) ∧ (h.passCommit c).ab = h.ab ∧ (h.Still → (h.passCommit c).Still) ∧
    ((h.passCommit c).arr c).passes = rest ∧
    ((h.arr c).discard = true → ((h.passCommit c).arr c).lines = (h.arr c).lines ∧ (h.passCommit c).ctl = h.ctl) ∧
    ((h.arr c).discard = false → ((h.passCommit c).arr c).lines = ((h.arr c).applyPass h.build p).lines ∧
      (h.passCommit c).get F.CR_ARR_PASSES_COUNT c = (h.get F.CR_ARR_PASSES_COUNT c + 1) % 2 ^ F.CR_ARR_PASSES_COUNT.w) := by
  obtain ⟨xs, harr⟩ := h.arr_committing c t p
  have hstill : h.Still → (h.committing c t p).Still := fun hs => still_onArr _ c _ (still_elapse h _ hs)
  rw [passCommit_eq hab hpasses hstart hbad hstop]
  cases hd : (h.arr c).discard with
  | true =>
    rw [if_pos rfl, arr_onArr_same, harr]
    exact ⟨rfl, rfl, fun hs => still_onArr _ c _ (hstill hs), rfl, fun _ => ⟨rfl, rfl⟩, fun hne => absurd hne.symm Bool.false_ne_true⟩
  | false =>
    obtain ⟨hlines, hticks, hab', hstill', hcount⟩ := (h.committing c t p).linesKept_facts c p rest
    rw [if_neg Bool.false_ne_true, hlines, hticks, hab', hcount, harr]
    exact ⟨rfl, rfl, fun hs => hstill' (hstill hs), rfl, fun hne => absurd hne Bool.false_ne_true, fun _ => ⟨rfl, rfl⟩⟩

end

/-! A check that fails. -/

/-- The registers of a failed check before its code is placed. -/
def faultMarked (h : Hw) (c kind row col : Nat) : Hw :=
  (if h.on F.CR_ARR_STATUS_FAULT c then h else h.wr .CR_ARR_FAULT c (row % 1024 + col % 64 * 2 ^ 10 + kind % 8 * 2 ^ 16)).setFlag F.CR_ARR_STATUS_FAULT c

/-- The code of a check's kind. -/
def checkCode (kind : Nat) : Nat := if kind ≤ 3 then Rc.DIN_PE_CHECK else Rc.DIN_UNCORRECTABLE

theorem arrayFault_eq (h : Hw) (c kind row col : Nat) : ∃ owner, h.arrayFault c kind row col = (h.faultMarked c kind row col).raise (checkCode kind)
    { (h.faultMarked c kind row col).arrSrc c with core := (h.faultMarked c kind row col).logicalOf c, context := owner } := ⟨_, rfl⟩

theorem faultMarked_keeps {α : Type} (g : Hw → α) (hput : ∀ (h : Hw) (f : Fld) (v i : Nat), g (h.put f v i) = g h)
    (hwr : ∀ (h : Hw) (r : Reg) (i v : Nat), g (h.wr r i v) = g h) (h : Hw) (c kind row col : Nat) : g (h.faultMarked c kind row col) = g h := by
  unfold faultMarked setFlag
  rw [hput]
  split
  · rfl
  · exact hwr _ _ _ _

theorem only_faultMarked (h : Hw) (c kind row col : Nat) : h.Only (h.faultMarked c kind row col) [(.CR_ARR_STATUS, c), (.CR_ARR_FAULT, c)] := by
  unfold faultMarked setFlag
  refine Only.put ?_ F.CR_ARR_STATUS_FAULT 1 c List.mem_cons_self
  split
  · exact Only.refl h _
  · exact (Only.refl h _).wr .CR_ARR_FAULT c _ (List.mem_cons_of_mem _ List.mem_cons_self)

theorem rd_faultMarked (h : Hw) (c kind row col : Nat) (hkind : kind < 8) (hrow : row < 1024) (hcol : col < 64) :
    (h.faultMarked c kind row col).rd .CR_ARR_FAULT c =
      if h.on F.CR_ARR_STATUS_FAULT c then h.rd .CR_ARR_FAULT c else row + col * 2 ^ 10 + kind * 2 ^ 16 := by
  unfold faultMarked setFlag
  rw [rd_put_reg _ _ _ _ _ _ (by decide)]
  split
  · rfl
  · rw [rd_wr_same, Nat.mod_eq_of_lt hkind, Nat.mod_eq_of_lt hrow, Nat.mod_eq_of_lt hcol]
    exact Nat.mod_eq_of_lt (show row + col * 2 ^ 10 + kind * 2 ^ 16 < 2 ^ 32 by omega)

/-- The block with a failed check's code placed. -/
def checkPlaced (h : Hw) (c kind row col : Nat) : Hw := (h.faultMarked c kind row col).put F.CR_ARR_STATUS_REASON (checkCode kind) c

theorem arrayFault_logged (h : Hw) (c kind row col : Nat) (hrun : h.run.on = false) (hroom : h.faultLog.length < 1024) :
    ∃ e : FaultEntry, e.code = checkCode kind ∧ e.detail = (h.checkPlaced c kind row col).rd .CR_ARR_FAULT c ∧ e.response = 4 ∧
      h.arrayFault c kind row col = (h.checkPlaced c kind row col).setFaultLog (h.faultLog ++ [e]) := by
  obtain ⟨owner, heq⟩ := h.arrayFault_eq c kind row col
  have hrun' : (h.faultMarked c kind row col).run.on = false :=
    (congrArg Run.on (faultMarked_keeps (fun h => h.run) put_run wr_run h c kind row col)).trans hrun
  have hlog : (h.checkPlaced c kind row col).faultLog = h.faultLog :=
    (put_faultLog _ _ _ _).trans (faultMarked_keeps (fun h => h.faultLog) put_faultLog wr_faultLog h c kind row col)
  rw [raise_outsideRun _ _ _ F.CR_ARR_STATUS_REASON c rfl hrun'] at heq
  have hroom' : (h.checkPlaced c kind row col).faultLog.length < 1024 := by
    rw [hlog]
    exact hroom
  have happend : ∀ e, (h.checkPlaced c kind row col).logFault e = (h.checkPlaced c kind row col).setFaultLog (h.faultLog ++ [e]) := fun e => by
    unfold logFault
    rw [if_pos hroom', hlog]
  refine ⟨_, ?_, ?_, ?_, heq.trans (happend _)⟩
  · rfl
  · show (h.faultMarked c kind row col).rd .CR_ARR_FAULT c = _
    unfold checkPlaced
    rw [rd_put_reg _ _ _ _ _ _ (by decide)]
  · show responseOf (checkCode kind) false false false = 4
    unfold checkCode
    split <;> decide

theorem checkFaulted_still (h : Hw) (c kind row col : Nat) (x : List FaultEntry) (hs : h.Still) : ((h.checkPlaced c kind row col).setFaultLog x).Still := by
  refine still_of h _ hs ?_ ?_
  · rw [setFaultLog_cores, checkPlaced, put_cores]
    exact faultMarked_keeps (fun h => h.cores) put_cores wr_cores h c kind row col
  · rw [setFaultLog_ab, checkPlaced, put_ab]
    exact faultMarked_keeps (fun h => h.ab) put_ab wr_ab h c kind row col

theorem ab_checkFaulted (h : Hw) (c kind row col : Nat) (x : List FaultEntry) : ((h.checkPlaced c kind row col).setFaultLog x).ab = h.ab := by
  rw [setFaultLog_ab, checkPlaced, put_ab]
  exact faultMarked_keeps (fun h => h.ab) put_ab wr_ab h c kind row col

/-- The registers that a failed check leaves. -/
theorem checkPlaced_facts (h : Hw) (c kind row col : Nat) (hkind : kind < 8) (hrow : row < 1024) (hcol : col < 64) :
    (h.checkPlaced c kind row col).on F.CR_ARR_STATUS_FAULT c = true ∧ (h.checkPlaced c kind row col).get F.CR_ARR_STATUS_REASON c = checkCode kind ∧
    (h.checkPlaced c kind row col).rd .CR_ARR_FAULT c = (if h.on F.CR_ARR_STATUS_FAULT c then h.rd .CR_ARR_FAULT c else row + col * 2 ^ 10 + kind * 2 ^ 16) ∧
    h.Only (h.checkPlaced c kind row col) [(.CR_ARR_STATUS, c), (.CR_ARR_FAULT, c)] := by
  refine ⟨?_, ?_, ?_, (h.only_faultMarked c kind row col).put F.CR_ARR_STATUS_REASON (checkCode kind) c List.mem_cons_self⟩
  · rw [checkPlaced, on_put_apart _ F.CR_ARR_STATUS_REASON F.CR_ARR_STATUS_FAULT _ c rfl (by decide) (by decide), faultMarked, setFlag,
      on_put_same _ F.CR_ARR_STATUS_FAULT 1 c (by decide)]
    rfl
  · rw [checkPlaced, get_put_same _ F.CR_ARR_STATUS_REASON _ c (by decide)]
    unfold checkCode
    split <;> rfl
  · rw [checkPlaced, rd_put_reg _ _ _ _ _ _ (by decide), rd_faultMarked h c kind row col hkind hrow hcol]

end Hw

/-- A command of a core after which the units are still. -/
theorem State.moves_atCore_still (s : State) (c : Nat) (f : Work → Work) (h' : Hw) (haclk : s.hw.clocks.aclk = true) (hc : c < s.hw.physCores)
    (he : f s.work = { s.work with hw := h' }) (hs : h'.Still) (hf : h'.ab.fresh = false) : s.moves (atCore c f) = s.leads h' :=
  s.moves_still _ h' ((atCore_of c f s.work haclk hc).trans he) hs hf

/-- Settles O23: a load, a pass that feeds, a commit and a failed check, each as its command's effect on a block whose units are still. -/
theorem arrayWorkMovesOn : Obligations.ArrayWorkMovesOn := by
  unfold Obligations.ArrayWorkMovesOn
  refine ⟨fun s c l rest haclk hc hs hf hnext hheld hready hmode hbeat => ?load, fun s c p rest haclk hc hs hf hnext hfree hswap hbeat => ?feed,
    fun s c t p rest haclk hc hs hf hpasses hstart hbad hstop => ?commit, fun s c kind row col haclk hc hs hf hrun hroom hkind hrow hcol => ?check⟩
  case load =>
    have heq := s.hw.loadStart_eq s.mem c l rest hnext hheld hready hmode hbeat
    obtain ⟨hticks, hab, hstill, hctl, harr⟩ := (s.hw.elapse (s.hw.loadFree c)).beginLoad_facts s.mem c l rest
    rw [← heq] at hticks hab hstill hctl harr
    refine ⟨s.hw.loadStart s.mem c, State.moves_atCore_still s c (fun w => w.onHwMem (fun m h => h.loadStart m c)) _ haclk hc rfl
      (hstill (s.hw.still_elapse _ hs)) ((congrArg AbortState.fresh hab).trans hf), hticks, ?_⟩
    rw [harr, hticks]
    exact ⟨rfl, rfl, rfl, rfl, rfl, hctl⟩
  case feed =>
    have heq := s.hw.feedStart_eq s.mem c p rest hnext hfree hswap hbeat
    obtain ⟨hticks, hab, hstill, hctl, hactive, hfeed, hpasses, hlines⟩ := (s.hw.elapse (s.hw.feedFree c)).beginPass_facts s.mem c p rest
    rw [← heq] at hticks hab hstill hctl hactive hfeed hpasses hlines
    refine ⟨s.hw.feedStart s.mem c, State.moves_atCore_still s c (fun w => w.onHwMem (fun m h => h.feedStart m c)) _ haclk hc rfl
      (hstill (s.hw.still_elapse _ hs)) ((congrArg AbortState.fresh hab).trans hf), hticks, hactive, ?_, ?_, hlines, hctl⟩
    · rw [hfeed, hticks]
    · rw [hpasses, hactive, hticks]
      rfl
  case commit =>
    obtain ⟨hticks, hab, hstill, hrest, hdiscard, hkept⟩ := Hw.passCommit_facts hs.1 hpasses hstart hbad hstop
    exact ⟨s.hw.passCommit c, State.moves_atCore_still s c (fun w => w.onHw (·.passCommit c)) _ haclk hc rfl (hstill hs)
      ((congrArg AbortState.fresh hab).trans hf), hticks, hrest, hdiscard, hkept⟩
  case check =>
    obtain ⟨e, hcode, hdetail, hresp, heq⟩ := s.hw.arrayFault_logged c kind row col hrun hroom
    obtain ⟨hflag, hreason, hrd, honly⟩ := s.hw.checkPlaced_facts c kind row col hkind hrow hcol
    have heff : (fun w : Work => w.onHw (·.arrayFault c kind row col)) s.work =
        { s.work with hw := (s.hw.checkPlaced c kind row col).setFaultLog (s.hw.faultLog ++ [e]) } := by
      unfold Work.onHw
      dsimp only [State.work]
      rw [heq]
    refine ⟨(s.hw.checkPlaced c kind row col).setFaultLog (s.hw.faultLog ++ [e]),
      State.moves_atCore_still s c _ _ haclk hc heff (s.hw.checkFaulted_still c kind row col _ hs)
        ((congrArg AbortState.fresh (s.hw.ab_checkFaulted c kind row col _)).trans hf), ?_, ?_, ?_, ⟨e, rfl, ?_, ?_, hresp⟩, ?_⟩
    · rw [Hw.on_eq_get, Hw.get_setFaultLog, ← Hw.on_eq_get, hflag]
    · rw [Hw.get_setFaultLog, hreason]
      rfl
    · rw [Hw.rd_setFaultLog, hrd]
    · rw [Hw.get_setFaultLog, hreason, hcode]
    · rw [Hw.rd_setFaultLog, hdetail]
    · exact Hw.only_setFaultLog honly _

end Sys2Proof.Machine
end

section
/-! The tile walker at work (O34). -/

namespace Sys2Proof.Machine

namespace Hw

/-! What a change of the walker's state leaves. -/

theorem core_onMac (h : Hw) (c : Nat) (f : Macro → Macro) : (h.onMac c f).core c = { h.core c with mac := (h.core c).mac.map f } := core_onCore_same h c _

theorem arr_onMac (h : Hw) (c : Nat) (f : Macro → Macro) : (h.onMac c f).arr c = h.arr c := by
  unfold arr
  rw [core_onMac]

theorem segOf_onMac (h : Hw) (c : Nat) (f : Macro → Macro) : (h.onMac c f).segOf c = h.segOf c := by
  unfold segOf
  rw [core_onMac]

theorem get_onMac (h : Hw) (c : Nat) (f : Macro → Macro) (g : Fld) (i : Nat) : (h.onMac c f).get g i = h.get g i := rfl

theorem build_onMac (h : Hw) (c : Nat) (f : Macro → Macro) : (h.onMac c f).build = h.build := rfl

theorem ticks_onMac (h : Hw) (c : Nat) (f : Macro → Macro) : (h.onMac c f).ticks = h.ticks := rfl

theorem passOk_onMac (h : Hw) (c : Nat) (f : Macro → Macro) (p : ArrPass) : (h.onMac c f).passOk p = h.passOk p := rfl

theorem passMeets_onMac (h : Hw) (c : Nat) (f : Macro → Macro) (p : ArrPass) : (h.onMac c f).passMeets c p = h.passMeets c p := by
  have hload : loadBanks (h.onMac c f) = loadBanks h := rfl
  unfold passMeets busyBanks
  rw [arr_onMac, build_onMac, ticks_onMac, hload]

theorem queuePass_eq (h : Hw) (c opcode : Nat) (p : ArrPass) (hok : h.passOk p = true) (hmeets : h.passMeets c p = false) :
    h.queuePass c opcode p = h.onArr c (fun a => { a with passes := a.passes ++ [{ p with owner := (h.segOf c).1 }] }) := by
  unfold queuePass
  exact if_neg (by rw [hok, hmeets]; exact Bool.false_ne_true)

end Hw

/-! The walker's descriptors. -/

section
variable {c : Nat} {m : Macro} {w : Work} (hab : w.hw.ab.on = false) (hmac : (w.hw.core c).mac = some m) (hon : w.hw.on F.BB_CTRL_ENABLE c = true)

/-- The bobbin that the walker arms: operand A's, operand B's or the output's. -/
def walkerOf (h : Hw) (c which : Nat) : Nat :=
  h.get (if which == 0 then F.BB_CTRL_WALK_A else if which == 1 then F.BB_CTRL_WALK_B else F.BB_CTRL_WALK_OUT) c

include hab hon

theorem walker_may_arm (b : Nat) (hfree : w.hw.slot c b (w.hw.bobbin c b).next = none) :
    ¬ (w.hw.ab.on || (w.hw.slot c b (w.hw.bobbin c b).next).isSome || !w.hw.on F.BB_CTRL_ENABLE c) = true := by
  rw [hab, hfree, hon]
  decide

include hmac

/-- The walker arms the next output descriptor. -/
theorem walkerArm_output (runs : List (Nat × Nat)) (rest : List (List (Nat × Nat))) (houts : m.outs = runs :: rest)
    (hfree : w.hw.slot c (walkerOf w.hw c 2) (w.hw.bobbin c (walkerOf w.hw c 2)).next = none) :
    walkerArm c 2 w = w.onHw (fun h => (h.onMac c (fun m => { m with outs := rest })).arm c (walkerOf w.hw c 2) (w.hw.bobbin c (walkerOf w.hw c 2)).next
      { op := if Td.loc m.output == 1 then 9 else 3, qend := 3, runs := some runs, nearRuns := Td.loc m.output == 1 }) := by
  have hgo := walker_may_arm hab hon _ hfree
  unfold walkerOf at hgo ⊢
  unfold walkerArm
  dsimp only
  rw [hmac]
  refine (if_neg hgo).trans ((if_pos (Nat.le_refl 2)).trans ?_)
  rw [houts]

/-- The walker arms the next fetch of an operand. -/
theorem walkerArm_fetch (which n : Nat) (rest : List Nat) (p : GenPass) (hwhich : which < 2) (hfetch : (if which = 0 then m.fetchA else m.fetchB) = n :: rest)
    (hp : m.passes[n]? = some p) (hfree : w.hw.slot c (walkerOf w.hw c which) (w.hw.bobbin c (walkerOf w.hw c which)).next = none)
    (hover : stageOver w.hw c m p which = false) (hset : setFree w.hw c m p which = true) :
    walkerArm c which w = w.onHw (fun h => (h.onMac c (fun m => if which == 0 then { m with fetchA := rest } else { m with fetchB := rest })).arm c
      (walkerOf w.hw c which) (w.hw.bobbin c (walkerOf w.hw c which)).next
      { op := 0, mask := if which == 0 && Mpb.split m.mpb == 1 && 1 < m.members then Mpb.coreSet m.mpb else 0, runs := some (m.fetchRuns w.hw.build p which),
        stage := some (which, n) }) := by
  have hgo := walker_may_arm hab hon _ hfree
  have hfetch' : (if which == 0 then m.fetchA else m.fetchB) = n :: rest := by
    simpa only [beq_iff_eq] using hfetch
  unfold walkerOf at hgo ⊢
  unfold walkerArm
  dsimp only
  rw [hmac]
  refine (if_neg hgo).trans ((if_neg (Nat.not_le.mpr hwhich)).trans ?_)
  rw [hfetch']
  dsimp only
  rw [hp]
  dsimp only
  rw [if_neg (by rw [hover]; exact Bool.false_ne_true), if_neg (by rw [hset]; exact Bool.false_ne_true)]

end

/-! The walker's passes. -/

/-- The pass that the walker takes next, as the array takes it. -/
def nextArrPass (m : Macro) (c : Nat) (p : GenPass) (w : Work) : ArrPass := m.arrPass w.hw.build (spaceBytes w.hw w.mem c (some m.hoop)) p

/-- What the issue of the walker's pass leaves. -/
def Hw.passIssued (h : Hw) (c : Nat) (ap : ArrPass) : Hw :=
  (h.onMac c (fun m => { m with issued := m.issued + 1 })).onArr c (fun a => { a with passes := a.passes ++ [{ ap with owner := (h.segOf c).1 }] })

theorem walkerPass_eq (c : Nat) (m : Macro) (p : GenPass) (w : Work) (hab : w.hw.ab.on = false) (hmac : (w.hw.core c).mac = some m)
    (hp : m.passes[m.issued]? = some p) (hheld : w.hw.arrHeld c = false) (hready : m.ready p = true) (hlast : p.last = false)
    (hacc : m.tileOf p < Mpb.accBase m.mpb + Mpb.accCount m.mpb) (htile : m.tileOf p < w.hw.build.accTiles)
    (hshift : m.blank p = true ∨ shiftCheck m w.hw.build (spaceBytes w.hw w.mem c (some m.hoop)) p = 0) (hswap : (nextArrPass m c p w).swap = false)
    (hrun : w.hw.get F.CR_SEQ_STATUS_STATE c = 1) (hok : w.hw.passOk (nextArrPass m c p w) = true) (hmeets : w.hw.passMeets c (nextArrPass m c p w) = false) :
    walkerPass c w = w.onHw (fun h => h.passIssued c (nextArrPass m c p w)) := by
  have hgo : ¬ (w.hw.ab.on || w.hw.arrHeld c || !m.ready p) = true := by
    rw [hab, hheld, hready]
    decide
  have hroom : ¬ (decide (Mpb.accBase m.mpb + Mpb.accCount m.mpb ≤ m.tileOf p) || decide (w.hw.build.accTiles ≤ m.tileOf p)) = true := by
    rw [decide_eq_false (Nat.not_le.mpr hacc), decide_eq_false (Nat.not_le.mpr htile)]
    decide
  have hshifts : ¬ (!m.blank p && shiftCheck m w.hw.build (spaceBytes w.hw w.mem c (some m.hoop)) p != 0) = true := by
    rcases hshift with hb | hz
    · rw [hb]
      exact Bool.false_ne_true
    · rw [hz, bne_self_eq_false, Bool.and_false]
      exact Bool.false_ne_true
  have hqueue : (w.hw.onMac c (fun m => { m with issued := m.issued + 1 })).queuePass c 0x29 (nextArrPass m c p w) = w.hw.passIssued c (nextArrPass m c p w) := by
    rw [Hw.queuePass_eq _ c 0x29 _ ((Hw.passOk_onMac _ _ _ _).trans hok) ((Hw.passMeets_onMac _ _ _ _).trans hmeets), Hw.segOf_onMac]
    rfl
  unfold nextArrPass at hswap hqueue ⊢
  unfold walkerPass
  simp only [hmac, hp, if_neg hgo, if_neg hroom, if_neg hshifts, hlast, Bool.not_false, Bool.true_or, if_true]
  unfold Work.onHw
  simp only [hswap, Bool.false_eq_true, if_false, Hw.get_onMac, hrun, bne_self_eq_false, hqueue]

theorem Hw.passIssued_facts (h : Hw) (c : Nat) (m : Macro) (ap : ArrPass) (hmac : (h.core c).mac = some m) :
    ((h.passIssued c ap).core c).mac = some { m with issued := m.issued + 1 } ∧
    ((h.passIssued c ap).arr c).passes = (h.arr c).passes ++ [{ ap with owner := (h.segOf c).1 }] := by
  unfold passIssued
  refine ⟨?_, ?_⟩
  · unfold onArr
    rw [core_onCore_same, core_onMac, hmac]
    rfl
  · rw [arr_onArr_same, arr_onMac]

/-! The planned completion. -/

/-- What MACRO_SIGNAL leaves. -/
def Hw.macroEnded (h : Hw) (c due : Nat) : Hw := ((h.elapse due).put F.CR_MAC_STATUS_BUSY 0 c).onCore c (fun k => { k with mac := none })

theorem macroSignal_silent (c : Nat) (m : Macro) (w : Work) (hab : w.hw.ab.on = false) (hmac : (w.hw.core c).mac = some m)
    (hdone : macroDone w.hw c m = true) (hsilent : Mpb.signal m.mpb = 0xFFFF) : macroSignal c w = w.onHw (fun h => h.macroEnded c m.due) := by
  unfold macroSignal
  rw [hmac]
  dsimp only
  rw [if_neg (by rw [hab, hdone]; exact Bool.false_ne_true)]
  simp only [hsilent, BEq.rfl, if_true]
  rfl

theorem Hw.macroEnded_facts (h : Hw) (c due : Nat) : (h.macroEnded c due).ticks = max h.ticks due ∧ ((h.macroEnded c due).core c).mac = none ∧
    (h.macroEnded c due).on F.CR_MAC_STATUS_BUSY c = false ∧ onlyCores h { h.macroEnded c due with ticks := h.ticks } [(.CR_MAC_STATUS, c)] := by
  unfold macroEnded
  refine ⟨rfl, ?_, ?_, ?_⟩
  · rw [core_onCore_same]
  · exact on_put_same (h.elapse due) F.CR_MAC_STATUS_BUSY 0 c (by decide)
  · exact onlyCores_elapse (onlyCores_onCore (onlyCores_put (onlyCores_refl _ _) F.CR_MAC_STATUS_BUSY 0 c List.mem_cons_self) c _)

/-- Settles O34: the walker's fetches, outputs and passes, and its end, each as its command's effect. -/
theorem theWalkerCarriesTheMacro : Obligations.TheWalkerCarriesTheMacro := by
  unfold Obligations.TheWalkerCarriesTheMacro
  refine ⟨fun s c which n b slot m rest p haclk hc hab hf hmac hwhich hfetch hp hb hslot hfree hon hover hset => ?fetch,
    fun s c b slot m runs rest haclk hc hab hf hmac houts hb hslot hfree hon => ?output,
    fun s c m p haclk hc hab hf hmac hp hheld hready hlast hacc htile => ?pass, fun s c m haclk hc hab hf hmac hdone hsilent => ?finish⟩
  case fetch =>
    have hwalker : b = walkerOf s.hw c which := by
      rw [hb]
      unfold walkerOf
      rcases (show which = 0 ∨ which = 1 by omega) with rfl | rfl <;> rfl
    subst hslot hwalker
    refine State.moves_of (f := atCore c (walkerArm c which)) ?_ ?_
    · rw [atCore_of _ _ _ haclk hc, walkerArm_fetch (w := s.work) hab hmac hon which n rest p hwhich hfetch hp hfree hover hset]
      simp only [beq_iff_eq, Bool.and_eq_true, decide_eq_true_eq, and_assoc]
      rfl
    · exact hf
  case output =>
    subst hslot hb
    refine State.moves_of (f := atCore c (walkerArm c 2)) ?_ ?_
    · rw [atCore_of _ _ _ haclk hc, walkerArm_output (w := s.work) hab hmac hon runs rest houts hfree]
      simp only [beq_iff_eq]
      rfl
    · exact hf
  case pass =>
    intro rd ap hshift hswap hrun hok hmeets
    obtain ⟨hissued, hpasses⟩ := s.hw.passIssued_facts c m ap hmac
    refine ⟨s.hw.passIssued c ap, State.moves_of (f := atCore c (walkerPass c)) ?_ hf, hissued, hpasses, rfl⟩
    rw [atCore_of _ _ _ haclk hc, walkerPass_eq c m p s.work hab hmac hp hheld hready hlast hacc htile hshift hswap hrun hok hmeets]
    rfl
  case finish =>
    obtain ⟨hticks, hmac', hbusy, honly⟩ := s.hw.macroEnded_facts c m.due
    refine ⟨s.hw.macroEnded c m.due, State.moves_of (f := atCore c (macroSignal c)) ?_ hf, hticks, hmac', hbusy, honly⟩
    rw [atCore_of _ _ _ haclk hc, macroSignal_silent c m s.work hab hmac hdone hsilent]
    rfl

end Sys2Proof.Machine
end
